-- ==== Sys2Proof/Word.lean ====
section
/-! DEFINITION. The word types of IGX registers and memory (R11, R12). -/
namespace Sys2Proof

/-- One byte of memory (R12). -/
abbrev Byte := BitVec 8
/-- A 32-bit register or field word. -/
abbrev W32 := BitVec 32
/-- A 64-bit register, address or token. -/
abbrev W64 := BitVec 64

end Sys2Proof
end

