-- ==== Sys2Proof/Syntax.lean ====
section
/-! DEFINITION. The commands of IGX: one constructor per row of the opcode table (register accesses first), with the operands
the outside world supplies (an address, a value, the data of a response). -/
namespace Sys2Proof

/-- An instance, IGX0 or IGX1 (R1). -/
abbrev Inst := Fin 2
/-- A host port, HP0-HP3 (R73). -/
abbrev Port := Fin 4
/-- A host group (R78). -/
abbrev Group := Fin 4
/-- A station site (R28). -/
abbrev Site := Fin 12
/-- A partition (R316). -/
abbrev Part := Fin 16
/-- A DMA channel of an instance (R129). -/
abbrev Chan := Fin 256
/-- A queue index within an instance (R27). -/
abbrev Qidx := BitVec 20
/-- An island in the order of the fault word (R424). -/
abbrev Island := Fin 40

/-- Who makes a register access: the control processor, or a requester behind a host port (R63). -/
structure Acc where
  cp : Bool
  port : Port
  rid : BitVec 16
  deriving DecidableEq, Repr

/-- The base address registers of a host function (R46): BAR0 register pages, BAR2 callboard pages, BAR4 VD windows. -/
inductive Bar where
  | bar0 | bar2 | bar4
  deriving DecidableEq, Repr

/-- Where a read of a BAR begins, its length, whether every byte is enabled (R56). -/
structure ReadAt where
  off : BitVec 32
  n : Nat
  be : Bool
  deriving DecidableEq, Repr

/-- How a read, write or translation of IGX ends: well, or with one of the errors of R161, R199, R202. -/
inductive Rsp where
  | ok | ur | ca | poison | range | noc | uncorr | timeout
  deriving DecidableEq, Repr

/-- How the image accesses of a VD command end, or that the instance fails before the command ends (R389); `second`: in RESTORE's second pass. -/
inductive VdIo where
  | ends (r : Rsp)
  | cut (second : Bool)
  deriving DecidableEq, Repr

/-- Whether a VD command is cut off. -/
def VdIo.isCut : VdIo → Bool
  | .ends _ => false
  | .cut _ => true

/-- The NIF port at which a NoC response arrives, and the pressure level it brings (R155). -/
structure NifPress where
  nif : Fin 8
  level : BitVec 2
  deriving DecidableEq, Repr

/-- A NAK flit (R283, R284): the last good seq that its ack names, and the credits of the CMD and SNP channels that it returns. -/
structure NakFlit where
  seq : BitVec 12
  cmd : Byte
  snp : Byte
  deriving DecidableEq, Repr

/-- The line of a WB_DIRTY or EVICT_CLEAN with the request's attribute field (R302), whose code is the command and whose other bits change nothing
of it. -/
structure LineAttr where
  hpa : W64
  attr : W32
  deriving DecidableEq, Repr

/-- The end of a NoC read that brings no data of a DMA channel: how it ends, and what its response brings (R155). -/
structure NocEnd where
  st : Rsp
  press : NifPress
  deriving DecidableEq, Repr

/-- A context that has come from HBM, and what the last response of its read brings (R104, R155). -/
structure CtxFill where
  q : Qidx
  press : NifPress
  deriving DecidableEq, Repr

/-- One leaf that a walk of the device page tables finds: its DA base, the log2 of its page size, and its entry (R198). -/
structure Leaf where
  base : W64
  log2 : Nat
  ent : W64
  deriving DecidableEq, Repr


/-- The part of a 64-bit WO register that a write carries (R57). -/
inductive Half where
  | full (v : W64)
  | low (v : W32)
  | high (v : W32)
  deriving DecidableEq, Repr

/-- A Translation Completion: log2 of the size, translated address, rights, Global flag (R201). -/
structure HostLeaf where
  log2 : Nat
  taddr : W64
  rd : Bool
  wr : Bool
  glob : Bool
  deriving DecidableEq, Repr

/-- What an error event touched (R434), as far as IGX acts on it. -/
inductive Hit where
  | none
  | ctx (q : Nat) (dirty : Bool)     -- a line of the queue-context cache, or a context in HBM
  | cached (what : Nat)              -- an entry of the ATC, TLB, descriptor, vector or directory cache
  | hlc (line : Nat) (dirty : Bool)  -- data of a host line
  | chan (c : Nat)                   -- the data path of a channel
  | pipe (p c : Nat)                 -- a reduction pipe and the channel it worked for
  | mirror                           -- the mirror-channel buffer
  | cpSram                           -- CP SRAM
  | control                          -- control state with no copy
  | sensor                           -- a thermal-zone sensor (R426)
  | table (kind id : Nat)            -- a journal, directory or sequence table of a queue, partition or ensemble in HBM
  deriving DecidableEq, Repr

/-- An error report of R425 and R428: class, master kind and index, access type, address, detail, what was touched. -/
structure ErrReport where
  cls : Fin 3
  kind : Fin 8
  idx : BitVec 12
  access : Fin 8
  addr : W64
  detail : BitVec 31
  hit : Hit
  deriving DecidableEq, Repr

/-- What a station asks of host memory on the data link (R302): RD, WR or ATOMIC with op, width code, operand, compare value; or a
request with an invalid code. -/
inductive StOp where
  | rd (len : Nat)
  | wr (bytes : List Byte)
  | atomic (op : Fin 16) (w : Fin 4) (arg cmp : BitVec 128)
  | invalid (code : Fin 16)
  deriving DecidableEq, Repr

/-- A host request of a station: site, command slot, the station's tag, DA, operation, and the rest of its attribute field (R302):
context tag, scope, order. -/
structure StReq where
  site : Site
  slot : BitVec 6
  tag : BitVec 16
  ctag : BitVec 16
  addr : W64
  op : StOp
  scope : Fin 8
  order : Fin 4
  deriving DecidableEq, Repr

/-- The capability bits of a port's function that IGX acts on, as host configuration writes leave them (R74, R226, R264): Max Payload
Size and Max Read Request Size in bytes, the Outstanding Page Request Allocation, ID-Based Ordering enables for requests and for
completions, the completion timeout: its value code and whether it is disabled. -/
structure PortFn where
  ats : Bool
  pri : Bool
  respFail : Bool
  uprgi : Bool
  msix : Bool
  cacheEn : Bool
  relaxed : Bool
  idoReq : Bool
  idoCpl : Bool
  busMaster : Bool
  ctoOff : Bool
  ctoRange : Nat
  mps : Nat
  mrrs : Nat
  alloc : Nat
  deriving DecidableEq, Repr

/-- What the 1 ms policy step reads (R401, R402, R404): READ_VOUT in mV, READ_IOUT in mA and the set voltage in mV of each rail whose
PMBus reads succeed; the activity-model power of the hub, HBM and the peer die in W, which firmware takes from IGX's own counters. -/
structure PwrRead where
  rails : List (Option (Nat × Nat × Nat))
  hub : Nat
  hbm : Nat
  peer : Nat
  deriving DecidableEq, Repr

/-- A pool record (R418). -/
structure PoolMsg where
  epoch : Nat
  member : Nat
  share : Nat
  total : Nat
  last : List Nat
  steps : Nat
  offer : Nat
  thermal : Bool
  deriving DecidableEq, Repr

/-- A pacing notice (R420). -/
structure PaceMsg where
  seq : Nat
  member : Nat
  site : Nat
  hub : Nat
  reason : Nat
  deriving DecidableEq, Repr

/-- What the core of a control processor holds of the interrupt controller (R460): enabled sources, threshold, global mask. -/
structure CpCore where
  en : W64
  thr : BitVec 4
  mask : Bool
  deriving DecidableEq, Repr

/-- A firmware image as Ashlar finds it (R462, R463): how its read ends; its header, `magicOk` telling that its magic and its reserved fields
are right, `body` the length of its body in bytes; whether the signature and the tag verify; its digest. -/
structure ImageIn where
  st : Rsp
  magicOk : Bool
  hver : BitVec 16
  body : Nat
  type : Nat
  version : W32
  svn : BitVec 6
  keyId : Nat
  sigOk : Bool
  tagOk : Bool
  digest : Nat
  deriving DecidableEq, Repr

/-- The commands: one constructor per row of the opcode table. The comment names the rule of each (DESIGN CHOICE, log entry 4). -/
inductive Instr where
  | registerWrite (a : Acc) (bar4 : Bool) (off : BitVec 32) (data : List Byte) (be : Bool)   -- R56
  | splitReadLow (a : Acc) (bar : Bar) (r : ReadAt)   -- R58
  | txnBegin (i : Inst) (a : Acc) (v : W32)   -- R63
  | txnBind (i : Inst) (a : Acc) (v : W32)   -- R65
  | txnCommit (i : Inst) (a : Acc) (v : W32)   -- R68
  | txnRollback (i : Inst) (a : Acc) (v : W32)   -- R70
  | portCfgWrite (n : Port) (a : Acc) (v : W32)   -- R81
  | jrnlCfgWrite (i : Inst) (isSize : Bool) (a : Acc) (v : W64)   -- R81
  | attach (a : Acc) (g : Group)   -- R93
  | reattach (a : Acc) (g : Group)   -- R94
  | force (a : Acc) (g : Group)   -- R93
  | depart (a : Acc) (g : Group)   -- R93
  | detach (a : Acc) (g : Group)   -- R93
  | cbIndexedWrite (i : Inst) (a : Acc) (h : Half)   -- R99
  | vdIndexedWrite (i : Inst) (vd : BitVec 12) (a : Acc) (h : Half)   -- R391
  | ctxRead (i : Inst) (a : Acc)   -- R115
  | ctxWrite (i : Inst) (a : Acc) (vt : NocEnd)   -- R115
  | ctxEnable (i : Inst) (cp : Bool) (port : Port) (rid : BitVec 16)   -- R116
  | ctxDisable (i : Inst) (a : Acc)   -- R115
  | ctxResume (i : Inst) (a : Acc)   -- R115
  | ctxReset (i : Inst) (a : Acc)   -- R115
  | ctxPin (i : Inst) (a : Acc)   -- R112
  | ctxUnpin (i : Inst) (a : Acc)   -- R112
  | vtRead (i : Inst) (a : Acc)   -- R114
  | vtWrite (i : Inst) (a : Acc)   -- R122
  | vtBaseWrite (i : Inst) (isVt : Bool) (a : Acc) (v : W64)   -- R114
  | regIrqRearm (i : Inst) (a : Acc)   -- R121
  | haltPop (i : Inst) (a : Acc)   -- R114
  | evtValueWrite (i : Inst) (a : Acc) (v : W32)   -- R125
  | evtAdd (i : Inst) (vd : Option (BitVec 12)) (a : Acc) (v : W32)   -- R125
  | dmaEnableWrite (i : Inst) (c : Chan) (a : Acc) (en : Bool)   -- R132
  | chanCfgWrite (i : Inst) (c : Chan) (a : Acc) (v : W32)   -- R135
  | channelPause (i : Inst) (c : Chan) (a : Acc)   -- R157
  | channelUnpause (i : Inst) (c : Chan) (a : Acc)   -- R158
  | abort (i : Inst) (c : Chan) (a : Acc)   -- R159
  | clearHalt (i : Inst) (c : Chan) (a : Acc)   -- R162
  | daRange (i : Inst) (a : Acc) (lg : BitVec 6)   -- R209
  | daPartition (i : Inst) (a : Acc)   -- R209
  | hostRange (i : Inst) (a : Acc) (lg : BitVec 6)   -- R209
  | hostSpace (i : Inst) (a : Acc)   -- R209
  | hostGroup (i : Inst) (a : Acc)   -- R209
  | ptRootWrite (i : Inst) (part : Part) (a : Acc) (v : W64)   -- R218
  | winWrite (i : Inst) (part : Part) (w : Fin 16) (a : Acc) (v : W64)   -- R219
  | peerWindowWrite (i : Inst) (part : Part) (w : Fin 8) (a : Acc) (v : W64)   -- R220
  | peerInWrite (i : Inst) (part : Part) (a : Acc) (v : W32) (leaves : List Leaf)   -- R197
  | sptLoad (i : Inst) (a : Acc) (site : Fin 16) (part : Part) (leaves : List Leaf)   -- R214
  | sptUnload (i : Inst) (a : Acc) (site : Fin 16) (part : Part)   -- R214
  | rtRead (i : Inst) (a : Acc)   -- R221
  | rtWrite (i : Inst) (a : Acc)   -- R217
  | convCtlWrite (i : Inst) (a : Acc) (v : W32)   -- R221
  | hold (i : Inst) (a : Acc)   -- R236
  | release (i : Inst) (a : Acc) (leaves : List Leaf)   -- R238
  | clean (i : Inst) (a : Acc) (g : Group)   -- R279
  | drop (i : Inst) (a : Acc) (g : Group)   -- R279
  | deadSiteReadmit (i : Inst) (a : Acc) (k : Site)   -- R274
  | groupCfgWrite (i : Inst) (a : Acc) (v : W32)   -- R263
  | linkReset (k : Site) (a : Acc)   -- R314
  | stpCapRead (k : Site) (a : Acc)   -- R314
  | create (i : Inst) (a : Acc)   -- R317
  | destroy (i : Inst) (a : Acc)   -- R319
  | partRead (i : Inst) (a : Acc)   -- R348
  | define (i : Inst) (a : Acc)   -- R349
  | delete (i : Inst) (a : Acc)   -- R349
  | dirRead (i : Inst) (a : Acc)   -- R349
  | evict (i : Inst) (a : Acc)   -- R349
  | toHost (i : Inst) (a : Acc)   -- R349
  | clearDamage (i : Inst) (a : Acc)   -- R344
  | enable (i : Inst) (a : Acc)   -- R372
  | disable (i : Inst) (a : Acc)   -- R351
  | ensCancel (i : Inst) (a : Acc) (h : Half)   -- R370
  | poolCreate (i : Inst) (a : Acc)   -- R373
  | poolDestroy (i : Inst) (a : Acc)   -- R373
  | poolRead (i : Inst) (a : Acc)   -- R373
  | vdCreate (i : Inst) (a : Acc)   -- R376
  | vdDestroy (i : Inst) (a : Acc)   -- R382
  | vdRead (i : Inst) (a : Acc)   -- R392
  | curtainDown (i : Inst) (a : Acc)   -- R383
  | curtainUp (i : Inst) (a : Acc)   -- R385
  | saveState (i : Inst) (a : Acc) (data : List (List Byte)) (st : VdIo)   -- R386
  | vdRestore (i : Inst) (a : Acc) (img : List Byte) (st : VdIo)   -- R388
  | mboxSend (i : Inst) (v : BitVec 12) (a : Acc)   -- R381
  | mboxRespond (i : Inst) (a : Acc)   -- R381
  | pkgBudgetWrite (a : Acc) (v : W32)   -- R397
  | didtCfgWrite (wave : Option Inst) (a : Acc) (v : W32)   -- R410
  | fltAck (a : Acc) (v : W32)   -- R430
  | fltWordClear (a : Acc) (v : W64)   -- R431
  | fltIrqRearm (a : Acc)   -- R429
  | cfPop (a : Acc)   -- R432
  | sweep (a : Acc) (i : Inst)   -- R451
  | full (a : Acc) (i : Inst)   -- R451
  | fltInject (a : Acc) (h : Half)   -- R452
  | handover (i : Inst) (a : Acc)   -- R447
  | rejoin (i : Inst) (a : Acc)   -- R447
  | stage (i : Inst) (a : Acc) (m : ImageIn)   -- R464
  | activate (i : Inst) (a : Acc)   -- R464
  | discard (i : Inst) (a : Acc)   -- R464
  | commitSvn (i : Inst) (a : Acc)   -- R467
  | lcCmd (i : Inst) (a : Acc) (v : W32)   -- R473
  | read (a : Acc) (region : BitVec 4) (st : Rsp)   -- R481
  | writeRecord (a : Acc) (region : BitVec 4) (body : List Byte) (st : Rsp)   -- R475
  | clearLog (a : Acc)   -- R481
  | restoreFactory (a : Acc)   -- R477
  | txnCommitProcess (i : Inst) (peer : List (Part × Leaf))   -- R68
  | txnSafeWaitExpiry (i : Inst)   -- R68
  | txnTimeout (i : Inst) (tag : BitVec 4)   -- R71
  | mirrorChangeHeld (i : Inst)   -- R437
  | siteOwnerChange (k : Site)   -- R30
  | clockLost (k : Island)   -- R41
  | islandErrorPin (k : Island) (r : ErrReport)   -- R425
  | islandReportTimeout (k : Island)   -- R425
  | linkRetrainStart (p : Port)   -- R84
  | linkRetrainEnd (p : Port)   -- R85
  | retrainLimitExpiry (p : Port) (un : BitVec 8)   -- R84
  | linkDown (p : Port) (un : BitVec 8)   -- R86
  | linkUp (p : Port) (rate : Fin 8) (width : Fin 17) (cxl : Bool)   -- R82
  | perstAssert (p : Port) (un : BitVec 8)   -- R84
  | perstRelease (p : Port)   -- R496
  | flr (p : Port)   -- R84
  | d3hotEntry (p : Port)   -- R84
  | completionTimeout (p : Port) (th : BitVec 4) (tl : BitVec 10)   -- R84
  | reattachCopyDone   -- R94
  | reattachCopyFault (endOfBuf : Bool)   -- R94
  | absenceLimitExpiry (g : Group)   -- R91
  | doorbell (p : Port) (bar4 : Bool) (off : BitVec 29) (data : List Byte) (be : Bool)   -- R102
  | contextFillDone (i : Inst) (r : CtxFill)   -- R104
  | descriptorFetch (i : Inst)   -- R107
  | descriptorReadReturn (i : Inst) (q : Qidx) (data : List Byte) (r : NocEnd)   -- R108
  | aheadRetryTimer (i : Inst) (q : Qidx)   -- R108
  | aheadLimitExpiry (i : Inst) (q : Qidx)   -- R108
  | aheadPollTimer (i : Inst) (q : Qidx)   -- R108
  | aheadTimeout (i : Inst) (q : Qidx)   -- R109
  | queueDrainEnd (i : Inst) (q : Qidx)   -- R115
  | positionStart (i : Inst) (q : Qidx)   -- R130
  | descriptorStart (i : Inst) (c : Chan)   -- R138
  | dmaRequestIssue (i : Inst) (c : Chan) (write : Bool)   -- R151
  | nocReadResponse (i : Inst) (tag : BitVec 14) (data : List Byte) (st : Rsp) (press : BitVec 2)   -- R151
  | nocWriteResponse (i : Inst) (slot : BitVec 14) (st : Rsp) (press : NifPress)   -- R153
  | hostCompletion (p : Port) (th : BitVec 4) (tl : BitVec 10) (data : List Byte) (st : Rsp)   -- R151
  | hostWriteAck (i : Inst) (slot : BitVec 14)   -- R153
  | keystoneIssue (i : Inst) (c : Chan)   -- R156
  | jobEnd (i : Inst) (c : Chan)   -- R138
  | completionRecordWrite (i : Inst) (q : Qidx) (vt : NocEnd)   -- R118
  | irqTimerExpiry (i : Inst) (q : Qidx) (vt : NocEnd)   -- R123
  | vectorReadRetry (i : Inst) (vec : BitVec 16) (r : NocEnd)   -- R122
  | eventSignalApply (i : Inst) (q : Qidx)   -- R125
  | eventWake (i : Inst) (n : BitVec 12)   -- R125
  | channelDrained (i : Inst) (c : Chan)   -- R132
  | channelPaused (i : Inst) (c : Chan)   -- R157
  | channelHalted (i : Inst) (c : Chan)   -- R161
  | pressureDecay (i : Inst) (nif : Fin 8) (cls : BitVec 2)   -- R155
  | interlockGrant (i : Inst) (c : Chan)   -- R182
  | stagedPhaseB (i : Inst) (c : Chan)   -- R184
  | arrivePoll (i : Inst) (c : Chan) (k : Fin 16)   -- R188
  | arriveTimeout (i : Inst) (c : Chan)   -- R188
  | pretranslate (i : Inst) (q : Qidx)   -- R203
  | walkStart (i : Inst)   -- R199
  | walkReadResponse (i : Inst) (part : Part) (addr : W64) (ent : W64) (r : NocEnd)   -- R199
  | translationRequest (i : Inst)   -- R202
  | translationCompletion (i : Inst) (g : Group) (pasid : Option (BitVec 20)) (chunk : W64) (t : HostLeaf) (st : Rsp)   -- R202
  | atsInvalidateRequest (p : Port) (itag : Fin 32) (pasid : Option (BitVec 20)) (glob : Bool) (addr : W64) (log2 : Fin 65)   -- R209
  | invalidationAccept (i : Inst)   -- R212
  | drainTimeout (i : Inst) (e : BitVec 16)   -- R211
  | invalidationComplete (i : Inst) (e : BitVec 16) (leaves : List Leaf)   -- R210
  | siteInvAck (k : Site) (leaves : List Leaf)   -- R214
  | siteInvTimeout (k : Site) (leaves : List Leaf)   -- R214
  | rtWriteDone (i : Inst)   -- R217
  | pageRequestSend (i : Inst)   -- R226
  | prgResponse (p : Port) (pasid : Option (BitVec 20)) (idx : BitVec 9) (code : BitVec 4)   -- R227
  | prqTimeout (i : Inst) (n : Nat)   -- R230
  | accInterval (i : Inst)   -- R234
  | quiet (i : Inst) (h : Fin 8)   -- R237
  | migLimitExpiry (i : Inst) (h : Fin 8)   -- R238
  | hlcAccess (i : Inst) (st : Option StReq)   -- R266
  | stationRead (k : Site) (slot : BitVec 6) (tag ctag : BitVec 16) (addr : W64) (so : BitVec 5)   -- R269
  | stationOwn (k : Site) (slot : BitVec 6) (tag ctag : BitVec 16) (addr : W64) (so : BitVec 5)   -- R269
  | wbDirty (k : Site) (g : Group) (l : LineAttr) (data : List Byte)   -- R304
  | evictClean (k : Site) (g : Group) (l : LineAttr)   -- R304
  | cxlGo (g : Group) (hpa : W64) (shared : Bool) (data : List Byte) (poison : Bool)   -- R268
  | cxlGoTimeout (g : Group) (hpa : W64)   -- R276
  | snpInv (p : Port) (hpa : W64)   -- R271
  | snpData (p : Port) (hpa : W64)   -- R271
  | snpCur (p : Port) (hpa : W64)   -- R271
  | snpRsp (k : Site) (tag : W32) (op : Fin 4) (g : Group) (hpa : W64) (data : List Byte)   -- R304
  | homeTimeout (k : Site) (tag : W32)   -- R274
  | hlcFlushDone (i : Inst)   -- R279
  | hostFlush (k : Site) (slot : BitVec 6) (job : W32)   -- R295
  | hostFlushed (k : Site) (slot : BitVec 6)   -- R295
  | siteLinkUp (k : Site) (rate : Fin 3) (width : Fin 4)   -- R290
  | capData (k : Site) (block : List Byte)   -- R291
  | flitCrcError (k : Site) (bytes : List Byte)   -- R284
  | nak (k : Site) (n : NakFlit)   -- R284
  | laneFailure (k : Site) (dir half : Bool)   -- R310
  | siteRetrainEnd (k : Site)   -- R310
  | siteRetrainLimit (k : Site)   -- R311
  | siteLinkDown (k : Site)   -- R311
  | unknownFrame (k : Site)   -- R288
  | accept (k : Site) (slot : BitVec 6) (job : W32)   -- R293
  | commitBegin (k : Site) (slot : BitVec 6) (job : W32)   -- R294
  | commitEnd (k : Site) (slot : BitVec 6) (job : W32) (arg : W64) (marks : List Byte) (st : Rsp)   -- R295
  | preemptRsp (k : Site) (slot : BitVec 6) (job : W32) (result : Byte) (arg : W64)   -- R297
  | opDone (k : Site) (job : W32) (result code : Byte) (win : BitVec 6)   -- R300
  | cmdError (k : Site) (slot : BitVec 6) (job : W32) (code engine : Byte) (addr : W64)   -- R305
  | stateRsp (k : Site) (codes : List Byte)   -- R443
  | activity (k : Site) (counts : List W32)   -- R309
  | stationFault (k : Site) (cls : Fin 3) (code : Byte) (detail : W64)   -- R426
  | siteErr (k : Site)   -- R426
  | siteDroop (k : Site)   -- R409
  | stationAllowanceExpiry (k : Site) (slot : BitVec 6)   -- R296
  | killAllowanceExpiry (k : Site) (slot : BitVec 6)   -- R296
  | purgeTimeout (k : Site)   -- R296
  | stationDispatch (i : Inst)   -- R332
  | sliceEnd (i : Inst) (j : W32)   -- R334
  | lcPreempt (i : Inst)   -- R336
  | preemptedResume (i : Inst) (j : W32)   -- R337
  | barrierWave (i : Inst) (part : Part) (id : BitVec 12)   -- R341
  | barrierTimeout (i : Inst) (part : Part) (id : BitVec 12)   -- R340
  | didtInterval (i : Inst)   -- R342
  | sequenceIntake (i : Inst) (q : Qidx)   -- R353
  | stepCompose (i : Inst) (p : Part) (lane : Fin 12) (st : Rsp)   -- R359
  | curtainClosed (i : Inst) (v : BitVec 12)   -- R384
  | curtainLate (i : Inst) (v : BitVec 12)   -- R384
  | vdSnapshot   -- R390
  | powerPolicyStep (r : PwrRead)   -- R405
  | imonSample (raws : List (BitVec 12))   -- R401
  | ioutWarning (rail : Fin 16) (on : Bool)   -- R406
  | calCheck   -- R403
  | levelRampStep (d : Fin 13)   -- R407
  | hubDroop   -- R409
  | droopHoldExpiry (d : Fin 13)   -- R409
  | droopStormExpiry (d : Fin 13)   -- R409
  | tempUpdate (zones : List Byte)   -- R411
  | thermtrip   -- R411
  | brake   -- R412
  | brakeRelease   -- R412
  | packageBudget (v : W32)   -- R397
  | budgetSource (inBand : Bool)   -- R397
  | poolTotal (a : Option Acc) (v : W32)   -- R416
  | poolConfiguration (a : Option Acc) (v : W32)   -- R416
  | pldmSensorRead (id : BitVec 16)   -- R397
  | poolEpochEnd   -- R418
  | poolDecision (rs : List PoolMsg)   -- R419
  | poolRecordTimeout   -- R419
  | poolMailboxTick (ns : List PaceMsg)   -- R420
  | faultEvent (src : Fin 64) (r : ErrReport)   -- R427
  | graceExpiry   -- R430
  | sweepDone (passed : Bool)   -- R451
  | patrolScrub (i : Inst) (isl : Fin 16) (addr : W64) (fixed : Bool)   -- R433
  | bankFailure (i : Inst) (what : Fin 9) (n : Fin 16)   -- R450
  | heartbeatLoss (i : Inst) (sch : Bool)   -- R439
  | takeover (i : Inst)   -- R440
  | instanceResetEnd (i : Inst) (ok : Bool)   -- R446
  | mirrorLinkLost   -- R448
  | mirrorSynced   -- R435
  | handoverTimeout (i : Inst)   -- R447
  | watchdogRestart (i : Inst)   -- R457
  | watchdogWarning (i : Inst)   -- R457
  | watchdogExpiry (i : Inst)   -- R457
  | interruptTake (i : Inst) (c : CpCore)   -- R460
  | endOfInterrupt (i : Inst)   -- R460
  | wait (i : Inst) (c : CpCore)   -- R461
  | cpWake (i : Inst) (c : CpCore)   -- R461
  | housekeepingTick (i : Inst)   -- R459
  | getVersion (p : Port)   -- R468
  | getCapabilities (p : Port) (ver : Byte)   -- R468
  | negotiateAlgorithms (p : Port) (common : Bool)   -- R468
  | getDigests (p : Port)   -- R468
  | getCertificate (p : Port) (slot : BitVec 4) (off len : BitVec 16)   -- R468
  | challenge (p : Port) (slot : BitVec 4) (nonce : Nat)   -- R468
  | getMeasurements (p : Port) (idx : Byte) (sign : Bool) (slot : BitVec 4) (nonce : Nat)   -- R469
  | keyExchange (p : Port) (slot : BitVec 4) (req : BitVec 16)   -- R468
  | finish (p : Port) (sid : W32) (ok : Bool)   -- R468
  | heartbeat (p : Port) (sid : W32)   -- R468
  | keyUpdate (p : Port) (sid : W32) (op : Byte)   -- R468
  | endSession (p : Port) (sid : W32)   -- R468
  | query (p : Port) (sid : W32) (port : Byte)   -- R471
  | keyProg (p : Port) (sid : W32) (stream : Fin 9) (kset rx : Bool) (sub : Fin 3)   -- R471
  | kSetGo (p : Port) (sid : W32) (stream : Fin 9) (kset rx : Bool) (sub : Fin 3)   -- R472
  | kSetStop (p : Port) (sid : W32) (stream : Fin 9) (kset rx : Bool) (sub : Fin 3)   -- R471
  | ideCheckFailure (p : Port) (stream : Fin 9) (un : BitVec 8)   -- R472
  | flashOpDone (ok : Bool)   -- R474
  | nvInhibitLift   -- R476
  | nvInhibitTimeout   -- R476
  | recoveryImage (m : ImageIn)   -- R485
  | hubPorAssert   -- R492
  | hubPorRelease (boot en : BitVec 2) (pair : Bool)   -- R493
  | warmResetAssert   -- R492
  | warmResetRelease   -- R488
  | hbmReady   -- R493
  | bootSelftestDone (i : Inst) (ok flash : Bool)   -- R493
  | imageVerifyDone (i : Inst) (m : ImageIn)   -- R463
  | fwInitDone (i : Inst) (fixed : List (BitVec 2 × BitVec 4)) (cal : List W64)   -- R494
  | smbusArp (addr : BitVec 7)   -- R490
  | entdaa (addr : BitVec 7)   -- R490
  | i3cBroadcast   -- R490
  | configurationWrite (p : Port) (c : PortFn)   -- R264
  | mirrorLinkUp   -- R435
  | clockReturn (k : Island)   -- R402
  | droopEnd (d : Fin 13)   -- R409
  | idleFlit (k : Site) (ack : BitVec 12) (cmd snp : Byte)   -- R284
  | ptmInterval (p : Port) (t : W64)   -- R82
  | sensorRecovery   -- R426
  | partnerTagEvict (i : Inst)   -- R278
  deriving DecidableEq, Repr

end Sys2Proof
end

