-- ==== Sys2Proof/Config.lean ====
section
/-! DEFINITION. The free values: what the manual leaves open. None has a body, so no proof can see a value. -/
namespace Sys2Proof

/-- A fresh 64-bit value each time the counter `State.free` advances: tokens (R92) and every other value that
the manual leaves to IGX or does not state (DESIGN CHOICE, log entry 10). -/
opaque Config.freeValue : Nat → BitVec 64

/-- The bytes of a value the manual does not state (a data fill), one per index of one drawn value. -/
opaque Config.freeByte : Nat → Nat → BitVec 8

/-- The level at which a pin stands whose course the manual does not state, by the pin and the count of values drawn: driven low or high, or
not driven (DESIGN CHOICE, log entry 126). -/
opaque Config.freeLevel : Nat → Nat → Option Bool

/-- A free choice among `n` candidates where the manual gives no order; callers take it modulo `n`. -/
opaque Config.freeChoice : Nat → Nat

/-- The PCI-SIG vendor ID of Camgoant Microsystems (R73) (DESIGN CHOICE, log entry 158). -/
opaque Config.vendorId : BitVec 16

/-- The serial number of the hub (R73). -/
opaque Config.serial : BitVec 64

/-- The digest of Ashlar's boot ROM (R469). -/
opaque Config.romDigest : Nat

end Sys2Proof
end

