-- ==== Sys2Proof/Machine/Bits.lean ====
section
/-! DEFINITION. Bit fields and byte order (R12): fields are written [hi:lo], bit 0 least significant; every
multi-byte field of a memory structure and of a doorbell payload is little-endian. -/
namespace Sys2Proof.Machine

/-- The `w`-bit field of `n` whose lowest bit is `lo`. -/
def bits (n lo w : Nat) : Nat := (n >>> lo) % 2 ^ w

/-- Bit `k` of `n`. -/
def bitAt (n k : Nat) : Bool := (n >>> k) % 2 == 1

/-- A Boolean as the value of a one-bit field. -/
def b2n (b : Bool) : Nat := if b then 1 else 0

/-- `n` with the `w`-bit field at `lo` replaced by `v` (taken modulo 2^w). -/
def setBits (n lo w v : Nat) : Nat :=
  n % 2 ^ lo + (v % 2 ^ w) * 2 ^ lo + (n / 2 ^ (lo + w)) * 2 ^ (lo + w)

/-- The number whose fields (lowest bit, value) are given; the fields do not overlap. -/
def fields : List (Nat × Nat) → Nat
  | [] => 0
  | (lo, v) :: r => v * 2 ^ lo + fields r

/-- The little-endian number of a list of bytes. -/
def leNat : List Byte → Nat
  | [] => 0
  | b :: r => b.toNat + 256 * leNat r

/-- The `k` little-endian bytes of a number. -/
def leBytes : Nat → Nat → List Byte
  | 0, _ => []
  | k + 1, n => BitVec.ofNat 8 n :: leBytes k (n / 256)

/-- The field of `k` bytes at byte offset `off` of a memory structure. -/
def fieldAt (bs : List Byte) (off k : Nat) : Nat := leNat ((bs.drop off).take k)

/-- Two's-complement value of the low `w` bits of `n`. -/
def signed (n w : Nat) : Int :=
  let m := n % 2 ^ w
  if m < 2 ^ (w - 1) then (m : Int) else (m : Int) - 2 ^ w

/-- `x` rounded up to a multiple of `m` (`m > 0`). -/
def alignUp (x m : Nat) : Nat := (x + m - 1) / m * m

/-- `x` rounded down to a multiple of `m`. -/
def alignDown (x m : Nat) : Nat := x / m * m

/-- Whether `m` divides `x` (alignment to `m`). -/
def aligned (x m : Nat) : Bool := x % m == 0

/-- The positions of the 1 bits of `n` below `w`, rising. -/
def onesOf (n w : Nat) : List Nat := (List.range w).filter (bitAt n)

/-- The number with exactly the bits of the list set. -/
def maskOf : List Nat → Nat
  | [] => 0
  | k :: r => (2 ^ k) ||| maskOf r

/-- Saturating increment of a `w`-bit counter by `d`. -/
def satAdd (w n d : Nat) : Nat := min (n + d) (2 ^ w - 1)

end Sys2Proof.Machine
end

