-- ==== Sys2Proof/Machine/Arith.lean ====
section
/-! DEFINITION. The arithmetic of "Arithmetic on the Way" (R166, R170-R180): number formats, the wide format W,
rounding, stochastic rounding, MX blocks and the exact accumulator cell. Values are exact until the rule rounds them. -/
namespace Sys2Proof.Machine

/-- A floating-point value: NaN, an infinity, or the finite value (-1)^neg x m x 2^e. -/
inductive Fv where
  | nan
  | inf (neg : Bool)
  | fin (neg : Bool) (m : Nat) (e : Int)
  deriving DecidableEq, Repr

/-- What writing results adds to the RED counters (R172, R174, R179, R190). -/
structure RedStat where
  nan : Nat := 0
  ovf : Nat := 0
  sr : Nat := 0
  cell : Nat := 0
  deriving DecidableEq, Repr

/-- The sum of two counts. -/
def RedStat.add (a b : RedStat) : RedStat := ⟨a.nan + b.nan, a.ovf + b.ovf, a.sr + b.sr, a.cell + b.cell⟩

/-- A binary format: exponent bits, fraction bits, bias, whether the top exponent holds infinities and NaNs, and
whether only the all-ones code is NaN (E4M3). -/
structure Bf where
  eb : Nat
  fb : Nat
  bias : Nat
  ieee : Bool
  oneNan : Bool
  deriving DecidableEq, Repr

/-- The plain floating-point formats 0-4 of R166. -/
def plainFmt : Nat → Option Bf
  | 0 => some ⟨8, 23, 127, true, false⟩
  | 1 => some ⟨8, 7, 127, true, false⟩
  | 2 => some ⟨5, 10, 15, true, false⟩
  | 3 => some ⟨4, 3, 7, false, true⟩
  | 4 => some ⟨5, 2, 15, true, false⟩
  | _ => none

/-- The element format of MX formats 7-11 (R166). MXINT8 (12) is no floating-point format. -/
def mxElem : Nat → Option Bf
  | 7 => some ⟨4, 3, 7, false, true⟩
  | 8 => some ⟨5, 2, 15, true, false⟩
  | 9 => some ⟨2, 3, 1, false, false⟩
  | 10 => some ⟨3, 2, 3, false, false⟩
  | 11 => some ⟨2, 1, 1, false, false⟩
  | _ => none

/-- Whether a format code is an MX format. -/
def isMx (f : Nat) : Bool := 7 ≤ f && f ≤ 12

/-- Element width of a format in bits; a cell is 512 bits (R166). -/
def fmtBits : Nat → Nat
  | 0 => 32 | 1 => 16 | 2 => 16 | 3 => 8 | 4 => 8 | 5 => 8 | 6 => 32 | 7 => 8 | 8 => 8 | 9 => 6 | 10 => 6 | 11 => 4
  | 12 => 8 | 13 => 512 | _ => 8

/-- e_max of an MX element format (R176). -/
def mxEmax : Nat → Int
  | 7 => 8 | 8 => 15 | 9 => 2 | 10 => 4 | 11 => 2 | _ => 0

/-- Bytes of the element area of `n` elements. -/
def elemArea (f n : Nat) : Nat := n * fmtBits f / 8

/-- Offset of the MX scale area (R166). -/
def scaleOff (f n : Nat) : Nat := alignUp (elemArea f n) 64

/-- Size in bytes of an operand of `n` elements (R166). -/
def opSize (f n : Nat) : Nat := if isMx f then scaleOff f n + n / 32 else elemArea f n

/-- The largest finite code of a format, sign bit excluded (R172). -/
def Bf.maxCode (b : Bf) : Nat :=
  if b.ieee then (2 ^ b.eb - 1) * 2 ^ b.fb - 1 else if b.oneNan then 2 ^ (b.eb + b.fb) - 2 else 2 ^ (b.eb + b.fb) - 1

/-- The canonical NaN code (R172). -/
def Bf.nanCode (b : Bf) : Nat :=
  if b.oneNan then 2 ^ (b.eb + b.fb) - 1 else (2 ^ b.eb - 1) * 2 ^ b.fb + 2 ^ (b.fb - 1)

/-- The value of a code of a binary format. -/
def Bf.decode (b : Bf) (c : Nat) : Fv :=
  let neg := bitAt c (b.eb + b.fb)
  let e := bits c b.fb b.eb
  let f := bits c 0 b.fb
  if b.ieee && e == 2 ^ b.eb - 1 then (if f = 0 then .inf neg else .nan)
  else if b.oneNan && e == 2 ^ b.eb - 1 && f == 2 ^ b.fb - 1 then .nan
  else if e = 0 then .fin neg f (1 - (b.bias : Int) - b.fb)
  else .fin neg (2 ^ b.fb + f) ((e : Int) - b.bias - b.fb)

/-- Number of significant bits of a magnitude. -/
def bitLen (m : Nat) : Nat := if m = 0 then 0 else m.log2 + 1

/-- The stochastic-rounding mixer of R174. -/
def srMix (x : Nat) : Nat :=
  let x := x ^^^ (x >>> 31)
  let x := (x * 0x7FB5D329728EA185) % 2 ^ 64
  let x := x ^^^ (x >>> 27)
  let x := (x * 0x81DADEF4BC2DD44D) % 2 ^ 64
  x ^^^ (x >>> 33)

/-- The 16-bit random value of an element (R174). -/
def srBits (seed dst i : Nat) : Nat := srMix (seed ^^^ srMix ((8 * dst + i) % 2 ^ 64)) >>> 48

/-- m x 2^e rounded to a multiple of 2^q: nearest, ties to even, or with the random value `r` (R173). -/
def roundAt (m : Nat) (e q : Int) (r : Option Nat) : Nat :=
  if q ≤ e then m * 2 ^ (e - q).toNat
  else
    let k := (q - e).toNat
    let t := m / 2 ^ k
    let rem := m % 2 ^ k
    match r with
    | none => if 2 * rem > 2 ^ k || (2 * rem == 2 ^ k && t % 2 == 1) then t + 1 else t
    | some r => if rem * 65536 / 2 ^ k + r ≥ 65536 then t + 1 else t

/-- The exponent of the last place when m x 2^e is rounded to `p` significant bits, not below `qmin`. -/
def ulpAt (m : Nat) (e : Int) (p : Nat) (qmin : Int) : Int := max (e + bitLen m - p) qmin

/-- The code of a finite magnitude in a format, before the overflow rule: rounded once (R173). -/
def Bf.magCode (b : Bf) (m : Nat) (e : Int) (r : Option Nat) : Nat :=
  let qmin : Int := 1 - (b.bias : Int) - b.fb
  let q := ulpAt m e (b.fb + 1) qmin
  let t := roundAt m e q r
  if t < 2 ^ b.fb then t else ((q - qmin).toNat + 1) * 2 ^ b.fb + (t - 2 ^ b.fb)

/-- A value written in a plain format or as an MX element (`elem`), with the counts it adds (R172, R173). `infSat`:
an infinity of a cell becomes the largest finite value (R180) (DESIGN CHOICE, log entry 43). -/
def Bf.encode (b : Bf) (v : Fv) (r : Option Nat) (sat elem infSat : Bool) : Nat × RedStat :=
  let sgn (n : Bool) : Nat := b2n n * 2 ^ (b.eb + b.fb)
  match v with
  | .nan => (b.nanCode, { nan := 1 })
  | .inf n =>
    if b.ieee then
      (if infSat then (sgn n + b.maxCode, { ovf := 1 }) else (sgn n + (2 ^ b.eb - 1) * 2 ^ b.fb, {}))
    else if sat || elem || infSat then (sgn n + b.maxCode, { ovf := 1 })
    else (b.nanCode, { nan := 1 })
  | .fin n m e =>
    let c := b.magCode m e r
    let sr : Nat := b2n r.isSome
    if c ≤ b.maxCode then (sgn n + c, { sr })
    else if sat || elem then (sgn n + b.maxCode, { ovf := 1, sr })
    else if b.ieee then (sgn n + (2 ^ b.eb - 1) * 2 ^ b.fb, { ovf := 1, sr })
    else (b.nanCode, { nan := 1, ovf := 1, sr })

/-- The integer format width of codes 5 and 6. -/
def intBits (f : Nat) : Nat := if f = 5 then 8 else 32

/-- Two's-complement code of an integer in `w` bits. -/
def intCode (v : Int) (w : Nat) : Nat := (v % (2 ^ w : Int)).toNat

/-- Integer narrowing of R171: wrap with sat = 0, clamp with sat = 1. -/
def narrowInt (v : Int) (w : Nat) (sat : Bool) : Nat × RedStat :=
  let lo : Int := -(2 ^ (w - 1) : Int)
  let hi : Int := 2 ^ (w - 1) - 1
  if lo ≤ v ∧ v ≤ hi then (intCode v w, {})
  else if sat then (intCode (if v < lo then lo else hi) w, { ovf := 1 })
  else (intCode v w, { ovf := 1 })

/-- A floating-point value converted to an integer format: rounded as the descriptor states, always saturating (R172). -/
def fvToInt (v : Fv) (w : Nat) (r : Option Nat) : Nat × RedStat :=
  let lo : Int := -(2 ^ (w - 1) : Int)
  let hi : Int := 2 ^ (w - 1) - 1
  match v with
  | .nan => (0, {})
  | .inf n => (intCode (if n then lo else hi) w, { ovf := 1 })
  | .fin n m e =>
    let t : Int := roundAt m e 0 r
    let x := if n then -t else t
    let sr := b2n r.isSome
    if lo ≤ x ∧ x ≤ hi then (intCode x w, { sr })
    else (intCode (if x < lo then lo else hi) w, { ovf := 1, sr })

/-- An integer as an exact value (R175). -/
def intToFv (v : Int) : Fv := .fin (v < 0) v.natAbs 0

/-- Signed significand of a finite value at exponent `q ≤ e`. -/
def sigAt (n : Bool) (m : Nat) (e q : Int) : Int :=
  let k : Int := (m * 2 ^ (e - q).toNat : Nat)
  if n then -k else k

/-- A value rounded to nearest even in W: 48 significant bits (R170). The 11-bit exponent of W never bounds a sum of
values of the formats of R166. -/
def roundW (v : Fv) : Fv :=
  match v with
  | .fin n m e =>
    let q := e + bitLen m - 48
    if q ≤ e then v else .fin n (roundAt m e q none) q
  | v => v

/-- The exact sum of two values with the special cases of R172. -/
def addFv (a b : Fv) : Fv :=
  match a, b with
  | .nan, _ => .nan
  | _, .nan => .nan
  | .inf x, .inf y => if x = y then .inf x else .nan
  | .inf x, _ => .inf x
  | _, .inf y => .inf y
  | .fin n m e, .fin n' m' e' =>
    let q := min e e'
    let s := sigAt n m e q + sigAt n' m' e' q
    if s = 0 then .fin (n && n' && m == 0 && m' == 0) 0 q else .fin (s < 0) s.natAbs q

/-- One addition of R170: the exact sum, rounded to nearest even in W. -/
def addW (a b : Fv) : Fv := roundW (addFv a b)

/-- Exact order of two non-NaN values, with -0 below +0 (R171). -/
def leFv (a b : Fv) : Bool :=
  match a, b with
  | .inf true, _ => true
  | _, .inf false => true
  | .inf false, _ => false
  | _, .inf true => false
  | .fin n m e, .fin n' m' e' =>
    let q := min e e'
    let x := sigAt n m e q
    let y := sigAt n' m' e' q
    if x = 0 && y = 0 then (n || !n') else x ≤ y
  | _, _ => true

/-- MAX or MIN of two values; a NaN operand makes the result NaN (R171). -/
def maxMinFv (isMax : Bool) (a b : Fv) : Fv :=
  match a, b with
  | .nan, _ => .nan
  | _, .nan => .nan
  | a, b => if leFv a b then (if isMax then b else a) else (if isMax then a else b)

/-- The combining step of a normal-mode reduction: op 0 SUM, 1 MAX, 2 MIN. -/
def opFv (op : Nat) (a b : Fv) : Fv := if op = 0 then addW a b else maxMinFv (op == 1) a b

/-- The combining step over integers: exact (R171). -/
def opInt (op : Nat) (a b : Int) : Int := if op = 0 then a + b else if op = 1 then max a b else min a b

/-- A left fold over a non-empty list; the first element starts it (R170). -/
def fold1 {α : Type} (f : α → α → α) (d : α) : List α → α
  | [] => d
  | x :: r => r.foldl f x

/-- Stream bits [w*i + w - 1 : w*i] of a byte list (R147, R166). -/
def streamElem (bs : List Byte) (w i : Nat) : Nat := bits (leNat ((bs.drop (w * i / 8)).take (w / 8 + 2))) (w * i % 8) w

/-- The value of element `i` of an MX block whose elements are codes of format `f` under scale code `sc` (R176). -/
def mxValue (f sc code : Nat) : Fv :=
  if sc = 255 then .nan
  else
    let v := match mxElem f with
      | some b => b.decode code
      | none => let x := signed code 8; .fin (x < 0) x.natAbs (-6)
    match v with
    | .fin n m e => .fin n m (e + (sc : Int) - 127)
    | v => v

/-- The value of element `i` of an operand of `n` elements in format `f` (formats 0-4 and 7-12); `bs` are the operand's bytes. -/
def fvElem (f n : Nat) (bs : List Byte) (i : Nat) : Fv :=
  match plainFmt f with
  | some b => b.decode (fieldAt bs (i * (fmtBits f / 8)) (fmtBits f / 8))
  | none => mxValue f (fieldAt bs (scaleOff f n + i / 32) 1) (streamElem bs (fmtBits f) i)

/-- The integer of element `i` of an INT8 or INT32 operand. -/
def intElem (f : Nat) (bs : List Byte) (i : Nat) : Int :=
  signed (fieldAt bs (i * (intBits f / 8)) (intBits f / 8)) (intBits f)

/-- Whether a finite value is zero. -/
def Fv.isZero : Fv → Bool
  | .fin _ 0 _ => true
  | _ => false

/-- Whether a value is finite. -/
def Fv.isFin : Fv → Bool
  | .fin _ _ _ => true
  | _ => false

/-- floor(log2 |v|) of a non-zero finite value. -/
def Fv.ilog2 : Fv → Int
  | .fin _ m e => e + bitLen m - 1
  | _ => 0

/-- The scale code of an MX block (R176 steps 1-3). -/
def mxScale (f : Nat) (vs : List Fv) : Nat :=
  if vs.any fun v => !v.isFin then 255
  else if vs.all Fv.isZero then 0
  else
    let top := fold1 max (-1000) ((vs.filter fun v => !v.isZero).map Fv.ilog2)
    (max (-127) (min 127 (top - mxEmax f)) + 127).toNat

/-- One element of a block with scale code `sc`: v / 2^(sc - 127), rounded and saturated (R176). -/
def mxCode (f sc : Nat) (v : Fv) (r : Option Nat) : Nat × RedStat :=
  match v with
  | .fin n m e =>
    let e' := e - ((sc : Int) - 127)
    match mxElem f with
    | some b => b.encode (.fin n m e') r true true false
    | none =>
      let t := roundAt m e' (-6) r
      let x : Int := min t 127
      (intCode (if n then -x else x) 8, { ovf := b2n (decide (127 < t)), sr := b2n r.isSome })
  | _ => (0, {})

/-- An MX block of 32 values whose first element has R174 index `i0`: its scale code, its element codes and its counts. -/
def mxBlock (f : Nat) (vs : List Fv) (rb : Nat → Option Nat) : Nat × List Nat × RedStat :=
  let sc := mxScale f vs
  if sc = 255 then (255, vs.map fun _ => 0, { nan := 1 })
  else if vs.all Fv.isZero then (0, vs.map fun _ => 0, {})
  else
    let cs := vs.zipIdx.map fun p => mxCode f sc p.1 (rb p.2)
    (sc, cs.map Prod.fst, (cs.map Prod.snd).foldl RedStat.add {})

/-- Codes of `w` bits packed into bytes, element 0 in the lowest stream bits (R147, R166). -/
def packCodes (w : Nat) (cs : List Nat) : List Byte :=
  leBytes (cs.length * w / 8) (fields (cs.zipIdx.map fun p => (w * p.2, p.1)))

/-! ### The exact accumulator cell (R178-R180) -/

/-- An ACC320 cell: the 320-bit two's-complement integer A (held modulo 2^320), its flags and its count. -/
structure AccCell where
  acc : Nat := 0
  nan : Bool := false
  pinf : Bool := false
  ninf : Bool := false
  ovf : Bool := false
  terms : Nat := 0
  deriving DecidableEq, Repr

/-- The cell held in 64 bytes (R178). -/
def AccCell.decode (bs : List Byte) : AccCell :=
  let f := fieldAt bs 0x28 4
  ⟨fieldAt bs 0 40, bitAt f 0, bitAt f 1, bitAt f 2, bitAt f 3, fieldAt bs 0x2C 4⟩

/-- The 64 bytes of a cell (R178). -/
def AccCell.bytes (c : AccCell) : List Byte :=
  leBytes 40 c.acc ++ leBytes 4 (fields [(0, b2n c.nan), (1, b2n c.pinf), (2, b2n c.ninf), (3, b2n c.ovf)]) ++
  leBytes 4 c.terms ++ leBytes 16 0

/-- A added with a signed integer: a carry out of the 320-bit range sets ovf and keeps A modulo 2^320 (R179). -/
def AccCell.addInt (c : AccCell) (x : Int) : AccCell :=
  let s := signed c.acc 320 + x
  { c with acc := intCode s 320, ovf := c.ovf || decide (s < -(2 ^ 319 : Int)) || decide (s ≥ (2 ^ 319 : Int)) }

/-- A cell with a value added (R179). A finite value is a multiple of 2^-149. -/
def AccCell.addFv (c : AccCell) (v : Fv) : AccCell :=
  let c := { c with terms := satAdd 32 c.terms 1 }
  match v with
  | .nan => { c with nan := true }
  | .inf false => { c with pinf := true }
  | .inf true => { c with ninf := true }
  | .fin n m e => c.addInt (sigAt n m e (-149))

/-- A cell with another cell added (R179). -/
def AccCell.addCell (c d : AccCell) : AccCell :=
  let r := c.addInt (signed d.acc 320)
  { r with nan := c.nan || d.nan, pinf := c.pinf || d.pinf, ninf := c.ninf || d.ninf, ovf := r.ovf || d.ovf,
           terms := satAdd 32 c.terms d.terms }

/-- The value of a finalised cell before rounding (R180). -/
def AccCell.value (c : AccCell) : Fv :=
  if c.nan || c.ovf || (c.pinf && c.ninf) then .nan
  else if c.pinf then .inf false else if c.ninf then .inf true
  else let a := signed c.acc 320; .fin (a < 0) a.natAbs (-149)

/-- An operand of a reduction at one element. -/
inductive Opnd where
  | fv (v : Fv)
  | int (v : Int)
  | cell (c : AccCell)
  deriving DecidableEq, Repr

/-- Element `i` of an operand of `n` elements in any format. -/
def opndElem (f n : Nat) (bs : List Byte) (i : Nat) : Opnd :=
  if f = 13 then .cell (AccCell.decode ((bs.drop (64 * i)).take 64))
  else if f = 5 || f = 6 then .int (intElem f bs i)
  else .fv (fvElem f n bs i)

/-- An operand as a floating-point value (an integer exactly, R175). -/
def Opnd.toFv : Opnd → Fv
  | .fv v => v
  | .int v => intToFv v
  | .cell c => c.value

/-- A cell with an operand added. -/
def AccCell.addOpnd (c : AccCell) : Opnd → AccCell
  | .fv v => c.addFv v
  | .int v => c.addFv (intToFv v)
  | .cell d => c.addCell d

/-- A result before it is written: a value, an exact integer that narrows under R171, or a cell. -/
inductive Res where
  | fv (v : Fv) (ofCell : Bool)
  | int (v : Int)
  | cell (c : AccCell)
  deriving DecidableEq, Repr

/-- A combination at one element (R170, R171, R179): `ops` in accumulation order; in exact mode a cell, which starts
from the destination's own cell where one leads the list. The count tells whether the cell's ovf became 1, by a carry or by the flag
of an operand (R190) (DESIGN CHOICE, log entry 171). -/
def combine (exact : Bool) (op : Nat) (ops : List Opnd) (dstFmt : Nat) : Res × RedStat :=
  if exact then
    let c0 : AccCell := match ops with
      | .cell c :: _ => c
      | _ => {}
    let rest := match ops with
      | .cell _ :: r => r
      | l => l
    let c := rest.foldl AccCell.addOpnd c0
    let st : RedStat := { cell := b2n (c.ovf && !c0.ovf) }
    if dstFmt = 13 then (.cell c, st) else (.fv c.value true, st)
  else match ops with
    | .int v :: r => (.int (r.foldl (fun a o => match o with | .int b => opInt op a b | _ => a) v), {})
    | l => (.fv (fold1 (opFv op) (.fin false 0 0) (l.map Opnd.toFv)) false, {})

/-- A result written in a plain format (0-6) or as a cell: its bytes and counts (R171-R173, R180). -/
def writePlain (f : Nat) (v : Res) (r : Option Nat) (sat : Bool) : List Byte × RedStat :=
  let put (p : Nat × RedStat) : List Byte × RedStat := (leBytes (fmtBits f / 8) p.1, p.2)
  match v with
  | .cell c => (c.bytes, {})
  | .int x =>
    if f = 5 || f = 6 then put (narrowInt x (intBits f) sat)
    else match plainFmt f with
      | some b => put (b.encode (intToFv x) r sat false false)
      | none => ([], {})
  | .fv v ofCell =>
    if f = 5 || f = 6 then put (fvToInt v (intBits f) r)
    else match plainFmt f with
      | some b => put (b.encode v r sat false (ofCell && sat))
      | none => ([], {})

/-- A result as a value of an MX block. -/
def Res.toFv : Res → Fv
  | .fv v _ => v
  | .int v => intToFv v
  | .cell c => c.value

end Sys2Proof.Machine
end

