-- ==== Sys2Proof/Machine/Regs.lean ====
section
/-! DEFINITION. The register pages of IGX (R47, R50, R52, R502) and every page-specific register with its offset, width,
access and reset value, as the owning chapters' register tables give them (R14, R15). A register is kept under one
canonical address: shared pages under the IGX0 alias, a VD page under 0x1_0000_0000 + its BAR4 offset. -/
namespace Sys2Proof.Machine

/-- The page types of R52. `vd` is the VD view (VDM code, BAR4). -/
inductive Pg where
  | gen | txn | cb | qm | atu | prq | acc | hlc | red | stp | sch | ens | kva | vdm | mir | cpi | sec | tsu | dbg | dma
  | hpc | xbar | flt | pwr | thr | nvs | vd
  deriving DecidableEq, Repr

/-- A register page: its type, the instance of an instance page or VD window (0 on a shared page), its index. -/
structure PageId where
  ty : Pg
  inst : Nat
  idx : Nat
  deriving DecidableEq, Repr

/-- The page type codes of R52. -/
def Pg.code : Pg → Nat
  | .gen => 0x0001 | .txn => 0x0002 | .cb => 0x0011 | .qm => 0x0010 | .atu => 0x0014 | .prq => 0x0015 | .acc => 0x0016
  | .hlc => 0x0017 | .red => 0x0013 | .stp => 0x0018 | .sch => 0x0019 | .ens => 0x001A | .kva => 0x001B | .vdm => 0x001C
  | .mir => 0x0023 | .cpi => 0x0024 | .sec => 0x0025 | .tsu => 0x0027 | .dbg => 0x0028 | .dma => 0x0012
  | .hpc => 0x0003 | .xbar => 0x0004 | .flt => 0x0022 | .pwr => 0x0020 | .thr => 0x0021 | .nvs => 0x0026 | .vd => 0x001C

/-- Whether the page is shared by both instances (R52). -/
def Pg.shared : Pg → Bool
  | .hpc | .xbar | .flt | .pwr | .thr | .nvs => true
  | _ => false

/-- Base offset of a page type in its range (R52, R502). -/
def Pg.base : Pg → Nat
  | .gen => 0x0 | .txn => 0x1000 | .cb => 0x2000 | .qm => 0x4000 | .atu => 0x8000 | .prq => 0xC000 | .acc => 0xD000
  | .hlc => 0xE000 | .red => 0xF000 | .stp => 0x10000 | .sch => 0x18000 | .ens => 0x1A000 | .kva => 0x1B000
  | .vdm => 0x1C000 | .mir => 0x1D000 | .cpi => 0x1E000 | .sec => 0x1F000 | .tsu => 0x20000 | .dbg => 0x21000
  | .dma => 0x100000 | .hpc => 0x0 | .xbar => 0x4000 | .flt => 0x5000 | .pwr => 0x6000 | .thr => 0x7000 | .nvs => 0x8000
  | .vd => 0xF000

/-- The canonical address of a page. -/
def PageId.key (p : PageId) : Nat :=
  match p.ty with
  | .vd => 0x100000000 + 0x10000 * (4096 * p.inst + p.idx) + 0xF000
  | t => if t.shared then 0x1000000 + t.base + 0x1000 * p.idx else 0x800000 * p.inst + t.base + 0x1000 * p.idx

/-- The canonical address of the register at offset `off` of a page (DESIGN CHOICE, log entry 9). -/
def reg (t : Pg) (inst idx off : Nat) : Nat := PageId.key ⟨t, inst, idx⟩ + off

/-- The page type and index at a 4 KiB page number of an instance range (R502). -/
def instPageAt (n : Nat) : Option (Pg × Nat) :=
  if n = 0 then some (.gen, 0) else if n = 1 then some (.txn, 0) else if n = 2 then some (.cb, 0)
  else if 4 ≤ n && n < 8 then some (.qm, n - 4) else if 8 ≤ n && n < 12 then some (.atu, n - 8)
  else if n = 12 then some (.prq, 0) else if n = 13 then some (.acc, 0) else if n = 14 then some (.hlc, 0)
  else if n = 15 then some (.red, 0) else if 16 ≤ n && n < 22 then some (.stp, n - 16)
  else if 24 ≤ n && n < 26 then some (.sch, n - 24) else if n = 26 then some (.ens, 0) else if n = 27 then some (.kva, 0)
  else if n = 28 then some (.vdm, 0) else if n = 29 then some (.mir, 0) else if n = 30 then some (.cpi, 0)
  else if n = 31 then some (.sec, 0) else if n = 32 then some (.tsu, 0) else if n = 33 then some (.dbg, 0)
  else if 256 ≤ n && n < 512 then some (.dma, n - 256) else none

/-- The page type and index at a 4 KiB page number of the shared range (R502). -/
def sharedPageAt (n : Nat) : Option (Pg × Nat) :=
  if n < 4 then some (.hpc, n) else if n = 4 then some (.xbar, 0) else if n = 5 then some (.flt, 0)
  else if n = 6 then some (.pwr, 0) else if n = 7 then some (.thr, 0) else if n = 8 then some (.nvs, 0) else none

/-- The page that a BAR0 offset lies in (R47, R502), if any. -/
def bar0Page (off : Nat) : Option PageId :=
  if bitAt off 24 then (sharedPageAt (bits off 12 11)).map fun p => ⟨p.1, 0, p.2⟩
  else (instPageAt (bits off 12 11)).map fun p => ⟨p.1, bits off 23 1, p.2⟩

/-- The VD page that a BAR4 offset lies in (R50), if any. -/
def bar4Page (off : Nat) : Option PageId :=
  if bits off 12 4 = 15 && off < 0x20000000 then some ⟨.vd, bits off 28 1, bits off 16 12⟩ else none

/-- The page of a canonical register address. -/
def pageOfKey (k : Nat) : Option PageId :=
  if 0x100000000 ≤ k then bar4Page (k - 0x100000000) else if k < 0x2000000 then bar0Page k else none

/-- One row of a register table. Masks: `rw` stageable RW bits, `ns` RW bits marked not staged, `w1c` write-1-to-clear
bits, `wo` bits of a WO register or field (they read zero and act at once), `st` bits that survive warm reset. Every
other bit is RO or reserved. `cnt` registers lie `str` bytes apart from `off`; `w` is the width in bytes. -/
structure RegRow where
  name : String
  idx : Option Nat := none
  off : Nat
  cnt : Nat := 1
  str : Nat := 4
  w : Nat := 4
  rw : Nat := 0
  ns : Nat := 0
  w1c : Nat := 0
  wo : Nat := 0
  st : Nat := 0
  rst : Nat := 0
  deriving DecidableEq, Repr

/-- The page-specific registers of the GEN pages. -/
def genRows : List RegRow := [
  { name := "GEN.BLOCK_ID", off := 0x40, rst := 0x10d2a },
  { name := "GEN.INSTANCE_STATE", off := 0x44 },
  { name := "GEN.IRQ_SUMMARY", off := 0x50, w := 8 }]

/-- The page-specific registers of the TXN pages. -/
def txnRows : List RegRow := [
  { name := "TXN.BEGIN", off := 0x40, wo := 0xffffffff },
  { name := "TXN.COMMIT", off := 0x44, wo := 0xffffffff },
  { name := "TXN.ROLLBACK", off := 0x48, wo := 0xffffffff },
  { name := "TXN.OPEN_MASK", off := 0x4c },
  { name := "TXN.TIMEOUT", off := 0x50, ns := 0xffffff, rst := 0x2710 },
  { name := "TXN.SAFE_WAIT", off := 0x54, ns := 0xffff, rst := 0x64 },
  { name := "TXN.BIND", off := 0x58, wo := 0xffffffff },
  { name := "TXN.SLOT", off := 0x80, cnt := 8, str := 8, w := 8 },
  { name := "TXN.OWNER", off := 0xc0, cnt := 8, str := 4 }]

/-- The page-specific registers of the CB pages. -/
def cbRows : List RegRow := [
  { name := "CB.INDEXED", off := 0x40, w := 8, wo := 0xffffffffffffffff }]

/-- The page-specific registers of the XBAR pages; ATTACH_BUF keeps a misaligned address (R81) (DESIGN CHOICE, log entry 72). -/
def xbarRows : List RegRow := [
  { name := "XBAR.PORT_CFG", off := 0x40, cnt := 4, str := 4, ns := 0x33, rst := 0x30 },
  { name := "XBAR.GROUP_STATE", off := 0x50 },
  { name := "XBAR.ABSENT_CAUSE", off := 0x54 },
  { name := "XBAR.GROUP_CTL", off := 0x58, ns := 0xff, rst := 8 },
  { name := "XBAR.ABSENCE_LIMIT", off := 0x5c, ns := 0xffffffff },
  { name := "XBAR.TOKEN", off := 0x60, cnt := 4, str := 8, w := 8 },
  { name := "XBAR.ATTACH_TOKEN", off := 0x80, w := 8, wo := 0xffffffffffffffff },
  { name := "XBAR.ATTACH_CMD", off := 0x88, wo := 0x37 },
  { name := "XBAR.ATTACH_STATUS", off := 0x8c },
  { name := "XBAR.ATTACH_BUF", off := 0x90, w := 8, ns := 0xffffffffffffffff },
  { name := "XBAR.ATTACH_BUF_SIZE", off := 0x98, ns := 0xffffffff },
  { name := "XBAR.ATTACH_COPIED", off := 0x9c },
  { name := "XBAR.JRNL_BASE", off := 0x100, cnt := 2, str := 0x40, w := 8, ns := 0xffffffffffffffff },
  { name := "XBAR.JRNL_SIZE", off := 0x108, cnt := 2, str := 0x40, ns := 0xffffffff, rst := 0x400 },
  { name := "XBAR.JRNL_FILL", off := 0x110, cnt := 2, str := 0x40, w := 8 },
  { name := "XBAR.JRNL_RECORDS", off := 0x118, cnt := 2, str := 0x40 },
  { name := "XBAR.CB_OWNER", off := 0x200, cnt := 128, str := 4, ns := 0xffffffff }]

/-- The page-specific registers of the HPC pages. -/
def hpcRows : List RegRow := [
  { name := "HPC.LINK_STATUS", off := 0x40 },
  { name := "HPC.LINK_CTL", off := 0x44, ns := 0xf07, rst := 0xa03 },
  { name := "HPC.EVENT_COUNT", off := 0x48, st := 0xffffffff },
  { name := "HPC.CPL_TIMEOUTS", off := 0x4c },
  { name := "HPC.LAST_EVENT_TIME", off := 0x50, w := 8 },
  { name := "HPC.LAST_EVENT", off := 0x58 },
  { name := "HPC.PTM_CTL", off := 0x5c, ns := 0xff01, rst := 0xa00 },
  { name := "HPC.MSIX_TABLE.addr_lo", off := 0x800, cnt := 32, str := 0x10, ns := 0xfffffffc },
  { name := "HPC.MSIX_TABLE.addr_hi", off := 0x804, cnt := 32, str := 0x10, ns := 0xffffffff },
  { name := "HPC.MSIX_TABLE.data", off := 0x808, cnt := 32, str := 0x10, ns := 0xffffffff },
  { name := "HPC.MSIX_TABLE.ctl", off := 0x80c, cnt := 32, str := 0x10, ns := 1, rst := 1 },
  { name := "HPC.MSIX_PBA", off := 0xc00, w := 8 }]

/-- The page-specific registers of the QM pages. -/
def qmRows : List RegRow := [
  { name := "QM.CTX_SEL", idx := some 0, off := 0x40, ns := 0xfffff },
  { name := "QM.CTX_CMD", idx := some 0, off := 0x44, wo := 0xf },
  { name := "QM.CTX_STATUS", idx := some 0, off := 0x48 },
  { name := "QM.CTX_DATA0", idx := some 0, off := 0x80, w := 8, ns := 0xffffffff1fff1fff },
  { name := "QM.CTX_DATA1", idx := some 0, off := 0x88, w := 8, ns := 0xffffffffffffffc0 },
  { name := "QM.CTX_DATA2", idx := some 0, off := 0x90, w := 8, ns := 0xffffffffffffffe0 },
  { name := "QM.CTX_DATA3", idx := some 0, off := 0x98, w := 8, ns := 0x00ffffff00ffffff },
  { name := "QM.CTX_DATA4", idx := some 0, off := 0xa0, w := 8, ns := 0x00ffffff1fffffff },
  { name := "QM.CTX_DATA5", idx := some 0, off := 0xa8, w := 8, ns := 0xffffffffffffffff },
  { name := "QM.CTX_DATA6", idx := some 0, off := 0xb0, w := 8, ns := 0x0000ffff00007fff },
  { name := "QM.CTX_DATA7", idx := some 0, off := 0xb8, w := 8, ns := 0xffffffffffffffff },
  { name := "QM.DOORBELL_AHEAD", idx := some 0, off := 0xc0, rw := 0xffff, rst := 0x7d0 },
  { name := "QM.AHEAD_POLL", idx := some 0, off := 0xc4, rw := 0xff, rst := 0xa },
  { name := "QM.DEFAULT_TIMEOUT", idx := some 0, off := 0xc8, rw := 0xffff, rst := 0x64 },
  { name := "QM.CTX_BASE", idx := some 0, off := 0xd0, w := 8, ns := 0xfffffffffc000000 },
  { name := "QM.VT_BASE", idx := some 0, off := 0xd8, w := 8, ns := 0xfffffffffff00000 },
  { name := "QM.VT_SEL", idx := some 0, off := 0xe0, ns := 0xffff },
  { name := "QM.VT_CMD", idx := some 0, off := 0xe4, wo := 3 },
  { name := "QM.VT_STATUS", idx := some 0, off := 0xe8 },
  { name := "QM.VT_DATA0", idx := some 0, off := 0xf0, w := 8, ns := 0xffffffffffffffff },
  { name := "QM.VT_DATA1", idx := some 0, off := 0xf8, w := 8, ns := 0x1fffffffff },
  { name := "QM.REG_IRQ_CTL", idx := some 0, off := 0x100, rw := 0xf, wo := 0x100, rst := 0xf },
  { name := "QM.HALT_LOG", idx := some 0, off := 0x108, w := 8 },
  { name := "QM.HALT_POP", idx := some 0, off := 0x110, wo := 1 },
  { name := "QM.EVT_SEL", idx := some 1, off := 0x40, ns := 0xfff },
  { name := "QM.EVT_VALUE", idx := some 1, off := 0x44, ns := 0xffffffff },
  { name := "QM.EVT_ADD", idx := some 1, off := 0x48, wo := 0xffffffff },
  { name := "QM.EVT_OWNER", idx := some 1, off := 0x4c, ns := 0x8001ffff },
  { name := "QM.EVT_WAITERS", idx := some 1, off := 0x50 },
  { name := "QM.JOB_SEL", idx := some 2, off := 0x40, ns := 0xfff },
  { name := "QM.JOB_SUBMITTED", idx := some 2, off := 0x48, w := 8 },
  { name := "QM.JOB_COMPLETED", idx := some 2, off := 0x50, w := 8 },
  { name := "QM.JOB_FAILED", idx := some 2, off := 0x58, w := 8 },
  { name := "QM.DB_ACCEPTED", idx := some 2, off := 0x60, w := 8 },
  { name := "QM.DB_DROPPED", idx := some 2, off := 0x68, w := 8 },
  { name := "QM.DB_LAST_DROP", idx := some 2, off := 0x70, w := 8 },
  { name := "QM.CC_STATUS", idx := some 3, off := 0x40 },
  { name := "QM.CC_HITS", idx := some 3, off := 0x48, w := 8 },
  { name := "QM.CC_MISSES", idx := some 3, off := 0x50, w := 8 }]

/-- The page-specific registers of the DMA pages. -/
def dmaRows : List RegRow := [
  { name := "DMA.CHAN_CFG", off := 0x40, rw := 0xffff1ff, rst := 0x1000100 },
  { name := "DMA.CHAN_CTL", off := 0x44, ns := 1 },
  { name := "DMA.CHAN_CMD", off := 0x48, wo := 3 },
  { name := "DMA.CHAN_STATUS", off := 0x4c },
  { name := "DMA.JOB_QUEUE", off := 0x50 },
  { name := "DMA.JOB_POS", off := 0x54 },
  { name := "DMA.DESC_INDEX", off := 0x58 },
  { name := "DMA.PROG_ITER", off := 0x60, w := 8 },
  { name := "DMA.PROG_SRC", off := 0x68, w := 8 },
  { name := "DMA.PROG_DST", off := 0x70, w := 8 },
  { name := "DMA.ERR_ADDR", off := 0x80, w := 8 },
  { name := "DMA.ERR_INFO", off := 0x88 },
  { name := "DMA.ERR_POS", off := 0x8c },
  { name := "DMA.ERR_TIME", off := 0x90, w := 8 },
  { name := "DMA.BYTES_READ", off := 0xc0, w := 8 },
  { name := "DMA.BYTES_WRITTEN", off := 0xc8, w := 8 },
  { name := "DMA.JOBS_DONE", off := 0xd0, w := 8 },
  { name := "DMA.IDX_SKIPPED", off := 0xd8, w := 8 }]

/-- The page-specific registers of the RED pages. -/
def redRows : List RegRow := [
  { name := "RED.ARRIVE_CFG", off := 0x40, rw := 0xffff0fff, rst := 0x27100100 },
  { name := "RED.PIPE_STATUS", off := 0x44 },
  { name := "RED.INTERLOCK", off := 0x48 },
  { name := "RED.BEATS", off := 0x50, w := 8 },
  { name := "RED.NAN_OUT", off := 0x58, w := 8 },
  { name := "RED.OVF_OUT", off := 0x60, w := 8 },
  { name := "RED.CELL_OVF", off := 0x68, w := 8 },
  { name := "RED.SR_ROUNDED", off := 0x70, w := 8 }]

/-- The page-specific registers of the ATU pages. -/
def atuRows : List RegRow := [
  { name := "ATU.EPOCH", idx := some 0, off := 0x40 },
  { name := "ATU.INV_CMD", idx := some 0, off := 0x44, wo := 0x3f07 },
  { name := "ATU.INV_KEY", idx := some 0, off := 0x48, ns := 0xfffff7f },
  { name := "ATU.INV_STATUS", idx := some 0, off := 0x4c },
  { name := "ATU.INV_ADDR", idx := some 0, off := 0x50, w := 8, ns := 0xffffffffffffffff },
  { name := "ATU.INV_ACTIVE", idx := some 0, off := 0x58 },
  { name := "ATU.PT_ROOT", idx := some 0, off := 0x80, cnt := 16, str := 8, w := 8, ns := 0xffffffffc0001 },
  { name := "ATU.TLB_HITS", idx := some 0, off := 0x100, w := 8 },
  { name := "ATU.TLB_MISSES", idx := some 0, off := 0x108, w := 8 },
  { name := "ATU.ATC_HITS", idx := some 0, off := 0x110, w := 8 },
  { name := "ATU.ATC_MISSES", idx := some 0, off := 0x118, w := 8 },
  { name := "ATU.ATS_REQUESTS", idx := some 0, off := 0x120, w := 8 },
  { name := "ATU.INVALIDATIONS", idx := some 0, off := 0x128, w := 8 },
  { name := "ATU.RETRANSLATIONS", idx := some 0, off := 0x130, w := 8 },
  { name := "ATU.STALE_HALTS", idx := some 0, off := 0x138, w := 8 },
  { name := "ATU.WIN", idx := some 1, off := 0x800, cnt := 256, str := 8, w := 8, rw := 0xffffffffffe03f7f },
  { name := "ATU.PKG_NUM", idx := some 2, off := 0x40, ns := 7 },
  { name := "ATU.SPT_CMD", idx := some 2, off := 0x44, wo := 0xff03 },
  { name := "ATU.SPT_STATUS", idx := some 2, off := 0x48 },
  { name := "ATU.SPT_BASE", idx := some 2, off := 0x50, w := 8, ns := 0xffffffc000000 },
  { name := "ATU.SPT_LEN", idx := some 2, off := 0x58, ns := 0xffffff },
  { name := "ATU.SPT_USED", idx := some 2, off := 0x60, cnt := 12, str := 4 },
  { name := "ATU.PEER_IN", idx := some 2, off := 0x100, cnt := 16, str := 4, rw := 0x1ff },
  { name := "ATU.PEER", idx := some 2, off := 0x400, cnt := 128, str := 8, w := 8, rw := 0x3f0f77 },
  { name := "ATU.RT_SEL", idx := some 3, off := 0x40, ns := 0xff },
  { name := "ATU.RT_CMD", idx := some 3, off := 0x44, wo := 3 },
  { name := "ATU.RT_STATUS", idx := some 3, off := 0x48 },
  { name := "ATU.RT_DATA0", idx := some 3, off := 0x50, w := 8, ns := 0xffff1f },
  { name := "ATU.RT_DATA1", idx := some 3, off := 0x58, w := 8, ns := 0x1fff1fff },
  { name := "ATU.CONV_IN", idx := some 3, off := 0x80, w := 8, ns := 0xffffffffffffffff },
  { name := "ATU.CONV_CTL", idx := some 3, off := 0x88, wo := 0xf31 },
  { name := "ATU.CONV_OUT", idx := some 3, off := 0x90, w := 8 },
  { name := "ATU.CONV_STATUS", idx := some 3, off := 0x98 },
  { name := "ATU.RT_REJECTS", idx := some 3, off := 0xa0, w := 8 }]

/-- The page-specific registers of the PRQ pages. -/
def prqRows : List RegRow := [
  { name := "PRQ.CTL", off := 0x40, rw := 0xffff, rst := 0xffff },
  { name := "PRQ.TIMEOUT", off := 0x44, rw := 0xffff, rst := 0x3e8 },
  { name := "PRQ.STATUS", off := 0x48 },
  { name := "PRQ.WAITERS", off := 0x4c },
  { name := "PRQ.SENT", off := 0x50, w := 8 },
  { name := "PRQ.COALESCED", off := 0x58, w := 8 },
  { name := "PRQ.FAILED", off := 0x60, w := 8 },
  { name := "PRQ.TIMEOUTS", off := 0x68, w := 8 },
  { name := "PRQ.LAST_ADDR", off := 0x70, w := 8 },
  { name := "PRQ.LAST_INFO", off := 0x78 }]

/-- The page-specific registers of the ACC pages (DEDUCED, log entry 54). -/
def accRows : List RegRow := [
  { name := "ACC.CTL", off := 0x40, rw := 0xffff00f3, rst := 0x3e80000 },
  { name := "ACC.DEV_THRESH", off := 0x44, rw := 0xffffff, rst := 0x4000 },
  { name := "ACC.HOST_THRESH", off := 0x48, rw := 0xffffff, rst := 0x2000 },
  { name := "ACC.RPT_BASE", off := 0x50, w := 8, rw := 0xfffffffffffff000 },
  { name := "ACC.RPT_SIZE", off := 0x58, rw := 0x1f, rst := 0xa },
  { name := "ACC.RPT_HEAD", off := 0x5c, ns := 0xffff },
  { name := "ACC.RPT_TAIL", off := 0x60 },
  { name := "ACC.RPT_SEQ", off := 0x64 },
  { name := "ACC.RPT_DROPPED", off := 0x68, w := 8 },
  { name := "ACC.ENTRIES", off := 0x70 },
  { name := "ACC.MIG_SEL", off := 0x100, ns := 7 },
  { name := "ACC.MIG_CMD", off := 0x104, wo := 3 },
  { name := "ACC.MIG_KEY", off := 0x108, ns := 0xfffff7f1 },
  { name := "ACC.MIG_STATUS", off := 0x10c },
  { name := "ACC.MIG_ADDR", off := 0x110, w := 8, ns := 0xffffffffffffffff },
  { name := "ACC.MIG_SIZE", off := 0x118, ns := 0x9fffff3f },
  { name := "ACC.MIG_LIMIT", off := 0x11c, rw := 0xffffff, rst := 0x2710 }]

/-- The page-specific registers of the HLC pages. -/
def hlcRows : List RegRow := [
  { name := "HLC.GROUP_CFG", off := 0x40, ns := 0xf },
  { name := "HLC.HOME_TIMEOUT", off := 0x44, rw := 0x3f, rst := 4 },
  { name := "HLC.CACHE_PORT", off := 0x48 },
  { name := "HLC.FLUSH_CMD", off := 0x4c, wo := 0x33 },
  { name := "HLC.FLUSH_STATUS", off := 0x50 },
  { name := "HLC.LINES", off := 0x54 },
  { name := "HLC.DIRTY", off := 0x58 },
  { name := "HLC.DEAD_SITES", off := 0x5c, w1c := 0xfff },
  { name := "HLC.HITS", off := 0x60, w := 8 },
  { name := "HLC.MISSES", off := 0x68, w := 8 },
  { name := "HLC.HOST_SNOOPS", off := 0x70, w := 8 },
  { name := "HLC.RING_SNOOPS", off := 0x78, w := 8 },
  { name := "HLC.POISONED", off := 0x80, w := 8 },
  { name := "HLC.LOST_LINES", off := 0x88, w := 8 },
  { name := "HLC.LAST_POISON", off := 0x90, w := 8 }]

/-- The page-specific registers of the STP pages. -/
def stpRows : List RegRow := [
  { name := "STP.LINK_STATUS", off := 0x40 },
  { name := "STP.LINK_CTL", off := 0x44, rw := 0xff0003, rst := 0x140002 },
  { name := "STP.CMD", off := 0x48, wo := 3 },
  { name := "STP.USE", off := 0x4c },
  { name := "STP.ACT_CTL", off := 0x50, rw := 0xff, rst := 0xa },
  { name := "STP.ERR_INFO", off := 0x58 },
  { name := "STP.ERR_ADDR", off := 0x60, w := 8 },
  { name := "STP.FAULT_INFO", off := 0x68 },
  { name := "STP.CRC_ERRORS", off := 0x70, w := 8 },
  { name := "STP.REPLAYS", off := 0x78, w := 8 },
  { name := "STP.CAP", off := 0x80, cnt := 8, str := 8, w := 8 },
  { name := "STP.ACT", off := 0xc0, cnt := 8, str := 8, w := 8 },
  { name := "STP.RETRAINS", off := 0x100, st := 0xffffffff }]

/-- The page-specific registers of the SCH pages. -/
def schRows : List RegRow := [
  { name := "SCH.PART_SEL", idx := some 0, off := 0x40, ns := 0xf },
  { name := "SCH.PART_CMD", idx := some 0, off := 0x44, wo := 3 },
  { name := "SCH.PART_STATUS", idx := some 0, off := 0x48 },
  { name := "SCH.PART_SITES", idx := some 0, off := 0x4c, ns := 0xfff },
  { name := "SCH.PART_WINGS_BASE", idx := some 0, off := 0x50, w := 8, ns := 0xffffffc000000 },
  { name := "SCH.PART_WINGS_SIZE", idx := some 0, off := 0x58, ns := 0xffff },
  { name := "SCH.SLICE", idx := some 0, off := 0x80, cnt := 16, str := 4, rw := 0xffff, rst := 0x3e8 },
  { name := "SCH.WAVE_CFG", idx := some 0, off := 0xc0, rw := 0xffff000f, rst := 0xc80008 },
  { name := "SCH.DIDT_BUDGET", idx := some 0, off := 0xc4, rw := 0xfff, rst := 0x180 },
  { name := "SCH.BARRIER_LIMIT", idx := some 0, off := 0xc8, rw := 0xffffff, rst := 0x3e8 },
  { name := "SCH.DISPATCHED", idx := some 0, off := 0x100, w := 8 },
  { name := "SCH.KILLS", idx := some 0, off := 0x108, w := 8 },
  { name := "SCH.SAVES", idx := some 0, off := 0x110, w := 8 },
  { name := "SCH.OVERRUNS", idx := some 0, off := 0x118, w := 8 },
  { name := "SCH.OVERRUN_US", idx := some 0, off := 0x120, w := 8 },
  { name := "SCH.TEARDOWNS", idx := some 0, off := 0x128, w := 8 },
  { name := "SCH.DEBT_DROPPED", idx := some 0, off := 0x130, w := 8 },
  { name := "SCH.SITE_USE", idx := some 0, off := 0x140, cnt := 12, str := 4 },
  { name := "SCH.DIR_BASE", idx := some 1, off := 0x40, w := 8, ns := 0xffffffffffc00000 },
  { name := "SCH.DIR_SEL", idx := some 1, off := 0x48, ns := 0xffff },
  { name := "SCH.DIR_CMD", idx := some 1, off := 0x4c, wo := 7 },
  { name := "SCH.DIR_STATUS", idx := some 1, off := 0x50 },
  { name := "SCH.DIR_DATA0", idx := some 1, off := 0x58, w := 8, ns := 0x11fff0f },
  { name := "SCH.DIR_DATA1", idx := some 1, off := 0x60, w := 8, ns := 0xfffffffffffc0 },
  { name := "SCH.DIR_DATA2", idx := some 1, off := 0x68, w := 8 },
  { name := "SCH.SPILL_CHAN", idx := some 1, off := 0x70, ns := 0x800000ff },
  { name := "SCH.DIR_USE", idx := some 1, off := 0x74 },
  { name := "SCH.FILL_BYTES", idx := some 1, off := 0x80, w := 8 },
  { name := "SCH.SPILL_BYTES", idx := some 1, off := 0x88, w := 8 },
  { name := "SCH.HOST_BYTES", idx := some 1, off := 0x90, w := 8 }]

/-- The page-specific registers of the ENS pages. -/
def ensRows : List RegRow := [
  { name := "ENS.SEL", off := 0x40, ns := 0xf },
  { name := "ENS.CMD", off := 0x44, wo := 3 },
  { name := "ENS.STATUS", off := 0x48 },
  { name := "ENS.SEQ_BASE", off := 0x50, w := 8, ns := 0xffffffffffc00000 },
  { name := "ENS.CANCEL", off := 0x58, w := 8, wo := 0xffffff001fffff },
  { name := "ENS.CANCEL_STATUS", off := 0x60 },
  { name := "ENS.SEQS", off := 0x68, w := 8 },
  { name := "ENS.STEPS", off := 0x70, w := 8 },
  { name := "ENS.DECODE_TOKENS", off := 0x78, w := 8 },
  { name := "ENS.PREFILL_TOKENS", off := 0x80, w := 8 },
  { name := "ENS.RECOMPUTES", off := 0x88, w := 8 },
  { name := "ENS.STEP_FAILS", off := 0x90, w := 8 },
  { name := "ENS.CTL", off := 0x400, cnt := 16, str := 0x40, rw := 0xf0f, rst := 0x100 },
  { name := "ENS.BUDGET", off := 0x404, cnt := 16, str := 0x40, rw := 0x3ffffff, rst := 0x1000200 },
  { name := "ENS.CHUNK", off := 0x408, cnt := 16, str := 0x40, rw := 0xffffff, rst := 0x100200 },
  { name := "ENS.MC_TARGET", off := 0x40c, cnt := 16, str := 0x40, rw := 0xffffffff },
  { name := "ENS.WEIGHT_BYTES", off := 0x410, cnt := 16, str := 0x40, w := 8, rw := 0xffffffffffffffff },
  { name := "ENS.LIMITS", off := 0x418, cnt := 16, str := 0x40, rw := 0xff1ffff, rst := 0x801000 },
  { name := "ENS.STEP_CFG", off := 0x41c, cnt := 16, str := 0x40, rw := 0x1fffffff, rst := 0x3e8 },
  { name := "ENS.PROGRAM", off := 0x420, cnt := 16, str := 0x40, w := 8, rw := 0xfffffffffffff },
  { name := "ENS.PROG_CFG", off := 0x428, cnt := 16, str := 0x40, rw := 0x1ffffff },
  { name := "ENS.BATCH_DA", off := 0x430, cnt := 16, str := 0x40, w := 8, rw := 0xfffffffff0000 },
  { name := "ENS.HANDLE1", off := 0x804, cnt := 16, str := 0x20, rw := 0x300ffff },
  { name := "ENS.HANDLE2", off := 0x808, cnt := 16, str := 0x20, rw := 0x300ffff },
  { name := "ENS.HANDLE3", off := 0x80c, cnt := 16, str := 0x20, rw := 0x300ffff },
  { name := "ENS.HANDLE4", off := 0x810, cnt := 16, str := 0x20, rw := 0x300ffff },
  { name := "ENS.HANDLE5", off := 0x814, cnt := 16, str := 0x20, rw := 0x300ffff },
  { name := "ENS.HANDLE6", off := 0x818, cnt := 16, str := 0x20, rw := 0x300ffff },
  { name := "ENS.HANDLE7", off := 0x81c, cnt := 16, str := 0x20, rw := 0x300ffff }]

/-- The page-specific registers of the KVA pages. -/
def kvaRows : List RegRow := [
  { name := "KVA.POOL_SEL", off := 0x40, ns := 0xf },
  { name := "KVA.POOL_CMD", off := 0x44, wo := 3 },
  { name := "KVA.POOL_STATUS", off := 0x48 },
  { name := "KVA.POOL_BASE", off := 0x50, w := 8, ns := 0xfffffffff0000 },
  { name := "KVA.POOL_CFG", off := 0x58, ns := 0xffff0f1f },
  { name := "KVA.POOL_BLOCKS", off := 0x5c, ns := 0x7fffff },
  { name := "KVA.BT_DA", off := 0x60, w := 8, ns := 0xffffffffff000 },
  { name := "KVA.BT_CFG", off := 0x68, ns := 0x1f1f },
  { name := "KVA.RESERVE", off := 0x6c, ns := 0x7fffff },
  { name := "KVA.FREE", off := 0x70 },
  { name := "KVA.TABLES_FREE", off := 0x74 },
  { name := "KVA.LOW_WATER", off := 0x78 },
  { name := "KVA.STACK_BASE", off := 0x80, w := 8, ns := 0xfffffffff0000000 },
  { name := "KVA.ALLOCS", off := 0x88, w := 8 },
  { name := "KVA.FREES", off := 0x90, w := 8 }]

/-- The page-specific registers of the VD pages. -/
def vdRows : List RegRow := [
  { name := "VD.INDEXED", off := 0x40, w := 8, wo := 0xffffffffffffffff },
  { name := "VD.INFO", off := 0x48 },
  { name := "VD.QUEUES", off := 0x4c },
  { name := "VD.COUNTS", off := 0x50 },
  { name := "VD.EVT_SEL", off := 0x58, ns := 0xfff },
  { name := "VD.EVT_VALUE", off := 0x5c },
  { name := "VD.EVT_ADD", off := 0x60, wo := 0xffffffff },
  { name := "VD.SNAP_TIME", off := 0x68, w := 8 },
  { name := "VD.JOB_SUBMITTED", off := 0x70, w := 8 },
  { name := "VD.JOB_COMPLETED", off := 0x78, w := 8 },
  { name := "VD.JOB_FAILED", off := 0x80, w := 8 },
  { name := "VD.DB_DROPPED", off := 0x88, w := 8 },
  { name := "VD.LAST_DROP", off := 0x90, w := 8 },
  { name := "VD.LAST_ERROR", off := 0x98, w := 8 },
  { name := "VD.THROTTLE", off := 0xa0 },
  { name := "VD.THROTTLE_MS", off := 0xa8, w := 8 },
  { name := "VD.MBOX_REQ", off := 0xc0, cnt := 8, str := 8, w := 8, ns := 0xffffffffffffffff },
  { name := "VD.MBOX_RSP", off := 0x100, cnt := 8, str := 8, w := 8 },
  { name := "VD.MBOX_CTL", off := 0x140, wo := 1 }]

/-- The page-specific registers of the VDM pages. -/
def vdmRows : List RegRow := [
  { name := "VDM.SEL", off := 0x40, ns := 0xfff },
  { name := "VDM.CMD", off := 0x44, wo := 7 },
  { name := "VDM.STATUS", off := 0x48 },
  { name := "VDM.CFG0", off := 0x50, w := 8, ns := 0xfff0fffff3f },
  { name := "VDM.CFG1", off := 0x58, w := 8, ns := 0x1fffff000fffff },
  { name := "VDM.CFG2", off := 0x60, w := 8, ns := 0x1ffff0000ffff },
  { name := "VDM.CFG3", off := 0x68, w := 8, ns := 0xffff1fff0fff },
  { name := "VDM.CFG4", off := 0x70, w := 8, ns := 0x1ff1fff1fff },
  { name := "VDM.IMG_ADDR", off := 0x78, w := 8, ns := 0xffffffffffffffff },
  { name := "VDM.IMG_CTL", off := 0x80, ns := 0x31 },
  { name := "VDM.IMG_SIZE", off := 0x84, ns := 0xffffffff },
  { name := "VDM.IMG_NEED", off := 0x88, w := 8 },
  { name := "VDM.CURTAIN_LIMIT", off := 0x90, ns := 0xffffff, rst := 0x2710 },
  { name := "VDM.MBOX_NEXT", off := 0x94 },
  { name := "VDM.MBOX_REQ", off := 0xc0, cnt := 8, str := 8, w := 8 },
  { name := "VDM.MBOX_RSP", off := 0x100, cnt := 8, str := 8, w := 8, ns := 0xffffffffffffffff },
  { name := "VDM.MBOX_CMD", off := 0x140, wo := 1 }]

/-- The page-specific registers of the PWR pages. -/
def pwrRows : List RegRow := [
  { name := "PWR.BUDGET_CTL", off := 0x40, ns := 1, st := 0x100, rst := 0x100 },
  { name := "PWR.PKG_BUDGET", off := 0x44, ns := 0xfff, st := 0xffffffff, rst := 0x320 },
  { name := "PWR.BUDGET_NOW", off := 0x48, rst := 0x320 },
  { name := "PWR.USER_LIMIT", off := 0x4c, ns := 0xfff },
  { name := "PWR.SPLIT", off := 0x50, ns := 0x3fffffff, rst := 0xb40f0fa },
  { name := "PWR.SITE_IDLE", off := 0x54, ns := 0xff, rst := 0xa },
  { name := "PWR.WEIGHT", off := 0x58, cnt := 3, str := 4, ns := 0xffffffff, rst := 0x10101010 },
  { name := "PWR.RAMP", off := 0x64, ns := 0xffff, rst := 0x64 },
  { name := "PWR.FAST_LIMIT", off := 0x68, ns := 0xff00ff, rst := 0x64000a },
  { name := "PWR.DIDT_CFG", off := 0x6c, ns := 0xfff0fff, rst := 0xfa01e0 },
  { name := "PWR.DROOP_CFG", off := 0x70, ns := 0xffffff, rst := 0x1e0064 },
  { name := "PWR.FIXED_SEL", off := 0x74, ns := 0x1f },
  { name := "PWR.FIXED_DATA", off := 0x78 },
  { name := "PWR.PKG_POWER", off := 0x80 },
  { name := "PWR.PKG_ENERGY", off := 0x88, w := 8 },
  { name := "PWR.DOM_POWER", off := 0x90, w := 8 },
  { name := "PWR.HUB_LEVEL", off := 0x98 },
  { name := "PWR.SITE_LEVEL", off := 0xa0, w := 8 },
  { name := "PWR.SITE_POWER", off := 0xc0, cnt := 12, str := 4 },
  { name := "PWR.RAIL", off := 0x100, cnt := 16, str := 8, w := 8, ns := 0xfff1fff7fff },
  { name := "PWR.CAL", off := 0x180, cnt := 8, str := 8, w := 8, ns := 0xffffffffffff, st := 0xffffffffffffffff, rst := 0x10000 },
  { name := "PWR.CAL_CTL", off := 0x1c0, ns := 0xffffff, rst := 0x6414 },
  { name := "PWR.CAL_STATUS", off := 0x1c4, w1c := 0xff },
  { name := "PWR.MODEL_SEL", off := 0x1c8, ns := 0xf },
  { name := "PWR.MODEL0", off := 0x1d0, w := 8, ns := 0xffffffffffffffff },
  { name := "PWR.MODEL1", off := 0x1d8, ns := 0xfff },
  { name := "PWR.POOL_CFG", off := 0x200, ns := 0xff0fff01, rst := 0xa000000 },
  { name := "PWR.POOL_TOTAL", off := 0x204, ns := 0xffff },
  { name := "PWR.POOL_STEP", off := 0x208, ns := 0xffffff, rst := 0x805 },
  { name := "PWR.POOL_WIN", off := 0x20c, ns := 0x77777777 },
  { name := "PWR.POOL_MBOX", off := 0x210, w := 8, ns := 0xffffffffff000 },
  { name := "PWR.POOL_SHARE", off := 0x218 },
  { name := "PWR.POOL_EPOCH", off := 0x21c },
  { name := "PWR.POOL_LATE", off := 0x220, w := 8 }]

/-- The page-specific registers of the THR pages. -/
def thrRows : List RegRow := [
  { name := "THR.ACTIVE", off := 0x40, rst := 1 },
  { name := "THR.ALERT", off := 0x44, w1c := 0x3f },
  { name := "THR.ALERT_MASK", off := 0x48, ns := 0x7f },
  { name := "THR.HUB_REASON", off := 0x4c },
  { name := "THR.SITE_REASON", off := 0x50, w := 8 },
  { name := "THR.THERM_CFG", off := 0x58, ns := 0xffff, rst := 0x73695f },
  { name := "THR.DROOP_HOLD", off := 0x5c, ns := 0xffff, rst := 0x100a },
  { name := "THR.TEMP", off := 0x60, w := 8 },
  { name := "THR.DROOP_EVENTS", off := 0x68, w := 8 },
  { name := "THR.BRAKE_CFG", off := 0x70, ns := 0xffff, rst := 0x64 },
  { name := "THR.LAST", off := 0x78, w := 8 },
  { name := "THR.DUR", off := 0x80, cnt := 10, str := 8, w := 8 }]

/-- The page-specific registers of the FLT pages. -/
def fltRows : List RegRow := [
  { name := "FLT.WORD", off := 0x40, w := 8, w1c := 0xffffffffffffffff, st := 0xffffffffffffffff },
  { name := "FLT.UCE", off := 0x48, w := 8 },
  { name := "FLT.FATAL", off := 0x50, w := 8 },
  { name := "FLT.PIN_MASK", off := 0x58, w := 8, ns := 0xffffffffffffffff, st := 0xffffffffffffffff },
  { name := "FLT.IRQ_CTL", off := 0x60, ns := 0xf, wo := 0x100, rst := 0xf },
  { name := "FLT.GRACE", off := 0x64, ns := 0xffff, st := 0xffffffff, rst := 0xc8 },
  { name := "FLT.ESCALATE", off := 0x68, ns := 3, st := 0xffffffff, rst := 3 },
  { name := "FLT.INCIDENT", off := 0x6c },
  { name := "FLT.ACK", off := 0x70, wo := 0xffff },
  { name := "FLT.FIRST_SRC", off := 0x80 },
  { name := "FLT.FIRST_MASTER", off := 0x84 },
  { name := "FLT.FIRST_ADDR", off := 0x88, w := 8 },
  { name := "FLT.FIRST_TIME", off := 0x90, w := 8 },
  { name := "FLT.FIRST_DETAIL", off := 0x98 },
  { name := "FLT.MERGED", off := 0x9c },
  { name := "FLT.CE_COUNT", off := 0xa0, w := 8, st := 0xffffffffffffffff },
  { name := "FLT.CF_LOG0", off := 0xa8, w := 8 },
  { name := "FLT.CF_LOG1", off := 0xb0, w := 8 },
  { name := "FLT.CF_POP", off := 0xb8, wo := 1 },
  { name := "FLT.BIST_CMD", off := 0xc0, wo := 0x13 },
  { name := "FLT.BIST_STATUS", off := 0xc4 },
  { name := "FLT.DEGRADED", off := 0xc8, st := 0xffffffff },
  { name := "FLT.INJECT", off := 0xd0, w := 8, wo := 0xffffffffffffffff },
  { name := "FLT.MODE", off := 0xd8 }]

/-- The page-specific registers of the MIR pages. -/
def mirRows : List RegRow := [
  { name := "MIR.STATUS", off := 0x40 },
  { name := "MIR.CMD", off := 0x44, wo := 3 },
  { name := "MIR.CMD_STATUS", off := 0x48 },
  { name := "MIR.RECORDS", off := 0x50, w := 8 },
  { name := "MIR.LAST_TAKEOVER", off := 0x58, w := 8 },
  { name := "MIR.TAKEOVER_TIME", off := 0x60 }]

/-- The page-specific registers of the CPI pages. -/
def cpiRows : List RegRow := [
  { name := "CPI.FW_STATE", off := 0x40 },
  { name := "CPI.FW_VERSION", off := 0x44 },
  { name := "CPI.FW_SVN", off := 0x48 },
  { name := "CPI.RUN_PRIO", off := 0x4c },
  { name := "CPI.UPD_ADDR", off := 0x50, w := 8, ns := 0xffffffffffffffff },
  { name := "CPI.UPD_SIZE", off := 0x58, ns := 0xffffffff },
  { name := "CPI.UPD_CTL", off := 0x5c, ns := 0x31 },
  { name := "CPI.UPD_CMD", off := 0x60, wo := 7 },
  { name := "CPI.UPD_STATUS", off := 0x64 },
  { name := "CPI.WDOG_MAX", off := 0x68 }]

/-- The page-specific registers of the SEC pages. -/
def secRows : List RegRow := [
  { name := "SEC.LIFECYCLE", off := 0x40 },
  { name := "SEC.LC_CMD", off := 0x44, wo := 0xffffffff },
  { name := "SEC.FUSE_SVN", off := 0x48 },
  { name := "SEC.SPDM_STATUS", off := 0x4c },
  { name := "SEC.IDE_PORT", off := 0x50, cnt := 4, str := 8, w := 8 },
  { name := "SEC.IDE_FAILS", off := 0x70, w := 8 },
  { name := "SEC.SPDM_ERRORS", off := 0x78, w := 8 }]

/-- The page-specific registers of the NVS pages. -/
def nvsRows : List RegRow := [
  { name := "NVS.CMD", off := 0x40, wo := 0xf07 },
  { name := "NVS.STATUS", off := 0x44 },
  { name := "NVS.OFFSET", off := 0x48, ns := 0xffffff },
  { name := "NVS.LENGTH", off := 0x4c, ns := 0x1ffff },
  { name := "NVS.BUF_ADDR", off := 0x50, w := 8, ns := 0xffffffffffffffff },
  { name := "NVS.BUF_CTL", off := 0x58, ns := 0x31 },
  { name := "NVS.CONFIRM", off := 0x5c, wo := 0xffffffff },
  { name := "NVS.LOG_COUNT", off := 0x60 },
  { name := "NVS.LOG_NEXT", off := 0x64 },
  { name := "NVS.INHIBITS", off := 0x68, w := 8 },
  { name := "NVS.ERRORS", off := 0x70, w := 8 }]

/-- The page-specific registers of the DBG pages. -/
def dbgRows : List RegRow := [
  { name := "DBG.STRAPS", off := 0x40 },
  { name := "DBG.BOOT", off := 0x44 },
  { name := "DBG.RESET_CAUSE", off := 0x48 },
  { name := "DBG.BOOT_TIME", off := 0x4c },
  { name := "DBG.WARM_COUNT", off := 0x50, st := 0xffffffff }]

/-- The page-specific register rows of a page type. The TSU page has none (R503). -/
def pgRows : Pg → List RegRow
  | .gen => genRows | .txn => txnRows | .cb => cbRows | .qm => qmRows | .atu => atuRows | .prq => prqRows | .acc => accRows
  | .hlc => hlcRows | .red => redRows | .stp => stpRows | .sch => schRows | .ens => ensRows | .kva => kvaRows
  | .vdm => vdmRows | .mir => mirRows | .cpi => cpiRows | .sec => secRows | .tsu => [] | .dbg => dbgRows | .dma => dmaRows
  | .hpc => hpcRows | .xbar => xbarRows | .flt => fltRows | .pwr => pwrRows | .thr => thrRows | .nvs => nvsRows | .vd => vdRows

/-- The defined bits of PAGE_IRQ_STATUS.page_irq of a page, as the owning chapters name them. -/
def pageIrqMask (p : PageId) : Nat :=
  match p.ty with
  | .txn => 0x00FF0000 | .qm => if p.idx = 0 then 0x30000 else 0 | .dma => 0x70000 | .red => 0x10000
  | .atu => if p.idx = 0 then 0x70000 else if p.idx = 1 then 0 else 0x10000
  | .prq => 0x30000 | .acc => 0x70000 | .hlc => 0x70000 | .stp => 0xF0000
  | .sch => if p.idx = 0 then 0xD0000 else 0x20000
  | .ens => 0x30000 | .kva => 0x30000 | .vd => 0x30000 | .vdm => 0xF0000 | .pwr => 0x70000 | .thr => 0x30000
  | .flt => 0xF0000 | .mir => 0x70000 | .cpi => 0x10000 | .sec => 0x10000 | .nvs => 0x10000 | .dbg => 0x10000
  | .xbar => 0x30000 | .hpc => 0x7F0000 | .gen | .cb | .tsu => 0

/-- The defined bits of PAGE_ERR: the five access errors of R54 and the owning chapter's page_err bits. -/
def pageErrMask (p : PageId) : Nat :=
  0x1F + match p.ty with
  | .qm => if p.idx = 0 then 0x30000 else 0
  | .dma => 0x30000
  | .atu => if p.idx = 2 then 0x70000 else 0x10000
  | .prq => 0x10000 | .acc => 0x30000 | .hlc => 0x30000 | .stp => 0x10000
  | .sch => if p.idx = 0 then 0x10000 else 0x30000
  | .ens => 0x30000 | .kva => 0x30000 | .vdm => 0x10000 | .pwr => 0x10000 | .flt => 0x30000 | .mir => 0x10000
  | .cpi => 0x10000 | .nvs => 0x10000 | .xbar => 0x10000
  | .txn | .red | .vd | .thr | .sec | .dbg | .hpc | .gen | .cb | .tsu => 0

/-- Whether PAGE_CAP.stageable is 1: every instance page except TXN (R54). -/
def PageId.stageable (p : PageId) : Bool :=
  match p.ty with
  | .txn | .vd => false
  | t => !t.shared

/-- The rows of the page header (R54). PAGE_ID and PAGE_CAP are computed; PAGE_CTL.enable is writable on DMA pages only. -/
def headerRows (p : PageId) : List RegRow := [
  { name := "PAGE_ID", off := 0x00 }, { name := "PAGE_CAP", off := 0x04 },
  { name := "PAGE_CTL", off := 0x08, rw := (if p.ty = .dma then 1 else 0), rst := (if p.ty = .dma then 0 else 1) },
  { name := "PAGE_STATUS", off := 0x0C },
  { name := "PAGE_ERR", off := 0x10, w1c := pageErrMask p },
  { name := "PAGE_ERR_MASK", off := 0x14, rw := pageErrMask p },
  { name := "PAGE_IRQ_STATUS", off := 0x18, w1c := pageIrqMask p },
  { name := "PAGE_IRQ_ENABLE", off := 0x1C, rw := pageIrqMask p + 1 },
  { name := "PAGE_TXN", off := 0x20, ns := 0x80000000 }]

/-- The distance between the registers of a row; a single 64-bit register is 8 bytes long. -/
def RegRow.step (r : RegRow) : Nat := max r.str r.w

/-- The row of a list that holds the byte offset `off`. -/
def rowAt (rows : List RegRow) (idx off : Nat) : Option RegRow :=
  rows.find? fun r => (r.idx.getD idx == idx) && r.off ≤ off && (off - r.off) / r.step < r.cnt && (off - r.off) % r.step < r.w

/-- The register at a byte offset of a page: its row and the offset of its first byte. -/
def regAt (p : PageId) (off : Nat) : Option (RegRow × Nat) :=
  (if off < 0x40 then rowAt (headerRows p) p.idx off else rowAt (pgRows p.ty) p.idx off).map fun r =>
    (r, r.off + (off - r.off) / r.step * r.step)

/-- Whether the page holds at least one 64-bit register (PAGE_CAP.has_64bit). -/
def has64 (p : PageId) : Bool := (pgRows p.ty).any fun r => r.w == 8 && r.idx.getD p.idx == p.idx

/-- Reset values that depend on which register of a row is meant: CHAN_CFG.nif is channel mod 8, the owner bits of
CB_OWNER64 on name IGX1, PTM_CTL.tsu_source is 1 on port 0 (R134, R97, R82). -/
def resetOf (k : Nat) : Nat :=
  match pageOfKey k with
  | none => 0
  | some p =>
    match regAt p (k - p.key) with
    | none => 0
    | some (r, o) =>
      if r.rst = 0 && p.ty != .xbar then 0
      else if p.ty = .dma && o = 0x40 then r.rst + p.idx % 8
      else if p.ty = .xbar && 0x200 ≤ o then (if o < 0x300 then 0 else 0xFFFFFFFF)
      else if p.ty = .hpc && o = 0x5C then r.rst + b2n (p.idx == 0)
      else r.rst

/-- The bits of a register that survive warm reset (access code ST). -/
def stMaskOf (k : Nat) : Nat :=
  match pageOfKey k with
  | none => 0
  | some p => match regAt p (k - p.key) with
    | none => 0
    | some (r, _) => r.st

/-- PAGE_ID of a page (R54): type, instance (0xF on a shared page), version 0x01 (R53). -/
def pageIdWord (p : PageId) : Nat := fields [(16, p.ty.code), (12, if p.ty.shared then 0xF else p.inst), (0, 1)]

/-- PAGE_CAP of a page (R54). -/
def pageCapWord (p : PageId) : Nat :=
  fields [(16, p.idx), (3, b2n (has64 p)), (2, b2n p.ty.shared), (1, b2n (p.ty == .vd)), (0, b2n p.stageable)]

end Sys2Proof.Machine
end

