-- ==== Sys2Proof/Machine/Tbl.lean ====
section
/-! DEFINITION. Sparse tables: lists of (key, value) pairs in rising key order, and pairs of per-instance values. -/
namespace Sys2Proof.Machine

/-- A sparse table keyed by a number, kept in rising key order. -/
abbrev Tbl (α : Type) := List (Nat × α)

/-- The entry at a key, if one is listed. -/
def Tbl.find {α : Type} : Tbl α → Nat → Option α
  | [], _ => none
  | (k, v) :: r, q => if k = q then some v else Tbl.find r q

/-- The entry at a key, or the value `d` every unlisted key has. -/
def Tbl.getD {α : Type} (t : Tbl α) (q : Nat) (d : α) : α := (Tbl.find t q).getD d

/-- The table with the entry at `q` set to `v`. -/
def Tbl.put {α : Type} : Tbl α → Nat → α → Tbl α
  | [], q, v => [(q, v)]
  | (k, w) :: r, q, v =>
    if q < k then (q, v) :: (k, w) :: r
    else if q = k then (q, v) :: r
    else (k, w) :: Tbl.put r q v

/-- The table without an entry at `q`. -/
def Tbl.del {α : Type} (t : Tbl α) (q : Nat) : Tbl α := t.filter fun e => e.1 != q

/-- Whether a key is listed. -/
def Tbl.has {α : Type} (t : Tbl α) (q : Nat) : Bool := (Tbl.find t q).isSome

/-- The entry at `q`, read as `d` where unlisted, replaced by its image under `f`. -/
def Tbl.upd {α : Type} (t : Tbl α) (q : Nat) (d : α) (f : α → α) : Tbl α := Tbl.put t q (f (Tbl.getD t q d))

/-- Every listed entry replaced by its image under `f`. -/
def Tbl.mapV {α : Type} (t : Tbl α) (f : α → α) : Tbl α := t.map fun e => (e.1, f e.2)

/-- The lowest number at or above `k` that is no key of the table, searched over `n` numbers. -/
def Tbl.freshFrom {α : Type} (t : Tbl α) : Nat → Nat → Option Nat
  | 0, _ => none
  | n + 1, k => if Tbl.has t k then Tbl.freshFrom t n (k + 1) else some k

/-- An element put before the first that it may stand before. -/
def insertBy {α : Type} (le : α → α → Bool) (x : α) : List α → List α
  | [] => [x]
  | y :: r => if le x y then x :: y :: r else y :: insertBy le x r

/-- A list in the order of `le`; equals keep their order. -/
def sortBy {α : Type} (le : α → α → Bool) (l : List α) : List α := l.foldr (insertBy le) []

/-- One value for each IGX instance (R1). -/
structure Two (α : Type) where
  a : α
  b : α
  deriving DecidableEq, Repr

/-- The value of instance `i`. -/
def Two.get {α : Type} (t : Two α) (i : Nat) : α := if i = 0 then t.a else t.b

/-- The pair with instance `i`'s value replaced. -/
def Two.set {α : Type} (t : Two α) (i : Nat) (v : α) : Two α := if i = 0 then { t with a := v } else { t with b := v }

/-- The pair with instance `i`'s value replaced by its image under `f`. -/
def Two.upd {α : Type} (t : Two α) (i : Nat) (f : α → α) : Two α := Two.set t i (f (Two.get t i))

/-- The partner of instance `i`. -/
def partner (i : Nat) : Nat := if i = 0 then 1 else 0

end Sys2Proof.Machine
end

