-- ==== Sys2Proof/Machine/State.lean ====
section
/-! DEFINITION. The state of IGX: every register, table, queue, engine and pin the manual gives the block, as plain
data, with its value at reset. Resources a failover moves are keyed by their home instance, engines by their own. -/
namespace Sys2Proof.Machine

/-- Reasons the machine stops. No meaning of this model stops it; the constructor is the interface's. -/
inductive Fault where
  | stuck   -- raised by no meaning: IGX has no command after which the block itself stops. Safe
  deriving DecidableEq, Repr

/-- Reasons a command has no meaning. -/
inductive Refusal where
  | notModelled (mnemonic : String)   -- raised by Dispatch.exec for a command without a meaning yet. Safe
  deriving DecidableEq, Repr

/-! ### What IGX sends -/

/-- The PCIe attributes of a request or completion (R247): Relaxed Ordering, ID-Based Ordering, No Snoop. -/
structure Attr where
  ro : Bool := false
  ido : Bool := false
  ns : Bool := false
  deriving DecidableEq, Repr

/-- What IGX sends to the outside. The model keeps what it sent as a list, newest first (the model's own field).
`port` is a host port; `tag` and `slot` are the numbers of a read tag or write slot (R153) (DESIGN CHOICE, log entry 119). -/
inductive Out where
  | regData (port : Option Nat) (len v : Nat) (at' : Attr)   -- completion of a register read, on the port it came in (R249)
  | msix (port vec : Nat) (at' : Attr)                       -- an MSI-X message (R121)
  | vecMsg (port addr data : Nat) (at' : Attr)               -- a queue, VD or report-ring interrupt message (R123)
  | nocRead (inst : Nat) (nif : Option Nat) (tag addr len cls ctx lat : Nat)   -- a NoC request (R154); `nif` of channel requests (R152)
  | nocWrite (inst : Nat) (nif : Option Nat) (slot addr cls ctx lat : Nat) (bytes : List Byte)
  | hostRead (inst port tag addr len : Nat) (at' : Attr)     -- `tag` is the 14-bit tag on the link (R74)
  | hostWrite (inst port slot addr : Nat) (bytes : List Byte) (at' : Attr)
  | transReq (inst port : Nat) (pasid : Option Nat) (addr : Nat) (w : Bool)   -- ATS Translation Request (R202)
  | pageReq (inst port : Nat) (pasid : Option Nat) (addr : Nat) (r w : Bool) (idx : Nat)  -- Page Request (R226)
  | invDone (port itag : Nat)                                -- ATS Invalidate Completion (R210)
  | peerIn (part : Nat) (v : Nat)                            -- load of the bridge's peer-inbound table (R197)
  | sptWrite (site part base size tbase : Nat) (rd wr : Bool)  -- a station-port table entry written, class TRANSLATION (R154, R214)
  | sptInv (site part base size : Nat)                       -- an invalidation sent to a station-port table (R210)
  | rangeWrite (entry : Nat) (d0 d1 : Nat)                   -- range-table write to the six controllers (R217)
  | cxlReq (port : Nat) (op line : Nat) (bytes : List Byte) (poison : Bool)  -- CXL.cache request (R268, R275); `line` is the address of a WrCur's first byte, else the line's
  | snpRsp (port op line : Nat) (bytes : List Byte) (poison : Bool)  -- answer to a host snoop (R271, R275)
  | flit (site kind seq ack : Nat) (cred : Nat × Nat × Nat) (frames : List (Nat × List Nat))  -- a flit to a station (R283); see `flitBytes`
  | siteReset (site : Nat)                                   -- reset of a site link through the sideband (R311)
  | steer (site inst : Nat)                                  -- steering bit moved (R30)
  | pcieAtomic (inst port tag addr op w arg cmp : Nat) (at' : Attr)  -- a PCIe AtomicOp of a station atomic (R258)
  | stationRsp (site tag st : Nat) (bytes : List Byte)       -- answer to a station host request (R266): 0 data not to be cached, 1 S, 2 E, 3 a write held
  | stationErr (site tag code : Nat)                         -- a station host request refused or failed, with a code of R306
  | journal (inst : Nat) (seq : Nat)                         -- journal record written to HBM (R89)
  | copyWrite (inst port addr : Nat) (bytes : List Byte) (at' : Attr)  -- a write of a REATTACH copy (R94, R247)
  | ptm (port : Nat)                                         -- a PTM exchange (R82)
  | pldmEvent (src cls : Nat)                                -- PLDM event to the BMC (R430)
  | pldmValue (v : Nat)                                      -- answer to a PLDM sensor read (R397)
  | spdm (port code : Nat) (args : List Nat)                 -- SPDM or IDE_KM response (R468, R471)
  | poolWrite (member : Nat) (win : Option Nat) (addr ctag : Nat) (bytes : List Byte)  -- LC_DATA write to a member's mailbox, through a peer window of the pool partition (R418, R420)
  | bulk (what : Nat) (addr : Nat) (args : List Nat)         -- a structured image written to memory: block-table entries (1) or a batch (3) behind context tag and class (R364), a state image (2) behind space and partition or group (R386), save areas (4), a VPRF image (6)
  | regulator (rail what v : Nat)                            -- PMBus access through Plinth (R402)
  | warmReq                                                  -- warm-reset request of AON to the hub (R430)
  deriving DecidableEq, Repr

/-- What waits at an instance until its partner holds the change behind it (R437). -/
inductive Report where
  | reg (key mask val : Nat)     -- register fields take their value
  | irq (page : PageId) (bit : Nat)
  | txn (tag : Nat)              -- a commit becomes DONE with COMMITTED (R72)
  | ctx (key result : Nat)       -- a context command ends, with the state its queue then has (R114, R115)
  | out (o : Out)
  | record (q pos : Nat)          -- the completion record of a position may be delivered
  | mark (chan q pos desc : Nat)  -- the commit mark of a REDUCE_STAGED (R184)
  deriving DecidableEq, Repr
/-! ### Configuration transactions (R62-R72) -/

/-- The state of a transaction slot (TXN.SLOTn.state). -/
inductive TxnPhase where
  | free | opened | committing | done
  deriving DecidableEq, Repr

/-- One log entry: the register's canonical address, its width in bytes, the staged value and its stageable bits, the
value of those bits when the register's first entry was staged (R66, R68). -/
structure TxnEntry where
  key : Nat
  w : Nat
  val : Nat
  mask : Nat
  base : Nat
  deriving DecidableEq, Repr

/-- A transaction slot (R62, R63): the bound pages are canonical page addresses; `armed` tells whether the deadline
that BEGIN fixed is in force; `applied` that the log is applied and the partner's hold is awaited (R72). -/
structure TxnSlot where
  st : TxnPhase := .free
  failed : Bool := false
  result : Nat := 0
  failOff : Nat := 0
  count : Nat := 0
  opener : Acc := ⟨false, 0, 0⟩
  cookie : Nat := 0
  pages : List Nat := []
  log : List TxnEntry := []
  armed : Bool := false
  applied : Bool := false
  deriving DecidableEq, Repr

/-- An access that waits while a commit holds a function (R60, R69): the port it came in on (4 for a control processor), the page it goes
to, none for a doorbell of a callboard page, its command, and for such a doorbell the owner of its page when it came (R97). -/
structure HeldAcc where
  port : Nat
  page : Option Nat
  cmd : Instr
  owner : Nat := 0
  deriving DecidableEq, Repr

/-- The transaction engine of an instance: slots by tag 1-8, the commits in arrival order (R68), the accesses that wait
for a function held by a commit (R60, R66, R69); `late` while those that waited act: they came while their tag was COMMITTING (R66). -/
structure TxnSt where
  slots : Tbl TxnSlot := []
  queue : List Nat := []
  held : List HeldAcc := []
  late : Bool := false
  deriving DecidableEq, Repr

/-! ### Host ports, groups and the host-absence journal (R73-R95) -/

/-- HPC.LINK_STATUS.state (R82). -/
inductive LinkSt where
  | down | training | up | retrain | reset | flr
  deriving DecidableEq, Repr

/-- A host port: its link, and the control fields of its function that IGX acts on (R74, R82, R226, R247, R264). `mps` and `mrrs`
are Max Payload Size and Max Read Request Size in bytes, `alloc` the Outstanding Page Request Allocation, `ctoOff` and `ctoRange` the
completion timeout's disable bit and value code (0: the default range). `perst` is the level of the port's PERST pin. -/
structure PortSt where
  link : LinkSt := .down
  rate : Nat := 0
  width : Nat := 0
  cxl : Bool := false
  configOnly : Bool := false
  perst : Bool := false
  ats : Bool := false
  pri : Bool := false
  respFail : Bool := false
  uprgi : Bool := false
  msix : Bool := false
  cacheEn : Bool := false
  relaxed : Bool := true
  idoReq : Bool := false
  idoCpl : Bool := false
  busMaster : Bool := false
  ctoOff : Bool := false
  ctoRange : Nat := 0
  mps : Nat := 128
  mrrs : Nat := 512
  alloc : Nat := 0
  deriving DecidableEq, Repr

/-- XBAR.GROUP_STATE of a group. -/
inductive GroupPhase where
  | detached | attached | absent | reattaching
  deriving DecidableEq, Repr

/-- A host group (R78, R87-R94): its token, the cause of its absence, the wrong tokens presented, the consecutive
completion timeouts on its ports (R84), the vectors journalled in this absence (R89). -/
structure GroupSt where
  st : GroupPhase := .detached
  token : W64 := 0
  cause : Nat := 0
  badTries : Nat := 0
  locked : Bool := false
  cto : Nat := 0
  jvecs : List Nat := []
  deriving DecidableEq, Repr

/-- A journal record (R89). `typ`: 1 COMPLETION, 2 INTERRUPT, 3 HOST_LOST, 4 QUEUE_WAIT, 5 JOURNAL_FULL; `due` that it is the next record of its
queue, which waits for the reserve (R90). -/
structure JRec where
  typ : Nat
  group : Nat
  seq : Nat
  time : Nat
  queue : Nat := 0
  aux : Nat := 0
  iova : Nat := 0
  payload : List Byte := []
  due : Bool := false
  deriving DecidableEq, Repr

/-- The journal of an instance: its records in sequence order, the next sequence number, whether the JOURNAL_FULL
record has been written, the records that wait inside QM because the reserve is full (R90). -/
structure JrnlSt where
  recs : List JRec := []
  seq : Nat := 0
  full : Bool := false
  waiting : List JRec := []
  deriving DecidableEq, Repr

/-- A REATTACH copy in progress (R94): its group, the 32 B units copied, how many of the group's records of each journal are in the
buffer, the ports it used with the flush count of the last write, whether their flush is awaited. -/
structure CopySt where
  group : Nat
  units : Nat := 0
  copied : Nat × Nat := (0, 0)
  ports : List (Nat × Nat) := []
  flushing : Bool := false
  deriving DecidableEq, Repr

/-! ### Translation records (R203) -/

/-- What a unit record's target is (R203). -/
inductive TKind where
  | hbm | host | hlc | peer
  deriving DecidableEq, Repr

/-- The key of a translation: a partition's DA, or a host group with a PASID or the PF space (R192, R209). -/
inductive XKey where
  | da (part : Nat)
  | host (group : Nat) (pasid : Option Nat)
  deriving DecidableEq, Repr

/-- A unit record (R203): untranslated base and size in its space, target, translated base, rights, Global flag and stamp. `hkey` is
the host key of a unit reached through a host window or of a direct IOVA operand, `iova` its IOVA; `count` the page's
count bit (R233); `marked` that its d exceeded 64 (R208). -/
structure URec where
  key : XKey
  base : Nat
  size : Nat
  kind : TKind
  tbase : Nat
  rd : Bool
  wr : Bool
  stamp : Nat
  hkey : Option XKey := none
  iova : Nat := 0
  count : Bool := false
  glob : Bool := false
  marked : Bool := false
  mode : Nat := 0
  deriving DecidableEq, Repr

/-! ### Queues, contexts and completions (R96-R128) -/

/-- The fields of a queue context (R110), DISABLED / DRAINING apart. -/
structure QCtx where
  cls : Nat := 0
  ringLoc : Nat := 0
  cqLoc : Nat := 0
  pinned : Bool := false
  group : Nat := 0
  kind : Nat := 0
  save : Nat := 0
  gen : Nat := 0
  ringLog2 : Nat := 0
  ctxTag : Nat := 0
  timeoutMs : Nat := 0
  ringBase : Nat := 0
  cqBase : Nat := 0
  tail : Nat := 0
  fetch : Nat := 0
  done : Nat := 0
  cqLog2 : Nat := 0
  cqHead : Nat := 0
  cqSeq : Nat := 0
  vector : Nat := 0
  irqCount : Nat := 0
  irqTimeUs : Nat := 0
  prio : Nat := 0
  fetchAhead : Nat := 0
  irqPending : Nat := 0
  aheadTries : Nat := 0
  dbTime : Nat := 0
  deriving DecidableEq, Repr

/-- The conditions QM remembers for an enabled queue (R113). CQ_FULL is derived from the waiting records. -/
structure QConds where
  indet : Bool := false
  error : Bool := false
  hostWait : Bool := false
  curtain : Bool := false
  ahead : Bool := false
  deriving DecidableEq, Repr

/-- Whether a queue is disabled, enabled or draining. -/
inductive QMode where
  | disabled | enabled | draining
  deriving DecidableEq, Repr

/-- A completion record before it is written (R117). `keep`: it leaves the position in place (AHEAD_TIMEOUT, R109, and
the HOST_LOST record beside a descriptor's own). -/
structure Rec where
  status : Nat
  result : Nat
  user : Nat
  time : Nat
  reissued : Bool := false
  keep : Bool := false
  deriving DecidableEq, Repr

/-- How far a fetched descriptor of a job is. `miss`: it waits for a translation or a page request (R203, R223); `failed`:
it ends the job with this status and result when the job reaches it (R140, R204). -/
inductive DescPh where
  | pending | miss | ready
  | failed (status result : Nat)
  deriving DecidableEq, Repr

/-- A fetched descriptor: its 64 bytes, the window registers of its partition as they stood when it was translated (R149), its unit
records, and the page requests its units have seen answered, by chunk with the number of the footprint in its low bits, with the rights that the
waiters of the group needed (R203, R228). -/
structure DescSt where
  raw : List Byte
  wins : List Nat := []
  ph : DescPh := .pending
  units : List URec := []
  prqs : List (Nat × Nat × Bool × Bool) := []
  deriving DecidableEq, Repr

/-- How far the fetch of a position's descriptors is: the next descriptor (the head, or a chained one) is to be read, its
read is outstanding, its gen bit did not match and the timed re-read waits (R108), it waits in AHEAD for a doorbell or the
poll timer, or the whole chain is fetched. -/
inductive FetchPh where
  | due | inFlight | backoff | parked | whole
  deriving DecidableEq, Repr

/-- How far a position is: not started; started under R130, R131 or by SCH or the composer; ended, with its record not yet
written. -/
inductive PosPh where
  | waiting | started | ended
  deriving DecidableEq, Repr

/-- A position of a queue that is fetched and not completed (R105, R107): the descriptors of its job fetched so far, its channel, whether its record waits for the partner (`held`, R437) or its first record
has been counted (R126), the port of its descriptor (R79), the descriptors whose commit mark the partner holds (R184), the host ports its job has written on (R248). -/
structure Pos where
  pos : Nat
  ph : PosPh := .waiting
  fet : FetchPh := .due
  descs : List DescSt := []
  chan : Option Nat := none
  nonIdem : Bool := false
  reissue : Bool := false
  recs : List Rec := []
  held : Bool := false
  counted : Bool := false
  port : Option Nat := none
  marks : List Nat := []
  ports : List (Nat × Nat) := []
  deriving DecidableEq, Repr

/-- An entry of the device-memory vector table (R122). `retry`: an entry read failed and a message is held. -/
structure VEntry where
  addr : W64 := 0
  data : Nat := 0
  mask : Bool := false
  pending : Bool := false
  group : Nat := 0
  valid : Bool := false
  deriving DecidableEq, Repr

/-- A doorbell that waits for its context (R104), with the form and port it came in. -/
structure DbWait where
  payload : W64
  port : Nat
  indexed : Bool
  vd : Option Nat
  deriving DecidableEq, Repr

/-- A queue: its context, its mode and remembered conditions, its fetched positions in order, the completion records
written and not yet landed (slot and port), the port of its last record, the doorbells that wait for its context (R104),
its ring and completion-ring records (R207), the positions marked irq_now and fence (R101). `ringRead` is the position and
unit of a descriptor read in flight; `evt` the counter and target of an unsatisfied EVENT_WAIT; `unflushed` the ports with
host writes of earlier positions not yet flushed (R248); `ahead1` that a read of its current position has failed (R108), `jwait` that its next
record waits for the journal's reserve (R90), `stored` the image of its context that HBM holds (R112). -/
structure Queue where
  ctx : QCtx := {}
  mode : QMode := .disabled
  conds : QConds := {}
  poss : List Pos := []
  recFly : List (Nat × Nat) := []
  recPort : Option Nat := none
  dbWait : List DbWait := []
  ring : Option URec := none
  cq : Option URec := none
  cqBad : Bool := false
  irqNow : List Nat := []
  fences : List Nat := []
  evt : Option (Nat × Nat) := none
  ringRead : Option (Nat × URec) := none
  unflushed : List (Nat × Nat) := []
  ahead1 : Bool := false
  jwait : Bool := false
  stored : Nat := 0
  deriving DecidableEq, Repr

/-- A set of the context cache (R112): cached queue indices, most recently used first. -/
abbrev CcSet := List Nat

/-- Job counts of one client VD (R126). -/
structure JobCount where
  submitted : Nat := 0
  completed : Nat := 0
  failed : Nat := 0
  dbDropped : Nat := 0
  lastDrop : Nat := 0
  deriving DecidableEq, Repr

/-- An event counter (R124). -/
structure EvtCtr where
  val : Nat := 0
  owner : Nat := 0
  deriving DecidableEq, Repr

/-- The queue manager of an instance. Contexts are keyed by their HBM address (R110), vector entries by theirs (R122) (DESIGN CHOICE, log
entry 8). `vtRetry` are messages whose entry could not be read and `msgWait` messages whose port retrains, as (vector, queue) (R84, R122);
`rr` is the queue served last by class and priority (R111). -/
structure Qm where
  ctxs : Tbl Queue := []
  vt : Tbl VEntry := []
  vtCache : List Nat := []
  vtRetry : List (Nat × Nat) := []
  msgWait : List (Nat × Nat) := []
  cache : Tbl CcSet := []
  missFly : List Nat := []
  missWait : List Nat := []
  halts : List Nat := []
  evts : Tbl EvtCtr := []
  jobs : Tbl JobCount := []
  rr : Tbl Nat := []
  deriving DecidableEq, Repr

/-! ### DMA channels and the reduction pipes (R129-R190) -/

/-- The state of a channel (R133). -/
inductive ChSt where
  | off | idle | running | pausing | paused | halting | halted
  deriving DecidableEq, Repr

/-- A read request of a unit: which logical read it belongs to, space, untranslated address, length; `tag` while it is in
flight, its bytes once it has returned. -/
structure Rd where
  op : Nat
  sp : Nat
  addr : Nat
  len : Nat
  tag : Option Nat := none
  data : Option (List Byte) := none
  deriving DecidableEq, Repr

/-- A pause unit in progress (R158): its first iteration, how many it covers, its index entry, its reads, the destination
granules it needs (R182) and whether it holds their interlock entries. `pipes` are the pipes that hold beats of it (R167, R190). -/
structure UnitSt where
  pipes : List Nat := []
  iter : Nat
  n : Nat
  ent : Option Nat := none
  rds : List Rd := []
  granules : List Nat := []
  granted : Bool := true
  deriving DecidableEq, Repr

/-- A write formed by a unit of descriptor `desc`, to come or in flight: space, untranslated address, bytes, whether it
counts as written to dst; its write slot once issued. -/
structure Wr where
  desc : Nat
  iter : Nat
  sp : Nat
  addr : Nat
  bytes : List Byte
  counts : Bool := true
  slot : Option Nat := none
  deriving DecidableEq, Repr

/-- An arrive word of a descriptor (R188): whether a poll is due, the poll in flight, the polls made, the time and poll
round of its match, the word that matched. -/
structure Arrive where
  k : Nat
  due : Bool := true
  tag : Option Nat := none
  rounds : Nat := 0
  hit : Option (Nat × Nat) := none
  word : Nat := 0
  deriving DecidableEq, Repr

/-- A DMA channel (R129-R162), reset as OFF. `queue` and `pos` name its job, whose home instance is `home`; `desc` is the
chain index of the current descriptor; `between` tells that it stands at the boundary before that descriptor. `iter` is the
next iteration to issue. `held` are the held keystone writes in chain order (R156); `inBytes` counts the input bytes its pipes took (R167). `idx` are index entries read and not yet used, from entry
`idxAt` on. `marked` tells that the partner holds the commit mark, `markSent` that it was sent (R184); `torn` that the job was
torn down by RESET (R115). `ports` are the host ports chosen under R79, by 4 x descriptor + group. `nif`, `maxReads` and `latIdx` are
those in force for the descriptor (R135). -/
structure ChanRec where
  inBytes : Nat := 0
  st : ChSt := .off
  home : Nat := 0
  queue : Option Nat := none
  pos : Nat := 0
  desc : Nat := 0
  between : Bool := false
  iter : Nat := 0
  idx : List Nat := []
  idxAt : Nat := 0
  idxRd : Option Rd := none
  units : List UnitSt := []
  wrs : List Wr := []
  held : List Wr := []
  arrive : List Arrive := []
  ports : List (Nat × Nat) := []
  bytes : Nat := 0
  hi : Nat := 0
  seed : Option Nat := none
  markSent : Bool := false
  marked : Bool := false
  phaseB : Bool := false
  torn : Bool := false
  errStatus : Nat := 0
  nif : Nat := 0
  maxReads : Nat := 256
  latIdx : Nat := 0
  deriving DecidableEq, Repr

/-- Who a read tag of an instance belongs to (R153). -/
inductive ROwner where
  | chan (c : Nat)
  | dead            -- its requester was torn down; the data is discarded on arrival (R115, R161, R211)
  | flush (id : Nat) -- a zero-length flushing read (R212, R246, R94)
  | station (site slot tag : Nat) (atomic : Bool)  -- a station command's plain host request (R267)
  | line (key : Nat)   -- a plain read that the host-line cache makes for a piece of a request (R266)
  | desc (inst q pos : Nat)   -- a descriptor read (R107)
  deriving DecidableEq, Repr

/-- A read in flight: its owner, its space, the host port that carries it, its address, its length, and on a host port its number among
the instance's tags of that port (R74); the unit record of a station's read (R277). -/
structure RUse where
  owner : ROwner
  sp : Nat
  port : Option Nat
  addr : Nat
  len : Nat
  htag : Nat := 0
  unit : Option URec := none
  deriving DecidableEq, Repr

/-- Who a write slot belongs to. Slots below 8,192 are channel writes (R153); others are QM's own record writes. -/
inductive WOwner where
  | chan (c : Nat)
  | record (inst q pos : Nat)
  | station (site slot tag : Nat)
  | line (key : Nat)
  | ctl             -- a CONTROL write of a context, a vector entry, a journal record or a report (R154)
  | dead
  deriving DecidableEq, Repr

/-- A write in flight: its owner, port for a host write, untranslated and translated address, bytes (for a re-issue, R86),
its unit record, its Relaxed Ordering by the table of R247. -/
structure WUse where
  owner : WOwner
  port : Option Nat
  sp : Nat
  addr : Nat
  taddr : Nat
  bytes : List Byte
  unit : Option URec := none
  ro : Bool := false
  deriving DecidableEq, Repr

/-- A landed host write not yet known to be flushed (R246): its port, host key, range, and the flush count when it was issued; `da` gives
the partition and DA base of a unit reached through a window. -/
structure Unflushed where
  da : Option (Nat × Nat) := none
  port : Nat
  key : XKey
  base : Nat
  size : Nat
  id : Nat
  deriving DecidableEq, Repr

/-- The request pools of an instance (R153), the latest pressure level by 4 x NIF port + class (R155), landed host writes not
yet flushed, the number of flushing reads issued so far, and by 4 x NIF port + 2 x class + direction the channel after the one
served last (R152). -/
structure Pools where
  reads : Tbl RUse := []
  writes : Tbl WUse := []
  pressure : Tbl Nat := []
  unflushed : List Unflushed := []
  flushId : Nat := 0
  turn : Tbl Nat := []
  deriving DecidableEq, Repr

/-- An entry of the interlock (R182): a destination granule, with the channel, descriptor and units that read and write it. -/
structure Lock where
  granule : Nat
  chan : Nat
  desc : Nat
  iter : Nat
  n : Nat
  deriving DecidableEq, Repr

/-- The interlock of an instance (R182). -/
structure RedSt where
  locks : List Lock := []
  deriving DecidableEq, Repr

/-! ### Translation (R191-R221) and page requests (R222-R232) -/

/-- Who waits for a translation or for a hold: a descriptor by queue index, position and chain index, or a queue's ring
or completion ring (R207). -/
inductive Who where
  | desc (q pos idx : Nat)
  | ring (q : Nat)
  | cq (q : Nat)
  | enable (q : Nat)        -- the ring or completion ring of a queue under CTX_ENABLE (R116)
  | step (p l : Nat)        -- a step of an ensemble that a hold keeps (R236)
  | station (site tag : Nat) -- a station's host access (R202, R267)
  deriving DecidableEq, Repr

/-- A translation that waits: for a walk, a Translation Request or a page-request group (R199, R202, R225); `addr` is the
untranslated address with its space, `iova` its IOVA or DA in the key, the rights it needs; `data` tells a data footprint of a DMA-kind
queue (R222). `sent` tells that a walk or request covers it; `fp` which footprint of the descriptor it is of (R228). -/
structure Miss where
  who : Who
  key : XKey
  iova : Nat
  sp : Nat
  addr : Nat
  needR : Bool
  needW : Bool
  data : Bool
  part : Nat
  prg : Option Nat := none
  sent : Bool := false
  fp : Nat := 0
  deriving DecidableEq, Repr

/-- A leaf of the device TLB (R200). -/
structure TlbEnt where
  part : Nat
  base : Nat
  log2 : Nat
  hbm : Nat
  rd : Bool
  wr : Bool
  peer : Bool
  count : Bool
  deriving DecidableEq, Repr

/-- An entry of the ATC (R201). -/
structure AtcEnt where
  group : Nat
  pasid : Option Nat
  base : Nat
  log2 : Nat
  tbase : Nat
  rd : Bool
  wr : Bool
  global : Bool
  deriving DecidableEq, Repr

/-- A page-table walk in flight (R199): partition, the address walked, the level it reads (1-3), the table address; `redo`
tells that its result is to be discarded (R213). -/
structure Walk where
  part : Nat
  addr : Nat
  level : Nat
  table : Nat
  redo : Bool := false
  deriving DecidableEq, Repr

/-- A Translation Request in flight (R202). -/
structure Treq where
  group : Nat
  pasid : Option Nat
  chunk : Nat
  needW : Bool
  port : Nat
  redo : Bool := false
  deriving DecidableEq, Repr

/-- Where an invalidation comes from: an ATS request with its port and ITag, the INV_CMD register, the SPT_CMD
register, or another source. -/
inductive InvSrc where
  | ats (port : Nat) (itag : Nat)
  | cmd
  | spt
  | other
  deriving DecidableEq, Repr

/-- What an invalidation covers (R209): a key and a range; `glob` the Global form; `group` all spaces of a group;
`site` only one site's table. -/
structure InvScope where
  key : XKey
  base : Nat
  size : Nat
  allSpaces : Bool := false
  glob : Bool := false
  site : Option Nat := none
  deriving DecidableEq, Repr

/-- An invalidation in progress (R210): its epoch, the sites that have not acknowledged, whether 20 µs have passed. -/
structure Inv where
  src : InvSrc
  scope : InvScope
  epoch : Nat
  sites : List Nat := []
  expired : Bool := false
  deriving DecidableEq, Repr

/-- An entry of a station-port table (R214): what it maps for the site's partition. -/
structure SptEnt where
  part : Nat
  base : Nat
  size : Nat
  kind : TKind
  tbase : Nat
  rd : Bool
  wr : Bool
  deriving DecidableEq, Repr

/-- The translation unit of an instance. -/
structure Atu where
  epoch : Nat := 0
  log : List (Nat × InvScope) := []
  tlb : Tbl (List TlbEnt) := []
  atc : Tbl (List AtcEnt) := []
  misses : List Miss := []
  walks : List Walk := []
  treqs : List Treq := []
  invs : List Inv := []
  invWait : List (InvSrc × InvScope) := []
  peerIn : List (Nat × TlbEnt) := []
  deriving DecidableEq, Repr

/-- A page-request group (R224-R230): its key, the rights it asks for, the port and index it was sent with, whether it is quarantined, the
timeout in ms in force when it was formed (R232), and whether it is an index of a failed instance that the partner holds (R231). -/
structure Prg where
  group : Nat
  pasid : Option Nat
  chunk : Nat
  needR : Bool
  needW : Bool
  port : Option Nat := none
  idx : Nat := 0
  quarantined : Bool := false
  timeout : Nat := 0
  lost : Bool := false
  deriving DecidableEq, Repr

/-- The page-request unit of an instance: its groups by number, in formation order, and the index allocated last by port and space. -/
structure Prq where
  groups : Tbl Prg := []
  next : Nat := 0
  lastIdx : List ((Nat × Option Nat) × Nat) := []
  deriving DecidableEq, Repr

/-! ### Access counters and migration holds (R233-R240) -/

/-- An access-counter entry (R234). -/
structure AccEnt where
  key : XKey
  page : Nat
  total : Nat
  writes : Nat
  reported : Bool := false
  deriving DecidableEq, Repr

/-- A migration hold (R236-R238). `st`: 0 FREE, 1 QUIETING, 2 QUIET, 3 EXPIRED; `reload` are the sites whose entries of the range are
loaded again at its release. -/
structure Hold where
  st : Nat := 0
  key : XKey := .da 0
  base : Nat := 0
  log2 : Nat := 0
  exempt : Option Nat := none
  waiters : List Who := []
  reload : List Nat := []
  deriving DecidableEq, Repr

/-- The access counters and holds of an instance, what released holds let go in arrival order (R238), and the reports dropped since the last
record (R235). -/
structure AccSt where
  sets : Tbl (List AccEnt) := []
  released : List Who := []
  holds : Tbl Hold := []
  dropped : Nat := 0
  deriving DecidableEq, Repr

/-! ### Faults and the pair (R424-R455) -/

/-- The fields of an error report (R428). -/
structure FltSrc where
  kind : Nat := 0
  idx : Nat := 0
  access : Nat := 0
  addr : Nat := 0
  detail : Nat := 0
  deriving DecidableEq, Repr

/-- An entry of the contained-fault log (R432). -/
structure CfEntry where
  inst : Nat
  kind : Nat
  status : Nat
  id : Nat
  time : Nat
  deriving DecidableEq, Repr

/-- The fault collector: whether the grace timer runs, the sources whose condition still holds, the contained-fault log, a self-test in
progress as (instance, op), whether recovery of the hub needs a reset (R427-R451). `banks` are the failed banks as (instance, structure, number),
with a structure's banks in the order they failed (R449); `pipeAt` the time of the last uncorrectable error of a pipe, by 16 x instance + pipe
(R434). -/
structure FltSt where
  grace : Bool := false
  cond : List Nat := []
  cf : List CfEntry := []
  cfOver : Bool := false
  bist : Option (Nat × Nat) := none
  hubFatal : Bool := false
  banks : List (Nat × Nat × Nat) := []
  pipeAt : Tbl Nat := []
  deriving DecidableEq, Repr

/-- MIR.STATUS.state (R435). -/
inductive PairSt where
  | off | syncing | prot | linkLost | serving | standby
  deriving DecidableEq, Repr

/-- GEN.INSTANCE_STATE (R61, R445). -/
inductive InstSt where
  | active | serving | disabled | resetting
  deriving DecidableEq, Repr

/-- The pair side of an instance: its pair and run state, changes sent and not yet held with what waits on them (oldest first), whether it
has failed (with the time), is fenced and is served by its partner, whether HANDOVER runs on it, whether REJOIN runs on it, the sites and the
coherent groups it had at its takeover, whether its mirror link is up, whether an instance reset runs and its cause (DBG.RESET_CAUSE), whether the SNP_INV_ALL before a planned
switch has ended on its ring (R277). -/
structure MirSt where
  pair : PairSt := .off
  inst : InstSt := .active
  wait : List Report := []
  failed : Bool := false
  fenced : Bool := false
  takenOver : Bool := false
  handover : Bool := false
  rejoin : Bool := false
  failTime : Nat := 0
  sitesAt : List Nat := []
  cohAt : List Nat := []
  linkUp : Bool := false
  resetRun : Bool := false
  why : Nat := 3
  swept : Bool := false
  deriving DecidableEq, Repr

/-! ### The host-line cache (R263-R279) -/

/-- Who asks the host-line cache: a channel, by its read tag or write slot; a station command, by site, slot and tag; or nobody any more, where a
drain abandoned the access (R211, R277). -/
inductive HSrc where
  | chan (num : Nat)
  | station (site slot tag : Nat)
  | gone
  deriving DecidableEq, Repr

/-- What an access asks for: a read, a station's RD_S or RD_O, a write, or an atomic with its op, width, operand and compare value. -/
inductive HKind where
  | read | readS | readO | write
  | atomic (op w arg cmp : Nat)
  deriving DecidableEq, Repr

/-- A host data request on its way through the host-line cache (R266), served line by line: `addr` is the next host address,
`left` the bytes to serve from there, `bytes` what a write still carries, `got` what a read has. `mode` is its window's. -/
structure HlcReq where
  unit : Option URec := none
  src : HSrc
  kind : HKind
  group : Nat
  addr : Nat
  left : Nat
  bytes : List Byte := []
  got : List Byte := []
  mode : Nat := 0
  port : Option Nat := none
  part : Nat := 0
  deriving DecidableEq, Repr

/-- The state of a held line, as the host sees it (R265). -/
inductive LineSt where
  | s | e | m
  deriving DecidableEq, Repr

/-- A held line (R265); `use` is the stamp of its last use, `part` the partition that used it last. -/
structure Line where
  st : LineSt
  ring : Bool := false
  owner : Option Nat := none
  poison : Bool := false
  data : List Byte := []
  part : Nat := 0
  use : Nat := 0
  deriving DecidableEq, Repr

/-- A ring snoop (R270): its operation (4: SNP_INV_ALL of a takeover, whose data is kept; 5: of a planned switch), its tag, the sites that
have not answered; for the SNP_INV_ALL of a lost cache port the group, the lines counted as lost and the partitions reported (R277). -/
structure Ring where
  op : Nat
  tag : Nat
  sites : List Nat
  group : Nat := 0
  lines : List Nat := []
  parts : List Nat := []
  deriving DecidableEq, Repr

/-- What a busy line is busy with: an access, a host snoop on a port, an eviction, a CLEAN or DROP. -/
inductive HWork where
  | access (r : HlcReq)
  | snoop (port op : Nat)
  | evict
  | flush
  deriving DecidableEq, Repr

/-- A busy line: its key, its work, the ring snoop and the CXL.cache request (port, op) or plain request it waits for. -/
structure HTxn where
  key : Nat
  work : HWork
  ring : Option Ring := none
  cxl : Option (Nat × Nat) := none
  plain : Bool := false
  deriving DecidableEq, Repr

/-- A host access of a station that waits for its translation (R202, R267): site, command slot, tag, context tag, DA, length, what it does with
its bytes; the error code it is answered with once it failed. -/
structure StWait where
  site : Nat
  slot : Nat
  tag : Nat
  ctag : Nat
  addr : Nat
  len : Nat
  kind : HKind
  bytes : List Byte := []
  code : Option Nat := none
  deriving DecidableEq, Repr

/-- The host-line cache of an instance: its lines by group and line number, its busy lines, the work that waits for a busy line (by
key, oldest first), SNP_INV_ALL snoops underway with the groups they are for, a CLEAN or DROP in progress (op, group), and the
partner-tag store (R278). `queue` holds requests not yet served, `due` the SNP_INV_ALL snoops that wait for one of the 64 places (R270),
`txWait` what is to leave on a port that retrains (R277). -/
structure Hlc where
  lines : Tbl Line := []
  stWait : List StWait := []
  txns : List HTxn := []
  wait : List (Nat × HWork) := []
  all : List Ring := []
  queue : List HlcReq := []
  clock : Nat := 0
  tag : Nat := 0
  flush : Option (Nat × Nat) := none
  ptags : Tbl LineSt := []
  due : List Ring := []
  txWait : List (Nat × Out) := []
  deriving DecidableEq, Repr

/-! ### Stations and the scheduler (R280-R349) -/

/-- STP.LINK_STATUS.state (R314). -/
inductive SiteSt where
  | absent | down | training | cap | up | retrain | mismatch
  deriving DecidableEq, Repr

/-- A frame of a station, as far as IGX acts on it (R288). -/
inductive Frame where
  | accept (slot job : Nat)
  | commitBegin (slot job : Nat)
  | commitEnd (slot job arg : Nat) (marks : List Byte) (st : Rsp)
  | preempt (slot job result arg : Nat)
  | opDone (job result code win : Nat)
  | cmdError (slot job code engine addr : Nat)
  | capData (block : List Byte)
  | stateRsp (codes : List Nat)
  | snpRsp (tag op : Nat) (data : List Byte)
  | hostFlush (slot job : Nat)
  | activity (counts : List Nat)
  | fault (cls code detail : Nat)
  | unknown
  deriving DecidableEq, Repr

/-- A granted window of a station (R300), under its number, 64 more for one that takes the number of a window that is leaving: its range in MiB, VSP handle, job (0: partition-resident); `held` tells that the station
has confirmed the GRANT; `leaving` that it is to be revoked. -/
structure Win where
  off : Nat
  size : Nat
  vsp : Nat
  job : Nat := 0
  granted : Bool := false
  leaving : Bool := false
  deriving DecidableEq, Repr

/-- A station site: its link and the state a retrain returns to, whether its owner differs from the default of R29, an owner change that waits (R30), the NAKs received and sent for one seq
with that seq (R284), the seq of the last frames flit sent and of the last acknowledged, the replay buffer as (seq, code, args), the seq
of the last good frames flit received, whether it is still to be acknowledged, the RSP, SRS and EVT credits to be granted with the next
flit (R285), the CMD and SNP credits, frames that
wait for them (R285), failed lanes by direction and half (R310), windows by number, a PURGE in
progress, frames held for a new owner (R312), whether a STATE_RSP is awaited; a new owner to which a switch of the pair moves the site
once the frames toward the old owner have left, and the frames of that owner (R30). -/
structure SiteRec where
  st : SiteSt := .absent
  back : SiteSt := .up
  swapped : Bool := false
  moving : Bool := false
  rate : Nat := 0
  width : Nat := 0
  naks : Nat × Nat := (0, 0)
  sent : Nat × Nat := (0, 0)
  txSeq : Nat := 0
  acked : Nat := 0
  replay : List (Nat × Nat × List Nat) := []
  rxSeq : Nat := 0
  rxOwed : Bool := false
  grant : Nat × Nat × Nat := (0, 0, 0)
  cred : Nat × Nat := (0, 0)
  txq : List (Nat × List Nat) := []
  lanes : List Nat := [0, 0, 0, 0]
  wins : Tbl Win := []
  purge : Option Nat := none
  held : List Frame := []
  query : Bool := false
  taking : Option Nat := none
  after : List (Nat × List Nat) := []
  deriving DecidableEq, Repr

/-- A private window of a command: handle index, size in MiB, VSP handle, window number and slot of its save region, while it has them. -/
structure Priv where
  k : Nat
  size : Nat
  vsp : Nat := 0
  win : Option Nat := none
  slot : Option Nat := none
  deriving DecidableEq, Repr

/-- What a station command comes from: a position of a queue, or a step of an ensemble's lane. -/
inductive CmdSrc where
  | run (q pos : Nat)
  | step (part lane : Nat)
  deriving DecidableEq, Repr

/-- How far a dispatched command is: its windows are being made ready; its START or RESTORE waits for engines (R342); sent; and the
slot states of R292; PREEMPTED (R337); ended, with its windows still to be released. -/
inductive CmdSt where
  | placing | due | sent | loaded | running | committing | preempted | ended
  deriving DecidableEq, Repr

/-- Why a KILL or SAVE was sent. -/
inductive Ask where
  | preempt | slice | force | curtain
  deriving DecidableEq, Repr

/-- A dispatched station command (R289, R320, R363). `words` are its handle words; `ask` the KILL (or SAVE) that awaits its
PREEMPT_RSP; `purged` that PURGE was sent; `goNext` how many engines have been started; `accSeq` the order of its ACCEPT;
`slice` the slice it runs with; `hport`, `wports`, `flushing`, `lost` its host requests (R267, R295); `save` its save region;
`saved` the bytes of its save area; `victim` the LC command it makes room for; `dead` that its job has ended and its slot awaits the answer to a forced KILL. -/
structure Cmd where
  src : CmdSrc
  part : Nat
  tag : Nat
  cls : Nat
  lc : Bool
  prio : Nat := 0
  prog : Nat
  progKib : Nat
  args : Nat
  argsKib : Nat
  engines : Nat
  words : List Nat
  bound : Nat
  barrier : Option (Nat × Nat) := none
  st : CmdSt := .placing
  site : Nat := 0
  slot : Nat := 0
  ebase : Nat := 0
  hold : Bool := false
  restore : Bool := false
  goNext : Nat := 0
  privs : List Priv := []
  save : Option (Nat × Nat) := none
  accSeq : Nat := 0
  slice : Nat := 0
  ask : Option Ask := none
  isSave : Bool := false
  chosen : Bool := false
  victim : Option CmdSrc := none
  committed : Bool := false
  stretch : Option Nat := none
  curtain : Bool := false
  hport : Option Nat := none
  wports : List (Nat × Nat) := []
  flushing : Bool := false
  lost : Bool := false
  dead : Bool := false
  saved : Nat := 0
  purged : Bool := false
  order : Nat := 0
  deriving DecidableEq, Repr

/-- One action on a site for a command or a directory command (R327, R329): move a window's content, release or grant it, copy a
handle between wings and host. `h` is the directory handle, 0 for a private window. -/
inductive Act where
  | spill (win da h size tag : Nat)
  | revoke (win h : Nat)
  | grant (win h tag : Nat)
  | fill (win da h size tag : Nat)
  | copy (h da : Nat) (toHost : Bool)
  deriving DecidableEq, Repr

/-- What a list of actions is for: to start a job, to make room for a SAVE, to end a directory command (op, handle), or for nothing
further. -/
inductive TaskFor where
  | job (j : Nat)
  | save (j : Nat)
  | dir (op h : Nat)
  | none
  deriving DecidableEq, Repr

/-- Actions carried out in order, each on its site; `sent` tells that the answer to the first is awaited. -/
structure Task where
  what : TaskFor
  acts : List (Nat × Act)
  sent : Bool := false
  deriving DecidableEq, Repr

/-- A partition (R317): its sites, wings base and size; while DESTROY runs, the sites whose PURGE is not answered. -/
structure PartRec where
  sites : Nat
  wbase : Nat
  wsize : Nat
  dying : Option (List Nat) := none
  deriving DecidableEq, Repr

/-- A directory handle (R324, R325): `st` 1 WINGS, 2 HOST, 3 RESIDENT, 4 MOVING; its wings slot; whether the wings copy changed
since it came from the host; the stamp of its last dispatch. -/
structure Hnd where
  part : Nat
  size : Nat
  host : Bool
  hostDa : Nat
  st : Nat
  slot : Option Nat := none
  site : Nat := 0
  win : Nat := 0
  dirty : Bool := false
  damaged : Bool := false
  changed : Bool := false
  last : Nat := 0
  deriving DecidableEq, Repr

/-- A barrier group (R339): its members' jobs, the time of its first ACCEPT; once released, the engines (job, number) of the waves to come and
the engines of a wave; whether a wave waits for the di/dt budget (R342). -/
structure Barrier where
  part : Nat
  id : Nat
  members : Nat
  jobs : List Nat := []
  first : Option Nat := none
  left : Option (List (Nat × Nat)) := none
  wave : Nat := 0
  due : Bool := false
  deriving DecidableEq, Repr

/-- The scheduler of an instance: partitions, dispatched commands by job number, tasks, directory, barrier groups, debts by queue
(R335), queues passed over with the time, the last queue taken of each partition, class and priority (R331), engines started in this interval (R342), counters of its choices. -/
structure Sch where
  parts : Tbl PartRec := []
  cmds : Tbl Cmd := []
  tasks : List Task := []
  dir : Tbl Hnd := []
  barriers : List Barrier := []
  debts : Tbl Nat := []
  passed : List (Nat × Nat) := []
  rr : Tbl Nat := []
  job : Nat := 0
  vsp : Nat := 0
  clock : Nat := 0
  started : Nat := 0
  deriving DecidableEq, Repr

/-! ### Serving (R350-R373) -/

/-- Where a sequence stands (R354). -/
inductive SeqSt where
  | waiting | prefill | decode
  deriving DecidableEq, Repr

/-- A sequence in the composer (R353, R354): its queue and position, its request, g (`gen`), c (`cached`), its blocks and table,
its orders of intake and admission, the step that last held it, its recomputes and failed steps, the lane it is in flight in, and a
status that ends it once its step has ended (`late`). -/
structure SeqRec where
  part : Nat
  q : Nat
  pos : Nat
  prompt : Nat
  ptoks : Nat
  maxNew : Nat
  out : Nat
  params : Nat
  user : Nat
  lc : Bool
  st : SeqSt := .waiting
  gen : Nat := 0
  cached : Nat := 0
  blocks : List Nat := []
  table : Option Nat := none
  pool : Nat := 0
  intake : Int := 0
  admitNo : Nat := 0
  lastStep : Nat := 0
  recomputes : Nat := 0
  fails : Nat := 0
  lane : Option Nat := none
  late : Option Nat := none
  frozen : Bool := false
  deriving DecidableEq, Repr

/-- An entry of a step (R365). -/
structure SEnt where
  seq : Nat
  tokens : Nat
  prefill : Bool
  sample : Bool
  pos : Nat
  deriving DecidableEq, Repr

/-- A step in flight in a lane (R358): its number, its entries, its command as the composition read the configuration, its job once
dispatched. -/
structure StepRec where
  num : Nat
  ents : List SEnt
  lc : Bool
  cmd : Cmd
  job : Option Nat := none
  deriving DecidableEq, Repr

/-- An ensemble (R351): `st` 0 OFF, 1 ON, 2 STOPPING, 3 FAULTED; its steps by lane, its counts. -/
structure EnsRec where
  st : Nat := 0
  num : Nat := 0
  lanes : Tbl StepRec := []
  steps : Nat := 0
  decodes : Nat := 0
  prefills : Nat := 0
  recomputes : Nat := 0
  fails : Nat := 0
  deriving DecidableEq, Repr

/-- A KV pool (R355, R357): its parameters; its stack as freed blocks on top of the blocks never handed out; its tables alike. -/
structure PoolRec where
  part : Nat
  base : Nat
  log2 : Nat
  btoks : Nat
  blocks : Nat
  btDa : Nat
  btLog2 : Nat
  tabLog2 : Nat
  reserve : Nat
  freed : List Nat := []
  next : Nat := 0
  tfreed : List Nat := []
  tnext : Nat := 0
  low : Nat := 0
  allocs : Nat := 0
  frees : Nat := 0
  deriving DecidableEq, Repr

/-- The composer of an instance: ensembles by partition, the sequence table, pools by number, its orders. -/
structure Ens where
  recs : Tbl EnsRec := []
  seqs : Tbl SeqRec := []
  pools : Tbl PoolRec := []
  order : Nat := 0
  admits : Nat := 0
  disabling : Option Nat := none
  deriving DecidableEq, Repr

/-! ### Power (R393-R423) -/

/-- What is known of a rail (R401, R403): READ_VOUT in mV, READ_IOUT in mA, failed reads in a row; the sums of its samples in the
present millisecond, power in µW and current in mA; the mean current of the last one. -/
structure RailSt where
  mv : Nat := 0
  ma : Nat := 0
  fails : Nat := 0
  sumP : Nat := 0
  sumI : Nat := 0
  meanI : Nat := 0
  deriving DecidableEq, Repr

/-- Power control beside its registers. Domains: 0-11 the sites, 12 the hub. `site` and `hub` are the levels in force; `cap` the steps
of the budget policy, `iout` those of current warnings, `warm` those of therm_warn, `fast` whether the fast limit holds, `storm` the
domains raised by a droop storm. `droop` are the domains where a droop holds starts, `droopOn` those where it lasts, `events` the times of
recent droops. `warned` are the rails with a current warning and their domains, `warn` and `crit` the thermal holds, `brake` the brake. `rails`,
`samples`, `window`, `energy` (pJ below one µJ) belong to the samples, `act` and `coef` (PWR.MODEL0 and MODEL1 by site) to the activity model. `power` is the mean power of a domain in
1/16 W (13 HBM, 14 the peer die, 15 the package), `model` the domains in fallback, `allot` the allotments in W. `fixed` is the fixed-level
table as (hub, site) levels; `lowered` the time the rack manager lowered the budget; `reasons` what is in force, `seen` the domains where something was in force since the last 1 ms boundary. The pool: the share
of every member, the value of its own at the start of the pool, POOL_TOTAL in force, the counts of R417, whether the last epoch waits for its decision, notices held with the
time they came, the last notice sent, the mean before the first notice in force and the paced sum and count. -/
structure Levels where
  site : Tbl Nat := []
  hub : Nat := 0
  cap : Tbl Nat := []
  iout : Tbl Nat := []
  warm : Nat := 0
  fast : Bool := false
  storm : List Nat := []
  droop : List Nat := []
  droopOn : List Nat := []
  events : Tbl (List Nat) := []
  warned : List (Nat × Nat) := []
  warn : Bool := false
  crit : Bool := false
  brake : Bool := false
  rails : Tbl RailSt := []
  samples : Nat := 0
  window : List Nat := []
  energy : Nat := 0
  act : Tbl (List Nat) := []
  coef : Tbl (Nat × Nat) := []
  power : Tbl Nat := []
  model : List Nat := []
  pmiLost : Bool := false
  allot : Tbl Nat := []
  fixed : List (Nat × Nat) := []
  lowered : Option Nat := none
  reasons : List (Nat × Nat) := []
  seen : List Nat := []
  shares : List Nat := []
  shareAt : Nat := 0
  total : Nat := 0
  last : List Nat := []
  steps : Nat := 0
  pending : Bool := false
  notices : List (PaceMsg × Nat) := []
  sent : Option PaceMsg := none
  seq : Nat := 0
  before : Option Nat := none
  paced : Nat × Nat := (0, 0)
  sensorBad : Bool := false
  deriving DecidableEq, Repr

/-! ### The control processors, trust, the NV store, boot (R456-R501) -/

/-- A control processor as its interrupt controller and watchdog see it (R457-R461): RP, the stack of interrupted RP values, the active
sources with the one entered last in front, the event lines asserted, the core's settings, whether it sleeps, the time of the last watchdog restart, whether its
warning is raised. -/
structure CpSt where
  rp : Nat := 0
  stack : List Nat := []
  active : List Nat := []
  lines : List Nat := []
  en : Nat := 0
  thr : Nat := 0
  mask : Bool := false
  asleep : Bool := false
  restart : Nat := 0
  warned : Bool := false
  deriving DecidableEq, Repr

/-- A firmware image (R462, R469). -/
structure Image where
  version : Nat
  svn : Nat
  digest : Nat
  deriving DecidableEq, Repr

/-- The firmware of the hub (R462-R467): the images in FW_A (0) and FW_B (1), the slot the ACTIVE record names, the image each instance
runs or ran last with its slot, the image staged, an update command (instance page, op) with how far ACTIVATE is, the fuse counter,
revoked key slots, the lifecycle state and the first write of a decommission sequence (time, port). -/
structure FwSt where
  slots : Tbl Image := []
  active : Nat := 0
  run : Tbl (Image × Nat) := []
  staged : Option Image := none
  upd : Option (Nat × Nat) := none
  phase : Nat := 0
  fuse : Nat := 0
  revoked : Nat := 0
  lifecycle : Nat := 0
  lcArm : Option (Nat × Nat) := none
  deriving DecidableEq, Repr

/-- A secure session (R468): its port, whether FINISH has ended its set-up. -/
structure Session where
  port : Nat
  ready : Bool := false
  deriving DecidableEq, Repr

/-- An IDE stream of a port (R471, R472): the keys Ashlar holds, as 6 x key set + 3 x receive + sub-stream; the key set in use by each
sub-stream; whether the stream has failed. -/
structure IdeSt where
  keys : List Nat := []
  use : List Nat := []
  insecure : Bool := false
  deriving DecidableEq, Repr

/-- The trust services (R468-R472): the negotiation of each mailbox (0 none, 1 version, 2 capabilities, 3 algorithms), sessions by
number, IDE streams by 16 x port + stream (0 the link stream), whether Ashlar has lost service (DESIGN CHOICE, log entry 102). -/
structure Trust where
  boxes : Tbl Nat := []
  sessions : Tbl Session := []
  ide : Tbl IdeSt := []
  lost : Bool := false
  deriving DecidableEq, Repr

/-- An entry of the persistent error log (R475). -/
structure LogEnt where
  seq : Nat := 0
  number : Nat
  cls : Nat
  word : Nat
  src : Nat
  master : Nat
  addr : Nat
  time : Nat
  detail : Nat
  merged : Nat
  deriving DecidableEq, Repr

/-- A flash operation that waits or runs (R474-R477): a record, the erasure of the log, a log entry, an image into a slot, the emptying of a
slot, the ACTIVE record, the erasure of the user regions, the repair map. -/
inductive NvOp where
  | record (region : Nat) (body : List Byte)
  | clearLog
  | entry (e : LogEnt)
  | image (slot : Nat) (m : Image)
  | empty (slot : Nat)
  | active (slot : Nat)
  | restore
  | repair (m : List (Nat × Nat × Nat))
  deriving DecidableEq, Repr

/-- The NV store (R474-R477): the record copies as (seq, body) by 2 x region + half, the repair map, the error log oldest first with the seq
of its next entry, flash operations oldest first, entries held in AON, the command in progress, whether writes are inhibited, whether a flash
answered, the port whose confirmation is in force (4: a control processor). -/
structure NvSt where
  recs : Tbl (Nat × List Byte) := []
  repair : List (Nat × Nat × Nat) := []
  log : List LogEnt := []
  seq : Nat := 0
  ops : List NvOp := []
  held : List LogEnt := []
  cmd : Option Nat := none
  inhibit : Bool := false
  present : Bool := false
  confirm : Option Nat := none
  deriving DecidableEq, Repr

/-- Boot and the sideband (R485-R496): the time of the reset release, whether HBM is ready, whether this boot has begun at a warm reset and
who asked for it; SBD's mode and address. -/
structure BootSt where
  start : Nat := 0
  hbm : Bool := false
  warm : Bool := false
  asked : Bool := false
  tried : List Nat := []
  i3c : Bool := false
  addr : Option Nat := none
  deriving DecidableEq, Repr

/-! ### Virtual devices (R374-R392) -/

/-- VDM.STATUS.state of a VD. -/
inductive VdPhase where
  | free | active | closing | down
  deriving DecidableEq, Repr

/-- The record of a VD: VDM.CFG0-CFG4 (R392), its state, a pending mailbox request, whether curtain_late was raised, VDM.IMG_NEED
as it was computed when the VD became DOWN (R384). -/
structure VdRec where
  st : VdPhase := .free
  cfg0 : Nat := 0
  cfg1 : Nat := 0
  cfg2 : Nat := 0
  cfg3 : Nat := 0
  cfg4 : Nat := 0
  mbox : Bool := false
  late : Bool := false
  need : Nat := 0
  deriving DecidableEq, Repr


/-! ### The whole state -/

/-- The level of an output pin: `none` while IGX has released it (R43). -/
abbrev Pin := Option Bool

/-- The state of IGX. `regs` keeps every register whose value differs from its reset value (R14); an unlisted register
reads as its reset value. `rlatch` and `wlatch` are the read and split latches by page (R57, R58). `por` and `warm`
tell that HUB_POR_N or HUB_WARM_RST_N is asserted, `brakeLow` that IGX_BRAKE_N is low (R43). `tsu` is the time of each instance's TSU in ns (R37). `free` counts the free values drawn; `out` what IGX sent. -/
structure State where
  pending : List Instr := []
  regs : Tbl W64 := []
  rlatch : Tbl (Nat × Nat) := []
  wlatch : Tbl (Nat × Nat) := []
  por : Bool := true
  warm : Bool := false
  tsu : Two Nat := ⟨0, 0⟩
  free : Nat := 0
  out : List Out := []
  thermTrip : Bool := false
  pinFault : Pin := none
  pinAlert : Pin := none
  pinTherm : Pin := none
  pinSpiCs : Pin := none
  pinSpiClk : Pin := none
  pinSpiIo : List Pin := [none, none, none, none]
  pinScl : Pin := none
  pinSda : Pin := none
  brakeLow : Bool := false
  txn : Two TxnSt := ⟨{}, {}⟩
  ports : Tbl PortSt := []
  groups : Tbl GroupSt := []
  jrnl : Two JrnlSt := ⟨{}, {}⟩
  copy : Option CopySt := none
  flt : FltSt := {}
  mir : Two MirSt := ⟨{}, {}⟩
  qm : Two Qm := ⟨{}, {}⟩
  chans : Tbl ChanRec := []
  pools : Two Pools := ⟨{}, {}⟩
  red : Two RedSt := ⟨{}, {}⟩
  atu : Two Atu := ⟨{}, {}⟩
  prq : Two Prq := ⟨{}, {}⟩
  acc : Two AccSt := ⟨{}, {}⟩
  rt : Tbl (Nat × Nat) := []
  rtWait : Two (Option (Nat × Nat × Nat)) := ⟨none, none⟩
  spt : Tbl (List SptEnt) := []
  vdm : Two (Tbl VdRec) := ⟨[], []⟩
  hlc : Two Hlc := ⟨{}, {}⟩
  sites : Tbl SiteRec := []
  sch : Two Sch := ⟨{}, {}⟩
  ens : Two Ens := ⟨{}, {}⟩
  lev : Levels := {}
  cp : Two CpSt := ⟨{}, {}⟩
  fw : FwSt := {}
  trust : Trust := {}
  nv : NvSt := {}
  boot : BootSt := {}
  deriving DecidableEq, Repr

/-- The machine right after reset: power-on reset held, every register and structure at its reset value (DESIGN CHOICE, log entry 3, DESIGN CHOICE, log entry 13). -/
def State.reset : State := {}

end Sys2Proof.Machine
end

