-- ==== Sys2Proof/Machine/Ops.lean ====
section
/-! DEFINITION. The operations every family shares: registers, free values, what IGX sends, page interrupts, the pair,
port choice (R79), MSI-X messages (R121), fault events (R427), contained faults (R432). -/
namespace Sys2Proof.Machine

/-! ### Registers -/

/-- The stored value of the register at a canonical address. -/
def State.r (s : State) (k : Nat) : Nat :=
  match Tbl.find s.regs k with
  | some v => v.toNat
  | none => resetOf k

/-- The state with the register at `k` holding `v`; a register at its reset value is not listed. -/
def State.setR (s : State) (k v : Nat) : State :=
  { s with regs := if v % 2 ^ 64 = resetOf k then Tbl.del s.regs k else Tbl.put s.regs k (BitVec.ofNat 64 v) }

/-- A field of a register. -/
def State.fld (s : State) (k lo w : Nat) : Nat := bits (s.r k) lo w

/-- The state with a register field replaced. -/
def State.setFld (s : State) (k lo w v : Nat) : State := s.setR k (setBits (s.r k) lo w v)

/-- The bits of `mask` of a register replaced by those of `v`. -/
def State.setMask (s : State) (k mask v : Nat) : State :=
  s.setR k ((s.r k) - ((s.r k) &&& mask) + (v &&& mask))

/-- Bits of a register set. -/
def State.orR (s : State) (k m : Nat) : State := s.setR k (s.r k ||| m)

/-- A counter register increased, wrapping at 2^64. -/
def State.bump (s : State) (k n : Nat) : State := s.setR k ((s.r k + n) % 2 ^ 64)

/-- A counter field of `w` bits increased, saturating. -/
def State.satFld (s : State) (k lo w n : Nat) : State := s.setFld k lo w (satAdd w (s.fld k lo w) n)

/-! ### Free values and what IGX sends -/

/-- A free value and the state that has drawn it. -/
def State.draw (s : State) : W64 × State := (Config.freeValue s.free, { s with free := s.free + 1 })

/-- A free choice below `n` (`n > 0`) and the state that has drawn it. -/
def State.choose (s : State) (n : Nat) : Nat × State := (Config.freeChoice s.free % n, { s with free := s.free + 1 })

/-- `n` bytes the manual does not state. -/
def State.drawBytes (s : State) (n : Nat) : List Byte × State :=
  ((List.range n).map (Config.freeByte s.free), { s with free := s.free + 1 })

/-- Something sent. -/
def State.emit (s : State) (o : Out) : State := { s with out := o :: s.out }

/-- Things sent, in order. -/
def State.emits (s : State) (os : List Out) : State := { s with out := os.reverse ++ s.out }

/-! ### Pages and page interrupts (R54, R55, R61) -/

/-- PAGE_IRQ_STATUS with its err bit, which is 1 while an unmasked PAGE_ERR bit is set (R54). -/
def irqStatus (s : State) (p : PageId) : Nat :=
  let e := s.r (p.key + 0x10)
  let m := s.r (p.key + 0x14)
  s.r (p.key + 0x18) + b2n (e != (e &&& m))

/-- Whether a page raises its interrupt (R55). -/
def pageRaised (s : State) (p : PageId) : Bool := (irqStatus s p &&& s.r (p.key + 0x1C)) != 0

/-- A page-specific event: its PAGE_IRQ_STATUS bit becomes 1. -/
def State.irq (s : State) (p : PageId) (bit : Nat) : State := s.orR (p.key + 0x18) (2 ^ bit)

/-- A PAGE_ERR bit becomes 1. -/
def State.perr (s : State) (p : PageId) (bit : Nat) : State := s.orR (p.key + 0x10) (2 ^ bit)

/-- The bit of GEN.IRQ_SUMMARY that stands for a page (R61); VD pages have none. -/
def summaryBit (p : PageId) : Option Nat :=
  match p.ty with
  | .gen => some 0 | .txn => some 1 | .cb => some 2 | .qm => some 3 | .atu => some 4 | .prq => some 5 | .acc => some 6
  | .hlc => some 7 | .red => some 8 | .stp => some (9 + p.idx) | .sch => some 15 | .ens => some 16 | .kva => some 17
  | .vdm => some 18 | .mir => some 19 | .cpi => some 20 | .sec => some 21 | .tsu => some 22 | .dbg => some 23
  | .hpc => some (24 + p.idx) | .xbar => some 28 | .flt => some 29 | .pwr => some 30 | .thr => some 31 | .nvs => some 32
  | .dma => some (33 + p.idx / 16) | .vd => none

/-- The pages with a listed PAGE_ERR or PAGE_IRQ_STATUS. Only such a page can raise its interrupt, since both reset to 0. -/
def eventPages (s : State) : List PageId :=
  s.regs.filterMap fun e => if e.1 % 0x1000 = 0x10 || e.1 % 0x1000 = 0x18 then pageOfKey e.1 else none

/-- GEN.IRQ_SUMMARY of instance `i` (R61); shared pages show on both instances. -/
def irqSummary (s : State) (i : Nat) : Nat :=
  (eventPages s).foldl (fun m p =>
    match summaryBit p with
    | some b => if (p.ty.shared || p.inst == i) && pageRaised s p then m ||| 2 ^ b else m
    | none => m) 0

/-! ### Instances -/

/-- The pair side of an instance. -/
def State.pairOf (s : State) (i : Nat) : MirSt := s.mir.get i

/-- Whether an instance itself works: active or understudy, and not fenced. -/
def alive (s : State) (i : Nat) : Bool :=
  let m := s.mir.get i
  (m.inst == .active || m.inst == .serving) && !m.fenced

/-- The instance that serves the resources of `i` (R32): itself, or its partner after a takeover; `none` while nobody does. -/
def server (s : State) (i : Nat) : Option Nat :=
  if alive s i then some i
  else if (s.mir.get (partner i)).inst == .serving && alive s (partner i) && (s.mir.get i).takenOver then some (partner i)
  else none

/-- The instance that carries the work of `i`; `i` itself where nobody serves it. -/
def carrier (s : State) (i : Nat) : Nat := (server s i).getD i

/-- The time of an instance: of its own TSU, of its partner's while that serves it (R37). -/
def State.time (s : State) (i : Nat) : Nat := s.tsu.get (carrier s i)

/-- The time that a shared island stamps (R37): that of IGX0's TSU, of IGX1's while IGX0 does not work (DESIGN CHOICE, log entry 125). -/
def State.hubTime (s : State) : Nat := if !alive s 0 && alive s 1 then s.tsu.b else s.tsu.a

/-- The major version of the firmware an instance runs or ran last (R462). -/
def majorOf (s : State) (i : Nat) : Nat :=
  match Tbl.find s.fw.run i with
  | some (m, _) => m.version / 2 ^ 24
  | none => 0

/-- Whether a pair state has a partner that mirrors (R505). Over a lost link it has, as long as the partner works and runs firmware of
the same major version (R448, R465). -/
def mirrored (s : State) (i : Nat) : Bool :=
  let c := carrier s i
  let m := s.mir.get c
  m.inst != .serving &&
  (match m.pair with
   | .syncing | .prot => true
   | .linkLost => alive s (partner c) && majorOf s 0 == majorOf s 1
   | _ => false)

/-! ### The state of a queue (R113) -/

/-- Difference of two 24-bit counts (R102). -/
def sub24 (a b : Nat) : Nat := (a + 2 ^ 24 - b % 2 ^ 24) % 2 ^ 24

/-- The oldest position whose record is not yet written; records are written in position order (R118). -/
def Queue.headRec (x : Queue) : Option (Pos × Rec) :=
  match x.poss with
  | p :: _ => (p.recs.head?).map fun r => (p, r)
  | [] => none

/-- Whether the completion ring is full (R118). -/
def Queue.cqFull (x : Queue) : Bool := 2 ^ x.ctx.cqLog2 ≤ sub24 (x.ctx.cqSeq % 2 ^ 24) x.ctx.cqHead

/-- The queue state code (R113): the first condition in the order of R113. CQ_FULL shows while a record waits for room. -/
def Queue.state (x : Queue) : Nat :=
  match x.mode with
  | .disabled => 0
  | .draining => 10
  | .enabled =>
    if x.conds.indet then 8 else if x.conds.error then 7 else if x.conds.hostWait then 4
    else if x.conds.curtain then 9 else if x.cqFull && x.headRec.isSome then 6
    else if x.evt.isSome then 5 else if x.conds.ahead then 3
    else if x.ctx.done = x.ctx.tail then 1 else 2

/-- QM.CTX_STATUS at the end of a command on a queue, and its interrupt (R114). -/
def ctxStatus (s : State) (i result : Nat) (x : Queue) : State :=
  (s.setR (reg .qm i 0 0x48) (fields [(24, result), (16, x.state)])).irq ⟨.qm, i, 0⟩ 16

/-- A report applied. -/
def applyReport (i : Nat) (s : State) : Report → State
  | .reg k m v => s.setMask k m v
  | .irq p b => s.irq p b
  | .out o => s.emit o
  | .txn tag =>
    let t := s.txn.get i
    let sl := Tbl.getD t.slots tag {}
    { s with txn := s.txn.set i { t with slots := Tbl.put t.slots tag { sl with st := .done, applied := false, result := 1, log := [] } } }.irq
      ⟨.txn, i, 0⟩ (15 + tag)
  | .ctx k result => ctxStatus s i result (Tbl.getD (s.qm.get i).ctxs k {})
  | .record q p =>
    { s with qm := s.qm.upd i fun m => { m with ctxs := Tbl.upd m.ctxs q {} fun x =>
      { x with poss := x.poss.map fun y => if y.pos = p then { y with held := false } else y } } }
  | .mark c q p d =>
    let mine (h : ChanRec) : Bool :=
      h.home == i && (h.queue.map fun n => s.r (reg .qm i 0 0xD0) + 64 * n) == some q && h.pos == p && h.desc == d && h.markSent
    { s with chans := if mine (Tbl.getD s.chans c {}) then Tbl.upd s.chans c {} fun h => { h with marked := true } else s.chans,
             qm := s.qm.upd i fun m => { m with ctxs := Tbl.upd m.ctxs q {} fun x =>
               { x with poss := x.poss.map fun y => if y.pos = p then { y with marks := d :: y.marks } else y } } }

/-- A change of mirrored state with what becomes visible by it: at once without a partner that mirrors (R505), else when
the partner reports that it holds the change (R437). MIR.RECORDS counts the changes sent (DESIGN CHOICE, log entry 25, DEDUCED, log entry 94). -/
def State.report (s : State) (i : Nat) (rs : List Report) : State :=
  if mirrored s i then
    let c := carrier s i
    { s with mir := s.mir.upd c fun m => { m with wait := m.wait ++ rs } }.bump (reg .mir c 0 0x50) 1
  else rs.foldl (applyReport i) s

/-! ### Ports and groups (R75, R78, R79) -/

/-- The state of a port. -/
def State.port (s : State) (n : Nat) : PortSt := Tbl.getD s.ports n {}

/-- The state with a port changed. -/
def State.updPort (s : State) (n : Nat) (f : PortSt → PortSt) : State := { s with ports := Tbl.upd s.ports n {} f }

/-- The state of a group. -/
def State.group (s : State) (g : Nat) : GroupSt := Tbl.getD s.groups g {}

/-- The state with a group changed. -/
def State.updGroup (s : State) (g : Nat) (f : GroupSt → GroupSt) : State := { s with groups := Tbl.upd s.groups g {} f }

/-- Whether a port is UP; a config-only port counts as not UP (R75) (DEDUCED, log entry 50). -/
def portUp (s : State) (n : Nat) : Bool := (s.port n).link == .up && !(s.port n).configOnly

/-- The group of a port: XBAR.PORT_CFGn.group (R78). -/
def groupOf (s : State) (n : Nat) : Nat := s.fld (reg .xbar 0 0 (0x40 + 4 * n)) 0 2

/-- Whether XBAR.PORT_CFGn enables a port for an instance (R81). -/
def portEn (s : State) (n i : Nat) : Bool := bitAt (s.r (reg .xbar 0 0 (0x40 + 4 * n))) (4 + i)

/-- The ports of a group. -/
def portsOf (s : State) (g : Nat) : List Nat := (List.range 4).filter fun n => groupOf s n == g

/-- The UP ports of a group. -/
def upPorts (s : State) (g : Nat) : List Nat := (portsOf s g).filter (portUp s)

/-- Host-bound bytes outstanding on a port: the reads and writes of both instances in flight there (R79) (DEDUCED, log entry 49). -/
def portLoad (s : State) (n : Nat) : Nat :=
  let one (p : Pools) : Nat :=
    (p.reads.map fun e => if e.2.port = some n then e.2.len else 0).sum +
    (p.writes.map fun e => if e.2.port = some n then e.2.bytes.length else 0).sum
  one s.pools.a + one s.pools.b

/-- The element of a list with the least measure, the first on a tie. -/
def leastBy (f : Nat → Nat) : List Nat → Option Nat
  | [] => none
  | x :: r => match leastBy f r with
    | none => some x
    | some y => if f x ≤ f y then some x else some y

/-- Whether a group is ABSENT, or still waits in REATTACHING (R87, R94). -/
def absent (s : State) (g : Nat) : Bool := (s.group g).st == .absent || (s.group g).st == .reattaching

/-- The UP port of a group enabled for an instance with the fewest host-bound bytes outstanding (R79). -/
def leastPort (s : State) (g i : Nat) : Option Nat := leastBy (portLoad s) ((upPorts s g).filter fun n => portEn s n i)

/-- The port chosen for a group by an instance under R79; none while the group is ABSENT (R87). -/
def pickPort (s : State) (g i : Nat) : Option Nat := if absent s g then none else leastPort s g i

/-- The port that goes on carrying work of a group chosen before: its requests wait while it retrains (R84), and another is chosen once it
is not UP for another reason. -/
def stayPort (s : State) (p g i : Nat) : Option Nat :=
  if portUp s p then some p else if (s.port p).link == .retrain then none else pickPort s g i

/-- The UP port of a group with the fewest host-bound bytes outstanding, enabled for an instance or not: what Translation Requests use (R80). -/
def anyPort (s : State) (g : Nat) : Option Nat := if absent s g then none else leastBy (portLoad s) (upPorts s g)

/-- The attributes of a request on a port (R247): those of its row, each while the port's control registers enable it. -/
def reqAttr (s : State) (n : Nat) (ro ido : Bool) : Attr :=
  { ro := ro && (s.port n).relaxed, ido := ido && (s.port n).idoReq }

/-- The attributes of the requests of R247 by row: data writes and reads, writes with Relaxed Ordering 0, flushing reads. -/
def dataAttr (s : State) (n : Nat) : Attr := reqAttr s n true true
def strictAttr (s : State) (n : Nat) : Attr := reqAttr s n false true
def flushAttr (s : State) (n : Nat) : Attr := reqAttr s n false false

/-- MPS and MRRS of a port (R74, R151). -/
def mpsOf (s : State) (n : Nat) : Nat := (s.port n).mps

/-- The longest host read on a port: min(MRRS, 256 B) (R74). -/
def mrrsOf (s : State) (n : Nat) : Nat := min (s.port n).mrrs 256

/-! ### MSI-X messages (R121) -/

/-- Whether a port can send MSI-X vector `v`: UP, MSI-X enabled, vector unmasked. -/
def canMsix (s : State) (n v : Nat) : Bool :=
  portUp s n && (s.port n).msix && !bitAt (s.r (reg .hpc 0 n (0x80C + 0x10 * v))) 0

/-- A message of vector `v` sent on the lowest-numbered port of the mask that qualifies; with none, its PBA bit is set on
every port of the mask (R121). -/
def sendMsix (s : State) (mask v : Nat) : State :=
  match ((List.range 4).filter fun n => bitAt mask n && canMsix s n v) with
  | n :: _ => s.emit (.msix n v (strictAttr s n))
  | [] => (onesOf mask 4).foldl (fun s n => s.orR (reg .hpc 0 n 0xC00) (2 ^ v)) s

/-- The messages that port `n` holds as PBA bits and may now send: each is sent and its bit cleared, as MSI-X states (R24, R74, R121) (DEDUCED, log entry 116). -/
def sendPending (s : State) (n : Nat) : State :=
  (onesOf (s.r (reg .hpc 0 n 0xC00)) 32).foldl (fun s v =>
    if canMsix s n v then (s.setR (reg .hpc 0 n 0xC00) (s.r (reg .hpc 0 n 0xC00) - 2 ^ v)).emit (.msix n v (strictAttr s n)) else s) s

/-! ### Fault events (R424-R432) -/

/-- FLT page offsets. -/
def fltR (off : Nat) : Nat := reg .flt 0 0 off

/-- The FLT page. -/
def fltPage : PageId := ⟨.flt, 0, 0⟩

/-- Whether the source is an island of an instance, with that instance (R424, R426). -/
def srcInst (src : Nat) : Option Nat :=
  if src < 16 then some 0 else if src < 32 then some 1 else if src = 60 || src = 62 then some 0
  else if src = 61 || src = 63 then some 1 else none

/-- An event line of a control processor's interrupt controller asserted (R459). -/
def cpLine (s : State) (i src : Nat) : State :=
  { s with cp := s.cp.upd i fun c => { c with lines := if c.lines.contains src then c.lines else src :: c.lines } }

/-- A line of both control processors asserted (R458). -/
def cpBoth (s : State) (src : Nat) : State := cpLine (cpLine s 0 src) 1 src

/-- The fault interrupt: MSI-X vector 2 under FLT.IRQ_CTL.port_mask (R429). -/
def faultIrq (s : State) : State := sendMsix s (s.fld (fltR 0x60) 0 4) 2

/-- An instance fenced (R440 step 2, R446): it works no more; a partner in a pair with it has lost its link and waits for it no longer. -/
def fence (s : State) (i : Nat) : State :=
  let o := partner i
  let s := { s with mir := s.mir.upd i fun m =>
    { m with fenced := true, inst := .resetting, handover := false, rejoin := false, wait := [], resetRun := false, linkUp := false } }
  match (s.mir.get o).pair with
  | .syncing | .prot | .linkLost =>
    let rs := (s.mir.get o).wait
    rs.foldl (applyReport o) { s with mir := s.mir.upd o fun m => { m with pair := .linkLost, linkUp := false, wait := [] } }
  | _ => s

/-- The immediate action of a FATAL event (R430): an instance of a PROTECTED pair has failed and is taken over (R439, R440); one with no
protecting partner is fenced (R446), and with a partner's work on it the hub is FATAL (R453). Recovery of the hub needs a reset. -/
def fatalAct (s : State) (inst : Option Nat) : State :=
  match inst with
  | some i =>
    let m := s.mir.get i
    if m.failed || !alive s i then s
    else
      let s := { s with mir := s.mir.upd i fun m => { m with failed := true, failTime := s.tsu.get (partner i), why := 3 } }
      if m.pair == .prot && (s.mir.get (partner i)).pair == .prot && alive s (partner i) && !(s.mir.get (partner i)).failed then s
      else
        let s := fence s i
        if m.inst == .serving then { s with flt := { s.flt with hubFatal := true } } else s
  | none => { s with flt := { s.flt with hubFatal := true } }

/-- Banks that a structure of an instance has lost beyond its spare (R449). Structures are numbered as in FLT.DEGRADED. -/
def banksLost (s : State) (i what : Nat) : Nat := (s.flt.banks.filter fun b => b.1 == i && b.2.1 == what).length - 1

/-- A fault event (R427): it opens an incident or is merged into the open one. `cls`: 0 CE, 1 UCE-C, 2 FATAL; `inst` the
instance a FATAL event is for (none: the hub) (DEDUCED, log entry 91). -/
def faultEvent (s : State) (src cls : Nat) (m : FltSrc) (inst : Option Nat) : State :=
  let word := s.r (fltR 0x40)
  let s1 := if cls = 0 then s.bump (fltR 0xA0) 1 else s
  let s2 := s1.orR (fltR 0x40) (2 ^ src)
  let s3 := if cls = 1 then s2.orR (fltR 0x48) (2 ^ src) else if cls = 2 then s2.orR (fltR 0x50) (2 ^ src) else s2
  let s4 :=
    if word = 0 then
      let num := (bits (s.r (fltR 0x6C)) 0 16 + 1) % 2 ^ 16
      let s := s3.setR (fltR 0x6C) (fields [(0, num), (16, 1), (17, cls)])
      let s := s.setR (fltR 0x80) (fields [(0, src), (8, cls), (12, m.access), (31, 1)])
      let s := s.setR (fltR 0x84) (fields [(0, m.idx % 2 ^ 12), (12, m.kind)])
      let s := (s.setR (fltR 0x88) m.addr).setR (fltR 0x90) s.hubTime
      let s := (s.setR (fltR 0x98) m.detail).setR (fltR 0x9C) 0
      let s := s.irq fltPage 16
      cpBoth (faultIrq { s with flt := { s.flt with grace := 1 ≤ cls } }) 4
    else
      let s := s3.setR (fltR 0x9C) (satAdd 32 (s3.r (fltR 0x9C)) 1)
      let old := s.fld (fltR 0x6C) 17 2
      if old < cls then cpBoth (faultIrq (s.setFld (fltR 0x6C) 17 2 cls)) 4 else s
  if cls = 2 then fatalAct s4 inst else s4

/-- A contained fault (R432): an entry of the contained-fault log and a UCE-C on CONTAINEDi. `kind`: 0 job, 1 queue, 2 VD,
3 partition, 4 site. -/
def contained (s : State) (i kind status id : Nat) : State :=
  let s :=
    if s.flt.cf.length < 256 then
      { s with flt := { s.flt with cf := s.flt.cf ++ [(⟨i, kind, status, id, s.time i⟩ : CfEntry)] } }.irq fltPage 19
    else { s with flt := { s.flt with cfOver := true } }
  faultEvent s (62 + i) 1 {} none

/-- A NOC_CTRL event: a CONTROL or TRANSLATION request of an instance refused or failed (R424, R426). -/
def nocCtrl (s : State) (i addr access : Nat) : State :=
  faultEvent s 56 1 { kind := 6, idx := i, access, addr } none

/-! ### Output pins (R43, R44, R413, R431) -/

/-- Whether IGX holds its output pins: power-on or warm reset is asserted (R43). -/
def State.held (s : State) : Bool := s.por || s.warm

/-- The driven level of IGX_FAULT_N: low while FLT.WORD AND NOT FLT.PIN_MASK is not 0 (R431). -/
def faultLevel (s : State) : Bool :=
  let w := s.r (fltR 0x40)
  w == (w &&& s.r (fltR 0x58))

/-- The driven level of IGX_ALERT_N: low while an unmasked bit of THR.ALERT is set (R413). -/
def alertLevel (s : State) : Bool :=
  let w := s.r (reg .thr 0 0 0x44)
  w == (w &&& s.r (reg .thr 0 0 0x48))

/-- The driven level of IGX_THERMTRIP_N: low on a thermal trip (R411). -/
def thermLevel (s : State) : Bool := !s.thermTrip

/-- The driven level of IGX_SPI_CS_N: low while a flash operation runs (R43, R474). -/
def spiLevel (s : State) : Bool := s.nv.ops.isEmpty

/-- The level of a pin that is driven, of a course the manual does not state (R43, R474) (DESIGN CHOICE, log entry 126). -/
def drivenLevel (s : State) (pin : Nat) : Bool := Config.freeLevel pin s.free == some true

/-- The level of an open-drain pin (R43, R490): pulled low or released. -/
def openDrain (s : State) (pin : Nat) : Pin := if Config.freeLevel pin s.free == some false then some false else none

/-- The levels of IGX_SPI_IO[3:0] outside reset (R43): driven by IGX or not, as the flash protocol has it (DESIGN CHOICE, log entry 126). -/
def spiIoLevels (s : State) : List Pin := (List.range 4).map fun n => Config.freeLevel (4 + n) s.free

/-- The output pins follow their sources, and are released while reset is held (R43, R44) (DESIGN CHOICE, log entry 126). -/
def drivePins (s : State) : State :=
  if s.held then
    { s with pinFault := none, pinAlert := none, pinTherm := none, pinSpiCs := none, pinSpiClk := none, pinSpiIo := [none, none, none, none],
             pinScl := none, pinSda := none }
  else
    { s with pinFault := some (faultLevel s), pinAlert := some (alertLevel s), pinTherm := some (thermLevel s), pinSpiCs := some (spiLevel s),
             pinSpiClk := some (drivenLevel s 0), pinSpiIo := spiIoLevels s, pinScl := openDrain s 1, pinSda := openDrain s 2 }

end Sys2Proof.Machine
end

