-- ==== Sys2Proof/Machine/Qops.lean ====
section
/-! DEFINITION. Operations on queues: contexts (R110, R113), the context cache (R112), halts (R120), the host-absence
journal (R89, R90), interrupt messages (R122, R123), the end of a position (R117, R120). -/
namespace Sys2Proof.Machine

/-- QM page registers of instance `i`. -/
def qmR (i n off : Nat) : Nat := reg .qm i n off

/-- QM page `n`. -/
def qmPage (i n : Nat) : PageId := ⟨.qm, i, n⟩

/-- The HBM address of the context of queue index `q` (R110). -/
def ctxKey (s : State) (i q : Nat) : Nat := s.r (qmR i 0 0xD0) + 64 * q

/-- The hub queue number (R27). -/
def hubQ (i q : Nat) : Nat := 2 ^ 20 * i + q

/-- Queue `q` of home instance `i`. -/
def State.q (s : State) (i q : Nat) : Queue := Tbl.getD (s.qm.get i).ctxs (ctxKey s i q) {}

/-- The state with queue `q` replaced. -/
def State.setQ (s : State) (i q : Nat) (x : Queue) : State :=
  { s with qm := s.qm.upd i fun m => { m with ctxs := Tbl.put m.ctxs (ctxKey s i q) x } }

/-- The state with queue `q` changed. -/
def State.updQ (s : State) (i q : Nat) (f : Queue → Queue) : State := s.setQ i q (f (s.q i q))

/-- The listed queues of an instance, with their indices. -/
def queuesOf (s : State) (i : Nat) : List (Nat × Queue) :=
  let b := s.r (qmR i 0 0xD0)
  (s.qm.get i).ctxs.filterMap fun e =>
    if b ≤ e.1 && (e.1 - b) / 64 < 2 ^ 20 && (e.1 - b) % 64 == 0 then some ((e.1 - b) / 64, e.2) else none

/-- Whether a queue is DISABLED. -/
def Queue.disabled (x : Queue) : Bool := x.mode == .disabled

/-- Partition and VD of a queue's context tag (R110). -/
def Queue.part (x : Queue) : Nat := bits x.ctx.ctxTag 12 4

/-- The VD of a queue's context tag. -/
def Queue.vd (x : Queue) : Nat := bits x.ctx.ctxTag 0 12

/-- Whether new positions may start in the queue's state (R113): RUNNING and CQ_FULL. -/
def Queue.startable (x : Queue) : Bool :=
  x.mode == .enabled && !x.conds.indet && !x.conds.error && !x.conds.hostWait && !x.conds.curtain && !x.evt.isSome &&
  !x.conds.ahead

/-- The expected gen bit of position `p` (R106). -/
def Queue.gen (x : Queue) (p : Nat) : Bool := (p >>> x.ctx.ringLog2) % 2 == 0

/-- The position with a number, if fetched. -/
def Queue.pos? (x : Queue) (p : Nat) : Option Pos := x.poss.find? fun y => y.pos == p

/-- The queue with a position replaced by its image. -/
def Queue.updPos (x : Queue) (p : Nat) (f : Pos → Pos) : Queue :=
  { x with poss := x.poss.map fun y => if y.pos = p then f y else y }

/-! ### Requests of QM's own (R153-R155) -/

/-- The pools of an instance. -/
def State.pool (s : State) (i : Nat) : Pools := s.pools.get i

/-- The state with the pools of an instance changed. -/
def State.updPool (s : State) (i : Nat) (f : Pools → Pools) : State := { s with pools := s.pools.upd i f }

/-- The latest pressure level of a class at a NIF port (R155). -/
def setPressure (s : State) (i nif cls lvl : Nat) : State :=
  s.updPool i fun p => { p with pressure := if lvl = 0 then Tbl.del p.pressure (4 * nif + cls) else Tbl.put p.pressure (4 * nif + cls) lvl }

/-- A free slot for one of QM's own writes: they have numbers of their own, 8,192 to 16,383, beside the channels' 8,192 slots (DESIGN CHOICE, log entry 159). -/
def freeQmSlot (s : State) (i : Nat) : Nat := (Tbl.freshFrom (s.pool i).writes 8192 8192).getD 16383

/-- A CONTROL write of a context, a vector entry, a journal record or a report (R154): its response brings a pressure level (R155) and frees its
slot. -/
def ctlWrite (s : State) (i addr ctx : Nat) (bytes : List Byte) : State :=
  let c := carrier s i
  let slot := freeQmSlot s c
  (s.updPool c fun p => { p with writes := Tbl.put p.writes slot { owner := .ctl, port := none, sp := 0, addr, taddr := addr, bytes } }).emit
    (.nocWrite c none slot addr 2 ctx 0 bytes)

/-- The level that the response of a CONTROL read brings its NIF port (R155). -/
def ctlPress (s : State) (i : Nat) (p : NifPress) : State := setPressure s (carrier s i) p.nif.val 2 p.level.toNat

/-! ### Context images (R110) -/

/-- The 64 bytes of a context as a number. -/
def ctxImage (x : Queue) : Nat :=
  let c := x.ctx
  fields [(0, x.state), (4, c.cls), (5, c.ringLoc), (6, c.cqLoc), (7, b2n c.pinned), (8, c.group), (10, c.kind), (12, c.save),
    (16, c.gen), (24, c.ringLog2), (32, c.ctxTag), (48, c.timeoutMs), (64, c.ringBase), (128, c.cqBase), (192, c.tail),
    (224, c.fetch), (256, c.done), (280, c.cqLog2), (288, c.cqHead), (320, c.cqSeq), (352, c.vector), (368, c.irqCount),
    (376, c.irqTimeUs), (384, c.prio), (392, c.fetchAhead), (416, c.irqPending), (424, c.aheadTries), (448, c.dbTime)]

/-- The driver's fields of a context image; the fields marked "IGX" keep their values. -/
def QCtx.load (c : QCtx) (n : Nat) : QCtx :=
  { c with cls := bits n 4 1, ringLoc := bits n 5 1, cqLoc := bits n 6 1, group := bits n 8 2, kind := bits n 10 2,
           save := bits n 12 1, gen := bits n 16 8, ringLog2 := bits n 24 5, ctxTag := bits n 32 16,
           timeoutMs := bits n 48 16, ringBase := bits n 70 58 * 64, cqBase := bits n 133 59 * 32, tail := bits n 192 24,
           fetch := bits n 224 24, done := bits n 256 24, cqLog2 := bits n 280 5, cqHead := bits n 288 24,
           cqSeq := bits n 320 32, vector := bits n 352 16, irqCount := bits n 368 8, irqTimeUs := bits n 376 8,
           prio := bits n 384 8, fetchAhead := bits n 392 7 }

/-- The fields of bytes 0x2C-0x33 of a context image alone (R115). -/
def QCtx.loadTail (c : QCtx) (n : Nat) : QCtx :=
  { c with vector := bits n 352 16, irqCount := bits n 368 8, irqTimeUs := bits n 376 8, prio := bits n 384 8,
           fetchAhead := bits n 392 7 }

/-- Whether an image changes a field that WRITE may not change outside DISABLED (R115): one supplied by the driver, not
marked "IGX" or "IGX after ENABLE", outside bytes 0x2C-0x33 (DEDUCED, log entry 36). -/
def QCtx.differs (c : QCtx) (n : Nat) : Bool :=
  let d := c.load n
  let keep (x : QCtx) : QCtx := { x with tail := 0, fetch := 0, done := 0, cqHead := 0, cqSeq := 0, vector := 0, irqCount := 0, irqTimeUs := 0, prio := 0, fetchAhead := 0 }
  keep d != keep c

/-- fetch_ahead: 0 and values above 64 act as 64 (R110). -/
def QCtx.ahead (c : QCtx) : Nat := if c.fetchAhead = 0 || 64 < c.fetchAhead then 64 else c.fetchAhead

/-! ### The context cache (R112) -/

/-- Whether a context is cached. -/
def cached (s : State) (i q : Nat) : Bool := (Tbl.getD (s.qm.get i).cache (q % 1024) []).contains q

/-- The ways of a set of the context cache: 16 less the banks lost beyond the spare (R449). -/
def ccWays (s : State) (i : Nat) : Nat := 16 - banksLost s i 7

/-- A context that leaves the cache is written back to HBM if it is dirty: if HBM holds another image of it (R112). -/
def ctxBack (s : State) (i q : Nat) : State :=
  let x := s.q i q
  let n := ctxImage x
  if n = x.stored then s else ctlWrite (s.updQ i q fun x => { x with stored := n }) i (ctxKey s i q) x.ctx.ctxTag (leBytes 64 n)

/-- A context looked up and used: it becomes the most recently used way of its set; a new one replaces the least
recently used unpinned way, which is written back (R112). -/
def touchCtx (s : State) (i q : Nat) : State :=
  let set := Tbl.getD (s.qm.get i).cache (q % 1024) []
  let rest := set.filter (· != q)
  let victim := if rest.length < ccWays s i then none else rest.reverse.find? fun v => !(s.q i v).ctx.pinned
  let rest := rest.filter fun v => victim != some v
  let s := match victim with
    | some v => ctxBack s i v
    | none => s
  { s with qm := s.qm.upd i fun m => { m with cache := Tbl.put m.cache (q % 1024) (q :: rest) } }

/-- Pinned contexts of an instance. -/
def pinnedOf (s : State) (i : Nat) : List Nat := (queuesOf s i).filterMap fun e => if e.2.ctx.pinned then some e.1 else none

/-- QM.CC_STATUS.pinned follows the contexts. -/
def showPinned (s : State) (i : Nat) : State := s.setFld (qmR i 3 0x40) 0 13 (pinnedOf s i).length

/-! ### Virtual devices (R374, R378) -/

/-- The record of VD 0, which always exists: all queues, vectors and event counters of the instance, every site (R374). -/
def vdZero : VdRec := { st := .active, cfg0 := 0xFFF * 2 ^ 32, cfg1 := 2 ^ 20 * 2 ^ 32, cfg2 := 65536 * 2 ^ 32, cfg3 := 4096 * 2 ^ 16 }

/-- Record of VD `v` of instance `i`. -/
def State.vd (s : State) (i v : Nat) : VdRec := if v = 0 then vdZero else Tbl.getD (s.vdm.get i) v {}

/-- The state with the record of a VD changed. -/
def State.updVd (s : State) (i v : Nat) (f : VdRec → VdRec) : State := { s with vdm := s.vdm.upd i fun m => Tbl.upd m v {} f }

/-- The VD page of VD `v`. -/
def vdPage (i v : Nat) : PageId := ⟨.vd, i, v⟩

/-- The event counter that a VD-relative number names (R378). -/
def evtOf (s : State) (i v n : Nat) : Option Nat :=
  let r := s.vd i v
  if n < bits r.cfg3 16 13 then some (bits r.cfg3 0 12 + n) else none

/-! ### Halts (R120) -/

/-- A queue enters HOST_WAIT without a record's status (R88, R90, R113): no halt, but page interrupt 17 of its VD (R391); its last error shows halts
alone (DEDUCED, log entry 160). -/
def enterHostWait (s : State) (i q : Nat) : State :=
  let x := s.q i q
  if x.mode != .enabled || x.conds.hostWait then s
  else
    let s := s.updQ i q fun x => { x with conds := { x.conds with hostWait := true } }
    if (s.vd i x.vd).st == .free then s else s.irq (vdPage i x.vd) 17

/-- The halt log entry of a queue (R114), the halt interrupt, the last error and interrupt of its VD's page (R391). A halt that finds
256 entries is not logged. -/
def logHalt (s : State) (i q status state : Nat) : State :=
  let m := s.qm.get i
  let s :=
    if m.halts.length < 256 then
      { s with qm := s.qm.set i { m with halts := m.halts ++ [fields [(63, 1), (32, status), (24, state), (0, hubQ i q)]] } }
    else s.perr (qmPage i 0) 16
  let s := s.irq (qmPage i 0) 17
  let v := (s.q i q).vd
  let r := s.vd i v
  if r.st == .free then s
  else (s.setR (reg .vd i v 0x98) (fields [(63, 1), (56, state), (48, status), (0, q - bits r.cfg1 0 20)])).irq (vdPage i v) 17

/-- The condition a record's status puts a queue in (R120): 4 HOST_WAIT, 8 INDETERMINATE, 7 ERROR; 0 none. -/
def haltState (status : Nat) : Nat :=
  if status = 0 then 0 else if status = 1 || status = 0xB then 4 else if status = 5 then 8 else 7

/-- Whether a queue has the condition of a state code of R120 already. -/
def QConds.has (c : QConds) (st : Nat) : Bool := if st = 4 then c.hostWait else if st = 8 then c.indet else c.error

/-- The queue enters ERROR, HOST_WAIT or INDETERMINATE (R120): a halt, unless it is there already or DRAINING shows over it; a disabled queue
keeps no condition (R113). -/
def haltQueue (s : State) (i q status : Nat) : State :=
  let st := haltState status
  let x := s.q i q
  if st = 0 || x.mode == .disabled || x.conds.has st then s
  else
    let s := s.updQ i q fun x => { x with conds :=
      { x.conds with error := x.conds.error || st == 7, hostWait := x.conds.hostWait || st == 4, indet := x.conds.indet || st == 8 } }
    if x.mode == .enabled then logHalt s i q status st else s

/-! ### The end of a position (R117, R120) -/

/-- A position ends: its record is formed and its status changes the queue at once. `halt` is false for a TORN_DOWN
record written by RESET. The record may be delivered once the partner holds the job end (R437) (DEDUCED, log entry 34). -/
def endPos (s : State) (i q pos status result : Nat) (halt : Bool) : State :=
  let x := s.q i q
  match x.pos? pos with
  | none => s
  | some p =>
    let user := match p.descs.head? with
      | some d => fieldAt d.raw 4 4
      | none => 0
    let r : Rec := { status, result, user, time := s.time i, reissued := p.reissue }
    let m := mirrored s i
    let s := s.updQ i q fun x => x.updPos pos fun y =>
      { y with ph := .ended, recs := y.recs ++ [r], held := m, chan := none }
    let s := if m then s.report i [.record (ctxKey s i q) pos] else s
    if halt && q < 2 ^ 20 then haltQueue s i q status else s

/-- A further record of a position that does not end it (R88, R109). -/
def addRec (s : State) (i q pos status result : Nat) : State :=
  let user := match (s.q i q).pos? pos with
    | some p => (match p.descs.head? with | some d => fieldAt d.raw 4 4 | none => 0)
    | none => 0
  s.updQ i q fun x => x.updPos pos fun y =>
    { y with recs := y.recs ++ [{ status, result, user, time := s.time i, reissued := y.reissue, keep := true }] }

/-- Every queue of the group, torn down as a UCE-C needs (R91, R93): its indices. -/
def queuesOfGroup (s : State) (i g : Nat) : List Nat :=
  (queuesOf s i).filterMap fun e => if e.2.ctx.group = g && !e.2.disabled then some e.1 else none

/-! ### Job counts (R126) -/

/-- The counts of a client VD changed. -/
def updJobs (s : State) (i vd : Nat) (f : JobCount → JobCount) : State :=
  { s with qm := s.qm.upd i fun m => { m with jobs := Tbl.upd m.jobs vd {} f } }

/-! ### The host-absence journal (R89, R90) -/

/-- The bytes of a journal record (R89). -/
def JRec.bytes (r : JRec) : List Byte :=
  let n := (r.payload.length + 31) / 32
  leBytes 4 (fields [(0, r.typ), (8, r.group), (10, n)]) ++ leBytes 4 r.seq ++ leBytes 8 r.time ++ leBytes 4 r.queue ++ leBytes 4 r.aux ++
  leBytes 8 r.iova ++ r.payload ++ List.replicate (32 * n - r.payload.length) 0

/-- The context tag of the queue that a journal record names; 0 for an INTERRUPT or JOURNAL_FULL record, which name none. -/
def JRec.tag (s : State) (i : Nat) (r : JRec) : Nat := if r.typ = 2 || r.typ = 5 then 0 else (s.q i (r.queue % 2 ^ 20)).ctx.ctxTag

/-- Bytes of a journal record: a 32 B header and its payload. -/
def JRec.size (r : JRec) : Nat := 32 + alignUp r.payload.length 32

/-- Bytes held in the journal of instance `i`. -/
def jrnlFill (s : State) (i : Nat) : Nat := ((s.jrnl.get i).recs.map JRec.size).sum

/-- The size of the journal in bytes (XBAR.JRNL_SIZEi). -/
def jrnlSize (s : State) (i : Nat) : Nat := s.fld (reg .xbar 0 0 (0x108 + 0x40 * i)) 0 16 * 2 ^ 20

/-- Whether the reserve has room for a record (R90). -/
def jrnlRoom (s : State) (i n : Nat) : Bool := jrnlFill s i + n ≤ jrnlSize s i

/-- The fill registers follow the journal (R81). -/
def showJrnl (s : State) (i : Nat) : State :=
  let n := (s.jrnl.get i).recs.length
  (s.setR (reg .xbar 0 0 (0x110 + 0x40 * i)) (jrnlFill s i)).setR (reg .xbar 0 0 (0x118 + 0x40 * i)) n

/-- Queues of ABSENT groups enter HOST_WAIT (R90): from the next descriptor boundary no position of theirs starts. -/
def hostWaitAbsent (s : State) (i : Nat) : State :=
  (queuesOf s i).foldl (fun s e =>
    if (s.group e.2.ctx.group).st == .absent then enterHostWait s i e.1 else s) s

/-- One record put at the end of a journal with the next sequence number: a CONTROL write to HBM (R154) (DESIGN CHOICE, log entry 127). -/
def jrnlPut (s : State) (i : Nat) (r : JRec) : State :=
  let j := s.jrnl.get i
  let r := { r with seq := j.seq % 2 ^ 32, due := false }
  let s' := ctlWrite s i (s.r (reg .xbar 0 0 (0x100 + 0x40 * i)) + jrnlFill s i) (r.tag s i) r.bytes
  showJrnl (({ s' with jrnl := s.jrnl.set i { j with recs := j.recs ++ [r], seq := (j.seq + 1) % 2 ^ 32 } } : State).emit (.journal i r.seq)) i

/-- Whether a record would have to wait for the reserve (R90). -/
def jrnlFull (s : State) (i : Nat) (r : JRec) : Bool := !jrnlRoom s i r.size || !(s.jrnl.get i).waiting.isEmpty

/-- A record that is due put into instance `i`'s journal (R89, R90). When free space falls to the 1 MiB reserve, one JOURNAL_FULL
record follows, which names the group of the record before it, and the queues of every ABSENT group enter HOST_WAIT; a record that finds the
reserve full waits, and the queue `q` it is of shows HOST_WAIT (DESIGN CHOICE, log entry 128). -/
def jrnlAdd (s : State) (i : Nat) (r : JRec) (q : Option Nat) : State :=
  if jrnlFull s i r then
    let s : State := { s with jrnl := s.jrnl.upd i fun j => { j with waiting := j.waiting ++ [r] } }
    match q with
    | some q => enterHostWait s i q
    | none => s
  else
    let s := jrnlPut s i r
    if !(s.jrnl.get i).full && jrnlSize s i ≤ jrnlFill s i + 2 ^ 20 then
      let s := { s with jrnl := s.jrnl.upd i fun j => { j with full := true } }
      hostWaitAbsent (hostWaitAbsent (jrnlPut s i { typ := 5, group := r.group, seq := 0, time := s.time i }) 0) 1
    else s

/-- A record of queue index `q` appended to a journal: it is stamped with the time at which IGX would have issued the write (R89). -/
def jrnlAppend (s : State) (i q : Nat) (r : JRec) : State := jrnlAdd s i { r with time := s.time i } (if q < 2 ^ 20 then some q else none)

/-! ### Interrupt messages (R122, R123) -/

/-- The HBM address of vector entry `v` (R114). -/
def vtKey (s : State) (i v : Nat) : Nat := s.r (qmR i 0 0xD8) + 16 * v

/-- Vector entry `v` of instance `i`. An entry nothing has written reads as zero: not valid. -/
def vtEntry (s : State) (i v : Nat) : VEntry := Tbl.getD (s.qm.get i).vt (vtKey s i v) {}

/-- Bits [63:0] of bytes 8-15 of a vector entry (R122). -/
def VEntry.high (e : VEntry) : Nat := fields [(0, e.data), (32, b2n e.mask), (33, b2n e.pending), (34, e.group), (36, b2n e.valid)]

/-- The state with a vector entry replaced; QM caches it (R122). -/
def setVt (s : State) (i v : Nat) (e : VEntry) : State :=
  { s with qm := s.qm.upd i fun m =>
      { m with vt := Tbl.put m.vt (vtKey s i v) e, vtCache := (v :: m.vtCache.filter (· != v)).take (2048 - 128 * banksLost s i 4) } }

/-- The number that stands for no queue where a message has none: a VD page's, or one that an unmasking WRITE sends. -/
def noQ : Nat := 2 ^ 20

/-- A read of a vector entry (R122): a CONTROL read with the context tag of the queue it serves (R154). -/
def vtFetch (s : State) (i v q : Nat) : State :=
  s.emit (.nocRead (carrier s i) none 0 (vtKey s i v) 16 2 (if q < noQ then (s.q i q).ctx.ctxTag else 0) 0)

/-- A write of a vector entry to HBM (R122). -/
def vtStore (s : State) (i v : Nat) (e : VEntry) : State :=
  ctlWrite (setVt s i v e) i (vtKey s i v) 0 (leBytes 8 e.addr.toNat ++ leBytes 8 e.high)

/-- irq_pending of a queue cleared (R123). -/
def clearPend (s : State) (i q : Nat) : State :=
  if q < noQ then s.updQ i q fun x => { x with ctx := { x.ctx with irqPending := 0 } } else s

/-- The port a queue's message is bound to (R123): that of its last record, where the entry names the queue's group. -/
def msgPort (s : State) (i q : Nat) (e : VEntry) : Option Nat :=
  if q < noQ && e.group == (s.q i q).ctx.group then (s.q i q).recPort else none

/-- The port a message may leave on now: the one it is bound to while that is UP; a port of the group under R79 once that is down or where
there is none; `none` while it has to wait for a port that retrains (R84) or for any port. -/
def msgGo (s : State) (i : Nat) (e : VEntry) (port : Option Nat) : Option Nat :=
  match port with
  | some p => stayPort s p e.group (carrier s i)
  | none => pickPort s e.group (carrier s i)

/-- A message to the address and data of a vector entry (R122, R123): to the journal while the entry's group is ABSENT, once
per vector and absence (R89); else on its port, once it may leave. Sending clears irq_pending. -/
def vtMessage (s : State) (i v : Nat) (e : VEntry) (q : Nat) : State :=
  if absent s e.group then
    let s := clearPend s i q
    if (s.group e.group).jvecs.contains (65536 * i + v) then s
    else jrnlAppend (s.updGroup e.group fun g => { g with jvecs := (65536 * i + v) :: g.jvecs }) i q
      { typ := 2, group := e.group, seq := 0, time := 0, queue := v, aux := e.data, iova := e.addr.toNat }
  else
    match msgGo s i e (msgPort s i q e) with
    | some p => (clearPend s i q).emit (.vecMsg p e.addr.toNat e.data (strictAttr s p))
    | none => { s with qm := s.qm.upd i fun m => { m with msgWait := if m.msgWait.contains (v, q) then m.msgWait else m.msgWait ++ [(v, q)] } }

/-- QM sends the message of vector `v` (R123): nothing from an invalid entry, the pending bit while it is masked, written to HBM as well (R154);
irq_pending is cleared
then too (DEDUCED, log entry 129). -/
def fireVector (s : State) (i v q : Nat) : State :=
  let e := vtEntry s i v
  if !e.valid then clearPend s i q
  else if e.mask then clearPend (if e.pending then setVt s i v e else vtStore s i v { e with pending := true }) i q
  else vtMessage (setVt s i v e) i v e q

/-- Messages that wait tried again, oldest first. -/
def wakeMsgs (s : State) : State :=
  let one (i : Nat) (s : State) : State :=
    (s.qm.get i).msgWait.foldl (fun s e => fireVector s i e.1 e.2) { s with qm := s.qm.upd i fun m => { m with msgWait := [] } }
  one 1 (one 0 s)

/-- The UCE-C of a failed read of a vector entry (R122): a NOC_CTRL event (R424), or an HBM data event (R434); a refusal by the range check
counts (R221). -/
def vtFault (s : State) (i v : Nat) (st : Rsp) : State :=
  match st with
  | .range => nocCtrl (s.bump (reg .atu i 3 0xA0) 1) (carrier s i) (vtKey s i v) 1
  | .noc => nocCtrl s (carrier s i) (vtKey s i v) 1
  | _ => faultEvent s (16 * carrier s i + 2) 1 { kind := 6, idx := carrier s i, access := 1, addr := vtKey s i v } (some (carrier s i))

/-- A message held until a read of its entry succeeds (R122). -/
def vtHold (s : State) (i v q : Nat) : State :=
  { s with qm := s.qm.upd i fun m => { m with vtRetry := if m.vtRetry.contains (v, q) then m.vtRetry else m.vtRetry ++ [(v, q)] } }

/-- Whether a queue's message waits already, so that a further condition adds none. -/
def msgHeld (s : State) (i v q : Nat) : Bool := (s.qm.get i).vtRetry.contains (v, q) || (s.qm.get i).msgWait.contains (v, q)

/-- QM sends a queue's interrupt message (R123). `r` is how a read of an entry that is not cached ends, and the level it brings (R155). -/
def sendIrq (s : State) (i q : Nat) (r : NocEnd) : State :=
  let v := (s.q i q).ctx.vector
  if msgHeld s i v q then s
  else if (s.qm.get i).vtCache.contains v then fireVector s i v q
  else
    let s := ctlPress (vtFetch s i v q) i r.press
    if r.st == .ok then fireVector s i v q else vtFault (vtHold s i v q) i v r.st

/-- The message of vector `v` where no command brings the end of a read: an entry that is not cached is read first, as R122 states, with the
message held until VECTOR_READ_RETRY brings the end of that read (DESIGN CHOICE, log entry 130). -/
def messageLater (s : State) (i v q : Nat) : State :=
  if msgHeld s i v q then s
  else if (s.qm.get i).vtCache.contains v then fireVector s i v q
  else vtHold (vtFetch s i v q) i v q

/-! ### Event counters (R124) -/

/-- Event counter `n` of an instance. -/
def evtCtr (s : State) (i n : Nat) : EvtCtr := Tbl.getD (s.qm.get i).evts n {}

/-- The state with a counter changed. -/
def setEvt (s : State) (i n : Nat) (e : EvtCtr) : State :=
  { s with qm := s.qm.upd i fun m => { m with evts := Tbl.put m.evts n e } }

/-- Whether a queue may use a counter (R125): valid, and the owner's ctx_tag, or only its partition, is the queue's. -/
def evtAllowed (e : EvtCtr) (tag : Nat) : Bool :=
  bitAt e.owner 31 && (if bitAt e.owner 16 then bits e.owner 12 4 == bits tag 12 4 else bits e.owner 0 16 == tag)

/-! ### Context commands (R115) -/

/-- A context command ends with a result; one that changed a context reports once the partner holds the change (R115). -/
def ctxEnd (s : State) (i q result : Nat) (changed : Bool) : State :=
  if changed && mirrored s i then (s.setR (qmR i 0 0x48) 1).report i [.ctx (ctxKey s i q) result] else ctxStatus s i result (s.q i q)

/-! ### Doorbells at their queue (R101-R103, R108) -/

/-- A dropped doorbell (R102): QM.DB_DROPPED, QM.DB_LAST_DROP, and the VD's own count where it came through its window (R390).
`n` is the hub queue, or the VD-relative number of NO_QUEUE in a VD window. -/
def dropDb (s : State) (i reason n : Nat) (d : DbWait) : State :=
  let s := (s.bump (qmR i 2 0x68) 1).setR (qmR i 2 0x70)
    (fields [(32, s.time i % 2 ^ 32), (30, d.port), (29, b2n d.indexed), (24, reason), (0, n)])
  match d.vd with
  | none => s
  | some v =>
    let rel := if reason = 1 then n else n % 2 ^ 20 - bits (s.vd i v).cfg1 0 20
    updJobs s i v fun j => { j with dbDropped := j.dbDropped + 1, lastDrop := fields [(24, reason), (0, rel)] }

/-- A doorbell at its queue, in arbiter order: the checks of R102 and its effect. An accepted one makes a queue in AHEAD read
again (R108) (DEDUCED, log entry 28). -/
def applyDb (s : State) (i q : Nat) (d : DbWait) : State :=
  let x := s.q i q
  let c := x.ctx
  let p := d.payload.toNat
  let v := bits p 0 24
  let drop (r : Nat) : State := dropDb s i r (hubQ i q) d
  let reread (x : Queue) : Queue :=
    { x with poss := x.poss.map fun y => if y.fet == .parked then { y with fet := .due } else y, ctx := { x.ctx with dbTime := s.time i } }
  if x.mode != .enabled then drop 2
  else if bits p 32 8 != c.gen then drop 3
  else if bitAt p 31 then
    if sub24 (c.cqSeq % 2 ^ 24) c.cqHead < sub24 v c.cqHead then drop 6
    else (s.bump (qmR i 2 0x60) 1).updQ i q fun x => reread { x with ctx := { x.ctx with cqHead := v } }
  else
    let n := sub24 v c.tail
    if n = 0 then (s.bump (qmR i 2 0x60) 1).updQ i q reread
    else if 2 ^ c.ringLog2 < n || 2 ^ c.ringLog2 < sub24 v c.done then drop 4
    else
      let s := updJobs (s.bump (qmR i 2 0x60) 1) i x.vd fun j => { j with submitted := (j.submitted + n) % 2 ^ 64 }
      s.updQ i q fun x => reread
        { x with ctx := { x.ctx with tail := v },
                 irqNow := if bitAt p 25 then x.irqNow ++ [(v + 2 ^ 24 - 1) % 2 ^ 24] else x.irqNow,
                 fences := if bitAt p 24 then x.fences ++ [c.tail] else x.fences }

/-- Whether an ENABLE of a queue waits for a translation of its rings (R116): a doorbell that follows it waits for its end (R103). -/
def enabling (s : State) (i q : Nat) : Bool := (s.atu.get i).misses.any fun m => m.who == .enable q

/-- The doorbells that wait at a queue take effect in order, once its context is cached and no ENABLE of it is underway (R103, R104). -/
def wakeDbs (s : State) (i q : Nat) : State :=
  if !cached s i q || enabling s i q then s
  else ((s.q i q).dbWait).foldl (fun s d => applyDb s i q d) (s.updQ i q fun x => { x with dbWait := [] })

end Sys2Proof.Machine
end

