-- ==== Sys2Proof/Machine/Flags.lean ====
section
/-! DEFINITION. What follows from every step: page interrupts become messages on their rise (R55, R61, R121, R391), and the
output pins follow their sources (R43, R413, R431). Each meaning ends in `done`, under a gate for resets. -/
namespace Sys2Proof.Machine

/-- The interrupt bits of a page that are 1 and enabled (R55). -/
def raisedBits (s : State) (p : PageId) : List Nat := onesOf (irqStatus s p &&& s.r (p.key + 0x1C)) 32

/-- The VD pages with interrupt bits that have risen between two states: each page once for every such bit (R391). -/
def vdRises (old new : State) : List PageId :=
  ((eventPages new).filter fun p => p.ty == .vd).eraseDups.flatMap fun p =>
    ((raisedBits new p).filter fun b => !(raisedBits old p).contains b).map fun _ => p

/-- The message of a VD page: vector entry vector_base + mbox_vector (R391). -/
def vdMessage (s : State) (p : PageId) : State :=
  let r := s.vd p.inst p.idx
  messageLater s p.inst (bits r.cfg2 0 16 + bits r.cfg3 32 16) noQ

/-- The register interrupt of instance `i` on the rise of its GEN.IRQ_SUMMARY (R121). -/
def regInterrupt (old new : State) (i : Nat) : State :=
  if irqSummary old i == 0 && irqSummary new i != 0 then sendMsix new (new.fld (qmR i 0 0x100) 0 4) i else new

/-- The interrupt messages that follow from a step that led from `old` to `new`. -/
def messages (old new : State) : State :=
  if new.regs == old.regs && new.por == old.por && new.warm == old.warm then new
  else (vdRises old new).foldl vdMessage (regInterrupt old (regInterrupt old new 0) 1)

/-- What follows from a step that led from `old` to `new`: messages, and the levels of the output pins. Only the carrying out of writes that
waited changes whether a write came late (R66). -/
def finish (old new : State) : State :=
  let s := drivePins (messages old new)
  { s with txn := ⟨{ s.txn.a with late := old.txn.a.late }, { s.txn.b with late := old.txn.b.late }⟩ }

/-- The outcome of a command whose effect on the state is `new`. -/
def done (old new : State) : Host.Outcome State Fault Refusal := .next (finish old new)

/-- A command served by an island that resets with power-on and warm reset: without effect while either is held (R37, R45) (DESIGN CHOICE, log entry 5). -/
def live (s : State) (f : State → State) : Host.Outcome State Fault Refusal := if s.held then .next s else done s (f s)

/-- A command served by AON, which only power-on reset clears (R37). -/
def aon (s : State) (f : State → State) : Host.Outcome State Fault Refusal := if s.por then .next s else done s (f s)

/-- A command served by the instance that serves the resources of `i`: without effect while nobody serves them. -/
def liveI (s : State) (i : Nat) (f : State → State) : Host.Outcome State Fault Refusal :=
  live s fun s => if (server s i).isSome then f s else s

end Sys2Proof.Machine
end

