-- ==== Sys2Proof/Machine/Access.lean ====
section
/-! DEFINITION. Access counters (R233-R235) and migration holds (R236-R238), with the commands of the ACC page. -/
namespace Sys2Proof.Machine

/-- ACC page registers of instance `i`. -/
def accR (i off : Nat) : Nat := reg .acc i 0 off

/-- The ACC page. -/
def accPage (i : Nat) : PageId := ⟨.acc, i, 0⟩

/-- The set of the counter table an entry lies in (R234). The manual does not give the index: the page number modulo 256. -/
def accSet (page : Nat) : Nat := page % 256

/-- A 32 B report record (R235) at a slot of the ring, and the ring registers after it. -/
def putReport (s : State) (i : Nat) (w0 addr count writes : Nat) : State :=
  let tail := s.r (accR i 0x60)
  let size := 2 ^ s.fld (accR i 0x58) 0 5
  let seq := s.r (accR i 0x64)
  let bs := leBytes 4 w0 ++ leBytes 4 seq ++ leBytes 8 addr ++ leBytes 4 count ++ leBytes 4 writes ++ leBytes 8 (s.time i)
  let empty := tail == s.r (accR i 0x5C)
  let s := ctlWrite s i (s.r (accR i 0x50) + 32 * tail) 0 bs
  let s := (s.setR (accR i 0x60) ((tail + 1) % size)).setR (accR i 0x64) ((seq + 1) % 2 ^ 32)
  if empty then s.irq (accPage i) 16 else s

/-- Whether the report ring is full (R235). -/
def reportFull (s : State) (i : Nat) : Bool :=
  (s.r (accR i 0x60) + 1) % 2 ^ s.fld (accR i 0x58) 0 5 == s.r (accR i 0x5C) % 2 ^ s.fld (accR i 0x58) 0 5

/-- A report posted: dropped and counted on a full ring; after drops, an OVERFLOW record comes first (R235). -/
def postReport (s : State) (i : Nat) (e : AccEnt) : State :=
  let drop (s : State) : State :=
    { s with acc := s.acc.upd i fun a => { a with dropped := a.dropped + 1 } }.bump (accR i 0x68) 1
  if reportFull s i then drop s
  else
    let d := (s.acc.get i).dropped
    let s := if d = 0 then s
      else { putReport s i 3 0 (min d (2 ^ 32 - 1)) 0 with acc := s.acc.upd i fun a => { a with dropped := 0 } }
    if reportFull s i then drop s
    else
      let w0 := match e.key with
        | .da p => fields [(0, 1), (4, p)]
        | .host g p => fields [(0, 2), (8, g), (10, b2n p.isSome), (12, p.getD 0)]
      let shift := match e.key with
        | .da _ => 26
        | .host _ _ => 21
      putReport s i w0 (e.page * 2 ^ shift) e.total e.writes

/-- The threshold of an entry's kind; 0 acts as 1 (R240). -/
def accThresh (s : State) (i : Nat) (k : XKey) : Nat :=
  match k with
  | .da _ => cnt1 (s.fld (accR i 0x44) 0 24)
  | .host _ _ => cnt1 (s.fld (accR i 0x48) 0 24)
where cnt1 (n : Nat) : Nat := if n = 0 then 1 else n

/-- ACC.ENTRIES follows the table. -/
def showEntries (s : State) (i : Nat) : State :=
  s.setFld (accR i 0x70) 0 13 (((s.acc.get i).sets.map fun e => e.2.length).sum)

/-- The entry with the lowest total of a list. -/
def lowest : List AccEnt → Option AccEnt
  | [] => none
  | x :: r => match lowest r with
    | none => some x
    | some y => if x.total ≤ y.total then some x else some y

/-- `n` units counted on a page or chunk (R234): a new entry takes a free way of its set or replaces the way with the lowest
total; an entry at its threshold posts one report and becomes reported (DESIGN CHOICE, log entry 55). -/
def countUnits (s : State) (i : Nat) (key : XKey) (page n : Nat) (w : Bool) : State :=
  let set := Tbl.getD (s.acc.get i).sets (accSet page) []
  let old := set.find? fun e => e.key == key && e.page == page
  let base : AccEnt := old.getD ⟨key, page, 0, 0, false⟩
  let e : AccEnt := { base with total := satAdd 24 base.total n, writes := if w then satAdd 24 base.writes n else base.writes }
  let rest := set.filter fun x => !(x.key == key && x.page == page)
  let rest := if rest.length < 16 then rest
    else match lowest rest with
      | some l => rest.filter fun x => !(x.key == l.key && x.page == l.page)
      | none => rest
  let hit := !e.reported && accThresh s i key ≤ e.total
  let e' := if hit then { e with reported := true } else e
  let s := showEntries { s with acc := s.acc.upd i fun a => { a with sets := Tbl.put a.sets (accSet page) (rest ++ [e']) } } i
  if hit then postReport s i e' else s

/-- Blocks of 256 B that a range touches. -/
def blocksOf (a n : Nat) : Nat := if n = 0 then 0 else (a + n - 1) / 256 - a / 256 + 1

/-- A data request of an instance counted (R233): on the 64 MiB granule of a device page with count = 1, or on the 2 MiB
chunk of a selected host group. -/
def countAccess (s : State) (i : Nat) (u : URec) (addr n : Nat) (w : Bool) : State :=
  match u.kind with
  | .hbm =>
    match u.key with
    | .da p => if u.count && bitAt (s.r (accR i 0x40)) 0 then countUnits s i (.da p) (addr / 2 ^ 26) (blocksOf addr n) w else s
    | _ => s
  | .host | .hlc =>
    match u.hkey with
    | some (.host g p) =>
      if bitAt (s.r (accR i 0x40)) 1 && bitAt (s.r (accR i 0x40)) (4 + g) then
        countUnits s i (.host g p) ((u.iova + (addr - u.base)) / 2 ^ 21) (blocksOf addr n) w
      else s
    | _ => s
  | .peer => s

/-- ACC_INTERVAL (R234): every total and write count halves; entries that reach 0 are freed; a reported entry below half its
threshold may report again. -/
def accInterval (s : State) (i : Nat) : State :=
  let halve (e : AccEnt) : AccEnt :=
    let t := e.total / 2
    { e with total := t, writes := e.writes / 2, reported := e.reported && !(2 * t < accThresh s i e.key) }
  let sets := (s.acc.get i).sets.filterMap fun e =>
    let l := (e.2.map halve).filter fun x => x.total != 0
    if l.isEmpty then none else some (e.1, l)
  showEntries { s with acc := s.acc.upd i fun a => { a with sets := sets } } i

/-! ### Migration holds (R236-R238) -/

/-- Hold slot `h` of an instance. -/
def holdOf (s : State) (i h : Nat) : Hold := Tbl.getD (s.acc.get i).holds h {}

/-- The state with a hold slot replaced. -/
def setHold (s : State) (i h : Nat) (x : Hold) : State :=
  { s with acc := s.acc.upd i fun a => { a with holds := Tbl.put a.holds h x } }

/-- Whether a hold holds new work: QUIETING or QUIET. -/
def Hold.active (h : Hold) : Bool := h.st == 1 || h.st == 2

/-- Whether two ranges overlap. -/
def rangesMeet (a n b m : Nat) : Bool := a < b + m && b < a + n

/-- Whether a hold's range meets a range of a space. -/
def Hold.covers (h : Hold) (key : XKey) (base size : Nat) : Bool :=
  h.key == key && rangesMeet h.base (2 ^ h.log2) base size

/-- Whether a unit record lies in the range of a hold: in its DA, or in its host space directly or through a host window. -/
def Hold.meets (h : Hold) (u : URec) : Bool :=
  h.covers u.key u.base u.size || (match u.hkey with | some k => h.covers k u.iova u.size | none => false)

/-- The active holds of an instance that hold a descriptor of hub queue `hq` with these unit records (R236). -/
def heldBy (s : State) (i hq : Nat) (us : List URec) : List Nat :=
  (s.acc.get i).holds.filterMap fun e =>
    if e.2.active && e.2.exempt != some hq && us.any e.2.meets then some e.1 else none

/-- A waiter added to a hold, after those that came before it. -/
def addHeld (s : State) (i h : Nat) (w : Who) : State :=
  let x := holdOf s i h
  if x.waiters.contains w then s else setHold s i h { x with waiters := x.waiters ++ [w] }

end Sys2Proof.Machine
end

