-- ==== Sys2Proof/Machine/Operands.lean ====
section
/-! DEFINITION. DMA-family descriptors (R136, R137, R142-R150, R163-R186): fields, footprints (R139), the checks of R140
and R164 in their order, idempotence (R141). -/
namespace Sys2Proof.Machine

/-- Bits [lo + w - 1 : lo] of the 64-bit word at offset `off` of a descriptor. -/
def df (raw : List Byte) (off lo w : Nat) : Nat := bits (fieldAt raw off 8) lo w

/-- The opcode (R136). -/
def opcodeOf (raw : List Byte) : Nat := df raw 0 0 7
/-- The gen bit (R106). -/
def genOf (raw : List Byte) : Bool := df raw 0 7 1 == 1
/-- The chain bit: another descriptor of the job follows at next. -/
def chainOf (raw : List Byte) : Bool := df raw 0 8 1 == 1
/-- The keystone bit (R156). -/
def keystoneOf (raw : List Byte) : Bool := df raw 0 9 1 == 1
/-- The raw_wait bit (R156). -/
def rawWaitOf (raw : List Byte) : Bool := df raw 0 12 1 == 1
/-- The space of src: 0 DA, 1 host IOVA. -/
def srcSp (raw : List Byte) : Nat := df raw 0 10 1
/-- The space of dst. -/
def dstSp (raw : List Byte) : Nat := df raw 0 11 1
/-- The source address. -/
def srcOf (raw : List Byte) : Nat := fieldAt raw 0x08 8
/-- The destination address. -/
def dstOf (raw : List Byte) : Nat := fieldAt raw 0x10 8
/-- The space of next. -/
def nextSpOf (raw : List Byte) : Nat := df raw 0x38 0 1
/-- The address of the next descriptor. -/
def nextOf (raw : List Byte) : Nat := df raw 0x38 6 58 * 64
/-- The count field of the opcodes that have a 25-bit one. -/
def count25 (raw : List Byte) : Nat := df raw 0x18 0 25
/-- A 32-bit count or length at 0x18. -/
def count32 (raw : List Byte) : Nat := df raw 0x18 0 32
/-- src_fmt and dst_fmt (R165). -/
def srcFmt (raw : List Byte) : Nat := df raw 0x18 32 4
/-- dst_fmt (R165). -/
def dstFmt (raw : List Byte) : Nat := df raw 0x18 36 4

/-- A count of which 0 acts as 1 (R142). -/
def cnt1 (n : Nat) : Nat := if n = 0 then 1 else n

/-- STRIDE counts 1-3 (R142). -/
def strideCnt (raw : List Byte) : List Nat := [cnt1 (df raw 0x18 32 16), cnt1 (df raw 0x18 48 16), cnt1 (df raw 0 16 16)]
/-- STRIDE source strides 1-3, signed bytes. -/
def strideSrc (raw : List Byte) : List Int := [signed (df raw 0x20 0 32) 32, signed (df raw 0x20 32 32) 32, signed (df raw 0x28 0 32) 32]
/-- STRIDE destination strides 1-3. -/
def strideDst (raw : List Byte) : List Int := [signed (df raw 0x28 32 32) 32, signed (df raw 0x30 0 32) 32, signed (df raw 0x30 32 32) 32]

/-- Element size of GATHER and SCATTER in bytes (R143). -/
def elemSize (raw : List Byte) : Nat := 4 * df raw 0x18 32 15
/-- The linear-side pitch: 0 means the element size (R143). -/
def linPitch (raw : List Byte) : Nat := let p := df raw 0x28 0 32; if p = 0 then elemSize raw else p
/-- Whether the opcode has an index table. -/
def isIndexed (raw : List Byte) : Bool := let o := opcodeOf raw; o == 3 || o == 4 || o == 0x13
/-- Width of an index entry in bytes: GATHER, SCATTER bit 16; SCATTER_ADD bit 21 (R143, R186). -/
def idxWidth (raw : List Byte) : Nat := if df raw 0 (if opcodeOf raw = 0x13 then 21 else 16) 1 = 1 then 8 else 4
/-- idx_unit: an entry counts elements, or rows. -/
def idxUnit (raw : List Byte) : Bool := df raw 0 (if opcodeOf raw = 0x13 then 22 else 17) 1 == 1
/-- The space of the index table. -/
def idxSp (raw : List Byte) : Nat := df raw 0 (if opcodeOf raw = 0x13 then 23 else 18) 1
/-- oob_skip. -/
def oobSkip (raw : List Byte) : Bool := df raw 0 (if opcodeOf raw = 0x13 then 24 else 19) 1 == 1
/-- region_log2 (R143, R186). -/
def regionLog2 (raw : List Byte) : Nat := if opcodeOf raw = 0x13 then df raw 0x20 0 6 else df raw 0 20 6
/-- The index table address. -/
def indexOf (raw : List Byte) : Nat := fieldAt raw (if opcodeOf raw = 0x13 then 0x28 else 0x20) 8
/-- Elements per row of SCATTER_ADD. -/
def rowElems (raw : List Byte) : Nat := df raw 0x18 48 16
/-- Bytes an index entry moves: the element, or the row in dst_fmt. -/
def entSize (raw : List Byte) : Nat := if opcodeOf raw = 0x13 then elemArea (dstFmt raw) (rowElems raw) else elemSize raw

/-- BITPLANE integer width in bits (R147). -/
def bpWidth (raw : List Byte) : Nat :=
  match df raw 0 17 3 with
  | 0 => 1 | 1 => 2 | 2 => 3 | 3 => 4 | 4 => 6 | _ => 8
/-- BITPLANE plane_pitch. -/
def bpPitch (raw : List Byte) : Nat := df raw 0x20 0 32
/-- BITPLANE dir: 1 is planes to packed. -/
def bpDir (raw : List Byte) : Nat := df raw 0 16 1
/-- BITPLANE block size in integers. -/
def bpBlock (raw : List Byte) : Nat := 2 ^ df raw 0 20 6

/-- INTERLEAVE streams S (R148). -/
def ilStreams (raw : List Byte) : Nat := df raw 0 16 4 + 1
/-- INTERLEAVE element size E. -/
def ilElem (raw : List Byte) : Nat := df raw 0 20 4 + 1
/-- INTERLEAVE stream pitch. -/
def ilPitch (raw : List Byte) : Nat := df raw 0x20 0 40

/-- Arithmetic op: 0 SUM, 1 MAX, 2 MIN. -/
def opOf (raw : List Byte) : Nat := df raw 0 16 2
/-- exact. -/
def exactOf (raw : List Byte) : Bool := df raw 0 18 1 == 1
/-- sr. -/
def srOf (raw : List Byte) : Bool := df raw 0 19 1 == 1
/-- sat. -/
def satOf (raw : List Byte) : Bool := df raw 0 20 1 == 1
/-- arrive (R165): REDUCE and REDUCE_INTO. -/
def arriveOf (raw : List Byte) : Bool := (opcodeOf raw == 0x10 || opcodeOf raw == 0x11) && df raw 0 21 1 == 1
/-- clear of ACC_FINAL (R181). -/
def clearOf (raw : List Byte) : Bool := df raw 0 21 1 == 1
/-- Sources S of a reduction. -/
def sourcesOf (raw : List Byte) : Nat := df raw 0 22 4 + 1
/-- src_pitch. -/
def srcPitch (raw : List Byte) : Nat := df raw 0x20 0 40
/-- step_tag. -/
def stepTag (raw : List Byte) : Nat := df raw 0x20 40 24
/-- arrive_base or stage. -/
def auxAddr (raw : List Byte) : Nat := fieldAt raw 0x28 8
/-- The stochastic-rounding seed. -/
def seedOf (raw : List Byte) : Nat := fieldAt raw 0x30 8
/-- rows of MX_REBLOCK (R177). -/
def mxRows (raw : List Byte) : Nat := df raw 0x18 0 16
/-- cols of MX_REBLOCK. -/
def mxCols (raw : List Byte) : Nat := df raw 0x18 16 16
/-- Whether the opcode is of the arithmetic family. -/
def isArith (raw : List Byte) : Bool := 0x10 ≤ opcodeOf raw && opcodeOf raw ≤ 0x16
/-- Whether a descriptor reads and writes its destination granules (R182): REDUCE_INTO, SCATTER_ADD. -/
def isRmw (raw : List Byte) : Bool := opcodeOf raw == 0x11 || opcodeOf raw == 0x13

/-! ### Footprints (R139) -/

/-- An operand: its space, the byte ranges it names as (lowest, one past the highest), and the rights it needs. -/
structure Oper where
  sp : Nat
  pieces : List (Int × Int)
  rd : Bool
  wr : Bool
  deriving DecidableEq, Repr

/-- A footprint: space, lowest address, one past the highest address, rights needed. -/
structure Fp where
  sp : Nat
  lo : Int
  hi : Int
  rd : Bool
  wr : Bool
  deriving DecidableEq, Repr

/-- An operand of one range. -/
def oper (sp base size : Nat) (rd wr : Bool) : Oper := ⟨sp, [((base : Int), (base : Int) + size)], rd, wr⟩

/-- The range of a 4-D STRIDE operand (R142). -/
def strideSpan (base dim0 : Nat) (cnt : List Nat) (st : List Int) : Int × Int :=
  let ext := (cnt.zip st).map fun p => ((p.1 : Int) - 1) * p.2
  ((base : Int) + (ext.map (min 0)).sum, (base : Int) + dim0 + (ext.map (max 0)).sum)

/-- The operands of a descriptor in the order of R204: src, dst, index, stage, arrive_base. An operand of no bytes is left out. -/
def operandsOf (raw : List Byte) : List Oper :=
  let ss := srcSp raw
  let ds := dstSp raw
  let s := srcOf raw
  let d := dstOf raw
  let o := opcodeOf raw
  let l : List Oper :=
    if o = 1 then [oper ss s (count32 raw) true false, oper ds d (count32 raw) false true]
    else if o = 2 then
      let n := df raw 0x18 0 32
      if n = 0 then [] else [⟨ss, [strideSpan s n (strideCnt raw) (strideSrc raw)], true, false⟩,
        ⟨ds, [strideSpan d n (strideCnt raw) (strideDst raw)], false, true⟩]
    else if o = 3 || o = 4 then
      let lin := (count25 raw - 1) * linPitch raw + elemSize raw
      let ix := oper (idxSp raw) (indexOf raw) (count25 raw * idxWidth raw) true false
      if o = 3 then [oper ss s (2 ^ regionLog2 raw) true false, oper ds d lin false true, ix]
      else [oper ss s lin true false, oper ds d (2 ^ regionLog2 raw) false true, ix]
    else if o = 5 then [oper ds d (count32 raw) false true]
    else if o = 6 then
      let n := bpWidth raw
      let c := count32 raw
      let packed := c * n / 8
      let planes (b : Nat) : List (Int × Int) :=
        if bpPitch raw = 0 then [((b : Int), (b : Int) + packed)]
        else (List.range n).map fun j => (((b + j * bpPitch raw : Nat) : Int), ((b + j * bpPitch raw + c / 8 : Nat) : Int))
      if bpDir raw = 0 then [oper ss s packed true false, ⟨ds, planes d, false, true⟩]
      else [⟨ss, planes s, true, false⟩, oper ds d packed false true]
    else if o = 7 || o = 8 then
      let len := count32 raw * ilElem raw
      let streams (b : Nat) : List (Int × Int) :=
        (List.range (ilStreams raw)).map fun k => (((b + k * ilPitch raw : Nat) : Int), ((b + k * ilPitch raw + len : Nat) : Int))
      if o = 7 then [⟨ss, streams s, true, false⟩, oper ds d (len * ilStreams raw) false true]
      else [oper ss s (len * ilStreams raw) true false, ⟨ds, streams d, false, true⟩]
    else if o = 9 then [oper ss s (8 * count25 raw) true false, oper ds d (8 * count25 raw) false true]
    else if o = 0x10 || o = 0x11 || o = 0x12 then
      let c := count32 raw
      let sz := opSize (srcFmt raw) c
      let dz := opSize (dstFmt raw) c
      let src : Oper := ⟨ss, (List.range (sourcesOf raw)).map fun k =>
        (((s + k * srcPitch raw : Nat) : Int), ((s + k * srcPitch raw + sz : Nat) : Int)), true, false⟩
      [src, oper ds d dz (o != 0x10) true] ++
      (if o = 0x12 then [oper 0 (auxAddr raw) dz true true]
       else if arriveOf raw then [oper ss (auxAddr raw) (64 * (sourcesOf raw - 1) + 8) true false] else [])
    else if o = 0x13 then
      [oper ss s (count25 raw * elemArea (srcFmt raw) (rowElems raw)) true false,
       oper ds d (2 ^ regionLog2 raw) true true,
       oper (idxSp raw) (indexOf raw) (count25 raw * idxWidth raw) true false]
    else if o = 0x14 then [oper ss s (opSize (srcFmt raw) (count32 raw)) true false, oper ds d (opSize (dstFmt raw) (count32 raw)) false true]
    else if o = 0x15 then
      let n := mxRows raw * mxCols raw
      [oper ss s (opSize (srcFmt raw) n) true false, oper ds d (opSize (dstFmt raw) n) false true]
    else if o = 0x16 then [oper ss s (64 * count32 raw) true (clearOf raw), oper ds d (opSize (dstFmt raw) (count32 raw)) false true]
    else []
  l.filter fun p => p.pieces.any fun q => q.1 < q.2

/-- The footprint of an operand: the smallest range that holds its pieces. -/
def Oper.fp (p : Oper) : Fp :=
  ⟨p.sp, fold1 min 0 (p.pieces.map Prod.fst), fold1 max 0 (p.pieces.map Prod.snd), p.rd, p.wr⟩

/-- The footprints of a descriptor in the order of R204, the next address last (R139). -/
def footprints (raw : List Byte) : List Fp :=
  (operandsOf raw).map Oper.fp ++
  (if chainOf raw then [(⟨nextSpOf raw, nextOf raw, (nextOf raw : Int) + 64, true, false⟩ : Fp)] else [])

/-! ### Checks (R140, R164) -/

/-- FIELD_RANGE (R142-R150, R165, R177, R186). -/
def badRange (raw : List Byte) : Bool :=
  let o := opcodeOf raw
  let mx := isMx (srcFmt raw) || isMx (dstFmt raw)
  if o = 3 || o = 4 then
    let p := df raw 0x28 0 32
    !(8 ≤ regionLog2 raw && regionLog2 raw ≤ 52) || !(1 ≤ count25 raw && count25 raw ≤ 2 ^ 24) ||
    !(4 ≤ elemSize raw && elemSize raw ≤ 65536) || (p != 0 && p < elemSize raw)
  else if o = 6 then
    let n := count32 raw
    let p := bpPitch raw
    5 < df raw 0 17 3 || n % 512 != 0 || !(512 ≤ n && n ≤ 2 ^ 31) ||
    (if p = 0 then !(9 ≤ df raw 0 20 6 && df raw 0 20 6 ≤ 20) || n % bpBlock raw != 0 else p % 64 != 0 || p < n / 8)
  else if o = 7 || o = 8 then count32 raw == 0 || (1 < ilStreams raw && ilPitch raw < count32 raw * ilElem raw)
  else if o = 9 then !(1 ≤ count25 raw && count25 raw ≤ 2 ^ 24)
  else if o = 0x0F then df raw 0x18 32 16 == 0
  else if o = 0x10 || o = 0x11 || o = 0x12 then
    opOf raw == 3 || (o == 0x12 && df raw 0 21 1 == 1) || count32 raw == 0 || (mx && count32 raw % 32 != 0) ||
    (1 < sourcesOf raw && (srcPitch raw % 64 != 0 || (srcFmt raw ≤ 13 && srcPitch raw < opSize (srcFmt raw) (count32 raw))))
  else if o = 0x13 then
    opOf raw == 3 || !(1 ≤ count25 raw && count25 raw ≤ 2 ^ 24) || rowElems raw == 0 || entSize raw % 4 != 0 ||
    65536 < entSize raw || !(8 ≤ regionLog2 raw && regionLog2 raw ≤ 52)
  else if o = 0x14 then count32 raw == 0 || (mx && count32 raw % 32 != 0)
  else if o = 0x15 then
    let bad (n : Nat) : Bool := n % 32 != 0 || !(32 ≤ n && n ≤ 65504)
    bad (mxRows raw) || bad (mxCols raw)
  else if o = 0x16 then count32 raw == 0 || (mx && count32 raw % 32 != 0)
  else false

/-- Format groups of R169. -/
def isFpOrMx (f : Nat) : Bool := f ≤ 4 || isMx f
/-- INT8 and INT32. -/
def isIntFmt (f : Nat) : Bool := f == 5 || f == 6
/-- FP32, BF16, FP16 and ACC320. -/
def isExactFmt (f : Nat) : Bool := f ≤ 2 || f == 13

/-- FORMAT (R164, R169). -/
def badFormat (raw : List Byte) : Bool :=
  let o := opcodeOf raw
  let s := srcFmt raw
  let d := dstFmt raw
  if o = 0x10 || o = 0x11 || o = 0x12 then
    if exactOf raw then !(opOf raw == 0 && isExactFmt s && (if o = 0x10 then isExactFmt d else d == 13))
    else !((isFpOrMx s && isFpOrMx d) || (isIntFmt s && isIntFmt d))
  else if o = 0x13 then
    if exactOf raw then !(opOf raw == 0 && s ≤ 2 && d == 13)
    else !((s ≤ 4 && d ≤ 4) || (isIntFmt s && isIntFmt d))
  else if o = 0x14 then !(s ≤ 12 && d ≤ 12)
  else if o = 0x15 then !(s ≤ 12 && isMx d)
  else if o = 0x16 then !(s == 13 && d ≤ 2)
  else false

/-- ALIGNMENT (R143, R147, R149, R165, R186). -/
def badAlign (raw : List Byte) : Bool :=
  let o := opcodeOf raw
  let s := srcOf raw
  let d := dstOf raw
  if o = 3 || o = 4 then (if o = 3 then d else s) % 4 != 0 || indexOf raw % idxWidth raw != 0
  else if o = 6 then s % 64 != 0 || d % 64 != 0
  else if o = 9 then s % 8 != 0 || d % 8 != 0
  else if o = 0x10 || o = 0x11 || o = 0x12 then
    s % 64 != 0 || d % 64 != 0 || ((o == 0x12 || arriveOf raw) && auxAddr raw % 64 != 0)
  else if o = 0x13 then indexOf raw % idxWidth raw != 0
  else false

/-- FOOTPRINT_WRAP (R140). -/
def badWrap (raw : List Byte) : Bool :=
  (footprints raw).any fun f => f.lo < 0 || (2 ^ 64 : Int) < f.hi || (f.sp == 0 && decide ((2 ^ 52 : Int) < f.hi))

/-- Whether two operands share a byte. -/
def Oper.meets (a b : Oper) : Bool :=
  a.sp == b.sp && a.pieces.any fun x => b.pieces.any fun y => x.1 < y.2 && y.1 < x.2

/-- OVERLAP (R147, R148, R149, R165, R175, R177, R181) (DEDUCED, log entry 41). -/
def badOverlap (raw : List Byte) : Bool :=
  let o := opcodeOf raw
  match operandsOf raw with
  | a :: b :: r =>
    if o = 6 || o = 7 || o = 8 || o = 0x14 || o = 0x15 || o = 0x16 then a.meets b
    else if o = 9 then a.meets b && srcOf raw != dstOf raw
    else if o = 0x10 || o = 0x11 then a.meets b
    else if o = 0x12 then a.meets b || r.any fun t => t.meets a || t.meets b
    else false
  | _ => false

/-- RMW_TARGET (R164): the destination or region reaches host IOVA, the host-window range or a peer window. -/
def badRmw (raw : List Byte) : Bool :=
  let o := opcodeOf raw
  if o = 0x11 || o = 0x12 || o = 0x13 then
    dstSp raw == 1 || (operandsOf raw).any fun p => p.wr && p.rd && p.sp == 0 && p.fp.lo == (dstOf raw : Int) &&
      decide (p.fp.lo < (0x000C000000000000 : Int)) && decide ((0x0004000000000000 : Int) < p.fp.hi)
  else false

/-- Whether the opcode is in the tables of R137 and R163. -/
def validOpcode (o : Nat) : Bool := (1 ≤ o && o ≤ 9) || o == 0xC || o == 0xE || o == 0xF || (0x10 ≤ o && o ≤ 0x16)

/-- The first check of R140 that the descriptor with chain index `k` fails, as its BAD_DESCRIPTOR reason. -/
def checkDesc (raw : List Byte) (k : Nat) : Option Nat :=
  let o := opcodeOf raw
  if !validOpcode o then some 1
  else if 4096 ≤ k then some 4
  else if (o = 0xE || o = 0xF) && (k != 0 || chainOf raw) then some 5
  else if badRange raw then some 2
  else if badFormat raw then some 9
  else if badAlign raw then some 3
  else if badWrap raw then some 7
  else if badOverlap raw then some 8
  else if badRmw raw then some 10
  else none

/-! ### Idempotence (R141, R185) -/

/-- Whether an opcode is not idempotent under R137 and R163. EVENT_SIGNAL is handled as R442 states. -/
def nonIdemOp (raw : List Byte) : Bool :=
  let o := opcodeOf raw
  o == 0x11 || o == 0x13 || (o == 0x16 && clearOf raw)

/-- Destination footprints for R141; the stage buffer counts as one (R185). -/
def dstFps (raw : List Byte) : List Fp := ((operandsOf raw).filter (·.wr)).map Oper.fp

/-- Source, region and index footprints for R141; of a reduction only the source is one, not its read of dst, its stage
buffer or its arrive words (R185) (DEDUCED, log entry 42). -/
def srcFps (raw : List Byte) : List Fp :=
  let l := operandsOf raw
  ((if 0x10 ≤ opcodeOf raw && opcodeOf raw ≤ 0x12 then l.take 1 else l).filter (·.rd)).map Oper.fp

/-- Whether two footprints overlap. -/
def Fp.meets (a b : Fp) : Bool := a.sp == b.sp && a.lo < b.hi && b.lo < a.hi

/-- Whether a job with these descriptors is marked non-idempotent (R141). -/
def jobNonIdem (raws : List (List Byte)) : Bool :=
  raws.any nonIdemOp || raws.any fun d => (dstFps d).any fun x => raws.any fun e => (srcFps e).any fun y => x.meets y

end Sys2Proof.Machine
end

