-- ==== Sys2Proof/Machine/Patterns.lean ====
section
/-! DEFINITION. The pause units of every opcode (R137, R158, R163): how many units a descriptor has, what a unit reads, and
what it writes from the data read (R142-R149, R170-R186). -/
namespace Sys2Proof.Machine

/-- A logical read of a unit: space, address, length. The channel cuts it into requests (R151). -/
structure LRd where
  sp : Nat
  addr : Nat
  len : Nat
  deriving DecidableEq, Repr

/-- A write a unit forms. `counts`: the bytes count as written to dst in the record (R117, R187). -/
structure WPart where
  sp : Nat
  addr : Nat
  bytes : List Byte
  counts : Bool := true
  deriving DecidableEq, Repr

/-- What a unit forms: its writes in iteration order, counts for the RED page, entries skipped, and the error that halts
the channel with its source and address (R144, R149). -/
structure UForm where
  wrs : List WPart := []
  stat : RedStat := {}
  skip : Nat := 0
  err : Option (Nat × Nat) := none
  deriving DecidableEq, Repr

/-- What an index entry means (R144). -/
inductive EntKind where
  | pad | skip | bad
  | off (o : Nat)
  deriving DecidableEq, Repr

/-- An index entry classified (R144, R186). -/
def entKind (raw : List Byte) (e : Nat) : EntKind :=
  if e = 2 ^ (8 * idxWidth raw) - 1 then .pad
  else
    let o := if idxUnit raw then e * entSize raw else e
    if o % 4 != 0 || 2 ^ regionLog2 raw < o + entSize raw then (if oobSkip raw then .skip else .bad) else .off o

/-- Units of 32 elements of a count. -/
def units32 (n : Nat) : Nat := (n + 31) / 32

/-- Phase A units of REDUCE_STAGED: U (R184). -/
def stagedU (raw : List Byte) : Nat := units32 (count32 raw)

/-- DMA.PROG_ITER of a finished descriptor: the number of its units in the measure of R158. -/
def totalIter (raw : List Byte) : Nat :=
  let o := opcodeOf raw
  if o = 1 || o = 5 then count32 raw
  else if o = 2 then df raw 0x18 0 32 * (strideCnt raw).foldl (· * ·) 1
  else if o = 3 || o = 4 || o = 9 || o = 0x13 then count25 raw
  else if o = 6 || o = 7 || o = 8 then count32 raw
  else if o = 0x10 || o = 0x11 || o = 0x14 || o = 0x16 then units32 (count32 raw)
  else if o = 0x12 then 2 * stagedU raw
  else if o = 0x15 then (mxRows raw / 32) * (mxCols raw / 32)
  else 0

/-- Bytes to the end of the 256 B block that holds an address (R151). -/
def blockRest (a : Nat) : Nat := 256 - a % 256

/-- The length of the next request of a range of `n` bytes at `a` (R151): at most `lim`, within its 256 B block. Toward a host port one
that ends before the range ends at a granule boundary (R243). -/
def reqLen (host : Bool) (lim a n : Nat) : Nat :=
  let k := min n (min lim (blockRest a))
  let e := alignDown (a + k) 64
  if host && k < n && a < e then e - a else k

/-- The source and destination address of STRIDE iteration byte `it` (R142), and the bytes left in its row. -/
def strideAt (raw : List Byte) (it : Nat) : Nat × Nat × Nat :=
  let d0 := df raw 0x18 0 32
  let t := it / d0
  let b := it % d0
  let c := strideCnt raw
  let i1 := t % c.getD 0 1
  let i2 := t / c.getD 0 1 % c.getD 1 1
  let i3 := t / (c.getD 0 1 * c.getD 1 1)
  let at_ (base : Nat) (st : List Int) : Nat :=
    ((base : Int) + (i1 : Int) * st.getD 0 0 + (i2 : Int) * st.getD 1 0 + (i3 : Int) * st.getD 2 0 + b).toNat
  (at_ (srcOf raw) (strideSrc raw), at_ (dstOf raw) (strideDst raw), d0 - b)

/-- The reads of 32-element unit `u` of an operand of `n` elements at `base`: the elements and, in an MX format, the scale. -/
def chunkRds (sp f n base u : Nat) : List LRd :=
  if isMx f then [⟨sp, base + 4 * fmtBits f * u, 4 * fmtBits f⟩, ⟨sp, base + scaleOff f n + u, 1⟩]
  else [⟨sp, base + 4 * fmtBits f * u, min 32 (n - 32 * u) * fmtBits f / 8⟩]

/-- The number of reads `chunkRds` makes. -/
def chunkN (f : Nat) : Nat := if isMx f then 2 else 1

/-- The operands of a unit from the data of its reads. -/
def chunkVals (f : Nat) (ds : List (List Byte)) : List Opnd :=
  let e := ds.getD 0 []
  if isMx f then
    let bs := e ++ List.replicate (scaleOff f 32 - e.length) 0 ++ ds.getD 1 []
    (List.range 32).map (opndElem f 32 bs)
  else (List.range (8 * e.length / fmtBits f)).map (opndElem f 32 e)

/-- The writes of the results of 32-element unit `u`, whose first element has index `i0` under R174 (DEDUCED, log entry 44). -/
def chunkWrs (sp f n base u : Nat) (vs : List Res) (rnd : Nat → Option Nat) (sat counts : Bool) : List WPart × RedStat :=
  let i0 := 32 * u
  if isMx f then
    let b := mxBlock f (vs.map Res.toFv) (fun j => rnd (i0 + j))
    ([⟨sp, base + 4 * fmtBits f * u, packCodes (fmtBits f) b.2.1, counts⟩,
      ⟨sp, base + scaleOff f n + u, [BitVec.ofNat 8 b.1], counts⟩], b.2.2)
  else
    let ws := vs.zipIdx.map fun p => writePlain f p.1 (rnd (i0 + p.2)) sat
    ([⟨sp, base + 4 * fmtBits f * u, (ws.map Prod.fst).flatten, counts⟩], (ws.map Prod.snd).foldl RedStat.add {})

/-- The random value of element `i` (R174): only with sr = 1. -/
def rndOf (raw : List Byte) (seed dst i : Nat) : Option Nat := if srOf raw then some (srBits seed dst i) else none

/-- Where 64 B plane chunk `u` (512 integers) of plane `j` lies (R147). -/
def planeAddr (raw : List Byte) (base j u : Nat) : Nat :=
  if bpPitch raw = 0 then
    let bb := bpBlock raw
    let blk := 512 * u / bb
    base + blk * bpWidth raw * bb / 8 + j * (bb / 8) + (512 * u % bb) / 8
  else base + j * bpPitch raw + 64 * u

/-- Iterations covered by the unit that starts at `it` (R158) (DEDUCED, log entry 46). -/
def unitLen (raw : List Byte) (it lim : Nat) : Nat :=
  let o := opcodeOf raw
  if o = 1 then min (count32 raw - it) (min lim (blockRest (srcOf raw + it)))
  else if o = 5 then min (count32 raw - it) (blockRest (dstOf raw + it))
  else if o = 2 then let p := strideAt raw it; min p.2.2 (min lim (blockRest p.1))
  else if o = 6 then 512
  else 1

/-- The reads of the unit that starts at iteration `it` and covers `n`; `ent` is its index entry (R142-R149, R163-R186). -/
def unitRds (raw : List Byte) (it n : Nat) (ent : Option Nat) : List LRd :=
  let o := opcodeOf raw
  let ss := srcSp raw
  let ds := dstSp raw
  let s := srcOf raw
  let d := dstOf raw
  if o = 1 then [⟨ss, s + it, n⟩]
  else if o = 2 then [⟨ss, (strideAt raw it).1, n⟩]
  else if o = 3 then
    match ent.map (entKind raw) with
    | some (.off x) => [⟨ss, s + x, elemSize raw⟩]
    | _ => []
  else if o = 4 then
    match ent.map (entKind raw) with
    | some (.off _) => [⟨ss, s + it * linPitch raw, elemSize raw⟩]
    | _ => []
  else if o = 6 then
    let u := it / 512
    if bpDir raw = 0 then [⟨ss, s + 64 * bpWidth raw * u, 64 * bpWidth raw⟩]
    else (List.range (bpWidth raw)).map fun j => ⟨ss, planeAddr raw s j u, 64⟩
  else if o = 7 then (List.range (ilStreams raw)).map fun k => ⟨ss, s + k * ilPitch raw + it * ilElem raw, ilElem raw⟩
  else if o = 8 then [⟨ss, s + it * ilStreams raw * ilElem raw, ilStreams raw * ilElem raw⟩]
  else if o = 9 then [⟨ss, s + 8 * it, 8⟩]
  else if o = 0x10 || o = 0x11 || o = 0x12 then
    let c := count32 raw
    if o = 0x12 && stagedU raw ≤ it then chunkRds 0 (dstFmt raw) c (auxAddr raw) (it - stagedU raw)
    else
      ((List.range (sourcesOf raw)).map fun k => chunkRds ss (srcFmt raw) c (s + k * srcPitch raw) it).flatten ++
      (if o = 0x10 then [] else chunkRds ds (dstFmt raw) c d it)
  else if o = 0x13 then
    match ent.map (entKind raw) with
    | some (.off x) =>
      let row := elemArea (srcFmt raw) (rowElems raw)
      [⟨ss, s + it * row, row⟩, ⟨ds, d + x, entSize raw⟩]
    | _ => []
  else if o = 0x14 then chunkRds ss (srcFmt raw) (count32 raw) s it
  else if o = 0x15 then
    let tc := it % (mxCols raw / 32)
    let tr := it / (mxCols raw / 32)
    ((List.range 32).map fun r =>
      chunkRds ss (srcFmt raw) (mxRows raw * mxCols raw) s (((32 * tr + r) * mxCols raw + 32 * tc) / 32)).flatten
  else if o = 0x16 then chunkRds ss 13 (count32 raw) s it
  else []

/-- Consecutive groups of `k` elements of a list, at most `n` of them. -/
def groupsOf {α : Type} : Nat → Nat → List α → List (List α)
  | 0, _, _ => []
  | n + 1, k, l => l.take k :: groupsOf n k (l.drop k)

/-- The combination of the sources of a reduction unit (R170, R171, R179, R182): `dst` leads for the read-modify-write
forms; an exact reduction without one starts from an empty cell. -/
def combineUnit (raw : List Byte) (dst : Option (List Opnd)) (srcs : List (List Opnd)) : List Res × RedStat :=
  let n := (srcs.getD 0 []).length
  let rs := (List.range n).map fun j =>
    let head : List Opnd := match dst with
      | some l => (l[j]?).toList
      | none => if exactOf raw then [.cell {}] else []
    combine (exactOf raw) (opOf raw) (head ++ srcs.filterMap fun l => l[j]?) (dstFmt raw)
  (rs.map Prod.fst, (rs.map Prod.snd).foldl RedStat.add {})

/-- Bit `j` of integer `i` of width `w` in a packed byte list. -/
def bpBit (bs : List Byte) (w i j : Nat) : Nat := streamElem bs w i / 2 ^ j % 2

/-- 8 bits, the first least significant, as a byte. -/
def byteOfBits (l : List Nat) : Byte := BitVec.ofNat 8 (fields (l.zipIdx.map fun p => (p.2, p.1)))

/-- What the unit that starts at iteration `it` forms from the data of its reads. `seed` is the job's seed (R174); `conv` a
pointer conversion of R149. -/
def unitForm (raw : List Byte) (seed it n : Nat) (ent : Option Nat) (data : List (List Byte)) (conv : Nat → Option Nat) : UForm :=
  let o := opcodeOf raw
  let ds := dstSp raw
  let d := dstOf raw
  let d0 := data.getD 0 []
  let rnd := rndOf raw seed d
  if o = 1 then { wrs := [⟨ds, d + it, d0, true⟩] }
  else if o = 2 then { wrs := [⟨ds, (strideAt raw it).2.1, d0, true⟩] }
  else if o = 5 then
    { wrs := [⟨ds, d + it, (List.range n).map fun k => raw.getD (0x20 + (it + k) % 16) 0, true⟩] }
  else if o = 3 then
    match ent.map (entKind raw) with
    | some (.off _) => { wrs := [⟨ds, d + it * linPitch raw, d0, true⟩] }
    | some .bad => { err := some (7, indexOf raw + it * idxWidth raw) }
    | some .skip => { wrs := [⟨ds, d + it * linPitch raw, List.replicate (elemSize raw) 0, true⟩], skip := 1 }
    | _ => { wrs := [⟨ds, d + it * linPitch raw, List.replicate (elemSize raw) 0, true⟩] }
  else if o = 4 then
    match ent.map (entKind raw) with
    | some (.off x) => { wrs := [⟨ds, d + x, d0, true⟩] }
    | some .bad => { err := some (7, indexOf raw + it * idxWidth raw) }
    | some .skip => { skip := 1 }
    | _ => {}
  else if o = 6 then
    let w := bpWidth raw
    let u := it / 512
    if bpDir raw = 0 then
      { wrs := (List.range w).map fun j =>
          ⟨ds, planeAddr raw d j u, (List.range 64).map fun b => byteOfBits ((List.range 8).map fun k => bpBit d0 w (8 * b + k) j), true⟩ }
    else
      let code (i : Nat) : Nat := fields (data.zipIdx.map fun p => (p.2, streamElem p.1 1 i))
      { wrs := [⟨ds, d + 64 * w * u, packCodes w ((List.range 512).map code), true⟩] }
  else if o = 7 then { wrs := [⟨ds, d + it * ilStreams raw * ilElem raw, data.flatten, true⟩] }
  else if o = 8 then
    { wrs := (groupsOf (ilStreams raw) (ilElem raw) d0).zipIdx.map fun p => ⟨ds, d + p.2 * ilPitch raw + it * ilElem raw, p.1, true⟩ }
  else if o = 9 then
    let v := leNat d0
    if v = 0 && df raw 0 17 1 == 1 then { wrs := [⟨ds, d + 8 * it, d0, true⟩] }
    else match conv v with
      | some x => { wrs := [⟨ds, d + 8 * it, leBytes 8 x, true⟩] }
      | none =>
        if df raw 0 18 1 = 1 then { wrs := [⟨ds, d + 8 * it, List.replicate 8 0xFF, true⟩], skip := 1 }
        else { err := some (8, srcOf raw + 8 * it) }
  else if o = 0x10 || o = 0x11 || o = 0x12 then
    let c := count32 raw
    if o = 0x12 && stagedU raw ≤ it then
      let u := it - stagedU raw
      if isMx (dstFmt raw) then
        { wrs := [⟨ds, d + 4 * fmtBits (dstFmt raw) * u, d0, true⟩, ⟨ds, d + scaleOff (dstFmt raw) c + u, data.getD 1 [], true⟩] }
      else { wrs := [⟨ds, d + 4 * fmtBits (dstFmt raw) * u, d0, true⟩] }
    else
      let k := chunkN (srcFmt raw)
      let srcs := (groupsOf (sourcesOf raw) k data).map (chunkVals (srcFmt raw))
      let dst := if o = 0x10 then none else some (chunkVals (dstFmt raw) (data.drop (k * sourcesOf raw)))
      let r := combineUnit raw dst srcs
      let w := if o = 0x12 then chunkWrs 0 (dstFmt raw) c (auxAddr raw) it r.1 rnd (satOf raw) false
               else chunkWrs ds (dstFmt raw) c d it r.1 rnd (satOf raw) true
      { wrs := w.1, stat := r.2.add w.2 }
  else if o = 0x13 then
    match ent.map (entKind raw) with
    | some (.off x) =>
      let ne := rowElems raw
      let src := (List.range ne).map (opndElem (srcFmt raw) ne d0)
      let dst := (List.range ne).map (opndElem (dstFmt raw) ne (data.getD 1 []))
      let r := combineUnit raw (some dst) [src]
      let ws := r.1.zipIdx.map fun p => writePlain (dstFmt raw) p.1 (rndOf raw seed (d + x) p.2) (satOf raw)
      { wrs := [⟨ds, d + x, (ws.map Prod.fst).flatten, true⟩], stat := (ws.map Prod.snd).foldl RedStat.add r.2 }
    | some .bad => { err := some (7, indexOf raw + it * idxWidth raw) }
    | some .skip => { skip := 1 }
    | _ => {}
  else if o = 0x14 || o = 0x16 then
    let f := if o = 0x16 then 13 else srcFmt raw
    let vs := (chunkVals f data).map fun v => match v with
      | .fv x => Res.fv x false
      | .int x => Res.int x
      | .cell c => Res.fv c.value true
    let w := chunkWrs ds (dstFmt raw) (count32 raw) d it vs rnd (satOf raw) true
    let z : List WPart := if o = 0x16 && clearOf raw then
      [⟨srcSp raw, srcOf raw + 2048 * it, List.replicate (64 * vs.length) 0, false⟩] else []
    { wrs := w.1 ++ z, stat := w.2 }
  else if o = 0x15 then
    let tc := it % (mxCols raw / 32)
    let tr := it / (mxCols raw / 32)
    let rows := (groupsOf 32 (chunkN (srcFmt raw)) data).map (chunkVals (srcFmt raw))
    let outs := (List.range 32).map fun j =>
      let vs := rows.map fun r => Res.fv ((r.getD j (.fv .nan)).toFv) false
      chunkWrs ds (dstFmt raw) (mxRows raw * mxCols raw) d (((32 * tc + j) * mxRows raw + 32 * tr) / 32) vs rnd (satOf raw) true
    { wrs := (outs.map Prod.fst).flatten, stat := (outs.map Prod.snd).foldl RedStat.add {} }
  else {}

/-! ### Units read together (R243) -/

/-- Whether units of a descriptor are read several at a time toward a host port: their reads follow one another, so that a granule is not divided
between two of them. -/
def batches (raw : List Byte) : Bool :=
  let o := opcodeOf raw
  (7 ≤ o && o ≤ 9) || (0x10 ≤ o && o ≤ 0x16 && o != 0x13)

/-- The units from `it` on that may be read together: of one phase of REDUCE_STAGED, of one row of tiles of MX_TRANSPOSE; at most 64. -/
def batchMax (raw : List Byte) (it : Nat) : Nat :=
  let o := opcodeOf raw
  min 64 (if o = 0x12 && it < stagedU raw then stagedU raw - it else if o = 0x15 then mxCols raw / 32 - it % (mxCols raw / 32) else totalIter raw - it)

/-- How many units from `it` on are read together: the fewest whose host reads all end at granule boundaries, else those of the first, else as many
as may be; one where none of them reads the host (DESIGN CHOICE, log entry 138). -/
def batchLen (raw : List Byte) (it : Nat) (host : LRd → Bool) : Nat :=
  let l := (unitRds raw it 1 none).filter host
  let m := batchMax raw it
  let ends (n : Nat) (r : LRd) : Bool := (r.addr + n * r.len) % 64 == 0
  if !batches raw || l.isEmpty then 1
  else
    let ns := (List.range m).map (· + 1)
    ((ns.find? fun n => l.all (ends n)).getD ((ns.find? fun n => (l.take 1).all (ends n)).getD (max 1 m)))

/-- The reads of `n` units from `it` on: each logical read runs from that of the first to that of the last. -/
def batchRds (raw : List Byte) (it n : Nat) (ent : Option Nat) : List LRd :=
  if n ≤ 1 || !batches raw then unitRds raw it n ent
  else ((unitRds raw it 1 none).zip (unitRds raw (it + n - 1) 1 none)).map fun p => { p.1 with len := p.2.addr + p.2.len - p.1.addr }

/-- The data of unit `it + m` out of that of the reads from `it` on. -/
def batchSlice (raw : List Byte) (it m : Nat) (data : List (List Byte)) : List (List Byte) :=
  ((unitRds raw it 1 none).zip ((unitRds raw (it + m) 1 none).zip data)).map fun p => (p.2.2.drop (p.2.1.addr - p.1.addr)).take p.2.1.len

/-- What `n` units from `it` on form, each with its iteration. -/
def batchForm (raw : List Byte) (seed it n : Nat) (ent : Option Nat) (data : List (List Byte)) (conv : Nat → Option Nat) : List (Nat × UForm) :=
  if n ≤ 1 || !batches raw then [(it, unitForm raw seed it n ent data conv)]
  else (List.range n).map fun m => (it + m, unitForm raw seed (it + m) 1 none (batchSlice raw it m data) conv)

/-- DMA.PROG_SRC: the untranslated source address of the next unit (R158); on an indexed side, the element's address once
its entry is known, else the region base. -/
def progSrc (raw : List Byte) (it : Nat) (ent : Option Nat) : Nat :=
  match unitRds raw it (unitLen raw it 256) ent with
  | r :: _ => r.addr
  | [] => srcOf raw

/-- DMA.PROG_DST: the untranslated destination address of the next unit (R158). -/
def progDst (raw : List Byte) (it : Nat) (ent : Option Nat) : Nat :=
  let o := opcodeOf raw
  let d := dstOf raw
  if o = 1 || o = 5 then d + it
  else if o = 2 then (if df raw 0x18 0 32 = 0 then d else (strideAt raw it).2.1)
  else if o = 3 then d + it * linPitch raw
  else if o = 4 || o = 0x13 then (match ent.map (entKind raw) with | some (.off x) => d + x | _ => d)
  else if o = 6 then (if bpDir raw = 0 then planeAddr raw d 0 (it / 512) else d + 64 * bpWidth raw * (it / 512))
  else if o = 7 then d + it * ilStreams raw * ilElem raw
  else if o = 8 then d + it * ilElem raw
  else if o = 9 then d + 8 * it
  else if o = 0x12 then (if stagedU raw ≤ it then d + 4 * fmtBits (dstFmt raw) * (it - stagedU raw) else auxAddr raw + 4 * fmtBits (dstFmt raw) * it)
  else if o = 0x15 then d + 4 * fmtBits (dstFmt raw) * ((32 * (it % (mxCols raw / 32))) * mxRows raw + 32 * (it / (mxCols raw / 32))) / 32
  else d + 4 * fmtBits (dstFmt raw) * it

end Sys2Proof.Machine
end

