-- ==== Sys2Proof/Machine/Chans.lean ====
section
/-! DEFINITION. Operations of the DMA channels: tags and slots (R153), requests (R151, R152), the pause unit at work (R157,
R158, R182), writes and landings (R153, R246), halts (R161), flushing reads (R248), the end of a job (R138). -/
namespace Sys2Proof.Machine

/-- The number of channel `c` of instance `i` over both instances. -/
def chanId (i c : Nat) : Nat := 256 * i + c

/-- Channel `cid`. -/
def State.chan (s : State) (cid : Nat) : ChanRec := Tbl.getD s.chans cid {}

/-- The state with a channel changed. -/
def State.updChan (s : State) (cid : Nat) (f : ChanRec → ChanRec) : State := { s with chans := Tbl.upd s.chans cid {} f }

/-- DMA page registers of a channel. -/
def dmaR (cid off : Nat) : Nat := reg .dma (cid / 256) (cid % 256) off

/-- The DMA page of a channel. -/
def dmaPage (cid : Nat) : PageId := ⟨.dma, cid / 256, cid % 256⟩

/-- RED page registers. -/
def redR (i off : Nat) : Nat := reg .red i 0 off

/-- The job a channel holds: its queue and position. -/
def jobOf (s : State) (ch : ChanRec) : Option (Queue × Pos) :=
  match ch.queue with
  | none => none
  | some q => let x := s.q ch.home q; (x.pos? ch.pos).map fun p => (x, p)

/-- The current descriptor of a channel. -/
def curDesc (s : State) (ch : ChanRec) : Option DescSt := (jobOf s ch).bind fun j => j.2.descs[ch.desc]?

/-- Whether the job of a channel is of class LC (R110). -/
def chanLc (s : State) (ch : ChanRec) : Bool := match jobOf s ch with
  | some j => j.1.ctx.cls == 1
  | none => false

/-- PAGE_CTL.enable of a channel (R132). -/
def chanEnabled (s : State) (cid : Nat) : Bool := bitAt (s.r (dmaR cid 8)) 0

/-- DMA.CHAN_CTL.pause of a channel. -/
def chanPause (s : State) (cid : Nat) : Bool := bitAt (s.r (dmaR cid 0x44)) 0

/-- The space of a key: 0 DA, 1 host IOVA. -/
def XKey.space : XKey → Nat
  | .da _ => 0
  | .host _ _ => 1

/-- The unit record that covers an address of a space. -/
def findUnit (us : List URec) (sp addr : Nat) : Option URec :=
  us.find? fun u => u.key.space == sp && u.base ≤ addr && addr < u.base + u.size

/-- Whether a unit's requests go to a host port: a window of any mode, plain where its group is not coherent (R263). -/
def URec.hostBound (u : URec) : Bool := u.kind == .host || u.kind == .hlc

/-- The group whose ports carry a unit's host requests. -/
def URec.hostGroup (u : URec) : Nat := match u.hkey with
  | some (.host g _) => g
  | _ => 0

/-- The port that carries the requests of descriptor `k` of a channel to a group: the one chosen, or one chosen now under R79. -/
def chanPort (s : State) (ch : ChanRec) (cid k g : Nat) : Option Nat :=
  if absent s g then none
  else match ch.ports.find? fun p => p.1 == 4 * k + g with
  | some p => stayPort s p.2 g (cid / 256)
  | none => pickPort s g (cid / 256)

/-- The choice of a port for descriptor `k` of a channel remembered. -/
def keepPort (s : State) (cid k g p : Nat) : State :=
  s.updChan cid fun ch => if ch.ports.any (fun x => x.1 == 4 * k + g) then ch else { ch with ports := (4 * k + g, p) :: ch.ports }

/-! ### Tags and slots (R153) -/

/-- Reads of a channel in flight. -/
def chanReads (s : State) (cid : Nat) : Nat :=
  ((s.pool (cid / 256)).reads.filter fun e => e.2.owner == .chan cid).length

/-- Writes of a channel not landed. -/
def chanWrites (s : State) (cid : Nat) : Nat :=
  ((s.pool (cid / 256)).writes.filter fun e => e.2.owner == .chan cid).length

/-- max_reads in force: values above 2,048 act as 2,048 (R134) (DEDUCED, log entry 40). -/
def ChanRec.limit (ch : ChanRec) : Nat := min ch.maxReads 2048

/-- Whether a channel may take a read tag (R153), on port `port` for a host read (R74). -/
def mayRead (s : State) (cid : Nat) (ch : ChanRec) (port : Option Nat) : Bool :=
  let i := cid / 256
  let used := (s.pool i).reads.length
  let mine := chanReads s cid
  mine < ch.limit && used < 16384 && (chanLc s ch || 2048 < 16384 - used || mine < 8) &&
  (match port with
   | some p => ((s.pool i).reads.filter fun e => e.2.port == some p).length < 8192
   | none => true)

/-- Channel write slots in use. -/
def slotsUsed (s : State) (i : Nat) : Nat := ((s.pool i).writes.filter fun e => e.1 < 8192).length

/-- Whether a channel may take a write slot (R153). -/
def mayWrite (s : State) (cid : Nat) (ch : ChanRec) : Bool :=
  let used := slotsUsed s (cid / 256)
  let mine := chanWrites s cid
  mine < ch.limit && used < 8192 && (chanLc s ch || 1024 < 8192 - used || mine < 8)

/-- The class tag of a job's data requests (R154): 0 BE_DATA, 1 LC_DATA. -/
def dataClass (s : State) (ch : ChanRec) : Nat := b2n (chanLc s ch)

/-- A free read tag of an instance (DESIGN CHOICE, log entry 48). -/
def freeTag (s : State) (i : Nat) : Nat := (Tbl.freshFrom (s.pool i).reads 16384 0).getD 16384

/-- The lowest of the 8,192 tags of an instance on a host port that no read in flight holds (R74). -/
def freeHtag (s : State) (i p : Nat) : Option Nat :=
  let used := (s.pool i).reads.filterMap fun e => if e.2.port == some p then some e.2.htag else none
  (List.range 8192).find? fun h => !used.contains h

/-- The 14-bit tag on the link of an instance's tag `h`: bit 9 names the instance (R74). -/
def wireTag (i h : Nat) : Nat := h % 512 + 512 * i + h / 512 * 1024

/-- A read put under a number of the pool; on a host port it takes a tag of the port. -/
def putRead (s : State) (i t : Nat) (u : RUse) : State :=
  let h := match u.port with
    | some p => (freeHtag s i p).getD 0
    | none => 0
  s.updPool i fun x => { x with reads := Tbl.put x.reads t { u with htag := h } }

/-- A host read put under a number of the pool and sent (R74, R247). -/
def sendRead (s : State) (i p t : Nat) (u : RUse) (addr len : Nat) (a : Attr) : State :=
  let h := (freeHtag s i p).getD 0
  (putRead s i t { u with port := some p }).emit (.hostRead i p (wireTag i h) addr len a)

/-- The read in flight of a tag on the link of a port: its instance, number and use (R34, R74). -/
def readByTag (s : State) (p tag : Nat) : Option (Nat × Nat × RUse) :=
  let i := bits tag 9 1
  let h := bits tag 0 9 + 512 * bits tag 10 4
  ((s.pool i).reads.find? fun e => e.2.port == some p && e.2.htag == h).map fun e => (i, e.1, e.2)

/-- A free channel write slot of an instance. -/
def freeSlot (s : State) (i : Nat) : Nat := (Tbl.freshFrom (s.pool i).writes 8192 0).getD 8192

/-! ### Flushing reads (R212, R246, R248) -/

/-- A zero-length read on a port, which flushes the host writes issued there before it; it waits while no tag is free. -/
def issueFlush (s : State) (i p : Nat) : State :=
  if freeTag s i = 16384 || (freeHtag s i p).isNone then s
  else
    let id := (s.pool i).flushId + 1
    sendRead (s.updPool i fun x => { x with flushId := id }) i p (freeTag s i) { owner := .flush id, sp := 1, port := some p, addr := 0, len := 0 } 0 0
      (flushAttr s p)

/-- Whether a flushing read issued after flush count `id` is in flight on a port. -/
def flushUnderway (s : State) (i p id : Nat) : Bool :=
  (s.pool i).reads.any fun e => match e.2.owner with
    | .flush f => id < f && e.2.port == some p
    | _ => false

/-- Flushing reads for the ports of a list of (port, flush count of the last write) that have none underway. -/
def issueFlushes (s : State) (i : Nat) (l : List (Nat × Nat)) : State :=
  l.foldl (fun s e => if flushUnderway s i e.1 e.2 then s else issueFlush s i e.1) s

/-- Entries of (port, flush count) lists that flush `id` on port `p` covers are done. -/
def dropFlushed (l : List (Nat × Nat)) (p id : Nat) : List (Nat × Nat) := l.filter fun e => !(e.1 == p && e.2 < id)

/-- A flushing read completes: every host write issued before it on its port is flushed. -/
def flushDone (s : State) (i p id : Nat) : State :=
  let s := s.updPool i fun x => { x with unflushed := x.unflushed.filter fun u => !(u.port == p && u.id < id) }
  let fixQ (x : Queue) : Queue :=
    { x with unflushed := dropFlushed x.unflushed p id, poss := x.poss.map fun y => { y with ports := dropFlushed y.ports p id } }
  let fix (h : Nat) (s : State) : State :=
    if carrier s h == i then { s with qm := s.qm.upd h fun m => { m with ctxs := Tbl.mapV m.ctxs fixQ } } else s
  fix 1 (fix 0 s)

/-- A port noted as carrying a host write of a job (R248). -/
def notePort (s : State) (home q pos p id : Nat) : State :=
  let add (l : List (Nat × Nat)) : List (Nat × Nat) := (p, id) :: l.filter fun e => e.1 != p
  s.updQ home q fun x => { x.updPos pos fun y => { y with ports := add y.ports } with unflushed := add x.unflushed }

/-! ### Halts (R161) -/

/-- The unit records of descriptor `k` of a channel's job. -/
def unitsAt (s : State) (ch : ChanRec) (k : Nat) : List URec :=
  match (jobOf s ch).bind fun j => j.2.descs[k]? with
  | some d => d.units
  | none => []

/-- The bytes of descriptor `k` of a channel's job. -/
def rawAt (s : State) (ch : ChanRec) (k : Nat) : List Byte :=
  match (jobOf s ch).bind fun j => j.2.descs[k]? with
  | some d => d.raw
  | none => []

/-- The 64 B granules, by translated address, of a range: each by the unit that covers it. -/
def rangeGranules (us : List URec) (sp addr len : Nat) : List Nat :=
  if len = 0 then []
  else (List.range ((addr + len - 1) / 64 - addr / 64 + 1)).filterMap fun k =>
    let a := max addr (64 * (addr / 64 + k))
    (findUnit us sp a).map fun u => (u.tbase + (a - u.base)) / 64

/-- Whether a write of the stage buffer is of phase A units `it` to `it + n` of REDUCE_STAGED (R184). -/
def stageWrite (raw : List Byte) (w : Wr) (it n : Nat) : Bool := it ≤ w.iter && w.iter < it + n && w.iter < stagedU raw

/-- The interlock of a channel (R182): an entry stays while its unit is in progress or the write that the unit's read led to, held ones among them,
has not landed: the write to the granule, or in phase A of REDUCE_STAGED that to the stage buffer. The others are freed, and RED.INTERLOCK.in_use
follows (R190). -/
def freeLocks (s : State) (cid : Nat) : State :=
  let i := cid / 256
  let ch := s.chan cid
  let stays (l : Lock) : Bool :=
    let raw := rawAt s ch l.desc
    l.chan != cid || (l.desc == ch.desc && ch.units.any fun u => u.iter == l.iter) ||
    (ch.wrs ++ ch.held).any fun w => w.desc == l.desc &&
      (if opcodeOf raw = 0x12 then stageWrite raw w l.iter l.n else (rangeGranules (unitsAt s ch w.desc) w.sp w.addr w.bytes.length).contains l.granule)
  let s := { s with red := s.red.upd i fun x => { x with locks := x.locks.filter stays } }
  s.setFld (redR i 0x48) 0 13 (s.red.get i).locks.length

/-- DMA.PROG_ITER: units completed of the current descriptor (R158). -/
def progIter (ch : ChanRec) : Nat := match ch.units with
  | u :: _ => u.iter
  | [] => ch.iter

/-- PROG_ITER of a channel that stops short (R158, R184): no unit whose write was never issued or is held counts, and of REDUCE_STAGED none of phase
B before it has begun, which it has once the partner holds the commit mark (DESIGN CHOICE, log entry 166). -/
def stopIter (raw : List Byte) (ch : ChanRec) : Nat :=
  let n := (((ch.wrs.filter fun w => w.slot.isNone) ++ ch.held).filter fun w => w.desc == ch.desc).map Wr.iter |>.foldl min (progIter ch)
  if opcodeOf raw = 0x12 && !ch.phaseB then min n (stagedU raw - 1) else n

/-- Work of a channel that is not outstanding is dropped: writes not issued, held keystone writes, units not complete. -/
def dropWork (s : State) (cid : Nat) : State :=
  let raw := match curDesc s (s.chan cid) with
    | some d => d.raw
    | none => []
  freeLocks (s.updChan cid fun ch =>
    { ch with iter := stopIter raw ch, units := [], wrs := ch.wrs.filter fun w => w.slot.isSome, held := [], idx := [], idxRd := none, arrive := [] }) cid

/-- The progress of a channel that halts at descriptor `k` of its job: at one the chain has gone on from, every unit has formed (R158, R184). -/
def ChanRec.haltedAt (ch : ChanRec) (k : Nat) (raw : List Byte) : ChanRec :=
  if k = ch.desc then ch else { ch with desc := k, between := false, iter := totalIter raw, units := [], phaseB := true }

/-- A channel halts on an error of descriptor `k` of its job (R161): the first is latched, a later one sets ERR_INFO.more. `dir`: 1 write. -/
def haltAt (s : State) (cid k source addr sp dir : Nat) : State :=
  let ch := s.chan cid
  match ch.st with
  | .running | .pausing | .paused =>
    let op := match (jobOf s ch).bind fun j => j.2.descs[k]? with
      | some d => opcodeOf d.raw
      | none => 0
    let s := s.setR (dmaR cid 0x80) addr
    let s := s.setR (dmaR cid 0x88) (fields [(0, dir), (1, sp), (4, source), (8, op), (16, k % 4096), (31, 1)])
    let s := (s.setR (dmaR cid 0x8C) ch.pos).setR (dmaR cid 0x90) (s.time (cid / 256))
    let status := if source = 9 then 0xB else if source = 10 then 4 else 2
    dropWork (s.updChan cid fun ch => { ch.haltedAt k (rawAt s ch k) with st := .halting, errStatus := status }) cid
  | .halting => if ch.torn then s else s.orR (dmaR cid 0x88) (2 ^ 30)
  | _ => s

/-- A channel halts on an error of its current descriptor. -/
def haltChan (s : State) (cid source addr sp dir : Nat) : State := haltAt s cid (s.chan cid).desc source addr sp dir

/-- The chain index of the descriptor whose write holds a slot. -/
def wrDesc (s : State) (cid slot : Nat) : Nat :=
  (((s.chan cid).wrs.find? fun w => w.slot == some slot).map Wr.desc).getD (s.chan cid).desc

/-- The halt source of an error response (R161). -/
def errSource (st : Rsp) : Nat :=
  match st with
  | .ok => 0 | .ur => 1 | .ca => 2 | .poison => 3 | .uncorr => 3 | .timeout => 4 | .range => 5 | .noc => 6

/-- The state a channel enters after a job, clear_halt or abort (R133). -/
def restState (s : State) (cid : Nat) : ChSt :=
  if chanPause s cid then .paused else if chanEnabled s cid then .idle else .off

/-- The channel leaves its job (R133); leaving enable = 0 raises drained, entering PAUSED raises paused (R134). -/
def leaveJob (s : State) (cid : Nat) : State :=
  let st := restState s cid
  let s := freeLocks (s.updChan cid fun ch => { ({} : ChanRec) with st := st, nif := ch.nif }) cid
  if st = .paused then s.irq (dmaPage cid) 17 else if st = .off then s.irq (dmaPage cid) 18 else s

/-! ### The pause unit at work (R157, R158) -/

/-- A range cut into requests (R151, R243); `sh` tells of an address whether its requests go to a host port, and their longest. -/
def cutRange : Nat → (Nat → Bool × Nat) → Nat → Nat → List (Nat × Nat)
  | 0, _, _, _ => []
  | f + 1, sh, a, n =>
    if n = 0 then []
    else
      let k := reqLen (sh a).1 (sh a).2 a n
      (a, k) :: cutRange f sh (a + k) (n - k)

/-- Whether the requests of descriptor `k` of a channel at an address go to a host port, and the longest one there (R74, R151): min(MRRS, 256 B) of a read, MPS of
a write. -/
def reqShape (s : State) (ch : ChanRec) (cid k : Nat) (us : List URec) (w : Bool) (sp addr : Nat) : Bool × Nat :=
  match findUnit us sp addr with
  | some u =>
    if u.hostBound then (true, match chanPort s ch cid k u.hostGroup with | some p => if w then mpsOf s p else mrrsOf s p | none => 128)
    else (false, 256)
  | none => (false, 256)

/-- Destination granules (R182) of a read-modify-write unit: those of its reads of the destination. -/
def granulesOf (us : List URec) (l : List LRd) : List Nat := (l.flatMap fun r => rangeGranules us r.sp r.addr r.len).eraseDups

/-- The destination reads among a unit's reads, by index of the first: REDUCE_INTO, phase A of REDUCE_STAGED, SCATTER_ADD. -/
def dstReadFrom (raw : List Byte) (it : Nat) : Option Nat :=
  let o := opcodeOf raw
  if o = 0x11 || (o = 0x12 && it < stagedU raw) then some (chunkN (srcFmt raw) * sourcesOf raw)
  else if o = 0x13 then some 1
  else none

/-- Whether every granule is free and the 4,096 entries have room for them (R182). -/
def locksFree (s : State) (i : Nat) (gs : List Nat) : Bool :=
  let l := (s.red.get i).locks
  gs.all (fun g => !l.any fun e => e.granule == g) && l.length + gs.length ≤ 4096

/-- Interlock entries taken. -/
def takeLocks (s : State) (i cid desc iter n : Nat) (gs : List Nat) : State :=
  let s := { s with red := s.red.upd i fun x => { x with locks := x.locks ++ gs.map fun g => (⟨g, cid, desc, iter, n⟩ : Lock) } }
  s.setFld (redR i 0x48) 0 13 (s.red.get i).locks.length

/-- The index entry of the unit at `ch.iter`, if the opcode has one and it has been read. -/
def nextEnt (raw : List Byte) (ch : ChanRec) : Option Nat := if isIndexed raw then ch.idx.head? else none

/-- Whether the next unit can be made: the descriptor has units left, its index entry is at hand, and phase B of
REDUCE_STAGED has been released (R184). -/
def unitReady (raw : List Byte) (ch : ChanRec) : Bool :=
  ch.iter < totalIter raw && (!isIndexed raw || !ch.idx.isEmpty) &&
  (opcodeOf raw != 0x12 || ch.iter < stagedU raw || ch.phaseB)

/-- The next pause unit made, or those of a batch (R243): its reads cut into requests, in iteration order (R151); a read-modify-write unit takes its
interlock entries if they are all free, and else waits for them (R182). -/
def makeUnit (s : State) (cid : Nat) (d : DescSt) : State :=
  let ch := s.chan cid
  let raw := d.raw
  let shape (sp a : Nat) : Bool × Nat := reqShape s ch cid ch.desc d.units false sp a
  let a := progSrc raw ch.iter (nextEnt raw ch)
  let sh := shape (srcSp raw) a
  let n := if batches raw then batchLen raw ch.iter fun r => (shape r.sp r.addr).1 else unitLen raw ch.iter (reqLen sh.1 sh.2 a (2 ^ 32))
  let ent := nextEnt raw ch
  let l := batchRds raw ch.iter n ent
  let step := (unitRds raw ch.iter 1 ent).map LRd.len
  let dk := dstReadFrom raw ch.iter
  let rds := (l.zipIdx.map fun p => (cutRange (p.1.len + 1) (shape p.1.sp) p.1.addr p.1.len).map fun c =>
    ((c.1 - p.1.addr) / max 1 (step.getD p.2 1), ({ op := p.2, sp := p.1.sp, addr := c.1, len := c.2 } : Rd))).flatten
  let rds := (sortBy (fun x y => decide (x.1 ≤ y.1)) rds).map Prod.snd
  let gs := match dk with
    | some k => granulesOf d.units (l.drop k)
    | none => []
  let ok := locksFree s (cid / 256) gs
  let s := if ok && !gs.isEmpty then takeLocks s (cid / 256) cid ch.desc ch.iter n gs else s
  s.updChan cid fun ch =>
    { ch with iter := ch.iter + n, idx := if isIndexed raw then ch.idx.tail else ch.idx,
              idxAt := if isIndexed raw then ch.idxAt + 1 else ch.idxAt,
              units := ch.units ++ [{ iter := ch.iter, n, ent, rds, granules := gs, granted := ok }] }

/-- Whether every read of a unit has returned. -/
def UnitSt.complete (u : UnitSt) : Bool := u.granted && u.rds.all fun r => r.data.isSome

/-- The data of logical read `k` of a unit. -/
def UnitSt.dataOf (u : UnitSt) (k : Nat) : List Byte := ((u.rds.filter fun r => r.op == k).map fun r => r.data.getD []).flatten

/-- The windows of R194 and R195 as they stand: valid, write_ok, station_ok, group, mode, size_log2, host base of window `w`. -/
def winReg (s : State) (home part w : Nat) : Nat := s.r (reg .atu home 1 (0x800 + 0x80 * part + 8 * w))

/-- Base DA of host window `w` (R191). -/
def winBase (w : Nat) : Nat := 0x0004000000000000 + w * 0x0000400000000000

/-- host_base of a window register. -/
def winHost (r : Nat) : Nat := bits r 21 43 * 2 ^ 21

/-- A conversion of R194 (DA to IOVA) or its inverse R195 through window registers, with the window used: forward through the valid window
that holds the DA, of group `g` where one is asked for; inverse through the lowest-numbered valid window of group `g` that holds the IOVA. -/
def convAmong (reg : Nat → Nat) (g : Option Nat) (rev : Bool) (v : Nat) : Option (Nat × Nat) :=
  ((List.range 16).find? fun w =>
    let r := reg w
    let sz := 2 ^ bits r 8 6
    bitAt r 0 && (match g with | some g => bits r 5 2 == g | none => true) &&
    (if rev then winHost r ≤ v && v < winHost r + sz else winBase w ≤ v && v < winBase w + sz)).map fun w =>
      (w, if rev then v - winHost (reg w) + winBase w else v - winBase w + winHost (reg w))

/-- That conversion through the windows of a partition as they stand. -/
def convWin (s : State) (home part : Nat) (g : Option Nat) (rev : Bool) (v : Nat) : Option (Nat × Nat) := convAmong (winReg s home part) g rev v

/-- A pointer conversion of R149, through the windows of a group as they stood when the descriptor was translated (DEDUCED, log entry 47). -/
def convPtr (wins : List Nat) (g : Nat) (rev : Bool) (v : Nat) : Option Nat := (convAmong (wins.getD · 0) (some g) rev v).map Prod.snd

/-- RED page counters increased by what a unit wrote (R190). -/
def addRedStat (s : State) (i : Nat) (r : RedStat) : State :=
  let add (s : State) (off n : Nat) : State := if n = 0 then s else s.bump (redR i off) n
  add (add (add (add s 0x58 r.nan) 0x60 r.ovf) 0x68 r.cell) 0x70 r.sr

/-- Whether a pipe takes beats: its RED.PIPE_STATUS.offline bit is clear. -/
def pipeOnline (s : State) (i p : Nat) : Bool := !bitAt (s.r (redR i 0x44)) (16 + p)

/-- The pipe that takes beat `k` of a descriptor on NIF port `n` (R167): its pair takes beats alternately, one pipe of it takes all while the
other is offline, and with both offline the first pair after it with a pipe online serves. -/
def pipeFor (s : State) (i n k : Nat) : Option Nat :=
  (((List.range 8).map fun d => (n + d) % 8).find? fun m => pipeOnline s i (2 * m) || pipeOnline s i (2 * m + 1)).map fun m =>
    if !pipeOnline s i (2 * m + 1) then 2 * m else if !pipeOnline s i (2 * m) then 2 * m + 1 else 2 * m + k % 2

/-- Data of a unit of an arithmetic descriptor goes to its pipes (R167, R168): the input of a descriptor, in the order of its arrival, fills beats
of 128 B, each counted in RED.BEATS when it begins; the pipes hold them until the unit forms. (DESIGN CHOICE, log entry 43.) -/
def takeBeats (s : State) (cid : Nat) (iter len : Nat) : State :=
  let ch := s.chan cid
  let i := cid / 256
  let k0 := (ch.inBytes + 127) / 128
  let k1 := (ch.inBytes + len + 127) / 128
  let ps := ((List.range (k1 - ch.inBytes / 128)).filterMap fun j => pipeFor s i ch.nif (ch.inBytes / 128 + j)).eraseDups
  let s := if k0 = k1 then s else s.bump (redR i 0x50) (k1 - k0)
  s.updChan cid fun ch =>
    { ch with inBytes := ch.inBytes + len, units := ch.units.map fun u => if u.iter = iter then { u with pipes := (u.pipes ++ ps).eraseDups } else u }

/-- RED.PIPE_STATUS.busy of an instance: the pipes that hold a beat (R190). -/
def busyPipes (s : State) (i : Nat) : List Nat :=
  ((s.chans.filter fun e => e.1 / 256 == i).flatMap fun e => e.2.units.flatMap UnitSt.pipes).eraseDups

/-- A write joins the list of a channel: toward a host port, one that goes on where an earlier one ends that is not issued is one with it, so that
no granule is divided between two host requests (R243), unless a write between them meets it. -/
def joinWr (host : Bool) (l : List Wr) (w : Wr) : List Wr :=
  let ends (x : Wr) : Bool := x.slot.isNone && x.desc == w.desc && x.sp == w.sp && x.counts && w.counts && x.addr + x.bytes.length == w.addr
  let meets (y : Wr) : Bool := y.sp == w.sp && y.addr < w.addr + w.bytes.length && w.addr < y.addr + y.bytes.length
  let back := l.reverse.takeWhile fun y => !(host && ends y) && !meets y
  match (l.reverse.drop back.length) with
  | x :: r => if host && ends x then r.reverse ++ [{ x with bytes := x.bytes ++ w.bytes }] ++ back.reverse else l ++ [w]
  | [] => l ++ [w]

/-- The head unit of a channel forms its writes once its data is there (R157): they join the write list in iteration order. Of a batch, the units
before one that is in error form; PROG_ITER then stands at that one. -/
def formUnit (s : State) (cid : Nat) (d : DescSt) (u : UnitSt) : State :=
  let ch := s.chan cid
  let raw := d.raw
  let i := cid / 256
  let g := match jobOf s ch with
    | some j => j.1.ctx.group
    | none => 0
  let nops := (batchRds raw u.iter u.n u.ent).length
  let fs := batchForm raw (ch.seed.getD 0) u.iter u.n u.ent ((List.range nops).map u.dataOf) (convPtr d.wins g (df raw 0 16 1 == 1))
  let good := fs.takeWhile fun f => f.2.err.isNone
  let bad := (fs.drop good.length).head?
  let wr (it : Nat) (w : WPart) : Wr := { desc := ch.desc, iter := it, sp := w.sp, addr := w.addr, bytes := w.bytes, counts := w.counts }
  let s := s.updChan cid fun ch =>
    { ch with units := (match bad with | some f => [{ u with iter := f.1 }] | none => []) ++ ch.units.tail,
              wrs := good.foldl (fun l f => f.2.wrs.foldl (fun l w => joinWr (reqShape s ch cid ch.desc d.units true w.sp w.addr).1 l (wr f.1 w)) l) ch.wrs }
  let skip := (good.map fun f => f.2.skip).sum
  let s := if skip = 0 then s else s.bump (dmaR cid 0xD8) skip
  let s := if isArith raw && !(opcodeOf raw == 0x12 && stagedU raw ≤ u.iter) then addRedStat s i ((good.map fun f => f.2.stat).foldl RedStat.add {}) else s
  match bad.bind fun f => f.2.err with
  | some (src, a) => haltChan s cid src a (if src = 7 then idxSp raw else srcSp raw) 0
  | none => s

/-- Whether a descriptor's last write is a keystone write: keystone = 1, or phase B of REDUCE_STAGED (R156, R184). -/
def hasKeystone (raw : List Byte) : Bool := keystoneOf raw || opcodeOf raw == 0x12

/-- Whether the current descriptor has formed every unit. -/
def descFormed (raw : List Byte) (ch : ChanRec) : Bool := totalIter raw ≤ ch.iter && ch.units.isEmpty

/-- Whether units to come may go on where a write of the list ends: at the last write, or in a descriptor with several destination streams at any
(DEINTERLEAVE, MX_TRANSPOSE, an MX destination). A read-modify-write, which waits for its own writes to land, ends its units at granules instead. -/
def mayGrow (raw : List Byte) (ch : ChanRec) (w : Wr) : Bool :=
  (dstReadFrom raw 0).isNone &&
  (ch.wrs.getLast? == some w || opcodeOf raw == 8 || opcodeOf raw == 0x15 || (isArith raw && isMx (dstFmt raw)))

/-- The bytes of a write of the current descriptor that may go as its next request, 0 where it must wait. While units are still to form, the open
granule at the end of a host write that may grow waits for what follows (R243), and the last request of a scattering keystone descriptor for a unit
known to write after it, since entries to come may be padding (R156). A pausing channel writes the open granule as it is (R157) (DESIGN CHOICE, log entry 138). -/
def writeLen (s : State) (cid : Nat) (d : DescSt) (w : Wr) : Nat :=
  let ch := s.chan cid
  let sh := reqShape s ch cid w.desc d.units true w.sp w.addr
  let n := reqLen sh.1 sh.2 w.addr w.bytes.length
  let opn := !descFormed d.raw ch && n == w.bytes.length
  if opn && hasKeystone d.raw && (opcodeOf d.raw == 4 || opcodeOf d.raw == 0x13) && (ch.units.all fun u => u.rds.isEmpty) && ((ch.wrs.filter fun x => x.desc == ch.desc).getLast? == some w) then 0
  else if opn && sh.1 && ch.st == .running && mayGrow d.raw ch w then alignDown (w.addr + n) 64 - w.addr
  else n

/-- A write cut into its requests. -/
def splitWr (s : State) (cid : Nat) (us : List URec) (w : Wr) : List Wr :=
  (cutRange (w.bytes.length + 1) (reqShape s (s.chan cid) cid w.desc us true w.sp) w.addr w.bytes.length).map fun c =>
    { w with addr := c.1, bytes := (w.bytes.drop (c.1 - w.addr)).take c.2 }

/-- Once every unit of a keystone descriptor has formed, its last write in iteration order is held (R156). -/
def holdKeystone (s : State) (cid : Nat) (d : DescSt) : State :=
  let ch := s.chan cid
  if hasKeystone d.raw && descFormed d.raw ch && !ch.held.any (fun w => w.desc == ch.desc) then
    match (ch.wrs.reverse.find? fun w => w.desc == ch.desc && w.counts) with
    | some w =>
      if w.slot.isSome then s
      else
        match (splitWr s cid d.units w).reverse with
        | k :: pre => s.updChan cid fun ch =>
            { ch with wrs := (ch.wrs.flatMap fun x => if x = w then pre.reverse else [x]), held := ch.held ++ [k] }
        | [] => s
    | none => s
  else s

/-- Complete units at the head of a channel form, at most `n` of them. -/
def formHead : Nat → State → Nat → DescSt → State
  | 0, s, _, _ => s
  | n + 1, s, cid, d =>
    match (s.chan cid).units with
    | u :: _ => if u.complete && ((s.chan cid).st == .running || (s.chan cid).st == .pausing) then formHead n (formUnit s cid d u) cid d else s
    | [] => s

/-- After data has returned, or at the start of a descriptor without units: units form, the keystone write is held, and a formed descriptor that is
not the last leaves the channel at the boundary before the next (R138), where no unit of the next is done (R134, R158). -/
def advance (s : State) (cid : Nat) : State :=
  match curDesc s (s.chan cid) with
  | none => s
  | some d =>
    if (s.chan cid).between then s
    else
      let s := holdKeystone (formHead ((s.chan cid).units.length) s cid d) cid d
      let ch := s.chan cid
      if descFormed d.raw ch && chainOf d.raw && (ch.st == .running || ch.st == .pausing) && ch.arrive.all (fun a => a.hit.isSome) &&
        (ch.wrs.all fun w => w.slot.isSome || w.desc != ch.desc) then
        s.updChan cid fun ch => { ch with between := true, desc := ch.desc + 1, iter := 0, idx := [], idxAt := 0, markSent := false, marked := false, phaseB := false }
      else s

/-! ### Writes landing (R153, R246) -/

/-- A write of a channel has landed: its bytes count, and the interlock entries of the granules it wrote last are freed (R182). -/
def chanLanded (s : State) (cid slot : Nat) (w : WUse) : State :=
  let ch := s.chan cid
  match ch.wrs.find? fun x => x.slot == some slot with
  | none => s
  | some x =>
    let s := s.bump (dmaR cid 0xC8) w.bytes.length
    freeLocks (s.updChan cid fun ch =>
      { ch with wrs := ch.wrs.filter fun y => y.slot != some slot, bytes := ch.bytes + (if x.counts then w.bytes.length else 0) }) cid

/-- A completion record has landed (R118): its slot is no longer in flight. -/
def recordLanded (s : State) (h q slot : Nat) : State := s.updQ h q fun x => { x with recFly := x.recFly.filter fun e => e.1 != slot }

/-- The slot of a write is freed: it has landed (R153). A landed host write is not flushed yet (R246). -/
def landed (s : State) (i slot : Nat) : State :=
  match Tbl.find (s.pool i).writes slot with
  | none => s
  | some w =>
    let uf : List Unflushed := match w.port, w.unit with
      | some p, some u => (match u.hkey with
        | some k => [{ port := p, key := k, base := u.iova, size := u.size, id := (s.pool i).flushId,
                       da := match u.key with | .da q => some (q, u.base) | .host .. => none }]
        | none => [])
      | _, _ => []
    let s := s.updPool i fun x =>
      { x with writes := Tbl.del x.writes slot, unflushed := uf ++ x.unflushed.filter fun v => !uf.any fun n => n.port == v.port && n.key == v.key && n.base == v.base && n.da == v.da }
    match w.owner with
    | .chan cid => chanLanded s cid slot w
    | .record h q _ => recordLanded s h q slot
    | _ => s

end Sys2Proof.Machine
end

