-- ==== Sys2Proof/Machine/Xlate.lean ====
section
/-! DEFINITION. Operations of the translation unit: the device TLB (R200), the ATC (R201), units (R191-R196), stamps (R208),
footprints (R139, R203, R204), page-request groups (R222-R230). -/
namespace Sys2Proof.Machine

/-- ATU page registers of instance `i`. -/
def atuR (i n off : Nat) : Nat := reg .atu i n off

/-- ATU page `n`. -/
def atuPage (i n : Nat) : PageId := ⟨.atu, i, n⟩

/-- PRQ page registers. -/
def prqR (i off : Nat) : Nat := reg .prq i 0 off

/-- The PRQ page. -/
def prqPage (i : Nat) : PageId := ⟨.prq, i, 0⟩

/-- The translation unit of an instance changed. -/
def State.updAtu (s : State) (i : Nat) (f : Atu → Atu) : State := { s with atu := s.atu.upd i f }

/-- The page-request unit of an instance changed. -/
def State.updPrq (s : State) (i : Nat) (f : Prq → Prq) : State := { s with prq := s.prq.upd i f }

/-- Scheduler of an instance. -/
def State.sc (s : State) (i : Nat) : Sch := s.sch.get i

/-- The partition a site belongs to, with the instance whose resource it is (R316). -/
def partAt (s : State) (k : Nat) : Option (Nat × Nat) :=
  [0, 1].findSome? fun i => ((s.sc i).parts.find? fun e => bitAt e.2.sites k).map fun e => (i, e.1)

/-- What a translation is made for: the home instance, the partition, the host group and PASID of the queue (R191, R192). -/
structure XCtx where
  i : Nat
  part : Nat
  group : Nat
  pasid : Option Nat
  deriving DecidableEq, Repr

/-- The PASID of a queue: none for VD 0, else that of its VD's record (R192). -/
def pasidOf (s : State) (i vd : Nat) : Option Nat := if vd = 0 then none else some (bits (s.vd i vd).cfg0 8 20)

/-- The translation context of a queue. -/
def xctx (s : State) (i : Nat) (x : Queue) : XCtx := ⟨i, x.part, x.ctx.group, pasidOf s i x.vd⟩

/-- Whether host IOVA of a group may be translated: every UP port of it has ATS enabled (R193). -/
def atsOn (s : State) (g : Nat) : Bool := (upPorts s g).all fun n => (s.port n).ats

/-! ### The device TLB and the ATC (R200, R201) -/

/-- A leaf of the partition that maps a device address, with the set it lies in. -/
def tlbFind (s : State) (i part da : Nat) : Option (Nat × TlbEnt) :=
  [26, 30, 35].findSome? fun k =>
    ((Tbl.getD (s.atu.get i).tlb (bits da k 10) []).find? fun e => e.part == part && e.base ≤ da && da < e.base + 2 ^ e.log2).map
      fun e => (bits da k 10, e)

/-- A leaf becomes the most recently used of its set of 4 ways. -/
def tlbPut (s : State) (i : Nat) (e : TlbEnt) : State :=
  s.updAtu i fun a => { a with tlb := Tbl.upd a.tlb (bits e.base e.log2 10) [] fun l => (e :: l.filter (· != e)).take (4 - banksLost s i 2) }

/-- The size class of an ATC entry (R201). -/
def atcClass (log2 : Nat) : Nat := if log2 ≤ 24 then 0 else if log2 ≤ 28 then 1 else if log2 ≤ 33 then 2 else 3

/-- The set of a class for an IOVA and space: the index bits XORed with PASID bits. -/
def atcSet (c iova : Nat) (pasid : Option Nat) : Nat :=
  let p := pasid.getD 0
  match c with
  | 0 => 0x000 + (bits iova 24 9 ^^^ bits p 0 9)
  | 1 => 0x200 + (bits iova 28 8 ^^^ bits p 0 8)
  | 2 => 0x400 + (bits iova 33 7 ^^^ bits p 0 7)
  | _ => 0x600 + (bits iova 39 7 ^^^ bits p 0 7)

/-- An entry of the space that maps an IOVA. -/
def atcFind (s : State) (i g : Nat) (pasid : Option Nat) (iova : Nat) : Option AtcEnt :=
  [0, 1, 2, 3].findSome? fun c =>
    (Tbl.getD (s.atu.get i).atc (atcSet c iova pasid) []).find? fun e =>
      atcClass e.log2 == c && e.group == g && e.pasid == pasid && e.base ≤ iova && iova < e.base + 2 ^ e.log2

/-- An entry becomes the most recently used of its set of 16 ways; an older entry of the same base and space goes. -/
def atcPut (s : State) (i iova : Nat) (e : AtcEnt) : State :=
  s.updAtu i fun a => { a with atc := Tbl.upd a.atc (atcSet (atcClass e.log2) iova e.pasid) [] fun l =>
    (e :: l.filter fun x => !(x.group == e.group && x.pasid == e.pasid && x.base == e.base && x.log2 == e.log2)).take (16 - banksLost s i 1) }

/-! ### One unit (R191-R196, R203) -/

/-- How the translation of one address ends: a unit record, a reason of R204, a miss (its key and address in it), or a right
that the host entry lacks (R222), with the IOVA and the end of the entry. -/
inductive XRes where
  | unit (u : URec)
  | fail (reason : Nat)
  | miss (key : XKey) (iova : Nat)
  | right (g iova hi : Nat)
  deriving DecidableEq, Repr

/-- A host address of the queue's space translated: `win` is the window register it came through, with its DA base. -/
def xlateHost (s : State) (c : XCtx) (g iova : Nat) (nr nw : Bool) (win : Option (Nat × Nat)) : State × XRes :=
  if !atsOn s g then (s, .fail 6)
  else
    match atcFind s c.i g c.pasid iova with
    | none => (s.bump (atuR c.i 0 0x118) 1, .miss (.host g c.pasid) iova)
    | some e =>
      let s := atcPut (s.bump (atuR c.i 0 0x110) 1) c.i iova e
      let stamp := (s.atu.get c.i).epoch
      if (nr && !e.rd) || (nw && !e.wr) then (s, .right g iova (e.base + 2 ^ e.log2))
      else
        match win with
        | none => (s, .unit { key := .host g c.pasid, base := e.base, size := 2 ^ e.log2, kind := .host, tbase := e.tbase,
                              rd := e.rd, wr := e.wr, stamp, hkey := some (.host g c.pasid), iova := e.base, glob := e.global })
        | some (r, wb) =>
          let lo := max e.base (winHost r)
          let hi := min (e.base + 2 ^ e.log2) (winHost r + 2 ^ bits r 8 6)
          (s, .unit { key := .da c.part, base := lo - winHost r + wb, size := hi - lo, kind := if bits r 3 2 = 0 then .host else .hlc,
                      tbase := e.tbase + (lo - e.base), rd := e.rd, wr := e.wr && bitAt r 1, stamp,
                      hkey := some (.host g c.pasid), iova := lo, glob := e.global, mode := bits r 3 2 })

/-- An address of a space translated to its unit (R191, R194, R196, R198) (DESIGN CHOICE, log entry 53). -/
def xlateAt (s : State) (c : XCtx) (sp addr : Nat) (nr nw : Bool) : State × XRes :=
  if sp = 1 then xlateHost s c c.group addr nr nw none
  else if addr < 2 ^ 50 then
    match tlbFind s c.i c.part addr with
    | none => (s.bump (atuR c.i 0 0x108) 1, .miss (.da c.part) addr)
    | some (_, e) =>
      let s := tlbPut (s.bump (atuR c.i 0 0x100) 1) c.i e
      if (nr && !e.rd) || (nw && !e.wr) then (s, .fail 4)
      else (s, .unit { key := .da c.part, base := e.base, size := 2 ^ e.log2, kind := .hbm, tbase := e.hbm, rd := e.rd, wr := e.wr,
                       stamp := (s.atu.get c.i).epoch, count := e.count })
  else if addr < 2 ^ 51 then
    let w := bits addr 46 4
    let r := winReg s c.i c.part w
    let o := addr - winBase w
    if !bitAt r 0 || 2 ^ bits r 8 6 ≤ o then (s, .fail 3)
    else if nw && !bitAt r 1 then (s, .fail 4)
    else xlateHost s c (bits r 5 2) (winHost r + o) nr nw (some (r, winBase w))
  else if addr < 0x000C000000000000 then
    let w := bits addr 47 3
    let r := s.r (atuR c.i 2 (0x400 + 0x40 * c.part + 8 * w))
    let b := 2 ^ 51 + w * 2 ^ 47
    if !bitAt r 0 || 2 ^ bits r 16 6 ≤ addr - b then (s, .fail 3)
    else if nw && !bitAt r 1 then (s, .fail 4)
    else (s, .unit { key := .da c.part, base := b, size := 2 ^ bits r 16 6, kind := .peer,
                     tbase := fields [(63, 1), (56, bits r 4 3), (52, bits r 8 4)], rd := true, wr := bitAt r 1,
                     stamp := (s.atu.get c.i).epoch })
  else (s, .fail 2)

/-! ### Footprints (R139, R203, R204) -/

/-- How the translation of a descriptor's footprints ends. -/
inductive TRes where
  | ok
  | limit                                                     -- XLATE_LIMIT (R139)
  | fail (reason sp addr : Nat)
  | miss (key : XKey) (iova sp addr : Nat) (nr nw data : Bool) (fp : Nat)
  | right (g iova hi sp addr : Nat) (nr nw data : Bool) (fp : Nat)
  deriving DecidableEq, Repr

/-- One footprint, number `fp`, from address `cur` on: `n` units of it and `tot` of the descriptor are counted; known units are used again (DEDUCED,
log entry 52). -/
def xlateFp (c : XCtx) (f : Fp) (data : Bool) (fp : Nat) : Nat → State → List URec → Nat → Nat → Nat → State × List URec × Nat × TRes
  | 0, s, us, _, tot, _ => (s, us, tot, .limit)
  | k + 1, s, us, n, tot, cur =>
    if f.hi ≤ (cur : Int) then (s, us, tot, .ok)
    else if 32 ≤ n || 64 ≤ tot then (s, us, tot, .limit)
    else
      match us.find? fun u => u.key.space == f.sp && u.base ≤ cur && cur < u.base + u.size && (!f.rd || u.rd) && (!f.wr || u.wr) with
      | some u => xlateFp c f data fp k s us (n + 1) (tot + 1) (u.base + u.size)
      | none =>
        match xlateAt s c f.sp cur f.rd f.wr with
        | (s, .unit u) => xlateFp c f data fp k s (us ++ [u]) (n + 1) (tot + 1) (u.base + u.size)
        | (s, .fail r) => (s, us, tot, .fail r f.sp cur)
        | (s, .miss key iova) => (s, us, tot, .miss key iova f.sp cur f.rd f.wr data fp)
        | (s, .right g iova hi) =>
          (s, us, tot, .right g iova (min hi (iova + (f.hi - (cur : Int)).toNat)) f.sp cur f.rd f.wr data fp)

/-- A list of footprints in order, each with whether it is a data footprint (R222); its number is how many come after it. -/
def xlateFps (c : XCtx) : List (Fp × Bool) → State → List URec → Nat → State × List URec × TRes
  | [], s, us, _ => (s, us, .ok)
  | (f, d) :: r, s, us, tot =>
    match xlateFp c f d r.length 34 s us 0 tot f.lo.toNat with
    | (s, us, tot, .ok) => xlateFps c r s us tot
    | (s, us, _, t) => (s, us, t)

/-! ### Ends of waiters -/

/-- The result field of an XLATE_FAIL record (R204). -/
def xlateResult (reason idx sp addr : Nat) : Nat := fields [(0, reason), (8, idx % 4096), (20, sp)] + alignDown addr (2 ^ 21)

/-- What waits for a hold, or was let go by one, without those that a condition names. -/
def dropHeld (s : State) (i : Nat) (mine : Who → Bool) : State :=
  { s with acc := s.acc.upd i fun a =>
      { a with released := a.released.filter (!mine ·), holds := Tbl.mapV a.holds fun h => { h with waiters := h.waiters.filter (!mine ·) } } }

/-- The waits of one waiter removed. -/
def dropMisses (s : State) (i : Nat) (w : Who) : State :=
  dropHeld (s.updAtu i fun a => { a with misses := a.misses.filter fun m => m.who != w }) i (· == w)

/-- A descriptor of a position changed. -/
def updDesc (s : State) (i q pos idx : Nat) (f : DescSt → DescSt) : State :=
  s.updQ i q fun x => x.updPos pos fun y => { y with descs := y.descs.zipIdx.map fun e => if e.2 = idx then f e.1 else e.1 }

/-- The waits of every descriptor of a position removed. -/
def dropPosWaits (s : State) (i q pos : Nat) : State :=
  let mine : Who → Bool
    | .desc q' p' _ => q' == q && p' == pos
    | _ => false
  dropHeld (s.updAtu i fun a => { a with misses := a.misses.filter fun m => !mine m.who }) i mine

/-- A descriptor that cannot run, or cannot be read, ends its job: at once before the job has started, else when the job reaches it (R140, R204). -/
def failDesc (s : State) (i q pos idx status result : Nat) : State :=
  match (s.q i q).pos? pos with
  | none => s
  | some p =>
    if p.ph == .waiting && idx = 0 then endPos (dropPosWaits s i q pos) i q pos status result true
    else if idx = p.descs.length then
      (dropMisses s i (.desc q pos idx)).updQ i q fun x => x.updPos pos fun y =>
        { y with fet := .whole, descs := y.descs ++ [{ raw := [], ph := .failed status result }] }
    else updDesc (dropMisses s i (.desc q pos idx)) i q pos idx fun d => { d with ph := .failed status result }

/-- The next position to fetch: the first from `fetch` on that the queue does not hold already, as a restored queue may (R388). -/
def Queue.nextPos (x : Queue) : Nat :=
  ((List.range (x.poss.length + 1)).findSome? fun n =>
    let p := (x.ctx.fetch + n) % 2 ^ 24
    if p = x.ctx.tail || (x.pos? p).isNone then some p else none).getD x.ctx.fetch

/-- A position taken for fetching: behind those before it in the ring, before any restored one after it. -/
def Queue.takePos (x : Queue) (p : Pos) : Queue :=
  let later (y : Pos) : Bool := y.pos < 2 ^ 24 && sub24 y.pos p.pos < 2 ^ 23
  { x with poss := x.poss.filter (fun y => !later y) ++ [p] ++ x.poss.filter later }

/-- The position whose descriptor read is concerned by the queue's ring: the one being read, else the next to fetch. -/
def ringPos (x : Queue) : Nat :=
  match x.poss.find? fun p => p.ph == .waiting && p.fet != .whole && p.descs.isEmpty with
  | some p => p.pos
  | none => x.nextPos

/-- The ring cannot be translated: the position concerned ends with XLATE_FAIL (R207). -/
def failRing (s : State) (i q reason : Nat) : State :=
  let x := s.q i q
  let p := ringPos x
  let s := s.updQ i q fun x =>
    let x := { x with ringRead := none }
    if (x.pos? p).isSome then x
    else { x.takePos { pos := p } with ctx := { x.ctx with fetch := (p + 1) % 2 ^ 24 } }
  endPos (dropMisses s i (.ring q)) i q p 3 (xlateResult reason 0 (1 - x.ctx.ringLoc) x.ctx.ringBase) true

/-- The completion ring cannot be translated: the queue enters ERROR and its records wait (R207). -/
def failCq (s : State) (i q : Nat) : State :=
  let s := (dropMisses s i (.cq q)).updQ i q fun x => { x with cqBad := true, cq := none }
  if (s.q i q).mode == .disabled then s else haltQueue s i q 3

/-- A waiter ends with a reason of R204 or R229; a ring under CTX_ENABLE gives BAD_RING (R116). A station's access is a contained error (R222):
WRITE_DENIED where a right is missing, else GLOBAL_UNMAPPED (DESIGN CHOICE, log entry 140). -/
def failWho (s : State) (i : Nat) (w : Who) (reason sp addr : Nat) : State :=
  match w with
  | .enable q => wakeDbs (ctxEnd (dropMisses s i w) i q 0x12 false) i q
  | .step _ _ => s
  | .station k t =>
    let code : Nat := if reason = 21 || reason = 4 then 9 else 3
    let f (e : StWait) : StWait := if e.site = k && e.tag = t then { e with code := some code } else e
    let s := dropMisses s i w
    { s with hlc := s.hlc.upd (carrier s i) fun h => { h with stWait := h.stWait.map f } }
  | .desc q p k => failDesc s i q p k 3 (xlateResult reason k sp addr)
  | .ring q => failRing s i q reason
  | .cq q => failCq s i q

/-- Positions of an earlier incarnation whose records are still to be delivered (R119), under numbers that no new position has: 2^24 added. -/
def keepOld (s : State) (i q : Nat) : State :=
  let k := ctxKey s i q
  let f (r : Report) : Report := match r with | .record a p => if a = k then .record a (p + 2 ^ 24) else r | r => r
  ({ s with mir := s.mir.upd (carrier s i) fun m => { m with wait := m.wait.map f } } : State).updQ i q fun x =>
    { x with poss := x.poss.map fun y => { y with pos := y.pos + 2 ^ 24 } }

/-- How the translation that must hold a ring or completion ring ends (R116): its unit, a wait, or none. -/
inductive RingRes where
  | unit (u : URec)
  | wait (m : Miss)
  | bad
  deriving DecidableEq, Repr

/-- The translation of the ring (`cq` false) or completion ring of a queue under CTX_ENABLE (R116): one ATC entry, or one device page. -/
def ringUnit (s : State) (i q : Nat) (cq : Bool) : State × RingRes :=
  let x := s.q i q
  let loc := if cq then x.ctx.cqLoc else x.ctx.ringLoc
  let base := if cq then x.ctx.cqBase else x.ctx.ringBase
  let size := if cq then 2 ^ (x.ctx.cqLog2 + 5) else 2 ^ (x.ctx.ringLog2 + 6)
  if loc = 1 && 2 ^ 50 ≤ base then (s, .bad)
  else
    match xlateAt s (xctx s i x) (1 - loc) base (!cq) cq with
    | (s, .unit u) => (s, if u.base ≤ base && base + size ≤ u.base + u.size then .unit u else .bad)
    | (s, .miss key iova) =>
      (s, .wait { who := .enable q, key, iova, sp := 1 - loc, addr := base, needR := !cq, needW := cq, data := false, part := x.part })
    | (s, _) => (s, .bad)

/-- CTX_ENABLE from its translations on (R116): BAD_RING, a wait with the command in progress, or the queue enabled, with irq_pending and
ahead_tries 0 (R115), behind the curtain where its VD is CLOSING or DOWN (R383) (DEDUCED, log entry 143). Records of an earlier incarnation
that wait stay to be delivered (R119). Doorbells that came meanwhile follow (R103). -/
def enableRun (s : State) (i q : Nat) : State :=
  let wait (s : State) (m : Miss) : State := (s.setR (qmR i 0 0x48) 1).updAtu i fun a => { a with misses := a.misses ++ [m] }
  match ringUnit s i q false with
  | (s, .bad) => wakeDbs (ctxEnd s i q 0x12 false) i q
  | (s, .wait m) => wait s m
  | (s, .unit r) =>
    match ringUnit s i q true with
    | (s, .bad) => wakeDbs (ctxEnd s i q 0x12 false) i q
    | (s, .wait m) => wait s m
    | (s, .unit c) =>
      let s := keepOld (touchCtx s i q) i q
      let s := s.updQ i q fun x =>
        { ctx := { x.ctx with irqPending := 0, aheadTries := 0 }, mode := .enabled,
          conds := { curtain := (s.vd i x.vd).st == .closing || (s.vd i x.vd).st == .down }, ring := some r, cq := some c, dbWait := x.dbWait,
          poss := x.poss, recFly := x.recFly, recPort := x.recPort, irqNow := x.irqNow.map (· + 2 ^ 24), jwait := x.jwait, stored := x.stored }
      wakeDbs (ctxEnd s i q 0x01 true) i q

/-- A waiter's translation is made again: its wait goes; a descriptor is pending again once none of its waits is left; CTX_ENABLE goes on. -/
def wake (s : State) (i : Nat) (m : Miss) : State :=
  let s := s.updAtu i fun a => { a with misses := a.misses.filter (· != m) }
  match m.who with
  | .desc q p k =>
    if (s.atu.get i).misses.any fun x => x.who == m.who then s
    else updDesc s i q p k fun d => if d.ph == .miss then { d with ph := .pending } else d
  | .enable q => enableRun s i q
  | _ => s

/-! ### Page-request groups (R224-R230) -/

/-- Page requests outstanding on a port, from both instances. -/
def prqOnPort (s : State) (p : Nat) : Nat :=
  let f (q : Prq) : Nat := (q.groups.filter fun e => e.2.port == some p).length
  f s.prq.a + f s.prq.b

/-- Whether PRG index `idx` is in use on a port and space. -/
def idxUsed (s : State) (p : Nat) (pasid : Option Nat) (idx : Nat) : Bool :=
  let f (q : Prq) : Bool := q.groups.any fun e => e.2.port == some p && e.2.pasid == pasid && e.2.idx == idx
  f s.prq.a || f s.prq.b

/-- The next free PRG index of instance `c` for a port and space: the first free value above the last one allocated (R226). -/
def nextIdx (s : State) (c p : Nat) (pasid : Option Nat) : Option Nat :=
  let last := (((s.prq.get c).lastIdx.find? fun e => e.1 == (p, pasid)).map Prod.snd).getD 255
  ((List.range 256).map fun k => (last + 1 + k) % 256).find? fun v => !idxUsed s p pasid (256 * c + v)

/-- The ports on which a page request of a host group may be sent now (R226). -/
def prqPorts (s : State) (c g : Nat) (pasid : Option Nat) : List Nat :=
  (upPorts s g).filter fun p =>
    !absent s g && (s.port p).pri && !(s.port p).respFail && prqOnPort s p < (s.port p).alloc && (nextIdx s c p pasid).isSome

/-- Group `n` sent, if a port qualifies (R226). -/
def sendPrg (s : State) (i n : Nat) : State :=
  let c := carrier s i
  match Tbl.find (s.prq.get i).groups n with
  | none => s
  | some g =>
    match leastBy (prqOnPort s) (prqPorts s c g.group g.pasid) with
    | none => s
    | some p =>
      match nextIdx s c p g.pasid with
      | none => s
      | some v =>
        let idx := 256 * c + v
        let s := s.updPrq i fun x => { x with groups := Tbl.put x.groups n { g with port := some p, idx } }
        let s := s.updPrq c fun x => { x with lastIdx := ((p, g.pasid), v) :: x.lastIdx.filter fun e => e.1 != (p, g.pasid) }
        (s.bump (prqR i 0x50) 1).emit (.pageReq c p g.pasid g.chunk g.needR g.needW idx)

/-- The waiters of a group. -/
def prgWaits (s : State) (i n : Nat) : List Miss := (s.atu.get i).misses.filter fun m => m.prg == some n

/-- A group ended without Success (R232): the counters, the last-failure registers and the interrupt. -/
def prqFail (s : State) (i : Nat) (g : Prg) (reason : Nat) : State :=
  let s := (s.bump (prqR i 0x60) 1).setR (prqR i 0x70) g.chunk
  (s.setR (prqR i 0x78) (fields [(0, reason), (8, g.group), (10, b2n g.pasid.isSome), (12, g.pasid.getD 0)])).irq (prqPage i) 16

/-- Why no page request of a host group can be sent (R226): PRI_OFF or PRI_STOPPED, if its UP ports say so. -/
def priStop (s : State) (g : Nat) : Option Nat :=
  let ups := upPorts s g
  let pri := ups.filter fun p => (s.port p).pri
  if !ups.isEmpty && pri.isEmpty then some 16
  else if !pri.isEmpty && pri.all (fun p => (s.port p).respFail) then some 23
  else none

/-- Groups that wait are sent in formation order as ports qualify; one whose host group can send no request any more ends (R226). -/
def sendWaiting (s : State) (i : Nat) : State :=
  (s.prq.get i).groups.foldl (fun s e =>
    if e.2.port.isSome || e.2.quarantined then s
    else match priStop s e.2.group with
      | none => sendPrg s i e.1
      | some r =>
        let s := (prgWaits s i e.1).foldl (fun s m => failWho s i m.who r m.sp m.addr) s
        prqFail (s.updPrq i fun x => { x with groups := Tbl.del x.groups e.1 }) i e.2 r) s

/-- A waiter that may fault joins the group of its chunk or forms one, which asks for its rights and those of earlier waiters (R225, R226, R228):
the reason it ends with instead, if any. With every group in use it waits without one. `seen` are the answers it has had for the chunk. -/
def joinPrg (s : State) (i : Nat) (m : Miss) (g : Nat) (pasid : Option Nat) (seen : Nat × Bool × Bool) : State × Option Nat :=
  let chunk := alignDown m.iova (2 ^ 21)
  let add (s : State) (n : Option Nat) : State :=
    s.updAtu i fun a => { a with misses := a.misses.filter (· != m) ++ [{ m with prg := n, sent := n.isSome }] }
  match (s.prq.get i).groups.find? fun e => !e.2.quarantined && e.2.group == g && e.2.pasid == pasid && e.2.chunk == chunk with
  | some (n, _) => ((add s (some n)).bump (prqR i 0x58) 1, none)
  | none =>
    if 2 ≤ seen.1 then (s, some 20)
    else if !bitAt (s.r (prqR i 0x40)) m.part then (s, some 22)
    else if (priStop s g).isSome then (s, priStop s g)
    else if 1024 ≤ (s.prq.get i).groups.length then (add s none, none)
    else
      let n := (s.prq.get i).next
      let new : Prg := { group := g, pasid, chunk, needR := m.needR || seen.2.1, needW := m.needW || seen.2.2, timeout := s.fld (prqR i 0x44) 0 16 }
      let s := s.updPrq i fun x => { x with next := n + 1, groups := Tbl.put x.groups n new }
      (sendWaiting (add s (some n)) i, none)

/-- The Success responses a unit has seen for a chunk, and the rights that the waiters of those groups needed (R228). -/
def prqSeen (s : State) (i : Nat) (m : Miss) : Nat × Bool × Bool :=
  match m.who with
  | .desc q p k =>
    match ((s.q i q).pos? p).bind fun y => y.descs[k]? with
    | some d => ((d.prqs.find? fun e => e.1 == alignDown m.iova (2 ^ 21) + m.fp).map Prod.snd).getD (0, false, false)
    | none => (0, false, false)
  | _ => (0, false, false)

/-- A waiter that lacks a host right (R222): it faults if it may, else ends with PRQ_NOT_ALLOWED. -/
def faultOn (s : State) (i : Nat) (m : Miss) : State :=
  match m.key with
  | .host g pasid =>
    if !m.data then failWho (s.updAtu i fun a => { a with misses := a.misses.filter (· != m) }) i m.who 21 m.sp m.addr
    else
      match joinPrg s i m g pasid (prqSeen s i m) with
      | (s, none) => s
      | (s, some r) => failWho (s.updAtu i fun a => { a with misses := a.misses.filter (· != m) }) i m.who r m.sp m.addr
  | .da _ => s

/-- The outstanding group of a chunk, if any (R225). -/
def prgOf (s : State) (i : Nat) (key : XKey) (iova : Nat) : Bool :=
  match key with
  | .host g pasid => (s.prq.get i).groups.any fun e =>
      !e.2.quarantined && e.2.group == g && e.2.pasid == pasid && e.2.chunk == alignDown iova (2 ^ 21)
  | .da _ => false

/-- A wait added for a miss: on an outstanding page-request group of its chunk where it may fault (R225), else on a walk or
Translation Request to come. -/
def addMiss (s : State) (i : Nat) (m : Miss) : State :=
  let s := s.updAtu i fun a => { a with misses := a.misses ++ [m] }
  if m.data && prgOf s i m.key m.iova then faultOn s i m else s

/-- The chunks of 2 MiB from `a` to below `hi`, as addresses, the first `a` itself. -/
def chunksFrom (a hi : Nat) : List Nat :=
  a :: (List.range ((hi - 1) / 2 ^ 21 - a / 2 ^ 21)).map fun k => (a / 2 ^ 21 + 1 + k) * 2 ^ 21

/-- What stopped a translation becomes waits or the end of the waiter (R203, R204, R222, R224). -/
def applyStop (s : State) (i : Nat) (w : Who) (part : Nat) (pasid : Option Nat) (t : TRes) : State :=
  match t with
  | .ok => s
  | .limit => match w with
    | .desc q p k => failDesc s i q p k 8 (fields [(0, 6), (8, k % 4096)])
    | _ => s
  | .fail r sp a => failWho s i w r sp a
  | .miss key iova sp addr nr nw data fp =>
    addMiss s i { who := w, key, iova, sp, addr, needR := nr, needW := nw, data, part, fp }
  | .right g iova hi sp addr nr nw data fp =>
    (chunksFrom iova hi).foldl (fun s a =>
      faultOn s i { who := w, key := .host g pasid, iova := a, sp, addr := addr + (a - iova), needR := nr, needW := nw, data, part, fp }) s

/-- Whether a host entry gives the rights a waiter needs. -/
def Miss.served (m : Miss) (rd wr : Bool) : Bool := (!m.needR || rd) && (!m.needW || wr)

/-- Waiters without a group whose translation lacks a right try again once a group is free (R231). -/
def retryGroups (s : State) (i : Nat) : State :=
  ((s.atu.get i).misses.filter fun m => m.prg.isNone && m.data && !m.sent &&
    (match m.key with | .host g p => (atcFind s i g p m.iova).any fun e => !m.served e.rd e.wr | .da _ => false)).foldl (fun s m => faultOn s i m) s

/-- A group is freed; waiting groups and waiters without a group move up. -/
def freePrg (s : State) (i n : Nat) : State :=
  let s := s.updPrq i fun x => { x with groups := Tbl.del x.groups n }
  retryGroups (sendWaiting s i) i

/-- Groups left without a waiter by DISABLE or RESET: one that was sent is quarantined, one that was not is gone (R231). -/
def loneGroups (s : State) (i : Nat) : State :=
  (s.prq.get i).groups.foldl (fun s e =>
    if e.2.quarantined || !(prgWaits s i e.1).isEmpty then s
    else if e.2.port.isSome then s.updPrq i fun x => { x with groups := Tbl.put x.groups e.1 { e.2 with quarantined := true } }
    else freePrg s i e.1) s

/-! ### Stamps (R208) -/

/-- Whether an invalidation covers a unit record (R209). -/
def InvScope.hits (v : InvScope) (u : URec) : Bool :=
  v.site.isNone &&
  match v.key with
  | .da p => u.key == .da p && rangesMeet v.base v.size u.base u.size
  | .host g p =>
    match u.hkey with
    | some (.host g' p') =>
      g == g' && (if v.glob then u.glob else v.allSpaces || p == p') && rangesMeet v.base v.size u.iova u.size
    | _ => false

/-- The age of a stamp. -/
def stampAge (s : State) (i : Nat) (u : URec) : Nat := ((s.atu.get i).epoch + 2 ^ 16 - u.stamp) % 2 ^ 16

/-- A unit record at its use: restamped, or `none` where it must be translated again. -/
def restamp (s : State) (i : Nat) (u : URec) : Option URec :=
  let a := s.atu.get i
  let d := stampAge s i u
  if u.marked || 64 < d then none
  else if d = 0 then some u
  else if (a.log.filter fun e => (a.epoch + 2 ^ 16 - e.1) % 2 ^ 16 < d).any fun e => e.2.hits u then none
  else some { u with stamp := a.epoch }

/-- The unit records of a descriptor at its start: all restamped, or those that are still good with the number to translate again. -/
def restampAll (s : State) (i : Nat) (us : List URec) : List URec × Nat :=
  let l := us.map (restamp s i)
  (l.filterMap id, (l.filter (·.isNone)).length)

/-- The stamps of a descriptor checked at its start (R208): whether it may start, with the windows in force under its epoch (R149); a descriptor with
a stale unit is translated again. -/
def checkStamps (s : State) (i q pos idx : Nat) (d : DescSt) : State × Bool :=
  match restampAll s i d.units with
  | (us, 0) => (updDesc s i q pos idx fun d => { d with units := us, wins := (List.range 16).map (winReg s i (s.q i q).part) }, true)
  | (us, n) => ((updDesc s i q pos idx fun d => { d with units := us, ph := .pending }).bump (atuR i 0 0x130) n, false)

/-- The ring record (`isCq` false) or completion-ring record of a queue at its use (R207): the unit, or `none` while it is
translated again or after it failed; one that no longer covers the whole ring fails with HOST_UNIT_SMALL (DEDUCED, log entry 165). -/
def useRing (s : State) (i q : Nat) (isCq : Bool) : State × Option URec :=
  let x := s.q i q
  let rec0 := if isCq then x.cq else x.ring
  let w : Who := if isCq then .cq q else .ring q
  let loc := if isCq then x.ctx.cqLoc else x.ctx.ringLoc
  let base := if isCq then x.ctx.cqBase else x.ctx.ringBase
  let size := if isCq then 2 ^ (x.ctx.cqLog2 + 5) else 2 ^ (x.ctx.ringLog2 + 6)
  let keep (s : State) (u : Option URec) : State :=
    s.updQ i q fun x => if isCq then { x with cq := u } else { x with ring := u }
  if (s.atu.get i).misses.any fun m => m.who == w then (s, none)
  else
    match rec0.bind (restamp s i) with
    | some u => (keep s (some u), some u)
    | none =>
      let s := if rec0.isSome then s.bump (atuR i 0 0x130) 1 else s
      let c := xctx s i x
      match xlateAt s c (1 - loc) base (!isCq) isCq with
      | (s, .unit u) =>
        if u.base ≤ base && base + size ≤ u.base + u.size then (keep s (some u), some u) else (failWho s i w 7 (1 - loc) base, none)
      | (s, .fail r) => (failWho s i w r (1 - loc) base, none)
      | (s, .miss key iova) =>
        (addMiss (keep s none) i { who := w, key, iova, sp := 1 - loc, addr := base, needR := !isCq, needW := isCq, data := false, part := c.part }, none)
      | (s, .right ..) => (failWho s i w 21 (1 - loc) base, none)

end Sys2Proof.Machine
end

