-- ==== Sys2Proof/Machine/Guard.lean ====
section
/-! DEFINITION. What every register write meets before its effect: foreign writes to a bound page, staging, functions held by
a commit (R62-R69), split and read latches (R57, R58). -/
namespace Sys2Proof.Machine

/-- The TXN page of an instance. -/
def txnPage (i : Nat) : PageId := ⟨.txn, i, 0⟩

/-- Slot of a tag. -/
def slotOf (s : State) (i tag : Nat) : TxnSlot := Tbl.getD (s.txn.get i).slots tag {}

/-- The state with a slot changed. -/
def updSlot (s : State) (i tag : Nat) (f : TxnSlot → TxnSlot) : State :=
  { s with txn := s.txn.upd i fun t => { t with slots := Tbl.upd t.slots tag {} f } }

/-- The tag and slot that bind a page (R65). -/
def binder (s : State) (p : PageId) : Option (Nat × TxnSlot) :=
  if p.ty.shared || p.ty == .vd then none
  else (s.txn.get p.inst).slots.find? fun e => (e.2.st == .opened || e.2.st == .committing) && e.2.pages.contains p.key

/-- Whether a write comes from the opener of a slot (R63). -/
def TxnSlot.openedBy (t : TxnSlot) (a : Acc) : Bool :=
  if t.opener.cp then a.cp else !a.cp && a.port == t.opener.port && a.rid == t.opener.rid

/-- Whether the function of a page is at its safe point (R68): a DMA page as R135 states, any other in every cycle. -/
def safePoint (s : State) (p : PageId) : Bool :=
  match p.ty with
  | .dma =>
    let ch := s.chan (chanId p.inst p.idx)
    (match ch.st with
     | .off | .idle | .paused | .halted => true
     | .running => ch.between
     | _ => false)
  | _ => true

/-- Whether the commit at the front of the queue holds the function of a page (PAGE_STATUS.commit_hold, R68). -/
def commitHeld (s : State) (p : PageId) : Bool :=
  match binder s p with
  | some (tag, t) => t.st == .committing && !t.failed && (s.txn.get p.inst).queue.head? == some tag && safePoint s p
  | none => false

/-- Whether the commit at the front holds a function of an instance through one of its pages (R68, R69): work for the function waits. -/
def fnHeld (s : State) (i : Nat) (ty : Pg) : Bool :=
  match (s.txn.get i).queue.head? with
  | some tag =>
    let t := slotOf s i tag
    t.st == .committing && !t.failed && t.pages.any fun k => match pageOfKey k with
      | some p => p.ty == ty && p.inst == i && safePoint s p
      | none => false
  | none => false

/-- The port an access comes from; a control processor counts as one of its own. -/
def portCode (a : Acc) : Nat := if a.cp then 4 else a.port.val

/-- An access that waits until its function is released (R60, R66, R69). -/
def holdAcc (s : State) (i port : Nat) (page : Option Nat) (c : Instr) : State :=
  { s with txn := s.txn.upd i fun x => { x with held := x.held ++ [⟨port, page, c, 0⟩] } }

/-- A doorbell that waits, with the owner of its callboard page when it arrived (R97). -/
def holdDb (s : State) (i port owner : Nat) (c : Instr) : State :=
  { s with txn := s.txn.upd i fun x => { x with held := x.held ++ [⟨port, none, c, owner⟩] } }

/-- A write to a page that waits. -/
def holdW (s : State) (a : Acc) (p : PageId) (c : Instr) : State := holdAcc s p.inst (portCode a) (some p.key) c

/-- Whether an earlier write of the same port to a page waits: a read of the page waits behind it (R60). -/
def readWaits (s : State) (a : Acc) (p : PageId) : Bool := (s.txn.get p.inst).held.any fun h => h.port == portCode a && h.page == some p.key

/-- The latches of a page emptied by an access (R57, R58). -/
def clearLatches (s : State) (p : PageId) : State :=
  { s with rlatch := Tbl.del s.rlatch p.key, wlatch := Tbl.del s.wlatch p.key }

/-- A foreign write (R66): the page's PAGE_ERR.foreign_write; it leaves the split latch alone. -/
def foreignWrite (s : State) (p : PageId) : State :=
  ({ s with rlatch := Tbl.del s.rlatch p.key } : State).perr p 3

/-- What a write to a page meets: it is dropped as foreign, it waits for a held function, or it acts. -/
inductive Meets where
  | foreign | waits | acts
  deriving DecidableEq, Repr

/-- What a write meets at a page (R66, R69): a foreign host write is dropped, the opener's write to a held function waits until the function is
released, any other acts, a control processor's as well where it is not the opener (DEDUCED, log entry 22). -/
def meets (s : State) (a : Acc) (p : PageId) : Meets :=
  match binder s p with
  | none => .acts
  | some (_, t) => if t.openedBy a then (if commitHeld s p then .waits else .acts) else if a.cp then .acts else .foreign

/-- A write to a page by command `c`, where it takes the latches into account itself: dropped, kept, or carried out by `f` (R57, R66). -/
def meetW (s : State) (a : Acc) (p : PageId) (c : Instr) (f : State → State) : State :=
  match meets s a p with
  | .foreign => foreignWrite s p
  | .waits => holdW s a p c
  | .acts => f s

/-- A write to a page by command `c` that empties the latches, `f` its effect as on an unbound page (R57, R66). -/
def guardW (s : State) (a : Acc) (p : PageId) (c : Instr) (f : State → State) : State :=
  meetW s a p c fun s => f (clearLatches s p)

/-- A write that IGX drops without acting on it leaves the split latch as it was (R57): `s` is the state before, `t` after it. -/
def dropIf (b : Bool) (s t : State) : State := if b then { t with wlatch := s.wlatch } else t

/-- `guardW` for a write that some states drop without acting on it: those that `drop` names (R57). -/
def guardD (s : State) (a : Acc) (p : PageId) (c : Instr) (drop : State → Bool) (f : State → State) : State :=
  meetW s a p c fun s => dropIf (drop s) s (f (clearLatches s p))

/-- A slot fails for the first time: its result and fail_offset (R67). -/
def failSlot (s : State) (i tag result off : Nat) : State :=
  updSlot s i tag fun t => if t.failed then t else { t with failed := true, result, failOff := off }

/-- The BAR0 offset of a register of an instance page (R47). -/
def barOff (p : PageId) (off : Nat) : Nat := p.key + off

/-- Whether a write acts as one that came while its tag was COMMITTING: it waited for a held function (R66). -/
def cameLate (s : State) (p : PageId) : Bool := (s.txn.get p.inst).late

/-- Whether a write with stageable bits `m` and other bits `rest` is dropped without acting (R57, R66, R67): nothing of it is staged; or, where
it is not staged, the register's own rule refuses it (`bad`). -/
def stageDrops (s : State) (a : Acc) (p : PageId) (m rest : Nat) (bad : Bool) : Bool :=
  let late := cameLate s p
  let (own, gone) := match binder s p with
    | some (_, t) => (t.openedBy a, t.openedBy a && (t.st == .committing || t.failed || 256 ≤ t.log.length))
    | none => (false, false)
  if own || late then (m != 0 && rest == 0 && (gone || late)) || (m == 0 && bad) else bad

/-- A write whose stageable bits are `m` (R66, R67): the opener's go to the log as one entry, or are dropped once the tag has
failed, is committing or the log is full; the other bits act at once. `f` is the effect of a value as on an unbound page. A tag that has
failed and is committing sets foreign_write: R66 is looked at before R67 (DESIGN CHOICE, log entry 131). A write that waited for a function
came while its tag was COMMITTING, and is handled so after its release (R66). -/
def stageW (s : State) (a : Acc) (p : PageId) (off w m rest val : Nat) (f : State → Nat → State) : State :=
  if cameLate s p && m != 0 then
    let s := s.perr p 3
    if rest = 0 then s else f s ((val - (val &&& m)) + (s.r (p.key + off) &&& m))
  else
  match binder s p with
  | none => f s val
  | some (tag, t) =>
    if !t.openedBy a then f s val
    else
      let k := p.key + off
      let live := s.r k
      let s :=
        if m = 0 then s
        else if t.st == .committing then s.perr p 3
        else if t.failed then s
        else if 256 ≤ t.log.length then (failSlot s p.inst tag 0x10 (barOff p off)).perr p 4
        else
          let base := match t.log.find? fun e => e.key == k with
            | some e => e.base
            | none => live &&& m
          updSlot s p.inst tag fun t => { t with log := t.log ++ [⟨k, w, val &&& m, m, base⟩], count := t.log.length + 1 }
      if rest = 0 then s else f s ((val - (val &&& m)) + (live &&& m))

/-- A command of an instance that is work for a function, which waits while a commit holds the function (R69) (DESIGN CHOICE, log entry 157). -/
def liveF (s : State) (i : Nat) (ty : Pg) (f : State → State) : Host.Outcome State Fault Refusal :=
  liveI s i fun s => if fnHeld s i ty then s else f s

/-- A command register of an instance page written: the guard of R66, then the command. -/
def cmdI (s : State) (i : Inst) (a : Acc) (p : PageId) (c : Instr) (f : State → State) : Host.Outcome State Fault Refusal :=
  liveI s i.val fun s => guardW s a p c f

/-- `cmdI` for a command that is dropped without acting where `drop` says so (R57). -/
def cmdD (s : State) (i : Inst) (a : Acc) (p : PageId) (c : Instr) (drop : State → Bool) (f : State → State) : Host.Outcome State Fault Refusal :=
  liveI s i.val fun s => guardD s a p c drop f

end Sys2Proof.Machine
end

