-- ==== Sys2Proof/Machine/Walk.lean ====
section
/-! DEFINITION. Walks (R198, R199), Translation Requests (R202), page requests on the way (R226-R230), migration holds
(R236-R240), the range table and address conversion (R217, R221). -/
namespace Sys2Proof.Machine

/-! ### Device page-table walks (R199) -/

/-- The address of the entry a walk reads: of the table at `table`, at level 1, 2 or 3. -/
def walkEntAddr (w : Walk) : Nat :=
  w.table + 8 * (if w.level = 1 then bits w.addr 35 15 else if w.level = 2 then bits w.addr 30 5 else bits w.addr 26 4)

/-- A walk read of class TRANSLATION: 32 B (R199). -/
def sendWalk (s : State) (i : Nat) (w : Walk) : State :=
  s.emit (.nocRead (carrier s i) none 16384 (alignDown (walkEntAddr w) 32) 32 3 (4096 * w.part) 0)

/-- The waits on a walk: of the partition, in the 64 MiB granule walked. -/
def walkWaits (s : State) (i : Nat) (part addr : Nat) : List Miss :=
  (s.atu.get i).misses.filter fun m => m.key == .da part && m.iova / 2 ^ 26 == addr / 2 ^ 26

/-- A walk ends for its waiters with a reason of R204. -/
def walkFails (s : State) (i part addr reason : Nat) : State :=
  let s := s.updAtu i fun a => { a with walks := a.walks.filter fun w => !(w.part == part && w.addr / 2 ^ 26 == addr / 2 ^ 26) }
  (walkWaits s i part addr).foldl (fun s m => failWho s i m.who reason m.sp m.addr) s

/-- The root of a partition's tables (R218). -/
def ptRoot (s : State) (i part : Nat) : Nat := s.r (atuR i 0 (0x80 + 8 * part))

/-- WALK_START: the oldest device miss no walk covers starts one, or waits for one in flight on its granule; an invalid root
ends it without a read. -/
def walkStart (s : State) (i : Nat) : State :=
  match (s.atu.get i).misses.find? fun m => !m.sent && (match m.key with | .da _ => true | _ => false) with
  | none => s
  | some m =>
    let mark (s : State) : State :=
      s.updAtu i fun a => { a with misses := a.misses.map fun x => if x = m then { x with sent := true } else x }
    let part := match m.key with | .da p => p | .host _ _ => 0
    if (s.atu.get i).walks.any fun w => w.part == part && w.addr / 2 ^ 26 == m.iova / 2 ^ 26 then mark s
    else if !bitAt (ptRoot s i part) 0 then walkFails s i part m.iova 1
    else if 32 ≤ (s.atu.get i).walks.length then s
    else
      let w : Walk := { part, addr := m.iova, level := 1, table := bits (ptRoot s i part) 18 34 * 2 ^ 18 }
      sendWalk ((mark s).updAtu i fun a => { a with walks := a.walks ++ [w] }) i w

/-- WALK_START (R199). -/
def execWalkStart (i : Inst) (s : State) : Host.Outcome State Fault Refusal := liveF s i.val .atu fun s => walkStart s i.val

/-- A walk read returns entry `ent` or fails (R198, R199, R213). -/
def walkRead (s : State) (i part addr ent : Nat) (st : Rsp) : State :=
  match (s.atu.get i).walks.find? fun w => w.part == part && w.addr == addr with
  | none => s
  | some w =>
    let put (s : State) (v : Walk) : State :=
      s.updAtu i fun a => { a with walks := a.walks.map fun x => if x = w then v else x }
    let log2 := if w.level = 1 then 35 else if w.level = 2 then 30 else 26
    let pa := bits ent 12 40 * 4096
    if w.redo then
      if !bitAt (ptRoot s i part) 0 then walkFails s i part addr 1
      else
        let v : Walk := { w with level := 1, table := bits (ptRoot s i part) 18 34 * 2 ^ 18, redo := false }
        sendWalk (put s v) i v
    else if st != .ok then walkFails (if st == .range then s.bump (atuR i 3 0xA0) 1 else s) i part addr 5
    else if !bitAt ent 0 then walkFails s i part addr 1
    else if bitAt ent 1 then
      if !aligned pa (2 ^ log2) then walkFails s i part addr 5
      else
        let e : TlbEnt := { part, base := alignDown addr (2 ^ log2), log2, hbm := pa, rd := bitAt ent 2, wr := bitAt ent 3,
                            peer := bitAt ent 5, count := bitAt ent 6 }
        let s := tlbPut (s.updAtu i fun a => { a with walks := a.walks.filter (· != w) }) i e
        (walkWaits s i part addr).foldl (fun s m => wake s i m) s
    else if w.level = 3 then walkFails s i part addr 5
    else
      let v : Walk := { w with level := w.level + 1, table := pa }
      sendWalk (put s v) i v

/-- WALK_READ_RESPONSE (R199): `addr` is the address walked; the response brings its NIF port a level of class TRANSLATION (R155). -/
def execWalkReadResponse (i : Inst) (part : Part) (addr ent : W64) (r : NocEnd) (s : State) :
    Host.Outcome State Fault Refusal :=
  liveI s i.val fun s => walkRead (setPressure s (carrier s i.val) r.press.nif.val 3 r.press.level.toNat) i.val part.val addr.toNat ent.toNat r.st

/-! ### Translation Requests (R202) -/

/-- The waits on a Translation Request: of the space and 2 MiB chunk, on no page-request group. -/
def treqWaits (s : State) (i g : Nat) (pasid : Option Nat) (chunk : Nat) : List Miss :=
  (s.atu.get i).misses.filter fun m => m.key == .host g pasid && m.prg.isNone && alignDown m.iova (2 ^ 21) == chunk

/-- The entry that a host miss without a request of its own may be served by. -/
def missEntry (s : State) (i : Nat) (m : Miss) : Option AtcEnt :=
  match m.key with
  | .host g p => if m.sent || m.prg.isSome then none else atcFind s i g p m.iova
  | .da _ => none

/-- TRANSLATION_REQUEST: a host miss that an entry serves by now is translated; else the oldest that no request covers sends one, or waits for the
one in flight on its chunk. -/
def treqSend (s : State) (i : Nat) : State :=
  match (s.atu.get i).misses.find? fun m => (missEntry s i m).any fun e => m.served e.rd e.wr with
  | some m => wake s i m
  | none =>
  match (s.atu.get i).misses.find? fun m => !m.sent && m.prg.isNone && (match m.key with
      | .host g p => (atcFind s i g p m.iova).isNone && (anyPort s g).isSome
      | _ => false) with
  | none => s
  | some m =>
    let mark (s : State) : State :=
      s.updAtu i fun a => { a with misses := a.misses.map fun x => if x = m then { x with sent := true } else x }
    let (g, pasid) := match m.key with | .host g p => (g, p) | .da _ => (0, none)
    let chunk := alignDown m.iova (2 ^ 21)
    if (s.atu.get i).treqs.any fun t => t.group == g && t.pasid == pasid && t.chunk == chunk then mark s
    else if 256 ≤ (s.atu.get i).treqs.length then s
    else
      match anyPort s g with
      | none => s
      | some p =>
        let w := (treqWaits s i g pasid chunk).any fun x => x.needW
        let s := (mark s).updAtu i fun a => { a with treqs := a.treqs ++ [{ group := g, pasid, chunk, needW := w, port := p }] }
        (s.bump (atuR i 0 0x120) 1).emit (.transReq (carrier s i) p pasid chunk w)

/-- TRANSLATION_REQUEST (R202). -/
def execTranslationRequest (i : Inst) (s : State) : Host.Outcome State Fault Refusal := liveF s i.val .atu fun s => treqSend s i.val

/-- The misses of a space without a request of their own that a new entry covers (R202). -/
def nowCovered (s : State) (i : Nat) (e : AtcEnt) : List Miss :=
  (s.atu.get i).misses.filter fun m => m.key == .host e.group e.pasid && m.prg.isNone && !m.sent && e.base ≤ m.iova && m.iova < e.base + 2 ^ e.log2

/-- A Translation Completion (R202, R213) (DEDUCED, log entry 51): its waiters go on, and those that the entry covers beside them. A descriptor that lacks a right of a translation entered is translated again, so
that a unit of several chunks raises a group for each in one pass (R224). -/
def treqDone (s : State) (i g : Nat) (pasid : Option Nat) (chunk : Nat) (t : HostLeaf) (st : Rsp) : State :=
  match (s.atu.get i).treqs.find? fun x => x.group == g && x.pasid == pasid && x.chunk == chunk with
  | none => s
  | some r =>
    let ws := treqWaits s i g pasid chunk
    if r.redo then
      let s := s.updAtu i fun a => { a with treqs := a.treqs.map fun x => if x = r then { x with redo := false } else x }
      let p := (anyPort s g).getD r.port
      (s.bump (atuR i 0 0x120) 1).emit (.transReq (carrier s i) p pasid chunk r.needW)
    else
      let s := s.updAtu i fun a => { a with treqs := a.treqs.filter (· != r) }
      let fails (n : Nat) : State := ws.foldl (fun s m => failWho s i m.who n m.sp m.addr) s
      if st != .ok then fails 8
      else if (t.rd || t.wr) && t.log2 < 21 then fails 7
      else
        let lg := min t.log2 39
        let base := alignDown chunk (2 ^ lg)
        let e : AtcEnt := { group := g, pasid, base, log2 := lg, tbase := t.taddr.toNat + (base - alignDown chunk (2 ^ t.log2)),
                            rd := t.rd, wr := t.wr, global := t.glob }
        let some' := t.rd || t.wr
        let also := if some' then (nowCovered s i e).filter (!ws.contains ·) else []
        let s := if some' then atcPut s i chunk e else s
        (ws ++ also).foldl (fun s m => if !m.served t.rd t.wr && (!m.data || !some') then faultOn s i m else wake s i m) s

/-- TRANSLATION_COMPLETION (R202). -/
def execTranslationCompletion (i : Inst) (g : Group) (pasid : Option (BitVec 20)) (chunk : W64) (t : HostLeaf) (st : Rsp)
    (s : State) : Host.Outcome State Fault Refusal :=
  liveI s i.val fun s => treqDone s i.val g.val (pasid.map BitVec.toNat) chunk.toNat t st

/-! ### Page requests (R226-R230) -/

/-- ACC_INTERVAL (R234): the interval expires on instance `i`. -/
def execAccInterval (i : Inst) (s : State) : Host.Outcome State Fault Refusal := liveF s i.val .acc fun s => accInterval s i.val

/-- PAGE_REQUEST_SEND (R226): groups that wait are sent in formation order. -/
def execPageRequestSend (i : Inst) (s : State) : Host.Outcome State Fault Refusal := liveF s i.val .prq fun s => sendWaiting s i.val

/-- The ATC entries over a chunk dropped: after Success its waiters translate anew (R227, R231). -/
def dropChunk (s : State) (i g : Nat) (pasid : Option Nat) (chunk : Nat) : State :=
  let keep (e : AtcEnt) : Bool := !(e.group == g && e.pasid == pasid && e.base ≤ chunk && chunk < e.base + 2 ^ e.log2)
  s.updAtu i fun a => { a with atc := Tbl.mapV a.atc (List.filter keep) }

/-- A Success seen by a waiting unit on a chunk, with the rights that the group's waiters needed (R228). -/
def noteSuccess (s : State) (i : Nat) (m : Miss) (chunk : Nat) (r wr : Bool) : State :=
  let chunk := chunk + m.fp
  match m.who with
  | .desc q p k =>
    let bump (d : DescSt) : DescSt :=
      let n := ((d.prqs.find? fun e => e.1 == chunk).map fun e => e.2.1).getD 0
      { d with prqs := (chunk, n + 1, r, wr) :: d.prqs.filter fun e => e.1 != chunk }
    updDesc s i q p k bump
  | _ => s

/-- The response of group `n` of instance `i` on port `p` (R227). -/
def prgAnswer (s : State) (i p n code : Nat) (g : Prg) : State :=
  if g.quarantined then freePrg s i n
  else
    let ws := prgWaits s i n
    if code = 0 then
      let s := dropChunk s i g.group g.pasid g.chunk
      freePrg (ws.foldl (fun s m => wake (noteSuccess s i m g.chunk (ws.any Miss.needR) (ws.any Miss.needW)) i m) s) i n
    else if code = 1 then
      freePrg (prqFail (ws.foldl (fun s m => failWho s i m.who 17 m.sp m.addr) s) i g 17) i n
    else
      let s := s.updPort p fun x => { x with respFail := true }
      freePrg (prqFail (ws.foldl (fun s m => failWho s i m.who 18 m.sp m.addr) s) i g 18) i n

/-- The group that a response matches (R227): by port, PASID and index, else on any port of the host group. -/
def prgMatch (s : State) (p : Nat) (pasid : Option Nat) (idx : Nat) : Option (Nat × Nat × Prg) :=
  let all : List (Nat × Nat × Prg) := (s.prq.a.groups.map fun e => (0, e.1, e.2)) ++ (s.prq.b.groups.map fun e => (1, e.1, e.2))
  let all := all.filter fun e => e.2.2.port.isSome && e.2.2.pasid == pasid && e.2.2.idx == idx && e.2.2.group == groupOf s p
  (match all.find? fun e => e.2.2.port == some p with
   | some e => some e
   | none => all.head?)

/-- PRG_RESPONSE (R227): codes 0 Success, 1 Invalid Request, 15 Response Failure. A response that matches no group sets the
port's UPRGI bit and unexpected_response. -/
def execPrgResponse (p : Port) (pasid : Option (BitVec 20)) (idx : BitVec 9) (code : BitVec 4) (s : State) :
    Host.Outcome State Fault Refusal :=
  live s fun s =>
    if code != 0 && code != 1 && code != 15 then s
    else
      match prgMatch s p.val (pasid.map BitVec.toNat) idx.toNat with
      | some (i, n, g) => prgAnswer s i p.val n code.toNat g
      | none => (s.updPort p.val fun x => { x with uprgi := true }).perr (prqPage (idx.toNat / 256)) 16

/-- PRQ_TIMEOUT of group `n` (R230), under the timeout in force when it was formed (R232): its waiters end and it is quarantined. An index held for
a failed instance is freed (R231). -/
def prqTimeout (s : State) (i n : Nat) : State :=
  match Tbl.find (s.prq.get i).groups n with
  | none => s
  | some g =>
    if g.port.isNone || g.timeout = 0 then s
    else if g.quarantined then (if g.lost then freePrg s i n else s)
    else
      let s := (prgWaits s i n).foldl (fun s m => failWho s i m.who 19 m.sp m.addr) s
      let s := s.updPrq i fun x => { x with groups := Tbl.put x.groups n { g with quarantined := true } }
      (prqFail (s.bump (prqR i 0x68) 1) i g 19).irq (prqPage i) 17

/-- PRQ_TIMEOUT (R230). -/
def execPrqTimeout (i : Inst) (n : Nat) (s : State) : Host.Outcome State Fault Refusal := liveI s i.val fun s => prqTimeout s i.val n

/-! ### Migration holds (R236-R240) -/

/-- The unit records a channel works under: of its current descriptor, and of those whose writes have not landed (R211). -/
def workUnits (s : State) (ch : ChanRec) : List URec :=
  match jobOf s ch with
  | none => []
  | some (_, p) =>
    let ks := (if ch.between then [] else [ch.desc]) ++ (ch.wrs ++ ch.held).map Wr.desc
    ks.eraseDups.flatMap fun k => match p.descs[k]? with
      | some d => d.units
      | none => []

/-- The unit records of the started descriptors of an instance, with their hub queues: a hold in QUIETING watches them (R211, R237). -/
def startedUnits (s : State) (i : Nat) : List (Nat × List URec) :=
  s.chans.filterMap fun e =>
    if e.2.home = i then e.2.queue.map fun q => (hubQ i q, workUnits s e.2) else none

/-- Whether HOLD is refused (R236, R240): a field is out of range, the slot is not FREE, or the exempt queue belongs to the other instance. -/
def holdBad (s : State) (i : Nat) : Bool :=
  let z := s.r (accR i 0x118)
  let lg := bits z 0 6
  (if bitAt (s.r (accR i 0x108)) 0 then lg < 21 else lg < 26 || 50 < lg) || (holdOf s i (s.fld (accR i 0x100) 0 3)).st != 0 ||
  (bitAt z 31 && bits z 8 21 / 2 ^ 20 != i)

/-- HOLD (R236): the selected slot takes MIG_KEY, MIG_ADDR and MIG_SIZE; refused with cmd_refused where a field is out of range,
the slot is not FREE, or the exempt queue belongs to the other instance (R240). -/
def holdCmd (s : State) (i : Nat) : State :=
  let n := s.fld (accR i 0x100) 0 3
  let k := s.r (accR i 0x108)
  let z := s.r (accR i 0x118)
  let lg := bits z 0 6
  let host := bitAt k 0
  let ex := bits z 8 21
  if holdBad s i then s.perr (accPage i) 16
  else
    let key : XKey := if host then .host (bits k 8 2) (if bitAt k 10 then some (bits k 12 20) else none) else .da (bits k 4 4)
    let h : Hold := { st := 1, key, base := alignDown (s.r (accR i 0x110)) (2 ^ lg), log2 := lg, exempt := if bitAt z 31 then some ex else none }
    setHold s i n h

/-- HOLD (R236). -/
def execHold (i : Inst) (a : Acc) (s : State) : Host.Outcome State Fault Refusal :=
  cmdD s i a (accPage i.val) (.hold i a) (fun s => holdBad s i.val) fun s => holdCmd s i.val

/-- The waiters of a hold proceed in arrival order (R238): a descriptor starts under POSITION_START or DESCRIPTOR_START again. -/
def freeHold (s : State) (i n st : Nat) : State :=
  let h := holdOf s i n
  let s := { s with acc := s.acc.upd i fun a => { a with released := a.released.filter (!h.waiters.contains ·) ++ h.waiters } }
  setHold s i n (if st = 0 then {} else { h with st, waiters := [] })

/-- The station command of a source that waits to be sent or to be restored, by job number. -/
def waitingCmd (s : State) (i : Nat) (src : CmdSrc) : Option Nat :=
  ((s.sc i).cmds.find? fun e => e.2.src == src && !e.2.dead && (e.2.st == .due || e.2.st == .preempted)).map Prod.fst

/-- Whether a waiter still waits to start: its descriptor stands before its start in a queue that may start it; its step is not dispatched; its
station command waits to be sent or to be restored (R333). -/
def stillWaits (s : State) (i : Nat) (w : Who) : Bool :=
  match w with
  | .desc q p k =>
    let x := s.q i q
    (k = 0 && (waitingCmd s i (.run q p)).isSome) || x.startable && (match x.pos? p with
      | some y => if k = 0 then y.ph == .waiting else y.ph == .started && (match y.chan with
          | some c => (s.chan c).between && (s.chan c).desc == k && (s.chan c).st == .running
          | none => false)
      | none => false)
  | .step p l => (((s.ens.get i).recs.find? fun e => e.1 == p).bind fun e => (e.2.lanes.find? fun x => x.1 == l).map fun x => x.2.job.isNone).getD false ||
      (waitingCmd s i (.step p l)).isSome
  | _ => false

/-- MIG_STATUS.held: the descriptors and commands that wait for a hold (R240). -/
def heldCount (s : State) (i : Nat) (h : Hold) : Nat :=
  (h.waiters.filter (stillWaits s i)).length

/-- Whether a waiter that a hold let go must let earlier ones go first (R238) (DESIGN CHOICE, log entry 141): they still wait, and for no other hold. -/
def letFirst (s : State) (i : Nat) (w : Who) : Bool :=
  let l := (s.acc.get i).released
  l.contains w && (l.takeWhile (· != w)).any fun e => stillWaits s i e && !(s.acc.get i).holds.any fun h => h.2.waiters.contains e

/-! ### The range table and conversion (R217, R221) -/

/-- The entries instance `i` may write: its half, and the partner's while it serves it (R217). -/
def rtOwned (s : State) (i e : Nat) : Bool := e / 128 == i || (server s (partner i) == some i && server s i == some i)

/-- RT_READ (R221). -/
def rtRead (s : State) (i : Nat) : State :=
  if s.fld (atuR i 3 0x48) 0 1 = 1 then s
  else
    let e := Tbl.getD s.rt (s.fld (atuR i 3 0x40) 0 8) (0, 0)
    let s := (s.setR (atuR i 3 0x50) e.1).setR (atuR i 3 0x58) e.2
    (s.setR (atuR i 3 0x48) (0x01 * 256)).irq (atuPage i 3) 16

/-- RT_READ (R221). -/
def execRtRead (i : Inst) (a : Acc) (s : State) : Host.Outcome State Fault Refusal :=
  cmdD s i a (atuPage i.val 3) (.rtRead i a) (fun s => s.fld (atuR i.val 3 0x48) 0 1 = 1) fun s => rtRead s i.val

/-- RT_WRITE (R217, R221): accepted, the entry goes to the six controllers; RT_WRITE_DONE reports it. -/
def rtWrite (s : State) (i : Nat) : State :=
  if s.fld (atuR i 3 0x48) 0 1 = 1 then s
  else
    let n := s.fld (atuR i 3 0x40) 0 8
    let d0 := s.r (atuR i 3 0x50)
    let d1 := s.r (atuR i 3 0x58)
    let stop (s : State) (r : Nat) : State := (s.setR (atuR i 3 0x48) (r * 256)).irq (atuPage i 3) 16
    if !rtOwned s i n then stop (s.perr (atuPage i 3) 16) 0x10
    else if 6143 < bits d1 0 13 || 6143 < bits d1 16 13 || bits d1 16 13 < bits d1 0 13 then stop s 0x11
    else
      let s := { s with rtWait := s.rtWait.set i (some (n, d0, d1)) }
      (s.setR (atuR i 3 0x48) 1).emit (.rangeWrite n d0 d1)

/-- RT_WRITE (R217). -/
def execRtWrite (i : Inst) (a : Acc) (s : State) : Host.Outcome State Fault Refusal :=
  cmdD s i a (atuPage i.val 3) (.rtWrite i a) (fun s => s.fld (atuR i.val 3 0x48) 0 1 = 1) fun s => rtWrite s i.val

/-- RT_WRITE_DONE (R217): all six controllers hold the entry; DONE is reported once the partner holds it too (R213). -/
def execRtWriteDone (i : Inst) (s : State) : Host.Outcome State Fault Refusal :=
  liveI s i.val fun s =>
    match s.rtWait.get i.val with
    | none => s
    | some (n, d0, d1) =>
      let s := { s with rtWait := s.rtWait.set i.val none, rt := Tbl.put s.rt n (d0, d1) }
      s.report i.val [.reg (atuR i.val 3 0x48) 0xFF01 0x0100, .irq (atuPage i.val 3) 16]

/-- CONV_CTL_WRITE (R221): CONV_IN converted under R194 or R195; forward through any valid window that holds the address. -/
def convCmd (s : State) (i v : Nat) : State :=
  let rev := bitAt v 0
  match convWin s i (bits v 8 4) (if rev then some (bits v 4 2) else none) rev (s.r (atuR i 3 0x80)) with
  | some (w, r) => (s.setR (atuR i 3 0x90) r).setR (atuR i 3 0x98) (fields [(0, 1), (8, w)])
  | none => s.setR (atuR i 3 0x98) (fields [(16, 3)])

/-- CONV_CTL_WRITE (R221). -/
def execConvCtlWrite (i : Inst) (a : Acc) (v : W32) (s : State) : Host.Outcome State Fault Refusal :=
  cmdI s i a (atuPage i.val 3) (.convCtlWrite i a v) fun s => convCmd s i.val v.toNat

end Sys2Proof.Machine
end

