-- ==== Sys2Proof/Machine/Dma.lean ====
section
/-! DEFINITION. The DMA commands (R129-R162) and those of the arithmetic on the way (R163-R190). -/
namespace Sys2Proof.Machine

/-! ### Requests (R151-R155) -/

/-- The port that a host-bound unit of descriptor `k` of a channel uses (R79, R242): none for DA; `none` inside where no port is UP. -/
def unitPort (s : State) (cid k : Nat) (u : URec) : Option (Option Nat) :=
  if u.hostBound then (chanPort s (s.chan cid) cid k u.hostGroup).map some else some none

/-- Whether a unit's requests go to the host-line cache of an instance: every host request of a coherent group (R266). -/
def viaHlc (s : State) (i : Nat) (u : URec) : Bool :=
  u.hostBound && bitAt (s.r (reg .hlc i 0 0x40)) u.hostGroup

/-- The partition of a channel's job. -/
def chanPart (s : State) (ch : ChanRec) : Nat := match jobOf s ch with
  | some j => j.1.part
  | none => 0

/-- The context tag of a channel's NoC requests (R154): that of the queue it serves. -/
def chanCtx (s : State) (ch : ChanRec) : Nat := match jobOf s ch with
  | some j => j.1.ctx.ctxTag
  | none => 0

/-- A request for the host-line cache queued (R266). -/
def toHlc (s : State) (i : Nat) (r : HlcReq) : State := { s with hlc := s.hlc.upd i fun h => { h with queue := h.queue ++ [r] } }

/-- A read of a channel sent (R151): the tag it took, if it could go. -/
def issueRead (s : State) (cid sp addr len : Nat) : State × Option Nat :=
  let ch := s.chan cid
  let i := cid / 256
  let us := match curDesc s ch with
    | some d => d.units
    | none => []
  match findUnit us sp addr with
  | none => (s, none)
  | some u =>
    match unitPort s cid ch.desc u with
    | none => (s, none)
    | some port =>
      if !mayRead s cid ch port then (s, none)
      else
        let t := freeTag s i
        let da := port.isNone
        let a := if da then alignDown addr 32 else addr
        let n := if da then alignUp (addr + len) 32 - a else len
        let ta := u.tbase + (a - u.base)
        let use : RUse := { owner := .chan cid, sp, port, addr := a, len := n }
        let s := match port with
          | some p => keepPort s cid ch.desc u.hostGroup p
          | none => s
        let s := countAccess s ch.home u addr len false
        if viaHlc s i u then
          (toHlc (putRead s i t use) i { src := .chan t, kind := .read, group := u.hostGroup, addr := ta, left := n, mode := u.mode, port, part := chanPart s ch, unit := some u }, some t)
        else match port with
          | some p => (sendRead s i p t use ta n (dataAttr s p), some t)
          | none => ((putRead s i t use).emit (.nocRead i (some ch.nif) t ta n (dataClass s ch) (chanCtx s ch) ch.latIdx), some t)

/-- Whether the destination footprints of descriptor `k` of a position overlap none of an earlier descriptor of the job: only then do its host
writes carry Relaxed Ordering (R247). -/
def relaxedDesc (p : Pos) (k : Nat) : Bool :=
  match p.descs[k]? with
  | some d => (p.descs.take k).all fun e => (dstFps e.raw).all fun a => (dstFps d.raw).all fun b => !a.meets b
  | none => false

/-- A write of a channel sent: the slot it took, if it could go. `ro`: its Relaxed Ordering attribute (R247). -/
def issueWrite (s : State) (cid : Nat) (us : List URec) (w : Wr) (ro : Bool) : State × Option Nat :=
  let ch := s.chan cid
  let i := cid / 256
  match findUnit us w.sp w.addr with
  | none => (s, none)
  | some u =>
    match unitPort s cid w.desc u with
    | none => (s, none)
    | some port =>
      if !mayWrite s cid ch then (s, none)
      else
        let t := freeSlot s i
        let ta := u.tbase + (w.addr - u.base)
        let s := s.updPool i fun p =>
          { p with writes := Tbl.put p.writes t { owner := .chan cid, port, sp := w.sp, addr := w.addr, taddr := ta, bytes := w.bytes, unit := some u, ro } }
        let s := match port with
          | some p =>
            let s := keepPort s cid w.desc u.hostGroup p
            if viaHlc s i u then s else notePort s ch.home (ch.queue.getD 0) ch.pos p (s.pool i).flushId
          | none => s
        let s := countAccess s ch.home u w.addr w.bytes.length true
        if viaHlc s i u then
          (toHlc s i { src := .chan t, kind := .write, group := u.hostGroup, addr := ta, left := w.bytes.length, bytes := w.bytes, mode := u.mode, port, part := chanPart s ch, unit := some u }, some t)
        else match port with
          | some p => (s.emit (.hostWrite i p t ta w.bytes (reqAttr s p ro true)), some t)
          | none => (s.emit (.nocWrite i (some ch.nif) t ta (dataClass s ch) (chanCtx s ch) ch.latIdx w.bytes), some t)

/-! ### The start of a descriptor (R79, R130, R138) -/

/-- The host groups a descriptor's footprints reach: directly, or through a valid host window (R88, R192). -/
def hostGroups (s : State) (i : Nat) (x : Queue) (raw : List Byte) : List Nat :=
  ((footprints raw).flatMap fun f =>
    if f.sp = 1 then [x.ctx.group]
    else (List.range 16).filterMap fun w =>
      let r := winReg s i x.part w
      if bitAt r 0 && decide (f.lo < ((winBase w + 2 ^ 46 : Nat) : Int)) && decide ((winBase w : Int) < f.hi) then some (bits r 5 2) else none).eraseDups

/-- A descriptor that would access an ABSENT group: its queue enters HOST_WAIT with one QUEUE_WAIT record (R88). -/
def hostWait (s : State) (i q g : Nat) : State :=
  if (s.q i q).conds.hostWait then s
  else jrnlAppend (enterHostWait s i q) i q
    { typ := 4, group := g, seq := 0, time := 0, queue := hubQ i q }

/-- Pipes online of an instance (R167): both of a NIF offline fall back to another pair, so one online pipe is enough. -/
def pipesOnline (s : State) (i : Nat) : Bool := s.fld (redR i 0x44) 16 16 != 0xFFFF

/-- What must hold before a translated descriptor starts (R88, R167, R208, R236); the state it leaves, and whether it may start. -/
def mayStart (s : State) (i q pos idx : Nat) (d : DescSt) : State × Bool :=
  let x := s.q i q
  match (hostGroups s i x d.raw).find? (absent s) with
  | some g => (hostWait s i q g, false)
  | none =>
    if d.ph != .ready then (s, false)
    else
      match heldBy s i (hubQ i q) d.units with
      | h :: _ => (addHeld s i h (.desc q pos idx), false)
      | [] =>
        if letFirst s i (.desc q pos idx) then (s, false)
        else if isArith d.raw && !pipesOnline s (carrier s i) then (s, false)
        else checkStamps s i q pos idx d

/-- The settings in force for a descriptor that starts on a channel (R79, R135, R190); the seed of a job is that of its first arithmetic
descriptor (R174). The port of the first descriptor is also that of the completion record of its job (DESIGN CHOICE, log entry 139). Of a
REDUCE_STAGED whose commit mark the understudy holds, only phase B runs again (R185). -/
def beginDesc (s : State) (cid : Nat) (raw : List Byte) : State :=
  let cfg := s.r (dmaR cid 0x40)
  let g := match jobOf s (s.chan cid) with
    | some j => j.1.ctx.group
    | none => 0
  let port := pickPort s g (cid / 256)
  let idle := chanWrites s cid == 0 && (s.chan cid).held.isEmpty
  let s := s.updChan cid fun ch =>
    { ch with between := false, iter := 0, inBytes := 0, idx := [], idxAt := 0, idxRd := none, units := [], phaseB := false, markSent := false, marked := false,
              arrive := if arriveOf raw then (List.range (sourcesOf raw)).map fun k => ({ k } : Arrive) else [],
              ports := (match port with | some p => [(4 * ch.desc + g, p)] | none => []) ++ ch.ports.filter fun e => e.1 / 4 != ch.desc,
              seed := if ch.seed.isNone && isArith raw then some (seedOf raw) else ch.seed,
              nif := if idle then bits cfg 0 3 else ch.nif, maxReads := bits cfg 16 12, latIdx := bits cfg 12 4 }
  let ch := s.chan cid
  let s := s.updQ ch.home (ch.queue.getD 0) fun x => x.updPos ch.pos fun y => { y with port := if y.port.isSome then y.port else port }
  match jobOf s ch with
  | some (_, p) =>
    if opcodeOf raw == 0x12 && p.reissue && p.marks.contains ch.desc then
      s.updChan cid fun ch => { ch with iter := stagedU raw, markSent := true, marked := true, phaseB := true }
    else s
  | none => s

/-- A descriptor starts on a channel: one without units, a NOP or a length of 0, is formed at once (R138, R142). -/
def startDesc (s : State) (cid : Nat) (raw : List Byte) : State := advance (beginDesc s cid raw) cid

/-- Whether a channel of instance `c` is set aside for the copies of a scheduler it serves (R328). -/
def spillChan (s : State) (c cid : Nat) : Bool :=
  [0, 1].any fun h => carrier s h == c && bitAt (s.r (reg .sch h 1 0x70)) 31 && chanId c (s.fld (reg .sch h 1 0x70) 0 8) == cid

/-- The channels that may take a job of a queue (R130), of the instance that serves it. -/
def chansFor (s : State) (c : Nat) (x : Queue) : List Nat :=
  ((List.range 256).map (chanId c)).filter fun cid =>
    let cfg := s.r (dmaR cid 0x40)
    (s.chan cid).st == .idle && chanEnabled s cid && !commitHeld s (dmaPage cid) && !spillChan s c cid &&
    (bitAt cfg 8 || bits cfg 4 4 == x.part) && (!bitAt cfg 3 || x.ctx.cls == 1)

/-- Reads in flight at the NIF port a channel would use (R130). -/
def nifReads (s : State) (cid : Nat) : Nat :=
  let n := bits (s.r (dmaR cid 0x40)) 0 3
  ((s.pool (cid / 256)).reads.filter fun e => match e.2.owner with
    | .chan c => e.2.port.isNone && (s.chan c).nif == n
    | _ => false).length

/-- A position started by QM itself (R131): NOP, EVENT_WAIT, EVENT_SIGNAL. -/
def startByQm (s : State) (i q : Nat) (p : Pos) (raw : List Byte) : State :=
  let x := s.q i q
  let o := opcodeOf raw
  let k := evtOf s i x.vd (df raw 0x18 0 12)
  let n := k.getD 0
  let e := evtCtr s i n
  let s := s.updQ i q fun x => x.updPos p.pos fun y => { y with ph := .started, port := pickPort s x.ctx.group (carrier s i) }
  if o = 0xC then endPos s i q p.pos 0 0 true
  else if k.isNone || !evtAllowed e x.ctx.ctxTag then endPos s i q p.pos 9 0 true
  else if o = 0xE then
    let t := df raw 0x18 32 32
    if bits (e.val + 2 ^ 32 - t) 31 1 = 0 then endPos s i q p.pos 0 e.val true
    else s.updQ i q fun x => { x with evt := some (n, t) }
  else s

/-- Whether a PREEMPTED command of a queue is to be restored before any later position starts (R385). -/
def restoreFirst (s : State) (i q : Nat) : Bool :=
  (s.sc i).cmds.any fun e => e.2.curtain && (e.2.st == .preempted || e.2.restore && (e.2.st == .placing || e.2.st == .due)) &&
    (match e.2.src with | .run q' _ => q' == q | .step _ _ => false)

/-- The first unstarted position of a queue with its head descriptor, where the queue and the position's fence let it start (R101,
R107, R113), and no command that the curtain saved is to be restored before it (R385): a fenced position waits for every earlier one, and for the flush of its host writes (R248). No position starts
while its instance hands over (R447). -/
def startGate (s : State) (i q : Nat) : State × Option (Pos × DescSt) :=
  let x := s.q i q
  match x.poss.find? fun p => p.ph == .waiting with
  | none => (s, none)
  | some p =>
    match p.descs.head? with
    | none => (s, none)
    | some d =>
      if !x.startable || (s.mir.get i).handover || restoreFirst s i q then (s, none)
      else if x.fences.contains p.pos && (x.poss.head?.map Pos.pos) != some p.pos then (s, none)
      else if x.fences.contains p.pos && !x.unflushed.isEmpty then (issueFlushes s (carrier s i) x.unflushed, none)
      else (s, some (p, d))

/-- POSITION_START (R130, R131): the first unstarted position of a queue, once it may start, goes to a channel or is completed
by QM; other positions of STATION and SERVING queues start by SCH and the composer. -/
def positionStart (s : State) (i q : Nat) : State :=
  let x := s.q i q
  match startGate s i q with
  | (s, none) => s
  | (s, some (p, d)) =>
      let o := opcodeOf d.raw
      let byQm := !chainOf d.raw && (o = 0xC || o = 0xE || o = 0xF)
      if x.ctx.kind != 0 && !byQm then s
      else
        match mayStart s i q p.pos 0 d with
        | (s, false) => s
        | (s, true) =>
          if byQm then startByQm s i q p d.raw
          else
            match leastBy (nifReads s) (chansFor s (carrier s i) x) with
            | none => s
            | some cid =>
              let nif := (s.chan cid).nif
              let s := s.updChan cid fun _ => { st := .running, home := i, queue := some q, pos := p.pos, nif }
              let s := s.updQ i q fun x => x.updPos p.pos fun y => { y with ph := .started, chan := some cid, port := none }
              startDesc s cid d.raw

/-- POSITION_START (R130). -/
def execPositionStart (i : Inst) (q : Qidx) (s : State) : Host.Outcome State Fault Refusal :=
  liveF s i.val .qm fun s => positionStart s i.val q.toNat

/-! ### The end of a job (R138, R187, R189) -/

/-- The arrive word of a descriptor that matched last: on the latest poll, the lowest `k` among matches seen on the same one (R189). -/
def lastHit (ch : ChanRec) : Option Arrive :=
  let round (a : Arrive) : Nat := (a.hit.getD (0, 0)).2
  (ch.arrive.filter fun a => a.hit.isSome).foldl (fun m a => match m with
    | none => some a
    | some b => if round b < round a then some a else some b) none

/-- The spread of a descriptor's arrive words, in units of 128 ns (R189). -/
def spreadOf (ch : ChanRec) : Nat :=
  match ch.arrive.filterMap fun a => a.hit.map Prod.fst with
  | t :: r => min ((r.foldl max t - r.foldl min t) / 128) (2 ^ 20 - 1)
  | [] => 0

/-- The result of a job that ends well: bytes written to dst, 40 bits of them where a descriptor of the job is of the arithmetic family (`any`),
with last_source and spread where its last descriptor waited for arrive words (R117, R187, R189): those of that descriptor alone (DEDUCED, log entry 168). -/
def jobResult (ch : ChanRec) (raw : List Byte) (any : Bool) : Nat :=
  if !any then ch.bytes % 2 ^ 64
  else if arriveOf raw then ch.bytes % 2 ^ 40 + fields [(40, ((lastHit ch).map Arrive.k).getD 0), (44, spreadOf ch)]
  else ch.bytes % 2 ^ 40

/-- A REDUCE of the pool's partition that ends well counts toward the lateness of the package whose arrive word matched last (R417). -/
def countLate (s : State) (ch : ChanRec) (raw : List Byte) (part : Nat) : State :=
  let cfg := s.r (reg .pwr 0 0 0x200)
  match lastHit ch with
  | none => s
  | some a =>
    if bitAt cfg 0 && part == bits cfg 16 4 && opcodeOf raw == 0x10 && arriveOf raw && bits (s.r (reg .pwr 0 0 0x208)) 8 16 ≤ spreadOf ch && bitAt a.word 59 then
      { s with lev := { s.lev with last := (List.range 8).map fun m => s.lev.last.getD m 0 + b2n (m == bits a.word 56 3), steps := s.lev.steps + 1 } }
    else s

/-- A channel's job ends with a status: its record goes to QM and the channel leaves the job; a descriptor of its chain waits for nothing more (R231). -/
def endJob (s : State) (cid status result : Nat) : State :=
  let ch := s.chan cid
  let s := match ch.queue with
    | some q => loneGroups (dropPosWaits (endPos s ch.home q ch.pos status result true) ch.home q ch.pos) ch.home
    | none => s
  leaveJob (s.bump (dmaR cid 0xD0) 1) cid

/-- JOB_END (R138): the last descriptor has ended and every write of the job has landed. -/
def jobEnd (s : State) (cid : Nat) : State :=
  let ch := s.chan cid
  match jobOf s ch, curDesc s ch with
  | some (x, p), some d =>
    if (ch.st == .running || ch.st == .pausing) && !ch.between && !chainOf d.raw && descFormed d.raw ch && ch.wrs.isEmpty && ch.held.isEmpty &&
       (ch.arrive.all fun a => a.hit.isSome) && chanReads s cid == 0 then
      endJob (countLate s ch d.raw x.part) cid 0 (jobResult ch d.raw (p.descs.any fun e => isArith e.raw))
    else s
  | _, _ => s

/-- JOB_END (R138). -/
def execJobEnd (i : Inst) (c : Chan) (s : State) : Host.Outcome State Fault Refusal := liveI s i.val fun s => jobEnd s (chanId i.val c.val)

/-- DESCRIPTOR_START (R138): the next descriptor of a running job at its boundary, once its translations are ready and the page
is not held by a commit (R135). A descriptor that failed its checks or its translation ends the job once the writes of the
earlier ones have landed. -/
def descriptorStart (s : State) (cid : Nat) : State :=
  let ch := s.chan cid
  match ch.queue, curDesc s ch with
  | some q, some d =>
    if ch.st != .running || !ch.between || commitHeld s (dmaPage cid) then s
    else
      match d.ph with
      | .failed st r => if ch.wrs.isEmpty && ch.held.isEmpty then endJob s cid st r else s
      | _ =>
        match mayStart s ch.home q ch.pos ch.desc d with
        | (s, false) => s
        | (s, true) => startDesc s cid d.raw
  | _, _ => s

/-- DESCRIPTOR_START (R138). -/
def execDescriptorStart (i : Inst) (c : Chan) (s : State) : Host.Outcome State Fault Refusal :=
  liveI s i.val fun s => descriptorStart s (chanId i.val c.val)

/-! ### DMA_REQUEST_ISSUE (R142-R156) -/

/-- Host writes of the job on ports other than `own` that are not flushed (R248). -/
def otherPorts (p : Pos) (own : Option Nat) : List (Nat × Nat) := p.ports.filter fun e => some e.1 != own

/-- Whether the reads of a descriptor must wait (R156, R257): with raw_wait, for the landing of earlier descriptors' writes and
for the flush of those on another port; the flushing reads are issued here. -/
def rawWait (s : State) (cid : Nat) (raw : List Byte) : State × Bool :=
  let ch := s.chan cid
  if !rawWaitOf raw then (s, false)
  else if (ch.wrs ++ ch.held).any (fun w => w.desc != ch.desc) then (s, true)
  else
    match jobOf s ch with
    | some (x, p) =>
      let l := otherPorts p ((ch.ports.find? fun e => e.1 == 4 * ch.desc + x.ctx.group).map Prod.snd)
      if ch.iter = 0 && ch.units.isEmpty && !l.isEmpty then (issueFlushes s (cid / 256) l, true) else (s, false)
    | none => (s, false)

/-- A poll of an arrive word that is due (R188): the 8 B word of source k. -/
def pollArrive (s : State) (cid : Nat) (raw : List Byte) (a : Arrive) : State :=
  match issueRead s cid (srcSp raw) (auxAddr raw + 64 * a.k) 8 with
  | (s, some t) => s.updChan cid fun ch =>
      { ch with arrive := ch.arrive.map fun x => if x.k = a.k then { x with due := false, tag := some t, rounds := x.rounds + 1 } else x }
  | (s, none) => s

/-- The next block of the index table read (R144): entries up to the end of the 256 B block. -/
def readIndex (s : State) (cid : Nat) (d : DescSt) : State :=
  let ch := s.chan cid
  let w := idxWidth d.raw
  let a := indexOf d.raw + ch.idxAt * w
  let sh := reqShape s ch cid ch.desc d.units false (idxSp d.raw) a
  let n := reqLen sh.1 sh.2 a ((count25 d.raw - ch.idxAt) * w)
  match issueRead s cid (idxSp d.raw) a n with
  | (s, some t) => s.updChan cid fun ch => { ch with idxRd := some { op := 0, sp := idxSp d.raw, addr := a, len := n, tag := some t } }
  | (s, none) => s

/-- The first read of a channel's units that is not issued, with the unit. -/
def nextRd (ch : ChanRec) : Option (UnitSt × Rd) :=
  ch.units.findSome? fun u => if u.granted then (u.rds.find? fun r => r.tag.isNone && r.data.isNone).map fun r => (u, r) else none

/-- That read issued. -/
def sendRd (s : State) (cid : Nat) (u : UnitSt) (r : Rd) : State :=
  match issueRead s cid r.sp r.addr r.len with
  | (s, some t) =>
    let setRd (v : UnitSt) : UnitSt := { v with rds := v.rds.map fun x => if x = r then { x with tag := some t } else x }
    s.updChan cid fun ch => { ch with units := ch.units.map fun v => if v.iter = u.iter then setRd v else v }
  | (s, none) => s

/-- The read half of DMA_REQUEST_ISSUE: arrive polls, then index entries, then the reads of whole pause units; a PAUSING channel
only completes a unit it has begun (R158). -/
def requestRead (s : State) (cid : Nat) (d : DescSt) : State :=
  let ch := s.chan cid
  match rawWait s cid d.raw with
  | (s, true) => s
  | (s, false) =>
    match nextRd ch with
    | some (u, r) => if ch.st == .running || u.rds.any (fun x => x.tag.isSome || x.data.isSome) then sendRd s cid u r else s
    | none =>
      if ch.st != .running then s
      else if ch.arrive.any fun a => a.hit.isNone then
        match ch.arrive.find? fun a => a.hit.isNone && a.due && a.tag.isNone with
        | some a => pollArrive s cid d.raw a
        | none => s
      else if isIndexed d.raw && ch.idx.isEmpty && ch.idxRd.isNone && ch.idxAt < count25 d.raw then readIndex s cid d
      else if unitReady d.raw ch && ch.units.all (·.granted) then
        let s := makeUnit s cid d
        match nextRd (s.chan cid) with
        | some (u, r) => sendRd s cid u r
        | none => advance s cid
      else s

/-- The write half: the first write in iteration order that is not issued and need not wait, cut to one request (R151). Host writes of a descriptor whose destination
overlaps an earlier one of the job carry Relaxed Ordering 0 (R247). -/
def requestWrite (s : State) (cid : Nat) (d : DescSt) : State :=
  let ch := s.chan cid
  match ch.wrs.find? fun w => w.slot.isNone && writeLen s cid d w != 0 with
  | none => s
  | some w =>
    let n := writeLen s cid d w
    let one := { w with bytes := w.bytes.take n }
    let ro := match jobOf s ch with
      | some (_, p) => relaxedDesc p ch.desc
      | none => false
    match issueWrite s cid d.units one ro with
    | (s, none) => s
    | (s, some t) =>
      let rest := if n < w.bytes.length then [{ w with addr := w.addr + n, bytes := w.bytes.drop n }] else []
      advance (s.updChan cid fun ch => { ch with wrs := ch.wrs.flatMap fun x => if x = w then { one with slot := some t } :: rest else [x] }) cid

/-- One attempt of a channel to issue a read or a write. -/
def tryIssue (s : State) (cid : Nat) (write : Bool) : State :=
  let ch := s.chan cid
  if !(ch.st == .running || ch.st == .pausing) || ch.between then s
  else
    match curDesc s ch with
    | none => s
    | some d => if write then requestWrite s cid d else requestRead s cid d

/-- Whether an attempt put a request on a NIF port. -/
def onNif (s t : State) : Bool :=
  s.out.length < t.out.length &&
  (match t.out.head? with
   | some (.nocRead ..) | some (.nocWrite ..) => true
   | _ => false)

/-- Whether it is a channel's turn at its NIF port (R152): no LC channel there is ready where it is BE, and from the channel after the one served
last on, it is the first ready of its class. -/
def hasTurn (s : State) (cid : Nat) (write : Bool) : Bool :=
  let i := cid / 256
  let ch := s.chan cid
  let lc := chanLc s ch
  let ready (c : Nat) : Bool := (s.chan c).nif == ch.nif && onNif s (tryIssue s c write)
  let from_ := Tbl.getD (s.pool i).turn (4 * ch.nif + 2 * b2n lc + b2n write) 0
  let order := (List.range 256).map fun k => chanId i ((from_ + k) % 256)
  (lc || !order.any fun c => chanLc s (s.chan c) && ready c) &&
  (order.find? fun c => chanLc s (s.chan c) == lc && (c == cid || ready c)) == some cid

/-- DMA_REQUEST_ISSUE (R151, R152): at most one request of at most 256 B, a read or a write; one for the channel's NIF port goes when it is the
channel's turn there, and the next turn is of the channels after it. -/
def requestIssue (s : State) (cid : Nat) (write : Bool) : State :=
  let ch := s.chan cid
  let t := tryIssue s cid write
  if !onNif s t then t
  else if !hasTurn s cid write then s
  else t.updPool (cid / 256) fun x => { x with turn := Tbl.put x.turn (4 * ch.nif + 2 * b2n (chanLc s ch) + b2n write) ((cid + 1) % 256) }

/-- DMA_REQUEST_ISSUE (R151). -/
def execDmaRequestIssue (i : Inst) (c : Chan) (write : Bool) (s : State) : Host.Outcome State Fault Refusal :=
  liveI s i.val fun s => requestIssue s (chanId i.val c.val) write

/-! ### Responses (R151, R153, R155, R161) -/

/-- PRESSURE_DECAY (R155): a level decays to 0. -/
def execPressureDecay (i : Inst) (nif : Fin 8) (cls : BitVec 2) (s : State) : Host.Outcome State Fault Refusal :=
  liveI s i.val fun s => setPressure s i.val nif.val cls.toNat 0

/-- The bytes a request needed out of what was read. -/
def sliceRd (data : List Byte) (base addr len : Nat) : List Byte := (data.drop (addr - base)).take len

/-- Data of a channel's read has returned (R144, R157, R188): an arrive word, index entries, or a read of a unit. DMA.BYTES_READ counts the bytes it
needs (DESIGN CHOICE, log entry 167). -/
def chanData (s : State) (cid tag : Nat) (u : RUse) (data : List Byte) : State :=
  let ch := s.chan cid
  let raw := match curDesc s ch with
    | some d => d.raw
    | none => []
  match ch.arrive.find? fun a => a.tag == some tag with
  | some a =>
    let w := leNat (sliceRd data u.addr (auxAddr raw + 64 * a.k) 8)
    let hit := if bits w 0 24 = stepTag raw then some (s.time (cid / 256), a.rounds) else none
    advance ((s.bump (dmaR cid 0xC0) 8).updChan cid fun ch =>
      { ch with arrive := ch.arrive.map fun x => if x.k = a.k then { x with tag := none, hit, word := w } else x }) cid
  | none =>
    match ch.idxRd with
    | some r =>
      if r.tag = some tag then
        let bs := sliceRd data u.addr r.addr r.len
        let w := idxWidth raw
        let es := (List.range (r.len / w)).map fun k => leNat ((bs.drop (w * k)).take w)
        (s.bump (dmaR cid 0xC0) r.len).updChan cid fun ch => { ch with idxRd := none, idx := ch.idx ++ es }
      else unitData s cid tag u data
    | none => unitData s cid tag u data
where
  /-- Data of a read of a unit. The rows of a SCATTER_ADD destination are no input of the pipes unless they are cells (R168). -/
  unitData (s : State) (cid tag : Nat) (u : RUse) (data : List Byte) : State :=
    let mine (r : Rd) : Bool := r.tag == some tag
    match (s.chan cid).units.find? fun v => v.rds.any mine with
    | none => s
    | some v =>
      let raw := match curDesc s (s.chan cid) with
        | some d => d.raw
        | none => []
      let n := ((v.rds.find? mine).map Rd.len).getD 0
      let one (x : Rd) : Rd := if mine x then { x with tag := none, data := some (sliceRd data u.addr x.addr x.len) } else x
      let fill (v : UnitSt) : UnitSt := { v with rds := v.rds.map one }
      let row := opcodeOf raw == 0x13 && dstFmt raw != 13 && (v.rds.find? mine).map Rd.op == some 1
      let s := if isArith raw && !row && !(opcodeOf raw == 0x12 && stagedU raw ≤ v.iter) then takeBeats s cid v.iter n else s
      advance ((s.bump (dmaR cid 0xC0) n).updChan cid fun ch => { ch with units := ch.units.map fill }) cid

/-- The error code of R306 with which a station's host request ends: a host AtomicOp that failed, a refusal, or data that is not usable, as that
of a read ended with UR, CA or a timeout (DESIGN CHOICE, log entry 140). -/
def stationCode (st : Rsp) (atomic : Bool) : Nat :=
  match st with
  | .ok => 0
  | .range => 4
  | _ => if atomic then 8 else 5

/-- The end of a read of an instance: its tag is free; the data goes to its owner, or its error halts the channel (R161). -/
def readEnd (s : State) (i tag : Nat) (u : RUse) (data : List Byte) (st : Rsp) : State :=
  let s := s.updPool i fun p => { p with reads := Tbl.del p.reads tag }
  match u.owner with
  | .dead => s
  | .flush id => flushDone s i (u.port.getD 0) id
  | .chan cid =>
    let s := if st == .range then s.bump (atuR i 3 0xA0) 1 else s
    if st == .ok then
      (match (s.chan cid).st with
       | .running | .pausing => chanData s cid tag u data
       | _ => s)
    else haltChan s cid (errSource st) u.addr u.sp 0
  | .station site _ t atomic =>
    s.emit (if st == .ok then .stationRsp site t 0 data else .stationErr site t (stationCode st atomic))
  | .line _ => s
  | .desc .. => s

/-- NOC_READ_RESPONSE (R151, R155): the response of a DA read, with a pressure level for its class. One toward a fenced instance is
discarded (R440). -/
def execNocReadResponse (i : Inst) (tag : BitVec 14) (data : List Byte) (st : Rsp) (press : BitVec 2) (s : State) :
    Host.Outcome State Fault Refusal :=
  live s fun s =>
    match Tbl.find (s.pool i.val).reads tag.toNat with
    | some u =>
      if !alive s i.val || u.port.isSome || (st == .ok && data.length != u.len) then s
      else
        let s := match u.owner with
          | .chan cid => setPressure s i.val (s.chan cid).nif (dataClass s (s.chan cid)) press.toNat
          | _ => s
        readEnd s i.val tag.toNat u data st
    | none => s

/-- A write of a channel fails: the channel halts at the descriptor the write was of, its slot and interlock entries are free (R161). -/
def writeFails (s : State) (i slot : Nat) (w : WUse) (cid source : Nat) : State :=
  let s := haltAt s cid (wrDesc s cid slot) source w.addr w.sp 1
  let s := s.updPool i fun p => { p with writes := Tbl.del p.writes slot }
  freeLocks (s.updChan cid fun ch => { ch with wrs := ch.wrs.filter fun x => x.slot != some slot }) cid

/-- NOC_WRITE_RESPONSE (R153, R155): a DA write has landed, or its error halts the channel at the descriptor it was of; a record of QM refused by
the memory side is a NOC_CTRL event (R424). A record's response brings its NIF port a level of class CONTROL. One toward a fenced instance
is discarded (R440). -/
def execNocWriteResponse (i : Inst) (slot : BitVec 14) (st : Rsp) (press : NifPress) (s : State) :
    Host.Outcome State Fault Refusal :=
  live s fun s =>
    match Tbl.find (s.pool i.val).writes slot.toNat with
    | some w =>
      if !alive s i.val || w.port.isSome then s
      else
        let s := match w.owner with
          | .chan cid => setPressure s i.val (s.chan cid).nif (dataClass s (s.chan cid)) press.level.toNat
          | _ => setPressure s i.val press.nif.val 2 press.level.toNat
        let s := if st == .range then s.bump (atuR i.val 3 0xA0) 1 else s
        let bad := st != .ok
        match w.owner with
        | .chan cid =>
          if bad then writeFails s i.val slot.toNat w cid (errSource st) else landed s i.val slot.toNat
        | _ => landed (if bad then nocCtrl s i.val w.taddr 2 else s) i.val slot.toNat
    | none => s

/-! ### Keystone writes (R156, R248) -/

/-- Whether a job forms no further write: its last descriptor has formed, or it ends at one that cannot run. -/
def jobFormed (s : State) (ch : ChanRec) : Bool :=
  match curDesc s ch with
  | some d =>
    if ch.between then (match d.ph with | .failed .. => true | _ => false)
    else !chainOf d.raw && descFormed d.raw ch && ch.arrive.all fun a => a.hit.isSome
  | none => false

/-- Whether the current descriptor can go on only once an earlier one's held write has landed: its reads wait for it with raw_wait (R156), or a
read-modify-write waits for a granule that the held write still owns (R182) (DESIGN CHOICE, log entry 38). -/
def needsHeld (s : State) (cid : Nat) (w : Wr) : Bool :=
  let ch := s.chan cid
  match curDesc s ch with
  | some d =>
    !ch.between && w.desc != ch.desc &&
    ((rawWaitOf d.raw && ch.iter == 0 && ch.units.isEmpty && !(ch.arrive.any fun a => a.tag.isSome)) ||
     ch.units.any fun u => !u.granted && (s.red.get (cid / 256)).locks.any fun l => u.granules.contains l.granule && l.chan == cid && l.desc == w.desc)
  | none => false

/-- KEYSTONE_ISSUE (R156): the first held write goes once every other write of the job has landed and the ports that carried its host writes,
other than its own, are flushed (R248); the first call issues those flushing reads. A write that stays in the host-line cache goes out on no
port, so every port is flushed. Several keystone writes of a job go in chain order. -/
def keystoneIssue (s : State) (cid : Nat) : State :=
  let ch := s.chan cid
  match ch.held, jobOf s ch with
  | w :: r, some (_, p) =>
    if ch.st != .running || !ch.wrs.isEmpty || !(jobFormed s ch || needsHeld s cid w) then s
    else
      match p.descs[w.desc]? with
      | none => s
      | some d =>
        let own := match findUnit d.units w.sp w.addr with
          | some u => if viaHlc s (cid / 256) u then none else (unitPort s cid w.desc u).getD none
          | none => none
        let l := otherPorts p own
        if !l.isEmpty then issueFlushes s (cid / 256) l
        else
          match issueWrite s cid d.units w false with
          | (s, some t) => s.updChan cid fun ch => { ch with held := r, wrs := [{ w with slot := some t }] }
          | (s, none) => s
  | _, _ => s

/-- KEYSTONE_ISSUE (R156). -/
def execKeystoneIssue (i : Inst) (c : Chan) (s : State) : Host.Outcome State Fault Refusal :=
  liveI s i.val fun s => keystoneIssue s (chanId i.val c.val)

/-! ### Channel control (R132-R135, R157-R162) -/

/-- A direct write or the applied commit of CHAN_CFG. -/
def setChanCfg (s : State) (cid v : Nat) : State := s.setMask (dmaR cid 0x40) 0xFFFF1FF v

/-- CHAN_CFG_WRITE (R134, R135): max_reads = 0 is ignored with cfg_refused on a direct write. -/
def execChanCfgWrite (i : Inst) (c : Chan) (a : Acc) (v : W32) (s : State) : Host.Outcome State Fault Refusal :=
  liveI s i.val fun s =>
    let cid := chanId i.val c.val
    guardD s a (dmaPage cid) (.chanCfgWrite i c a v) (fun s => stageDrops s a (dmaPage cid) 0xFFFF1FF 0 (bits v.toNat 16 12 = 0)) fun s =>
      stageW s a (dmaPage cid) 0x40 4 0xFFFF1FF 0 v.toNat fun s v =>
        if bits v 16 12 = 0 then s.perr (dmaPage cid) 17 else setChanCfg s cid v

/-- The channel enabled or not (R132): an OFF channel becomes IDLE; a channel without a job that is no longer enabled enters OFF
with CHANNEL_DRAINED (DEDUCED, log entry 39). -/
def setEnable (s : State) (cid : Nat) (en : Bool) : State :=
  let s := s.setMask (dmaR cid 0x08) 1 (b2n en)
  if en then s.updChan cid fun ch => if ch.st == .off then { ch with st := .idle } else ch else s

/-- DMA_ENABLE_WRITE (R132): PAGE_CTL.enable, a stageable field (R66). -/
def execDmaEnableWrite (i : Inst) (c : Chan) (a : Acc) (en : Bool) (s : State) : Host.Outcome State Fault Refusal :=
  liveI s i.val fun s =>
    let cid := chanId i.val c.val
    guardD s a (dmaPage cid) (.dmaEnableWrite i c a en) (fun s => stageDrops s a (dmaPage cid) 1 0 false) fun s =>
      stageW s a (dmaPage cid) 0x08 4 1 0 (b2n en) fun s v => setEnable s cid (bitAt v 0)

/-- CHANNEL_DRAINED (R132): a channel whose enable was cleared and that holds no job enters OFF and raises drained. -/
def execChannelDrained (i : Inst) (c : Chan) (s : State) : Host.Outcome State Fault Refusal :=
  liveI s i.val fun s =>
    let cid := chanId i.val c.val
    if (s.chan cid).st == .idle && !chanEnabled s cid then (s.updChan cid fun ch => { ch with st := .off }).irq (dmaPage cid) 18 else s

/-- A unit that a PAUSING channel has not begun goes back (R157, R158): its iterations, its index entry, its interlock entries. -/
def dropUnbegun (s : State) (cid : Nat) : State :=
  let ch := s.chan cid
  match ch.units.reverse with
  | u :: r =>
    if !u.rds.isEmpty && u.rds.all fun x => x.tag.isNone && x.data.isNone then
      let raw := match curDesc s ch with
        | some d => d.raw
        | none => []
      freeLocks (s.updChan cid fun ch =>
        { ch with units := r.reverse, iter := u.iter, idx := (match u.ent with | some e => e :: ch.idx | none => ch.idx),
                  idxAt := if isIndexed raw then ch.idxAt - 1 else ch.idxAt }) cid
    else s
  | [] => s

/-- CHANNEL_PAUSE (R157, R162): CHAN_CTL.pause becomes 1 (DEDUCED, log entry 37). -/
def channelPause (s : State) (cid : Nat) : State :=
  let s := s.setMask (dmaR cid 0x44) 1 1
  match (s.chan cid).st with
  | .off | .idle => (s.updChan cid fun ch => { ch with st := .paused }).irq (dmaPage cid) 17
  | .running => dropUnbegun (s.updChan cid fun ch => { ch with st := .pausing }) cid
  | _ => s

/-- CHANNEL_PAUSE (R157). -/
def execChannelPause (i : Inst) (c : Chan) (a : Acc) (s : State) : Host.Outcome State Fault Refusal :=
  liveI s i.val fun s => guardW s a (dmaPage (chanId i.val c.val)) (.channelPause i c a) fun s => channelPause s (chanId i.val c.val)

/-- CHANNEL_PAUSED (R157): no read in flight and every write landed; one held back as the descriptor's last stays held. -/
def execChannelPaused (i : Inst) (c : Chan) (s : State) : Host.Outcome State Fault Refusal :=
  liveI s i.val fun s =>
    let cid := chanId i.val c.val
    let ch := s.chan cid
    let kept (w : Wr) : Bool := w.slot.isNone && (match curDesc s ch with | some d => writeLen s cid d w == 0 | none => false)
    if ch.st == .pausing && chanReads s cid == 0 && ch.wrs.all kept && ch.units.isEmpty then
      (s.updChan cid fun ch => { ch with st := .paused, idxRd := none }).irq (dmaPage cid) 17
    else s

/-- The channel leaves a state without a job (R133). -/
def toRest (s : State) (cid : Nat) : State :=
  let st := restState s cid
  let s := s.updChan cid fun ch => { ch with st }
  if st == .paused then s.irq (dmaPage cid) 17 else if st == .off then s.irq (dmaPage cid) 18 else s

/-- CHANNEL_UNPAUSE (R158): the job continues from PROG_ITER; arrive words are polled again from the first (R188). -/
def channelUnpause (s : State) (cid : Nat) : State :=
  let s := s.setMask (dmaR cid 0x44) 1 0
  let ch := s.chan cid
  match ch.st with
  | .pausing => s.updChan cid fun ch => { ch with st := .running }
  | .paused =>
    if ch.queue.isSome then s.updChan cid fun ch =>
      { ch with st := .running, arrive := if ch.arrive.any fun a => a.hit.isNone then ch.arrive.map fun a => { k := a.k } else ch.arrive }
    else toRest s cid
  | _ => s

/-- CHANNEL_UNPAUSE (R158). -/
def execChannelUnpause (i : Inst) (c : Chan) (a : Acc) (s : State) : Host.Outcome State Fault Refusal :=
  liveI s i.val fun s => guardW s a (dmaPage (chanId i.val c.val)) (.channelUnpause i c a) fun s => channelUnpause s (chanId i.val c.val)

/-- Whether ABORT is accepted (R159). -/
def abortable (s : State) (cid : Nat) : Bool := (s.chan cid).st == .paused && (s.chan cid).queue.isSome

/-- ABORT (R159): a PAUSED channel's job ends with TORN_DOWN; else cmd_refused. -/
def abortChan (s : State) (cid : Nat) : State :=
  if abortable s cid then endJob s cid 6 0 else s.perr (dmaPage cid) 16

/-- ABORT (R159). -/
def execAbort (i : Inst) (c : Chan) (a : Acc) (s : State) : Host.Outcome State Fault Refusal :=
  liveI s i.val fun s => guardD s a (dmaPage (chanId i.val c.val)) (.abort i c a) (fun s => !abortable s (chanId i.val c.val)) fun s => abortChan s (chanId i.val c.val)

/-- CLEAR_HALT (R162): a HALTED channel returns to service; else cmd_refused. -/
def clearHalt (s : State) (cid : Nat) : State :=
  if (s.chan cid).st == .halted then
    let s := s.setMask (dmaR cid 0x88) (2 ^ 31) 0
    toRest (s.updChan cid fun ch => { nif := ch.nif }) cid
  else s.perr (dmaPage cid) 16

/-- CLEAR_HALT (R162). -/
def execClearHalt (i : Inst) (c : Chan) (a : Acc) (s : State) : Host.Outcome State Fault Refusal :=
  liveI s i.val fun s => guardD s a (dmaPage (chanId i.val c.val)) (.clearHalt i c a) (fun s => (s.chan (chanId i.val c.val)).st != .halted) fun s => clearHalt s (chanId i.val c.val)

/-- CHANNEL_HALTED (R161, R115): nothing of a HALTING channel is outstanding; the record is written and halt raised; PROG_ITER stays (R184). A channel
torn down by RESET leaves its job without a record; one whose host writes were lost ends with HOST_LOST and returns to service (R88). -/
def channelHalted (s : State) (cid : Nat) : State :=
  let ch := s.chan cid
  if ch.st != .halting || chanReads s cid != 0 || chanWrites s cid != 0 then s
  else if ch.torn then leaveJob (s.bump (dmaR cid 0xD0) 1) cid
  else if ch.errStatus = 1 then endJob s cid 1 0
  else
    let s := match ch.queue with
      | some q => endPos s ch.home q ch.pos ch.errStatus (s.r (dmaR cid 0x80)) true
      | none => s
    let s := (s.bump (dmaR cid 0xD0) 1).updChan cid fun ch =>
      { st := .halted, home := ch.home, queue := ch.queue, pos := ch.pos, desc := ch.desc, iter := ch.iter, nif := ch.nif }
    s.irq (dmaPage cid) 16

/-- CHANNEL_HALTED (R161). -/
def execChannelHalted (i : Inst) (c : Chan) (s : State) : Host.Outcome State Fault Refusal :=
  liveI s i.val fun s => channelHalted s (chanId i.val c.val)

/-! ### The arithmetic family (R182, R184, R188) -/

/-- INTERLOCK_GRANT (R182): the channel's waiting read-modify-write takes its entries once they are all free. -/
def execInterlockGrant (i : Inst) (c : Chan) (s : State) : Host.Outcome State Fault Refusal :=
  liveI s i.val fun s =>
    let cid := chanId i.val c.val
    let ch := s.chan cid
    match ch.units.find? fun u => !u.granted with
    | none => s
    | some u =>
      if locksFree s i.val u.granules then
        (takeLocks s i.val cid ch.desc u.iter u.n u.granules).updChan cid fun ch =>
          { ch with units := ch.units.map fun v => if v.iter = u.iter then { v with granted := true } else v }
      else s

/-- STAGED_PHASE_B (R184): every phase A write of the descriptor has landed; the commit mark goes to the partner, and once it is held phase B runs. -/
def stagedPhaseB (s : State) (cid : Nat) : State :=
  let ch := s.chan cid
  match curDesc s ch with
  | none => s
  | some d =>
    if opcodeOf d.raw != 0x12 || ch.st != .running || ch.between || ch.iter < stagedU d.raw || !ch.units.isEmpty ||
       (ch.wrs.any fun w => w.desc == ch.desc) || ch.phaseB then s
    else
      let s := if ch.markSent then s else (s.updChan cid fun ch => { ch with markSent := true }).report ch.home [.mark cid (ctxKey s ch.home (ch.queue.getD 0)) ch.pos ch.desc]
      s.updChan cid fun ch => if ch.marked then { ch with phaseB := true } else ch

/-- STAGED_PHASE_B (R184). -/
def execStagedPhaseB (i : Inst) (c : Chan) (s : State) : Host.Outcome State Fault Refusal :=
  liveI s i.val fun s => stagedPhaseB s (chanId i.val c.val)

/-- ARRIVE_POLL (R188): poll_cycles have passed and word `k` is due again. -/
def execArrivePoll (i : Inst) (c : Chan) (k : Fin 16) (s : State) : Host.Outcome State Fault Refusal :=
  liveI s i.val fun s => s.updChan (chanId i.val c.val) fun ch =>
    { ch with arrive := ch.arrive.map fun a => if a.k = k.val && a.hit.isNone && a.tag.isNone then { a with due := true } else a }

/-- ARRIVE_TIMEOUT (R188): limit_us has passed with a word unmatched; the channel halts with source 11. -/
def execArriveTimeout (i : Inst) (c : Chan) (s : State) : Host.Outcome State Fault Refusal :=
  liveI s i.val fun s =>
    let cid := chanId i.val c.val
    let ch := s.chan cid
    match ch.arrive.find? fun a => a.hit.isNone, curDesc s ch with
    | some a, some d =>
      if ch.st == .running || ch.st == .pausing then haltChan s cid 11 (auxAddr d.raw + 64 * a.k) (srcSp d.raw) 0 else s
    | _, _ => s

end Sys2Proof.Machine
end

