-- ==== Sys2Proof/Machine/Queue.lean ====
section
/-! DEFINITION. The queue commands (R96-R128): doorbells, descriptor fetch and AHEAD, context and vector-table commands,
completion records, interrupt messages, event counters. -/
namespace Sys2Proof.Machine

/-! ### Doorbells (R96-R104) -/

/-- A context read from HBM: a CONTROL read of 64 B with the context tag of its queue (R154). -/
def fillRead (s : State) (i q : Nat) : State := s.emit (.nocRead (carrier s i) none 0 (ctxKey s i q) 64 2 (s.q i q).ctx.ctxTag 0)

/-- A context looked up for a doorbell (R112): a hit is used; a miss is fetched, at most 64 at a time (R104). QM.CC_HITS and QM.CC_MISSES count these
lookups and no others (DESIGN CHOICE, log entry 162). -/
def lookupCtx (s : State) (i q : Nat) : State :=
  if cached s i q then touchCtx (s.bump (qmR i 3 0x48) 1) i q
  else
    let s := s.bump (qmR i 3 0x50) 1
    let m := s.qm.get i
    if m.missFly.contains q || m.missWait.contains q then s
    else if m.missFly.length < 64 then fillRead { s with qm := s.qm.set i { m with missFly := m.missFly ++ [q] } } i q
    else { s with qm := s.qm.set i { m with missWait := m.missWait ++ [q] } }

/-- A doorbell at its instance: it takes effect after those that wait, once the context is cached and no ENABLE of the queue is underway
(R103, R104). -/
def takeDb (s : State) (i q : Nat) (d : DbWait) : State :=
  let s := lookupCtx s i q
  wakeDbs (s.updQ i q fun x => { x with dbWait := x.dbWait ++ [d] }) i q

/-- A VD's doorbell by its VD-relative number (R98, R378): NO_QUEUE outside its range, or where the VD does not exist. -/
def takeVdDb (s : State) (i v n : Nat) (d : DbWait) : State :=
  let r := s.vd i v
  if r.st == .free || bits r.cfg1 32 21 ≤ n then dropDb s i 1 n { d with vd := if r.st == .free then none else some v }
  else takeDb s i (bits r.cfg1 0 20 + n) d

/-- Whether a callboard write has an accepted size (R100). -/
def dbSizeOk (off n : Nat) (be : Bool) : Bool :=
  be && off % 8 == 0 && n % 8 == 0 && 8 ≤ n && off % 64 + n ≤ 64

/-- The instance a callboard doorbell reaches: the owner, or the enabled instance where a strap disables the owner (R97). -/
def dbInst (s : State) (o : Nat) : Nat := if (s.mir.get o).inst == .disabled then partner o else o

/-- One direct doorbell of 8 B at a callboard offset (R96, R98); `o` is the owner of a callboard page when the write arrived (R97). In the window
of a free VD a bad size is dropped as that, before NO_QUEUE is looked at; a page whose owner is strapped off drops every write as NO_QUEUE, before its size is looked at (DESIGN CHOICE, log entry 135). -/
def oneDb (s : State) (p : Nat) (bar4 : Bool) (off : Nat) (data : List Byte) (ok : Bool) (o : Nat) : State :=
  let d : DbWait := ⟨BitVec.ofNat 64 (leNat data), p, false, none⟩
  if bar4 then
    let i := bits off 28 1
    let v := bits off 16 12
    let n := off % 2 ^ 16 / 8
    if bits off 12 4 = 15 then s
    else if (server s i).isNone then (if (s.mir.get i).inst == .disabled then dropDb s (partner i) 1 n d else s)
    else if !ok then dropDb s i 5 (hubQ i (bits (s.vd i v).cfg1 0 20 + n)) { d with vd := if (s.vd i v).st == .free then none else some v }
    else takeVdDb s i v n { d with vd := some v }
  else
    let pg := off / 4096 % 4096
    let q := 512 * (pg % 2048) + off % 4096 / 8
    let i := dbInst s o
    if i != o then dropDb s i 1 (hubQ o q) d
    else if (server s i).isNone then s
    else if !ok then dropDb s i 5 (hubQ i q) d
    else takeDb s i q d

/-- Bytes in groups of 8. -/
def chunks8 : Nat → List Byte → List (List Byte)
  | 0, _ => []
  | n + 1, l => l.take 8 :: chunks8 n (l.drop 8)

/-- The owner of a callboard page by XBAR.CB_OWNER (R97). -/
def cbOwner (s : State) (off : Nat) : Nat :=
  let pg := off / 4096 % 4096
  b2n (bitAt (s.r (reg .xbar 0 0 (0x200 + 4 * (pg / 32)))) (pg % 32))

/-- The instance whose queue manager a callboard write reaches (R34, R97). -/
def dbTarget (s : State) (bar4 : Bool) (off o : Nat) : Nat := if bar4 then bits off 28 1 else dbInst s o

/-- The doorbells of one callboard write, in address order; `o` is the owner of its page when it arrived. -/
def doorbells (s : State) (p : Nat) (bar4 : Bool) (off : Nat) (data : List Byte) (be : Bool) (o : Nat) : State :=
  if dbSizeOk off data.length be then
    ((chunks8 (data.length / 8) data).zipIdx).foldl (fun s e => oneDb s p bar4 (off + 8 * e.2) e.1 true o) s
  else oneDb s p bar4 off [] false o

/-- DOORBELL (R97, R100, R102): a callboard write, routed by the owner of its page when it arrives; it waits while a commit holds its queue manager
(R69). XBAR drops it on a config-only port (R75) and on the ports of an ABSENT group (R88). -/
def execDoorbell (p : Port) (bar4 : Bool) (off : BitVec 29) (data : List Byte) (be : Bool) (s : State) : Host.Outcome State Fault Refusal :=
  live s fun s =>
    let o := cbOwner s off.toNat
    let i := dbTarget s bar4 off.toNat o
    if (s.port p.val).configOnly || (s.group (groupOf s p.val)).st == .absent then s
    else if fnHeld s i .qm then holdDb s i p.val o (.doorbell p bar4 off data be)
    else doorbells s p.val bar4 off.toNat data be o

/-- A WO 64-bit register written whole or by halves (R57): the value it takes now, and the state with the latch handled. A
high half without its low half is dropped: `none` inside, the split latch as before. -/
def takeHalf (s : State) (p : PageId) (off : Nat) (h : Half) : State × Option (Option Nat) :=
  match h with
  | .full v => (clearLatches s p, some (some v.toNat))
  | .low v => ({ clearLatches s p with wlatch := Tbl.put s.wlatch p.key (off, v.toNat) }, none)
  | .high v =>
    match Tbl.find s.wlatch p.key with
    | some (o, l) =>
      if o = off then (clearLatches s p, some (some (l + 2 ^ 32 * v.toNat))) else ({ s with rlatch := Tbl.del s.rlatch p.key }, some none)
    | none => ({ s with rlatch := Tbl.del s.rlatch p.key }, some none)

/-- CB_INDEXED_WRITE (R99): the PF indexed doorbell; a high half without its low half is dropped with BAD_SIZE, under the instance's queue
index 0 (DESIGN CHOICE, log entry 136). A write to a function that a commit holds waits (R69). -/
def execCbIndexedWrite (i : Inst) (a : Acc) (h : Half) (s : State) : Host.Outcome State Fault Refusal :=
  liveI s i.val fun s =>
    let p : PageId := ⟨.cb, i.val, 0⟩
    if fnHeld s i.val .qm && meets s a p == .acts then holdW s a p (.cbIndexedWrite i a h)
    else meetW s a p (.cbIndexedWrite i a h) fun s => go s p
where
  /-- The doorbell of a write that acts. -/
  go (s : State) (p : PageId) : State :=
    match takeHalf s p 0x40 h with
    | (s, none) => s
    | (s, some none) => dropDb s i.val 5 (hubQ i.val 0) ⟨0, a.port.val, true, none⟩
    | (s, some (some v)) => takeDb s i.val (bits v 44 20) ⟨BitVec.ofNat 64 v, a.port.val, true, none⟩

/-- VD_INDEXED_WRITE (R391): the indexed doorbell of a VD page, under the rules of R99; a window without a VD has no page. -/
def execVdIndexedWrite (i : Inst) (vd : BitVec 12) (a : Acc) (h : Half) (s : State) : Host.Outcome State Fault Refusal :=
  liveI s i.val fun s =>
    let v := vd.toNat
    if (s.vd i.val v).st == .free then s
    else
      if fnHeld s i.val .qm then holdW s a (vdPage i.val v) (.vdIndexedWrite i vd a h)
      else match takeHalf s (vdPage i.val v) 0x40 h with
      | (s, none) => s
      | (s, some none) => dropDb s i.val 5 (hubQ i.val (bits (s.vd i.val v).cfg1 0 20)) ⟨0, a.port.val, true, some v⟩
      | (s, some (some w)) => takeVdDb s i.val v (bits w 44 20) ⟨BitVec.ofNat 64 w, a.port.val, true, some v⟩

/-- CONTEXT_FILL_DONE (R104, R112): the context is cached and the doorbells that wait for it take effect in order, after the context commands
that came before the fill (DESIGN CHOICE, log entry 161). -/
def contextFill (s : State) (i q : Nat) : State :=
  let m := s.qm.get i
  if !m.missFly.contains q then s
  else
    let fly := m.missFly.filter (· != q)
    let s := match m.missWait with
      | w :: r => fillRead { s with qm := s.qm.set i { m with missFly := fly ++ [w], missWait := r } } i w
      | [] => { s with qm := s.qm.set i { m with missFly := fly } }
    wakeDbs (touchCtx s i q) i q

/-- CONTEXT_FILL_DONE (R104, R155). -/
def execContextFillDone (i : Inst) (r : CtxFill) (s : State) : Host.Outcome State Fault Refusal :=
  liveI s i.val fun s =>
    contextFill (if (s.qm.get i.val).missFly.contains r.q.toNat then ctlPress s i.val r.press else s) i.val r.q.toNat

/-! ### Descriptor fetch (R105-R109, R111) -/

/-- What a queue reads next. -/
inductive NextRead where
  | head (pos : Nat) (fresh : Bool)     -- a slot of the ring: a position read again, or the next one
  | chained (pos sp addr : Nat) (us : List URec)
  deriving DecidableEq, Repr

/-- Descriptors fetched and not completed (R107, R118): of a started job those from its current one on; of a position whose record is not
written yet, its last. -/
def liveDescs (s : State) (x : Queue) : Nat :=
  (x.poss.map fun p => match p.ph with
    | .ended => min 1 p.descs.length
    | .started => p.descs.length - (match p.chan with | some c => (s.chan c).desc | none => 0)
    | .waiting => p.descs.length).sum

/-- The next descriptor read of a queue (R107, R108, R113): a chained descriptor once the one before it is translated, a
position read again, or the next position while fetch_ahead allows. -/
def nextRead (s : State) (x : Queue) : Option NextRead :=
  if x.ringRead.isSome then none
  else
    let open_ := x.mode == .enabled && !x.conds.indet && !x.conds.error && !x.conds.hostWait && !x.conds.curtain
    let ok (p : Pos) : Bool := p.fet == .due && p.ph != .ended && (open_ || (p.ph == .started && x.mode != .disabled))
    match x.poss.find? ok with
    | some p =>
      (match p.descs.getLast? with
       | none => some (.head p.pos false)
       | some d => if d.ph == .ready && liveDescs s x < x.ctx.ahead then some (.chained p.pos (nextSpOf d.raw) (nextOf d.raw) d.units) else none)
    | none =>
      if open_ && !x.conds.ahead && x.nextPos != x.ctx.tail && x.poss.all (fun p => p.fet == .whole || p.ph == .ended) && liveDescs s x < x.ctx.ahead then
        some (.head x.nextPos true)
      else none

/-- Descriptors and unit records in the pre-translated descriptor cache (R203). -/
def cacheUse (s : State) (i : Nat) : Nat × Nat :=
  let ds := (queuesOf s i).flatMap fun e => (e.2.poss.filter fun p => p.ph != .ended).flatMap Pos.descs
  (ds.length, (ds.map fun d => d.units.length).sum)

/-- The rank of a queue's class and priority (R111): LC before BE, higher priority first. -/
def fetchRank (x : Queue) : Nat := (if x.ctx.cls = 1 then 0 else 256) + (255 - x.ctx.prio)

/-- The queue to fetch for (R111): the lowest rank, round-robin among equals after the one of that rank served last (DESIGN CHOICE, log entry 29).
A queue whose ring translation, tag or port is outstanding keeps its turn (DESIGN CHOICE, log entry 163). -/
def fetchPick (s : State) (i : Nat) : Option Nat :=
  let m := s.qm.get i
  let key (e : Nat × Queue) : Nat :=
    fetchRank e.2 * 2 ^ 24 + (e.1 + 2 ^ 20 - 1 - Tbl.getD m.rr (fetchRank e.2) (2 ^ 20 - 1)) % 2 ^ 20
  let l := (queuesOf s i).filter fun e => (nextRead s e.2).isSome
  l.foldl (fun b e => match b with
    | none => some e
    | some c => if key e < key c then some e else b) (none : Option (Nat × Queue)) |>.map Prod.fst

/-- Reads of a queue's descriptors that its queue manager has given up: their data is discarded. -/
def dropDescReads (s : State) (i q : Nat) : State :=
  s.updPool (carrier s i) fun x => { x with reads := Tbl.mapV x.reads fun u => match u.owner with
    | .desc h k _ => if h = i && k = q then { u with owner := .dead } else u
    | _ => u }

/-- A descriptor read sent (R153, R154): class CONTROL in DA, or on a port of the group; it waits where no tag is free (DESIGN CHOICE, log entry 35). -/
def sendDescRead (s : State) (i q : Nat) (pos : Nat) (u : URec) (addr : Nat) : State :=
  let c := carrier s i
  let ta := u.tbase + (addr - u.base)
  let s := dropDescReads s i q
  let t := freeTag s c
  let r (p : Option Nat) (sp : Nat) : RUse := { owner := .desc i q pos, sp, port := p, addr, len := 64 }
  let go (s : State) : State := s.updQ i q fun x =>
    { x with ringRead := some (pos, u), poss := x.poss.map fun y => if y.pos = pos then { y with fet := .inFlight } else y }
  if 16384 ≤ t then s
  else match u.kind with
  | .host | .hlc => (match pickPort s u.hostGroup c with
    | some p => if (freeHtag s c p).isNone then s else go (sendRead s c p t (r (some p) 1) ta 64 (dataAttr s p))
    | none => s)
  | _ => go ((putRead s c t (r none 0)).emit (.nocRead c none t ta 64 2 (s.q i q).ctx.ctxTag 0))

/-- The unit of the next address of the last descriptor of a position (R139), checked at its use and made anew where it is stale (R208, R211);
`none` while it waits or after it failed. -/
def nextUnit (s : State) (i q pos sp addr : Nat) (us : List URec) : State × Option URec :=
  let x := s.q i q
  let n := ((x.pos? pos).map fun p => p.descs.length).getD 0
  let w : Who := .desc q pos n
  let put (s : State) (u : URec) : State :=
    updDesc s i q pos (n - 1) fun d => { d with units := u :: d.units.filter fun v => !(v.key == u.key && rangesMeet v.base v.size u.base u.size) }
  if (s.atu.get i).misses.any fun m => m.who == w then (s, none)
  else
    match (findUnit us sp addr).bind (restamp s i) with
    | some u => (put s u, some u)
    | none =>
      match xlateAt (s.bump (atuR i 0 0x130) 1) (xctx s i x) sp addr true false with
      | (s, .unit u) => (put s u, some u)
      | (s, .fail r) => (failWho s i w r sp addr, none)
      | (s, .right ..) => (failWho s i w 21 sp addr, none)
      | (s, .miss key iova) =>
        (addMiss s i { who := w, key, iova, sp, addr, needR := true, needW := false, data := false, part := x.part }, none)

/-- DESCRIPTOR_FETCH (R107, R111): one descriptor read for the queue whose turn it is. -/
def descriptorFetch (s : State) (i : Nat) : State :=
  let use := cacheUse s i
  if 8192 ≤ use.1 || 32768 ≤ use.2 then s
  else
    match fetchPick s i with
    | none => s
    | some q =>
      let s := { s with qm := s.qm.upd i fun m => { m with rr := Tbl.put m.rr (fetchRank (s.q i q)) q } }
      let x := s.q i q
      match nextRead s x with
      | none => s
      | some (.chained pos sp addr us) =>
        (match nextUnit s i q pos sp addr us with
         | (s, some u) => sendDescRead s i q pos u addr
         | (s, none) => s)
      | some (.head pos fresh) =>
        match useRing s i q false with
        | (s, none) => s
        | (s, some u) =>
          let s := if fresh then s.updQ i q fun x => x.takePos { pos } else s
          sendDescRead s i q pos u (x.ctx.ringBase + 64 * (pos % 2 ^ x.ctx.ringLog2))

/-- DESCRIPTOR_FETCH (R107). -/
def execDescriptorFetch (i : Inst) (s : State) : Host.Outcome State Fault Refusal :=
  liveF s i.val .qm fun s => descriptorFetch s i.val

/-- A failed descriptor read: its position ends with BUS_ERROR (R434); a CONTROL read refused is also a NOC_CTRL event (R424) (DEDUCED, log entry 32). -/
def descReadFail (s : State) (i q pos : Nat) (u : URec) (st : Rsp) : State :=
  let s := match u.kind, st with
    | .host, _ | .hlc, _ => s
    | _, .range => nocCtrl (s.bump (atuR i 3 0xA0) 1) (carrier s i) u.tbase 1
    | _, .noc => nocCtrl s (carrier s i) u.tbase 1
    | _, _ => faultEvent s (16 * carrier s i + 2) 1 { kind := 6, idx := carrier s i, access := 1, addr := u.tbase } (some (carrier s i))
  match (s.q i q).pos? pos with
  | none => s
  | some p =>
    if p.ph == .waiting && p.descs.isEmpty then endPos s i q pos 2 u.base true
    else s.updQ i q fun x => x.updPos pos fun y =>
      { y with fet := .whole, descs := y.descs ++ [({ raw := List.replicate 64 0, ph := .failed 2 u.base } : DescSt)] }

/-- DESCRIPTOR_READ_RETURN (R106, R108): a matching gen bit takes the descriptor; any other starts the back-off, or leaves the
position in AHEAD. A covered ring read that was abandoned (R211) is read again. -/
def descReadReturn (s : State) (i q : Nat) (data : List Byte) (st : Rsp) : State :=
  let x := s.q i q
  match x.ringRead with
  | none => s
  | some (pos, u) =>
    if st == .ok && data.length != 64 then s
    else
      let s := (s.updQ i q fun x => { x with ringRead := none }).updPool (carrier s i) fun y =>
        { y with reads := y.reads.filter fun e => match e.2.owner with | .desc h k _ => !(h == i && k == q) | _ => true }
      match x.pos? pos with
      | none => s
      | some p =>
        let s := if st == .ok && u.hostBound then s.updGroup u.hostGroup fun g => { g with cto := 0 } else s
        if st != .ok then descReadFail s i q pos u st
        else if genOf data == x.gen pos then
          let more := x.ctx.kind == 0 && chainOf data
          s.updQ i q fun x =>
            let x := x.updPos pos fun y => { y with fet := if more then .due else .whole, descs := y.descs ++ [{ raw := data }] }
            { x with ahead1 := false, ctx := { x.ctx with aheadTries := 0, fetch := if p.descs.isEmpty && sub24 pos x.ctx.fetch < 2 ^ 23 then (pos + 1) % 2 ^ 24 else x.ctx.fetch },
                     conds := { x.conds with ahead := false } }
        else
          s.updQ i q fun x =>
            let x := x.updPos pos fun y => { y with fet := if x.conds.ahead then .parked else .backoff }
            { x with ahead1 := true, ctx := { x.ctx with aheadTries := if x.ahead1 then satAdd 8 x.ctx.aheadTries 1 else x.ctx.aheadTries } }

/-- DESCRIPTOR_READ_RETURN (R108, R155): a NoC response also brings a pressure level for CONTROL at its NIF port. -/
def execDescriptorReadReturn (i : Inst) (q : Qidx) (data : List Byte) (r : NocEnd) (s : State) :
    Host.Outcome State Fault Refusal :=
  liveI s i.val fun s =>
    let da : Bool := match (s.q i.val q.toNat).ringRead with
      | some (_, u) => !u.hostBound
      | none => false
    descReadReturn (if da then ctlPress s i.val r.press else s) i.val q.toNat data r.st

/-- Positions in one fetch phase go to another. -/
def moveFetch (s : State) (i q : Nat) (a b : FetchPh) : State :=
  s.updQ i q fun x => { x with poss := x.poss.map fun y => if y.fet = a then { y with fet := b } else y }

/-- AHEAD_RETRY_TIMER (R108): the back-off is over and the descriptor is read again. -/
def execAheadRetryTimer (i : Inst) (q : Qidx) (s : State) : Host.Outcome State Fault Refusal :=
  liveI s i.val fun s => moveFetch s i.val q.toNat .backoff .due

/-- AHEAD_LIMIT_EXPIRY (R108): limit_ns has passed since the first failed read returned; the queue enters AHEAD. -/
def aheadEnter (s : State) (i q : Nat) : State :=
  let x := s.q i q
  if !x.ahead1 || x.mode != .enabled || !(x.poss.any fun p => p.fet == .backoff || p.fet == .due || p.fet == .inFlight) then s
  else (moveFetch s i q .backoff .parked).updQ i q fun x => { x with conds := { x.conds with ahead := true } }

/-- AHEAD_LIMIT_EXPIRY (R108). -/
def execAheadLimitExpiry (i : Inst) (q : Qidx) (s : State) : Host.Outcome State Fault Refusal :=
  liveI s i.val fun s => aheadEnter s i.val q.toNat

/-- AHEAD_POLL_TIMER (R108): a queue in AHEAD reads again. -/
def execAheadPollTimer (i : Inst) (q : Qidx) (s : State) : Host.Outcome State Fault Refusal :=
  liveI s i.val fun s => moveFetch s i.val q.toNat .parked .due

/-- AHEAD_TIMEOUT (R109): a record with status AHEAD_TIMEOUT for the position, done unchanged, ERROR, a UCE-C contained to the
queue; RESUME reads the position again. -/
def aheadTimeout (s : State) (i q : Nat) : State :=
  let x := s.q i q
  if !x.conds.ahead then s
  else
    match x.poss.find? fun p => p.fet == .parked || p.fet == .due || p.fet == .inFlight with
    | none => s
    | some p =>
      let s := addRec s i q p.pos 7 0
      let s := s.updQ i q fun x =>
        { x with conds := { x.conds with ahead := false }, ctx := { x.ctx with aheadTries := 0 }, ahead1 := false, ringRead := none,
                 poss := x.poss.map fun y => if y.pos = p.pos then { y with fet := .parked } else y }
      contained (haltQueue s i q 7) (carrier s i) 1 7 (hubQ i q)

/-- AHEAD_TIMEOUT (R109). -/
def execAheadTimeout (i : Inst) (q : Qidx) (s : State) : Host.Outcome State Fault Refusal :=
  liveI s i.val fun s => aheadTimeout s i.val q.toNat

/-! ### Context commands (R112-R116) -/

/-- A context command of an instance: ignored while one is in progress (R114). -/
def ctxCmd (s : State) (i : Inst) (a : Acc) (c : Instr) (f : State → Nat → State) : Host.Outcome State Fault Refusal :=
  cmdD s i a (qmPage i.val 0) c (fun s => s.fld (qmR i.val 0 0x48) 0 1 = 1) fun s =>
    if s.fld (qmR i.val 0 0x48) 0 1 = 1 then s else f s (s.fld (qmR i.val 0 0x40) 0 20)

/-- CTX_READ (R115). -/
def execCtxRead (i : Inst) (a : Acc) (s : State) : Host.Outcome State Fault Refusal :=
  ctxCmd s i a (.ctxRead i a) fun s q =>
    let n := ctxImage (s.q i.val q)
    let s := (List.range 8).foldl (fun s k => s.setR (qmR i.val 0 (0x80 + 8 * k)) (bits n (64 * k) 64)) s
    ctxEnd s i.val q 0x01 false

/-- The image in QM.CTX_DATA0-7. -/
def ctxData (s : State) (i : Nat) : Nat := fields ((List.range 8).map fun k => (64 * k, s.r (qmR i 0 (0x80 + 8 * k))))

/-- CTX_WRITE (R115, R123): outside DISABLED only bytes 0x2C-0x33, and only if no other field of the driver differs. An
irq_count that falls to the pending records sends the message. -/
def ctxWrite (s : State) (i q : Nat) (vt : NocEnd) : State :=
  let x := s.q i q
  let n := ctxData s i
  if x.mode == .disabled then ctxEnd (s.updQ i q fun x => { x with ctx := x.ctx.load n }) i q 0x01 true
  else if x.ctx.differs n then ctxEnd s i q 0x10 false
  else
    let s := s.updQ i q fun x => { x with ctx := x.ctx.loadTail n }
    let c := (s.q i q).ctx
    let s := if c.irqPending != 0 && max 1 c.irqCount ≤ c.irqPending then sendIrq s i q vt else s
    ctxEnd s i q 0x01 true

/-- CTX_WRITE (R115). -/
def execCtxWrite (i : Inst) (a : Acc) (vt : NocEnd) (s : State) : Host.Outcome State Fault Refusal :=
  ctxCmd s i a (.ctxWrite i a vt) fun s q => ctxWrite s i.val q vt

/-- Whether the fields of a context pass R116. -/
def ctxFieldsOk (s : State) (i : Nat) (x : Queue) : Bool :=
  let c := x.ctx
  let e := vtEntry s i c.vector
  4 ≤ c.ringLog2 && c.ringLog2 ≤ 20 && 4 ≤ c.cqLog2 && c.cqLog2 ≤ 20 &&
  aligned c.ringBase (2 ^ (c.ringLog2 + 6)) && aligned c.cqBase (2 ^ (c.cqLog2 + 5)) &&
  c.tail == c.fetch && c.fetch == c.done && c.kind != 3 && e.valid && e.group == c.group

/-- CTX_ENABLE (R116). `homeOk` tells that the partition's home is this instance (R31) (DEDUCED, log entry 30). The rings are translated
like any footprint (R199, R202): the command is in progress until their walk or Translation Request has ended. -/
def ctxEnable (s : State) (i q : Nat) (homeOk : Bool) : State :=
  let x := s.q i q
  if x.mode != .disabled then ctxEnd s i q 0x10 false
  else if !ctxFieldsOk s i x || !homeOk then ctxEnd s i q 0x11 false
  else enableRun s i q

/-- Unstarted positions of a queue dropped, with their waits. -/
def dropUnstarted (s : State) (i q : Nat) : State :=
  let x := s.q i q
  let s := (x.poss.filter fun p => p.ph == .waiting && p.recs.isEmpty).foldl (fun s p => dropPosWaits s i q p.pos) s
  let s := dropMisses (dropMisses s i (.ring q)) i (.cq q)
  let keep := x.poss.filter fun p => p.ph != .waiting || !p.recs.isEmpty
  let close (p : Pos) : Pos := if p.ph == .waiting then { p with ph := .ended } else p
  let now := x.irqNow.filter fun n => keep.any fun p => p.pos == n
  loneGroups (s.updQ i q fun x => { x with poss := keep.map close, ringRead := none, fences := [], irqNow := now }) i

/-- QUEUE_DRAIN_END (R115, R113): no started position of a DRAINING queue is left; it is DISABLED, its conditions are gone, its
pin is released. -/
def queueDrainEnd (s : State) (i q : Nat) : State :=
  let x := s.q i q
  if x.mode == .draining && x.poss.all fun p => p.ph == .ended then
    showPinned (s.updQ i q fun x => { x with mode := .disabled, conds := {}, evt := none, cqBad := false, ctx := { x.ctx with pinned := false } }) i
  else s

/-- QUEUE_DRAIN_END (R115). -/
def execQueueDrainEnd (i : Inst) (q : Qidx) (s : State) : Host.Outcome State Fault Refusal :=
  liveI s i.val fun s => queueDrainEnd s i.val q.toNat

/-- CTX_PIN (R112): at most 4,096 contexts of the instance and 12 of a set. -/
def ctxPin (s : State) (i q : Nat) : State :=
  let pins := pinnedOf s i
  if (s.q i q).ctx.pinned then ctxEnd s i q 0x01 true
  else if 4096 ≤ pins.length || 12 ≤ (pins.filter fun p => p % 1024 == q % 1024).length then ctxEnd s i q 0x13 false
  else ctxEnd (showPinned (touchCtx (s.updQ i q fun x => { x with ctx := { x.ctx with pinned := true } }) i q) i) i q 0x01 true

/-- CTX_PIN (R112). -/
def execCtxPin (i : Inst) (a : Acc) (s : State) : Host.Outcome State Fault Refusal := ctxCmd s i a (.ctxPin i a) fun s q => ctxPin s i.val q

/-- CTX_UNPIN (R112). -/
def execCtxUnpin (i : Inst) (a : Acc) (s : State) : Host.Outcome State Fault Refusal :=
  ctxCmd s i a (.ctxUnpin i a) fun s q =>
    ctxEnd (showPinned (s.updQ i.val q fun x => { x with ctx := { x.ctx with pinned := false } }) i.val) i.val q 0x01 true

/-! ### The vector table (R114, R122, R123) -/

/-- A vector-table command: ignored while one is in progress. -/
def vtCmd (s : State) (i : Inst) (a : Acc) (c : Instr) (f : State → Nat → State) : Host.Outcome State Fault Refusal :=
  cmdD s i a (qmPage i.val 0) c (fun s => s.fld (qmR i.val 0 0xE8) 0 1 = 1) fun s =>
    if s.fld (qmR i.val 0 0xE8) 0 1 = 1 then s else f s (s.fld (qmR i.val 0 0xE0) 0 16)

/-- VT_READ (R114). -/
def execVtRead (i : Inst) (a : Acc) (s : State) : Host.Outcome State Fault Refusal :=
  vtCmd s i a (.vtRead i a) fun s v =>
    let e := vtEntry s i.val v
    let s := if (s.qm.get i.val).vtCache.contains v then s else vtFetch s i.val v noQ
    let s := (s.setR (qmR i.val 0 0xF0) e.addr.toNat).setR (qmR i.val 0 0xF8) e.high
    s.setR (qmR i.val 0 0xE8) (0x01 * 256)

/-- A vector-table write is done: DONE is reported once the partner holds the change (R122, R505). -/
def vtDone (s : State) (i : Nat) : State :=
  if mirrored s i then (s.setR (qmR i 0 0xE8) 1).report i [.reg (qmR i 0 0xE8) 0xFFFFFFFF 0x100] else s.setR (qmR i 0 0xE8) 0x100

/-- VT_WRITE (R122, R123): an entry unmasked while a message is pending sends it; an entry left invalid forgets it. -/
def vtWrite (s : State) (i v : Nat) : State :=
  let a := s.r (qmR i 0 0xF0)
  let d := s.r (qmR i 0 0xF8)
  if bitAt d 36 && a % 4 != 0 then s.setR (qmR i 0 0xE8) (0x11 * 256)
  else
    let old := vtEntry s i v
    let e : VEntry := { addr := BitVec.ofNat 64 a, data := bits d 0 32, mask := bitAt d 32, group := bits d 34 2, valid := bitAt d 36,
                        pending := old.pending && bitAt d 36 }
    let fire := old.mask && !e.mask && e.pending
    let s := vtStore s i v { e with pending := e.pending && !fire }
    vtDone (if fire then vtMessage s i v e noQ else s) i

/-- VT_WRITE (R122). -/
def execVtWrite (i : Inst) (a : Acc) (s : State) : Host.Outcome State Fault Refusal := vtCmd s i a (.vtWrite i a) fun s v => vtWrite s i.val v

/-- Whether a queue of an instance is not DISABLED. -/
def queuesRun (s : State) (i : Nat) : Bool := (queuesOf s i).any fun e => !e.2.disabled

/-- VT_BASE_WRITE (R114): QM.CTX_BASE or QM.VT_BASE, accepted only while every queue of the instance is DISABLED; else
cfg_refused. A new table empties its cache; a new context region empties the context cache, dirty contexts written back, pinned contexts with it, and leaves
CC_STATUS.pinned as it was (DESIGN CHOICE, log entry 137). -/
def vtBaseWrite (s : State) (i : Nat) (isVt : Bool) (v : Nat) : State :=
  if queuesRun s i then s.perr (qmPage i 0) 17
  else if isVt then
    { s.setR (qmR i 0 0xD8) (alignDown v (2 ^ 20)) with qm := s.qm.upd i fun m => { m with vtCache := [] } }
  else
    let s := ((s.qm.get i).cache.flatMap Prod.snd).foldl (fun s q => ctxBack s i q) s
    { s.setR (qmR i 0 0xD0) (alignDown v (2 ^ 26)) with qm := s.qm.upd i fun m => { m with cache := [] } }

/-- VT_BASE_WRITE (R114). -/
def execVtBaseWrite (i : Inst) (isVt : Bool) (a : Acc) (v : W64) (s : State) : Host.Outcome State Fault Refusal :=
  liveI s i.val fun s => guardD s a (qmPage i.val 0) (.vtBaseWrite i isVt a v) (fun s => queuesRun s i.val) fun s => vtBaseWrite s i.val isVt v.toNat

/-- VECTOR_READ_RETRY (R122): a held message reads its entry again; a success sends it, a failure is reported again. -/
def vectorRetry (s : State) (i v : Nat) (r : NocEnd) : State :=
  match (s.qm.get i).vtRetry.find? fun e => e.1 == v with
  | none => s
  | some (_, q) =>
    let s := ctlPress (vtFetch s i v q) i r.press
    if r.st != .ok then vtFault s i v r.st
    else fireVector { s with qm := s.qm.upd i fun m => { m with vtRetry := m.vtRetry.filter fun e => !(e.1 == v && e.2 == q) } } i v q

/-- VECTOR_READ_RETRY (R122, R155). -/
def execVectorReadRetry (i : Inst) (vec : BitVec 16) (r : NocEnd) (s : State) : Host.Outcome State Fault Refusal :=
  liveI s i.val fun s => vectorRetry s i.val vec.toNat r

/-- REG_IRQ_REARM (R121): another register-interrupt message while GEN.IRQ_SUMMARY is not zero. -/
def execRegIrqRearm (i : Inst) (a : Acc) (s : State) : Host.Outcome State Fault Refusal :=
  cmdI s i a (qmPage i.val 0) (.regIrqRearm i a) fun s =>
    if irqSummary s i.val != 0 then sendMsix s (s.fld (qmR i.val 0 0x100) 0 4) i.val else s

/-- HALT_POP (R114): the oldest halt entry is discarded. -/
def execHaltPop (i : Inst) (a : Acc) (s : State) : Host.Outcome State Fault Refusal :=
  cmdI s i a (qmPage i.val 0) (.haltPop i a) fun s => { s with qm := s.qm.upd i.val fun m => { m with halts := m.halts.tail } }

/-! ### Completion records (R117-R120, R123) -/

/-- The 32 bytes of a record (R117). -/
def recBytes (i q : Nat) (c : QCtx) (p : Nat) (r : Rec) : List Byte :=
  leBytes 4 c.cqSeq ++ leBytes 4 (fields [(0, hubQ i q), (24, r.status)]) ++
  leBytes 4 (fields [(0, p % 2 ^ 24), (24, b2n ((c.cqSeq >>> c.cqLog2) % 2 == 0)), (25, b2n r.reissued)]) ++
  leBytes 4 r.user ++ leBytes 8 r.result ++ leBytes 8 r.time

/-- What follows once the head record of a queue has gone out: cq_seq, done, the job counts (R126), irq_pending, which saturates
(DESIGN CHOICE, log entry 164). -/
def recSent (s : State) (i q : Nat) (p : Pos) (r : Rec) : State :=
  let s := if p.counted then s
    else updJobs s i (s.q i q).vd fun j =>
      if r.status = 0 then { j with completed := (j.completed + 1) % 2 ^ 64 } else { j with failed := (j.failed + 1) % 2 ^ 64 }
  s.updQ i q fun x =>
    let c := { x.ctx with cqSeq := (x.ctx.cqSeq + 1) % 2 ^ 32, irqPending := satAdd 8 x.ctx.irqPending 1 }
    let c := if r.keep || x.mode == .disabled || 2 ^ 24 ≤ p.pos then c else { c with done := (p.pos + 1) % 2 ^ 24 }
    let left := (x.poss.map fun y => if y.pos = p.pos then { y with recs := y.recs.tail, counted := true } else y).filter fun y =>
      y.pos != p.pos || (r.keep && (y.ph != .ended || !y.recs.isEmpty))
    { x with ctx := c, poss := left }

/-- Whether a record raises the interrupt condition (R123): irq_count reached, or a record of an irq_now position. A position that has written its
last record is no longer marked. -/
def recIrq (s : State) (i q pos : Nat) (r : Rec) : State × Bool :=
  let x := s.q i q
  let s := if r.keep then s
    else s.updQ i q fun x => { x with irqNow := x.irqNow.filter (· != pos), fences := x.fences.filter (· != pos) }
  (s, x.irqNow.contains pos || max 1 x.ctx.irqCount ≤ x.ctx.irqPending)

/-- What follows once a record has gone out: its counts, and the message it raises. -/
def recGone (s : State) (i q : Nat) (p : Pos) (r : Rec) (vt : NocEnd) : State :=
  match recIrq (recSent s i q p r) i q p.pos r with
  | (s, true) => sendIrq s i q vt
  | (s, false) => s

/-- The record of a queue that waited for the reserve has entered the journal (R90): what follows from it, and the queue's next record may go. -/
def recAdmitted (s : State) (i q : Nat) : State :=
  let x := s.q i q
  let s := s.updQ i q fun x => { x with jwait := false }
  match x.headRec with
  | some (p, r) =>
    (match recIrq (recSent s i q p r) i q p.pos r with
     | (s, true) => messageLater s i (s.q i q).ctx.vector q
     | (s, false) => s)
  | none => s

/-- COMPLETION_RECORD_WRITE (R118, R119, R88-R90, R207, R248): the next record of a queue in position order, once the partner
holds its job end (R437), the ring has room, earlier records allow its port and the job's host writes are flushed; none while its VD
is DOWN (R385). Addressed to
an ABSENT group it goes to the journal; where the reserve is full it waits, stamped with this time (R89), and the queue shows HOST_WAIT (R90). -/
def recordWrite (s : State) (i q : Nat) (vt : NocEnd) : State :=
  let x := s.q i q
  match x.headRec with
  | none => s
  | some (p, r) =>
    if p.held || x.cqFull || x.cqBad || x.jwait || (s.vd i x.vd).st == .down then s
    else
      let c := x.ctx
      let host := c.cqLoc == 0
      let addr := c.cqBase + 32 * (c.cqSeq % 2 ^ c.cqLog2)
      let bs := recBytes i q c p.pos r
      if host && absent s c.group then
        let j : JRec := { typ := 1, group := c.group, seq := 0, time := 0, queue := hubQ i q, iova := addr, payload := bs }
        if jrnlFull s i j then (jrnlAppend s i q { j with due := true }).updQ i q fun x => { x with jwait := true }
        else recGone (jrnlAppend s i q j) i q p r vt
      else
        match useRing s i q true with
        | (s, none) => s
        | (s, some u) =>
          let inst := carrier s i
          let own := if host then (match p.port with | some n => stayPort s n c.group inst | none => pickPort s c.group inst) else none
          let l := otherPorts p own
          if host && own.isNone then s
          else if !l.isEmpty then issueFlushes s inst l
          else if host && own != x.recPort && !x.recFly.isEmpty then s
          else
            let slot := freeQmSlot s inst
            let ta := u.tbase + (addr - u.base)
            let s := s.updPool inst fun w => { w with writes := Tbl.put w.writes slot { owner := .record i q p.pos, port := own, sp := 1 - c.cqLoc, addr, taddr := ta, bytes := bs, unit := some u } }
            let s := s.updQ i q fun x => { x with recFly := x.recFly ++ [(slot, own.getD 0)], recPort := if host then own else x.recPort }
            let s := match own with
              | some n => s.emit (.hostWrite inst n slot ta bs (strictAttr s n))
              | none => s.emit (.nocWrite inst none slot ta 2 c.ctxTag 0 bs)
            recGone s i q p r vt

/-- COMPLETION_RECORD_WRITE (R118). -/
def execCompletionRecordWrite (i : Inst) (q : Qidx) (vt : NocEnd) (s : State) : Host.Outcome State Fault Refusal :=
  liveF s i.val .qm fun s => recordWrite s i.val q.toNat vt

/-- IRQ_TIMER_EXPIRY (R123): irq_time_us has passed since the first pending record. -/
def execIrqTimerExpiry (i : Inst) (q : Qidx) (vt : NocEnd) (s : State) : Host.Outcome State Fault Refusal :=
  liveI s i.val fun s =>
    let c := (s.q i.val q.toNat).ctx
    if c.irqPending != 0 && c.irqTimeUs != 0 then sendIrq s i.val q.toNat vt else s

/-! ### Event counters (R124, R125) -/

/-- EVENT_WAKE (R125): the waiters of a counter that are now satisfied end with the value that satisfied them. -/
def eventWake (s : State) (i n : Nat) : State :=
  let v := (evtCtr s i n).val
  (queuesOf s i).foldl (fun s e =>
    match e.2.evt with
    | some (k, t) =>
      if k = n && bits (v + 2 ^ 32 - t) 31 1 = 0 then
        match e.2.poss.find? fun p => p.ph == .started && (p.descs.head?.map fun d => opcodeOf d.raw) == some 0xE with
        | some p => endPos (s.updQ i e.1 fun x => { x with evt := none }) i e.1 p.pos 0 v true
        | none => s
      else s
    | none => s) s

/-- EVENT_WAKE (R125). -/
def execEventWake (i : Inst) (n : BitVec 12) (s : State) : Host.Outcome State Fault Refusal :=
  liveI s i.val fun s => eventWake s i.val n.toNat

/-- EVT_VALUE_WRITE (R124): sets the counter that QM.EVT_SEL selects. -/
def execEvtValueWrite (i : Inst) (a : Acc) (v : W32) (s : State) : Host.Outcome State Fault Refusal :=
  cmdI s i a (qmPage i.val 1) (.evtValueWrite i a v) fun s =>
    let n := s.fld (qmR i.val 1 0x40) 0 12
    setEvt s i.val n { evtCtr s i.val n with val := v.toNat }

/-- A counter increased modulo 2^32. -/
def addEvt (s : State) (i n d : Nat) : State :=
  let e := evtCtr s i n
  setEvt s i n { e with val := (e.val + d) % 2 ^ 32 }

/-- EVT_ADD (R124, R391): QM.EVT_ADD on the counter QM.EVT_SEL selects, or VD.EVT_ADD on a counter of the VD's range. -/
def execEvtAdd (i : Inst) (vd : Option (BitVec 12)) (a : Acc) (v : W32) (s : State) : Host.Outcome State Fault Refusal :=
  match vd with
  | none => cmdI s i a (qmPage i.val 1) (.evtAdd i vd a v) fun s => addEvt s i.val (s.fld (qmR i.val 1 0x40) 0 12) v.toNat
  | some w => liveI s i.val fun s =>
      if (s.vd i.val w.toNat).st == .free then s
      else
        match evtOf s i.val w.toNat (s.fld (reg .vd i.val w.toNat 0x58) 0 12) with
        | some k => addEvt (clearLatches s (vdPage i.val w.toNat)) i.val k v.toNat
        | none => { s with rlatch := Tbl.del s.rlatch (vdPage i.val w.toNat).key }

/-- EVENT_SIGNAL_APPLY (R125, R248): once every write of earlier positions of the queue has reached package scope, the increment
applies and the position ends with the new value; in HOST_WAIT it stays until RESUME (R261). -/
def eventSignal (s : State) (i q : Nat) : State :=
  let x := s.q i q
  match x.poss.find? fun p => p.ph == .started && (p.descs.head?.map fun d => opcodeOf d.raw) == some 0xF with
  | none => s
  | some p =>
    if x.conds.hostWait || (x.poss.takeWhile fun y => y.pos != p.pos).any (fun y => y.ph != .ended) then s
    else if !x.unflushed.isEmpty then issueFlushes s (carrier s i) x.unflushed
    else
      match p.descs.head? with
      | none => s
      | some d =>
        let n := (evtOf s i x.vd (df d.raw 0x18 0 12)).getD 0
        let s := addEvt s i n (df d.raw 0x18 32 16)
        endPos s i q p.pos 0 (evtCtr s i n).val true

/-- EVENT_SIGNAL_APPLY (R125). -/
def execEventSignalApply (i : Inst) (q : Qidx) (s : State) : Host.Outcome State Fault Refusal :=
  liveI s i.val fun s => eventSignal s i.val q.toNat

end Sys2Proof.Machine
end

