-- ==== Sys2Proof/Machine/Inval.lean ====
section
/-! DEFINITION. Invalidations (R209-R213) and the registers whose writes start one (R197, R218-R220). -/
namespace Sys2Proof.Machine

/-! ### Accepting (R208-R213) -/

/-- Whether a scope covers an ATC entry. -/
def InvScope.hitsAtc (v : InvScope) (e : AtcEnt) : Bool :=
  match v.key with
  | .da _ => false
  | .host g p => e.group == g && (if v.glob then e.global else v.allSpaces || e.pasid == p) && rangesMeet v.base v.size e.base (2 ^ e.log2)

/-- Whether a scope covers a leaf. -/
def InvScope.hitsTlb (v : InvScope) (e : TlbEnt) : Bool :=
  match v.key with
  | .da p => e.part == p && rangesMeet v.base v.size e.base (2 ^ e.log2)
  | .host _ _ => false

/-- Whether a scope covers a station-port entry, of site `site`. -/
def InvScope.hitsSpt (v : InvScope) (site : Nat) (e : SptEnt) : Bool :=
  (match v.site with | some t => t == site | none => true) &&
  (match v.key with | .da p => e.part == p && rangesMeet v.base v.size e.base e.size | .host _ _ => false)

/-- The caches without what a scope covers; walks and requests in flight that it covers are discarded and made again (R213). -/
def dropCovered (v : InvScope) (a : Atu) : Atu :=
  let big := 2 ^ 35
  if v.site.isSome then a
  else
    { a with tlb := Tbl.mapV a.tlb (List.filter fun e => !v.hitsTlb e), atc := Tbl.mapV a.atc (List.filter fun e => !v.hitsAtc e),
             walks := a.walks.map fun w =>
               if v.key == .da w.part && rangesMeet v.base v.size (alignDown w.addr big) big then { w with redo := true } else w,
             treqs := a.treqs.map fun t =>
               (match v.key with
                | .host g p => if t.group == g && (v.glob || v.allSpaces || t.pasid == p) && rangesMeet v.base v.size t.chunk (2 ^ 21) then
                    { t with redo := true } else t
                | .da _ => t),
             peerIn := a.peerIn.filter fun e => !v.hitsTlb e.2 }

/-- The unit records of an instance changed. -/
def mapUnits (s : State) (i : Nat) (f : URec → URec) : State :=
  let fd (d : DescSt) : DescSt := { d with units := d.units.map f }
  let fp (p : Pos) : Pos := { p with descs := p.descs.map fd }
  let fq (x : Queue) : Queue := { x with poss := x.poss.map fp, ring := x.ring.map f, cq := x.cq.map f }
  { s with qm := s.qm.upd i fun m => { m with ctxs := Tbl.mapV m.ctxs fq } }

/-- Once per 1,024 epochs ATU visits every unit record and marks those older than 64 epochs (R208). -/
def markOld (s : State) (i : Nat) : State :=
  if (s.atu.get i).epoch % 1024 = 0 then mapUnits s i fun u => if 64 < stampAge s i u then { u with marked := true } else u else s

/-- An invalidation accepted (R210 steps 1-3): the epoch, the log, the caches; the station-port tables that hold a covered entry
of the sites in the instance's partitions drop it and are to acknowledge. INV_STATUS shows the epoch a command was given. -/
def acceptNow (s : State) (i : Nat) (src : InvSrc) (v : InvScope) : State :=
  let e := ((s.atu.get i).epoch + 1) % 2 ^ 16
  let mine (t : Nat × List SptEnt) : Bool := (partAt s t.1).map Prod.fst == some i
  let sites := (s.spt.filter fun t => mine t && t.2.any (v.hitsSpt t.1)).map Prod.fst
  let s := s.updAtu i fun a =>
    { dropCovered v a with epoch := e, log := ((e, v) :: a.log).take 64, invs := a.invs ++ [{ src, scope := v, epoch := e, sites }] }
  let keep (t : Nat × List SptEnt) : Nat × List SptEnt := if mine t then (t.1, t.2.filter fun x => !v.hitsSpt t.1 x) else t
  let s := { s with spt := s.spt.map keep }
  let s := sites.foldl (fun s k => s.emit (.sptInv k (match v.key with | .da p => p | .host .. => 0) v.base v.size)) s
  let s := (s.setR (atuR i 0 0x40) e).bump (atuR i 0 0x128) 1
  let s := if src == .cmd then s.setFld (atuR i 0 0x4C) 16 16 e else s
  markOld s i

/-- An invalidation from a source: accepted, or waiting in arrival order while 64 are in progress (R212). -/
def invalidate (s : State) (i : Nat) (src : InvSrc) (v : InvScope) : State :=
  let a := s.atu.get i
  if a.invs.length < 64 && a.invWait.isEmpty then acceptNow s i src v
  else s.updAtu i fun a => { a with invWait := a.invWait ++ [(src, v)] }

/-- INVALIDATION_ACCEPT (R212): the first invalidation that waits leaves the wait. -/
def acceptWaiting (s : State) (i : Nat) : State :=
  let a := s.atu.get i
  match a.invWait with
  | w :: r => if a.invs.length < 64 then acceptNow (s.updAtu i fun a => { a with invWait := r }) i w.1 w.2 else s
  | [] => s

/-- INVALIDATION_ACCEPT (R212). -/
def execInvalidationAccept (i : Inst) (s : State) : Host.Outcome State Fault Refusal := liveI s i.val fun s => acceptWaiting s i.val

/-- ATS_INVALIDATE_REQUEST (R209, R34): on a port of group g, delivered to both instances; a disabled one counts as complete. -/
def execAtsInvalidateRequest (p : Port) (itag : Fin 32) (pasid : Option (BitVec 20)) (glob : Bool) (addr : W64) (log2 : Fin 65)
    (s : State) : Host.Outcome State Fault Refusal :=
  live s fun s =>
    let v : InvScope := { key := .host (groupOf s p.val) (pasid.map BitVec.toNat), base := alignDown addr.toNat (2 ^ log2.val), size := 2 ^ log2.val, glob }
    let one (s : State) (i : Nat) : State := if (server s i).isSome then invalidate s i (.ats p.val itag.val) v else s
    let s := one (one s 0) 1
    if (server s 0).isNone && (server s 1).isNone then s.emit (.invDone p.val itag.val) else s

/-! ### INV_CMD and the roots (R209, R218) -/

/-- The scope of a whole DA space. -/
def daAll (p : Nat) : InvScope := { key := .da p, base := 0, size := 2 ^ 52 }

/-- A command of INV_CMD: refused while one is in progress; `v` is its scope, `none` where a field is out of range (R218). -/
def invCmd (s : State) (i : Inst) (a : Acc) (c : Instr) (v : State → Nat → Option InvScope) : Host.Outcome State Fault Refusal :=
  cmdD s i a (atuPage i.val 0) c (fun s => s.fld (atuR i.val 0 0x4C) 0 1 = 1) fun s =>
    if s.fld (atuR i.val 0 0x4C) 0 1 = 1 then s.perr (atuPage i.val 0) 16
    else match v s (s.r (atuR i.val 0 0x48)) with
      | none => s.setR (atuR i.val 0 0x4C) (0x11 * 256)
      | some v => invalidate (s.setR (atuR i.val 0 0x4C) 1) i.val .cmd v

/-- Group and space of INV_KEY. -/
def invHost (k : Nat) : XKey := .host (bits k 4 2) (if bitAt k 6 then some (bits k 8 20) else none)

/-- A range of INV_ADDR. -/
def invRange (s : State) (i lg : Nat) (key : XKey) : InvScope := { key, base := alignDown (s.r (atuR i 0 0x50)) (2 ^ lg), size := 2 ^ lg }

/-- DA_RANGE (R209). -/
def execDaRange (i : Inst) (a : Acc) (lg : BitVec 6) (s : State) : Host.Outcome State Fault Refusal :=
  invCmd s i a (.daRange i a lg) fun s k => if lg.toNat < 26 || 50 < lg.toNat then none else some (invRange s i.val lg.toNat (.da (bits k 0 4)))

/-- DA_PARTITION (R209). -/
def execDaPartition (i : Inst) (a : Acc) (s : State) : Host.Outcome State Fault Refusal :=
  invCmd s i a (.daPartition i a) fun _ k => some (daAll (bits k 0 4))

/-- HOST_RANGE (R209). -/
def execHostRange (i : Inst) (a : Acc) (lg : BitVec 6) (s : State) : Host.Outcome State Fault Refusal :=
  invCmd s i a (.hostRange i a lg) fun s k => if lg.toNat < 21 then none else some (invRange s i.val lg.toNat (invHost k))

/-- HOST_SPACE (R209). -/
def execHostSpace (i : Inst) (a : Acc) (s : State) : Host.Outcome State Fault Refusal :=
  invCmd s i a (.hostSpace i a) fun _ k => some { key := invHost k, base := 0, size := 2 ^ 64 }

/-- HOST_GROUP (R209). -/
def execHostGroup (i : Inst) (a : Acc) (s : State) : Host.Outcome State Fault Refusal :=
  invCmd s i a (.hostGroup i a) fun _ k => some { key := .host (bits k 4 2) none, base := 0, size := 2 ^ 64, allSpaces := true }

/-- PT_ROOT_WRITE (R218): always accepted; it acts as DA_PARTITION without touching INV_STATUS. -/
def execPtRootWrite (i : Inst) (part : Part) (a : Acc) (v : W64) (s : State) : Host.Outcome State Fault Refusal :=
  liveI s i.val fun s =>
    let off := 0x80 + 8 * part.val
    guardW s a (atuPage i.val 0) (.ptRootWrite i part a v) fun s =>
      invalidate (s.setR (atuR i.val 0 off) (v.toNat &&& 0xffffffffc0001)) i.val .other (daAll part.val)

/-! ### Windows (R219, R220) -/

/-- The validity check of ATU.WINp_w (R219). -/
def winOk (v : Nat) : Bool :=
  !bitAt v 0 || (21 ≤ bits v 8 6 && bits v 8 6 ≤ 46 && bits v 3 2 != 3 && winHost v + 2 ^ bits v 8 6 ≤ 2 ^ 64)

/-- ATU.WINp_w takes a value, directly or by a commit: a change starts an invalidation of the window's DA range. -/
def setWin (s : State) (i part w v : Nat) : State :=
  let k := atuR i 1 (0x800 + 0x80 * part + 8 * w)
  let v := v &&& 0xffffffffffe03f7f
  if s.r k = v then s else invalidate (s.setR k v) i .other { key := .da part, base := winBase w, size := 2 ^ 46 }

/-- WIN_WRITE (R219). -/
def execWinWrite (i : Inst) (part : Part) (w : Fin 16) (a : Acc) (v : W64) (s : State) : Host.Outcome State Fault Refusal :=
  liveI s i.val fun s =>
    let off := 0x800 + 0x80 * part.val + 8 * w.val
    guardD s a (atuPage i.val 1) (.winWrite i part w a v) (fun s => stageDrops s a (atuPage i.val 1) 0xffffffffffe03f7f 0 (!winOk v.toNat)) fun s =>
      stageW s a (atuPage i.val 1) off 8 0xffffffffffe03f7f 0 v.toNat fun s v =>
        if winOk v then setWin s i.val part.val w.val v else s.perr (atuPage i.val 1) 16

/-- The validity check of ATU.PEERp_w (R220). -/
def peerOk (s : State) (i v : Nat) : Bool :=
  !bitAt v 0 || (26 ≤ bits v 16 6 && bits v 16 6 ≤ 47 && bits v 4 3 != s.fld (atuR i 2 0x40) 0 3)

/-- ATU.PEERp_w takes a value (R219, R220). -/
def setPeer (s : State) (i part w v : Nat) : State :=
  let k := atuR i 2 (0x400 + 0x40 * part + 8 * w)
  let v := v &&& 0x3f0f77
  if s.r k = v then s else invalidate (s.setR k v) i .other { key := .da part, base := 2 ^ 51 + w * 2 ^ 47, size := 2 ^ 47 }

/-- PEER_WINDOW_WRITE (R220). -/
def execPeerWindowWrite (i : Inst) (part : Part) (w : Fin 8) (a : Acc) (v : W64) (s : State) : Host.Outcome State Fault Refusal :=
  liveI s i.val fun s =>
    let off := 0x400 + 0x40 * part.val + 8 * w.val
    guardD s a (atuPage i.val 2) (.peerWindowWrite i part w a v) (fun s => stageDrops s a (atuPage i.val 2) 0x3f0f77 0 (!peerOk s i.val v.toNat)) fun s =>
      stageW s a (atuPage i.val 2) off 8 0x3f0f77 0 v.toNat fun s v =>
        if peerOk s i.val v then setPeer s i.val part.val w.val v else s.perr (atuPage i.val 2) 18

/-- A leaf of a partition as a TLB entry. -/
def leafEnt (part : Nat) (l : Leaf) : TlbEnt :=
  let e := l.ent.toNat
  { part, base := alignDown l.base.toNat (2 ^ l.log2), log2 := l.log2, hbm := bits e 12 40 * 4096, rd := bitAt e 2, wr := bitAt e 3, peer := bitAt e 5, count := bitAt e 6 }

/-- A leaf that is valid, well formed and inside the device region (R198). -/
def leafOk (l : Leaf) : Bool :=
  let e := l.ent.toNat
  (l.log2 == 26 || l.log2 == 30 || l.log2 == 35) && bitAt e 0 && bitAt e 1 && aligned (bits e 12 40 * 4096) (2 ^ l.log2) && l.base.toNat < 2 ^ 50

/-- Entries added to the bridge's peer-inbound table (R197): at most 4,096 of an instance; a page without room sets peer_full. -/
def loadPeerIn (s : State) (i part : Nat) (leaves : List Leaf) : State :=
  let es := ((leaves.filter leafOk).map (leafEnt part)).filter fun e => e.peer
  es.foldl (fun s e =>
    let l := (s.atu.get i).peerIn
    if l.any fun x => x.2 == e then s
    else if l.length < 4096 then s.updAtu i fun a => { a with peerIn := a.peerIn ++ [(part, e)] }
    else s.perr (atuPage i 2) 17) s

/-- ATU.PEER_INp takes a value (R197): the bridge's table is loaded with the partition's peer pages, `leaves`. -/
def setPeerIn (s : State) (i part v : Nat) (leaves : List Leaf) : State :=
  let v := v &&& 0x1ff
  let s := (s.setR (atuR i 2 (0x100 + 4 * part)) v).updAtu i fun a => { a with peerIn := a.peerIn.filter fun e => e.1 != part }
  (if bits v 0 8 = 0 then s else loadPeerIn s i part leaves).emit (.peerIn part v)

/-- PEER_IN_WRITE (R197). -/
def execPeerInWrite (i : Inst) (part : Part) (a : Acc) (v : W32) (leaves : List Leaf) (s : State) : Host.Outcome State Fault Refusal :=
  liveI s i.val fun s =>
    let off := 0x100 + 4 * part.val
    guardD s a (atuPage i.val 2) (.peerInWrite i part a v leaves) (fun s => stageDrops s a (atuPage i.val 2) 0x1ff 0 false) fun s =>
      stageW s a (atuPage i.val 2) off 4 0x1ff 0 v.toNat fun s v => setPeerIn s i.val part.val v leaves

/-! ### Draining and completing (R210-R212) -/

/-- Whether a unit record is covered by an invalidation and stamped before its epoch: it is older than the epoch, or marked as older than 64 (R208). -/
def Inv.covers (v : Inv) (s : State) (i : Nat) (u : URec) : Bool :=
  v.scope.hits u && (u.marked || ((s.atu.get i).epoch + 2 ^ 16 - v.epoch) % 2 ^ 16 < stampAge s i u)

/-- The channels in the drain set of an invalidation: with the covered unit. -/
def drainChans (s : State) (i : Nat) (v : Inv) : List (Nat × URec) :=
  s.chans.filterMap fun e =>
    let ch := e.2
    if ch.home = i && (ch.st == .running || ch.st == .pausing || ch.st == .paused || (ch.st == .halting && chanReads s e.1 != 0)) then
      ((workUnits s ch).find? (v.covers s i)).map fun u => (e.1, u)
    else none

/-- The queues whose ring read is in the drain set. -/
def drainRings (s : State) (i : Nat) (v : Inv) : List Nat :=
  (queuesOf s i).filterMap fun e => match e.2.ringRead with
    | some (_, u) => if v.covers s i u then some e.1 else none
    | none => none

/-- Whether a site belongs to a partition of an instance. -/
def siteHome (s : State) (i k : Nat) : Bool := (partAt s k).any fun e => e.1 == i

/-- Writes in flight under a covered record: of channels and station commands, and completion records (R210-R212, R277). -/
def drainWrites (s : State) (i : Nat) (v : Inv) : Bool :=
  let f (p : Pools) : Bool := p.writes.any fun e => e.2.unit.any (v.covers s i) &&
    (match e.2.owner with
     | .chan c => (s.chan c).home == i
     | .record h _ _ => h == i
     | .station k _ _ => siteHome s i k
     | _ => false)
  f s.pools.a || f s.pools.b

/-- Whether an access of a station command at the host-line cache was made under a covered record (R277). -/
def Inv.holds (v : Inv) (s : State) (i : Nat) (r : HlcReq) : Bool :=
  r.unit.any (v.covers s i) && (match r.src with | .station k _ _ => siteHome s i k | _ => false)

/-- Whether a plain read or atomic of a station command was made under a covered record (R277). -/
def Inv.reads (v : Inv) (s : State) (i : Nat) (u : RUse) : Bool :=
  u.unit.any (v.covers s i) && (match u.owner with | .station k _ _ _ => siteHome s i k | _ => false)

/-- Whether the host-line cache still has an access under a covered record that is neither held nor returned (R277). -/
def drainHlc (s : State) (i : Nat) (v : Inv) : Bool :=
  let work (w : HWork) : Bool := match w with | .access r => v.holds s i r | _ => false
  let f (j : Nat) : Bool := (s.hlc.get j).queue.any (v.holds s i) || ((s.hlc.get j).wait.any fun e => work e.2) || ((s.hlc.get j).txns.any fun t => work t.work) ||
    (s.pool j).reads.any fun e => v.reads s i e.2
  f 0 || f 1

/-- Whether the drain set is empty. -/
def drained (s : State) (i : Nat) (v : Inv) : Bool :=
  (drainChans s i v).isEmpty && (drainRings s i v).isEmpty && !drainWrites s i v && !drainHlc s i v

/-- The accesses of station commands that a drain abandons at host-line cache `j` (R211, R277): reads, and what has not left yet; each ends with
GLOBAL_UNMAPPED, an AtomicOp at the host with HOST_ATOMIC_ERROR (DESIGN CHOICE, log entry 173). -/
def drainStations (s : State) (i : Nat) (v : Inv) (j : Nat) : State :=
  let err (s : State) (r : HlcReq) : State := match r.src with | .station k _ tag => s.emit (.stationErr k tag 3) | _ => s
  let ofWork (w : HWork) : List HlcReq := match w with | .access r => if v.holds s i r then [r] else [] | _ => []
  let read (w : HWork) : Bool := (ofWork w).any fun r => !(match r.kind with | .write => true | .atomic _ _ _ _ => true | _ => false)
  let gone (t : HTxn) : HTxn := match t.work with
    | .access r => if read t.work then { t with work := .access { r with src := .gone } } else t
    | _ => t
  let h := s.hlc.get j
  let rs := h.queue.filter (v.holds s i) ++ (h.wait.flatMap fun e => ofWork e.2) ++ (h.txns.filter fun t => read t.work).flatMap fun t => ofWork t.work
  let us := (s.pool j).reads.filter fun e => v.reads s i e.2
  let s := { s with hlc := s.hlc.upd j fun h =>
    { h with queue := h.queue.filter (!v.holds s i ·), wait := h.wait.filter fun e => (ofWork e.2).isEmpty, txns := h.txns.map gone } }
  let dead (u : RUse) : RUse := if v.reads s i u then { u with owner := .dead } else u
  let s := us.foldl (fun s e => match e.2.owner with
    | .station k _ tag at_ => s.emit (.stationErr k tag (if at_ then 8 else 3))
    | _ => s) (s.updPool j fun p => { p with reads := Tbl.mapV p.reads dead })
  rs.foldl err s

/-- Whether a scope covers a landed host write: its host range, or the window through which it went. -/
def InvScope.hitsWrite (v : InvScope) (u : Unflushed) : Bool :=
  match v.key with
  | .da p => (match u.da with | some (q, b) => q == p && rangesMeet v.base v.size b u.size | none => false)
  | .host g p =>
    (match u.key with | .host g' p' => g == g' && (v.glob || v.allSpaces || p == p') | _ => false) && rangesMeet v.base v.size u.base u.size

/-- The ports with host writes under a covered record that are not flushed (R212), with the flush count of the last. -/
def dirtyPorts (s : State) (i : Nat) (v : InvScope) : List (Nat × Nat) :=
  if v.site.isSome then []
  else
    let l := (s.pool (carrier s i)).unflushed.filter v.hitsWrite
    l.foldl (fun acc u => (u.port, max u.id (((acc.find? fun e => e.1 == u.port).map Prod.snd).getD 0)) :: acc.filter fun e => e.1 != u.port) []

/-- DRAIN_TIMEOUT (R211, R160): 20 µs after its acceptance an invalidation's drain set is not empty: its channels halt with
STALE_DRAIN and their reads are abandoned; its ring reads are abandoned and made again; station accesses at the host-line cache are abandoned. -/
def drainTimeout (s : State) (i e : Nat) : State :=
  match (s.atu.get i).invs.find? fun v => v.epoch == e && !v.expired with
  | none => s
  | some v =>
    let s := s.updAtu i fun a => { a with invs := a.invs.map fun x => if x = v then { x with expired := true } else x }
    let halt (s : State) (c : Nat × URec) : State :=
      let was := (s.chan c.1).st
      let s := haltChan s c.1 10 c.2.base c.2.key.space 0
      let s := if was == .halting then s else (s.bump (atuR i 0 0x138) 1).irq (atuPage i 0) 17
      let dead (u : RUse) : RUse := if u.owner == .chan c.1 then { u with owner := .dead } else u
      s.updPool (c.1 / 256) fun p => { p with reads := Tbl.mapV p.reads dead }
    let s := drainStations (drainStations ((drainChans s i v).foldl halt s) i v 0) i v 1
    let reread (x : Queue) : Queue := match x.ringRead with
      | some (pos, _) => { x.updPos pos (fun y => { y with fet := .due }) with ringRead := none }
      | none => x
    (drainRings s i v).foldl (fun s q => s.updQ i q reread) s

/-- DRAIN_TIMEOUT (R211). -/
def execDrainTimeout (i : Inst) (e : BitVec 16) (s : State) : Host.Outcome State Fault Refusal := liveI s i.val fun s => drainTimeout s i.val e.toNat

/-- Whether an instance still works on an ATS request. -/
def atsBusy (s : State) (i port itag : Nat) : Bool :=
  (s.atu.get i).invs.any (fun v => v.src == .ats port itag) || (s.atu.get i).invWait.any fun w => w.1 == .ats port itag

/-- An invalidation is complete: INV_CMD reports DONE; an ATS request is answered on its port once both instances are complete,
unless the port is down (R212, R213). The peer-inbound table is loaded again with the covered peer pages (R197). -/
def finishInv (s : State) (i : Nat) (v : Inv) (leaves : List Leaf) : State :=
  let s := s.updAtu i fun a => { a with invs := a.invs.filter (· != v) }
  let s := match v.scope.key with
    | .da p => if v.scope.site.isNone && s.fld (atuR i 2 (0x100 + 4 * p)) 0 8 != 0 then loadPeerIn s i p leaves else s
    | _ => s
  match v.src with
  | .cmd => (s.setR (atuR i 0 0x4C) (fields [(8, 1), (16, v.epoch)])).irq (atuPage i 0) 16
  | .spt => (s.setR (atuR i 2 0x48) 0x100).irq (atuPage i 2) 16
  | .ats port itag =>
    if atsBusy s 0 port itag || atsBusy s 1 port itag || !((s.port port).link == .up || (s.port port).link == .retrain) then s
    else s.emit (.invDone port itag)
  | .other => s

/-- INVALIDATION_COMPLETE (R210, R212): the drain set is empty and the tables have acknowledged; the ports with covered host
writes are flushed first, by reads that the first call issues. -/
def invComplete (s : State) (i e : Nat) (leaves : List Leaf) : State :=
  match (s.atu.get i).invs.find? fun v => v.epoch == e with
  | none => s
  | some v =>
    if !drained s i v || !v.sites.isEmpty then s
    else
      let l := dirtyPorts s i v.scope
      if !l.isEmpty then issueFlushes s (carrier s i) l else finishInv s i v leaves

/-- INVALIDATION_COMPLETE (R210). -/
def execInvalidationComplete (i : Inst) (e : BitVec 16) (leaves : List Leaf) (s : State) : Host.Outcome State Fault Refusal :=
  liveI s i.val fun s => invComplete s i.val e.toNat leaves

end Sys2Proof.Machine
end

