-- ==== Sys2Proof/Machine/Sites.lean ====
section
/-! DEFINITION. Sites and station commands as data (R28-R30, R286-R292, R323): who owns a site, which command a slot holds,
frames sent. -/
namespace Sys2Proof.Machine

/-- A site. -/
def State.site (s : State) (k : Nat) : SiteRec := Tbl.getD s.sites k {}

/-- The state with a site changed. -/
def State.updSite (s : State) (k : Nat) (f : SiteRec → SiteRec) : State := { s with sites := Tbl.upd s.sites k {} f }

/-- A register of a site's STP page (R314). -/
def stpR (k off : Nat) : Nat := reg .stp (k / 6) (k % 6) off

/-- The STP page of a site. -/
def stpPage (k : Nat) : PageId := ⟨.stp, k / 6, k % 6⟩

/-- The instance that owns a site (R28, R29). -/
def owner (s : State) (k : Nat) : Nat := if (s.site k).swapped then partner (k / 6) else k / 6

/-- Whether the frames of a station reach an instance (R37, R312): the site's owner works; or the owner is disabled by strap, and its STP island
serves the other instance. -/
def ownerWorks (s : State) (k : Nat) : Bool :=
  alive s (owner s k) || ((s.mir.get (owner s k)).inst == .disabled && alive s (partner (owner s k)))

/-- Whether a site's link carries frames: UP, or retraining while frames wait. -/
def linkOk (s : State) (k : Nat) : Bool := (s.site k).st == .up || (s.site k).st == .retrain

/-- The slots of a frame (R288): 1, 2, 3, 4 or 5. -/
def frameSlots (code : Nat) : Nat :=
  if code = 0x01 || code = 0x04 then 4
  else if code = 0x03 || code = 0x06 || code = 0x08 || code = 0x09 then 2
  else if code = 0x31 then 3
  else if code = 0x26 || code = 0x27 then 5
  else 1

/-- The bytes of a frame (R287-R289): the first slot with code, slot, op, aux, job_id and arg, then its further 64-bit words, padded with
zeros to whole slots. -/
def frameBytes (code : Nat) (args : List Nat) : List Byte :=
  let a (n : Nat) : Nat := args.getD n 0
  let b := leBytes 1 code ++ leBytes 1 (a 0 % 64) ++ leBytes 1 (a 1) ++ leBytes 1 (a 2) ++ leBytes 4 (a 3) ++ leBytes 8 (a 4) ++
    (args.drop 5).flatMap (leBytes 8)
  (b ++ List.replicate (16 * frameSlots code) 0).take (16 * frameSlots code)

/-- One byte taken into a CRC-64 with the ECMA-182 polynomial, most significant bit first. -/
def crcByte (c : Nat) (b : Byte) : Nat :=
  let step (c : Nat) : Nat := if bitAt c 63 then (2 * c % 2 ^ 64) ^^^ 0x42F0E1EBA9EA3693 else 2 * c
  Nat.repeat step 8 (c ^^^ (b.toNat <<< 56))

/-- The CRC-64 of a flit (R283) or a state image (R387): the polynomial is the rules'; initial value 0, most significant bit first, no final
inversion (PRESUMED, log entry 45). -/
def crc64 (bytes : List Byte) : Nat := bytes.foldl crcByte 0

/-- The 256 bytes of a flit (R283): header, 15 slots, one credit byte per channel of the other direction, CRC. -/
def flitBytes (kind seq ack : Nat) (cred : Nat × Nat × Nat) (frames : List (Nat × List Nat)) : List Byte :=
  let slots := (frames.flatMap fun f => frameBytes f.1 f.2) ++ List.replicate 240 0
  let body := leBytes 4 (fields [(0, seq % 4096), (12, ack % 4096), (24, kind)]) ++ slots.take 240 ++
    leBytes 1 cred.1 ++ leBytes 1 cred.2.1 ++ leBytes 1 cred.2.2 ++ leBytes 1 0
  body ++ leBytes 8 (crc64 body)

/-- A flit sent on a site link (R283, R284), with the ack of the last good flit received and the credits that are due. A frames flit takes
the next seq, the first after link-up being 1, and stays in the replay buffer. -/
def sendFlit (s : State) (k kind : Nat) (frames : List (Nat × List Nat)) : State :=
  let x := s.site k
  let seq := if kind = 0 then (x.txSeq + 1) % 4096 else 0
  let y : SiteRec := { x with rxOwed := false, grant := (0, 0, 0) }
  let y := if kind = 0 then { y with txSeq := seq, replay := y.replay ++ frames.map fun f => (seq, f.1, f.2) } else y
  (s.updSite k fun _ => y).emit (.flit k kind seq x.rxSeq x.grant frames)

/-- An idle flit where an ack or credits are due that no other flit carried (R284, R285); the model acknowledges at once (DESIGN CHOICE, log
entry 61). -/
def settleAck (s : State) (k : Nat) : State :=
  let x := s.site k
  if x.rxOwed || x.grant != (0, 0, 0) then sendFlit s k 1 [] else s

/-- Whether a frame of a channel (SNP, or CMD) may leave now: the link carries frames, a credit is there, fewer than 64 flits are
unacknowledged (R284, R285); to a site in MISMATCH only CAP_READ (R291). -/
def mayFrame (x : SiteRec) (code : Nat) : Bool :=
  (x.st == .up || x.st == .cap || (x.st == .mismatch && code == 0x0B)) && 0 < (if code = 0x10 then x.cred.2 else x.cred.1) &&
  x.replay.length < 64

/-- Whether a frame waits behind an earlier frame of its channel that may not leave (R286). -/
def frameBlocked (x : SiteRec) (code : Nat) : Bool := x.st != .mismatch && x.txq.any fun f => (f.1 == 0x10) == (code == 0x10)

/-- Frames that wait sent as far as credits and the replay buffer allow, in order within each channel (R286). -/
def pumpFrames (k : Nat) : List (Nat × List Nat) → State → State
  | [], s => s
  | f :: r, s =>
    if !frameBlocked (s.site k) f.1 && mayFrame (s.site k) f.1 then
      let s := s.updSite k fun x => { x with cred := if f.1 = 0x10 then (x.cred.1, x.cred.2 - 1) else (x.cred.1 - 1, x.cred.2) }
      pumpFrames k r (sendFlit s k 0 [f])
    else pumpFrames k r (s.updSite k fun x => { x with txq := x.txq ++ [f] })

/-- A frame to a station (R286), in a flit of its own; it waits in order where it cannot leave (DESIGN CHOICE, log entry 61), and behind every
frame toward the old owner of a site that a switch of the pair moves (R30). -/
def sendFrame (s : State) (k code : Nat) (args : List Nat) : State :=
  if (s.site k).taking.isSome then s.updSite k fun x => { x with after := x.after ++ [(code, args)] } else pumpFrames k [(code, args)] s

/-- Frames that wait on a site tried again. -/
def flushFrames (s : State) (k : Nat) : State :=
  let q := (s.site k).txq
  pumpFrames k q (s.updSite k fun x => { x with txq := [] })

/-- The capacity a frame of a station gives back once it is taken (R285), as RSP, SRS and EVT credits. -/
def Frame.credit : Frame → Nat × Nat × Nat
  | .snpRsp _ _ _ => (0, 1, 0)
  | .hostFlush _ _ => (0, 0, 1)
  | .activity _ => (0, 0, 1)
  | .fault _ _ _ => (0, 0, 1)
  | .unknown => (0, 0, 0)
  | _ => (1, 0, 0)

/-- A frame of a station taken: its credit is to be granted again with the next flit (R285). -/
def takeCredit (s : State) (k : Nat) (f : Frame) : State :=
  let c := f.credit
  s.updSite k fun x => { x with grant := (x.grant.1 + c.1, x.grant.2.1 + c.2.1, x.grant.2.2 + c.2.2) }

/-- The state with a scheduler changed. -/
def State.updSch (s : State) (i : Nat) (f : Sch → Sch) : State := { s with sch := s.sch.upd i f }

/-- A register of a SCH page. -/
def schR (i n off : Nat) : Nat := reg .sch i n off

/-- SCH page `n`. -/
def schPage (i n : Nat) : PageId := ⟨.sch, i, n⟩

/-- A dispatched command by job number. -/
def State.cmd? (s : State) (i j : Nat) : Option Cmd := Tbl.find (s.sc i).cmds j

/-- The state with a command changed, if it exists. -/
def State.updCmd (s : State) (i j : Nat) (f : Cmd → Cmd) : State :=
  match s.cmd? i j with
  | some c => s.updSch i fun x => { x with cmds := Tbl.put x.cmds j (f c) }
  | none => s

/-- Whether a command holds its slot: sent and not ended (R292). -/
def Cmd.inSlot (c : Cmd) : Bool := c.st == .sent || c.st == .loaded || c.st == .running || c.st == .committing

/-- Whether a command holds its place on a site: placed and not ended. -/
def Cmd.onSite (c : Cmd) : Bool := c.inSlot || c.st == .placing || c.st == .due

/-- The command in a slot of a site, with its instance and job number. -/
def cmdAt (s : State) (k slot : Nat) : Option (Nat × Nat × Cmd) :=
  [0, 1].findSome? fun i => ((s.sc i).cmds.find? fun e => e.2.inSlot && e.2.site == k && e.2.slot == slot).map fun e => (i, e.1, e.2)

/-- The commands that hold a place on a site, with their instance and job number. -/
def cmdsOn (s : State) (k : Nat) : List (Nat × Nat × Cmd) :=
  [0, 1].flatMap fun i => ((s.sc i).cmds.filter fun e => e.2.onSite && e.2.site == k).map fun e => (i, e.1, e.2)

/-- A field of the capability block of a station (R290): byte offset, first bit, width. -/
def capF (s : State) (k off lo w : Nat) : Nat := bits (s.r (stpR k (0x80 + off / 8 * 8))) (off % 8 * 8 + lo) w

/-- E_s: engines of the station (R290). -/
def capEngines (s : State) (k : Nat) : Nat := capF s k 8 0 9

/-- The kind of a station (R291). -/
def siteKind (s : State) (k : Nat) : Nat × Nat × Nat := (capF s k 0 16 16, capF s k 4 0 32, capF s k 0x18 0 16)

/-- The engine quota q_s of a site at its level (R394). -/
def quota (s : State) (k : Nat) : Nat := (capEngines s k * (16 - Tbl.getD s.lev.site k 0) + 15) / 16

/-- Whether engine starts are stopped at a site: a droop there or of the hub, a brake, a thermal trip (R409, R411, R412). -/
def startsStopped (s : State) (k : Nat) : Bool := s.lev.droop.contains k || s.lev.droop.contains 12 || s.lev.brake || s.thermTrip

/-- A flushing read completes (R248), for the station commands that wait on it. -/
def cmdsFlushed (s : State) (i p id : Nat) : State :=
  let f (c : Cmd) : Cmd := { c with wports := dropFlushed c.wports p id }
  let one (h : Nat) (s : State) : State := if carrier s h == i then s.updSch h fun x => { x with cmds := Tbl.mapV x.cmds f } else s
  one 1 (one 0 s)

end Sys2Proof.Machine
end

