-- ==== Sys2Proof/Machine/Hlc.lean ====
section
/-! DEFINITION. The host-line cache (R263-R279): lines, ring snoops, CXL.cache requests, host snoops. The cache belongs to
the working instance; a group is served by the one instance whose coh_en bit is set (R263). -/
namespace Sys2Proof.Machine

/-- A register of the HLC page. -/
def hlcR (i off : Nat) : Nat := reg .hlc i 0 off

/-- The HLC page. -/
def hlcPage (i : Nat) : PageId := ⟨.hlc, i, 0⟩

/-- The host-line cache of an instance. -/
def State.hl (s : State) (i : Nat) : Hlc := s.hlc.get i

/-- The state with a host-line cache changed. -/
def State.updHlc (s : State) (i : Nat) (f : Hlc → Hlc) : State := { s with hlc := s.hlc.upd i f }

/-- HLC.GROUP_CFG.coh_en of a group (R263). -/
def cohEn (s : State) (i g : Nat) : Bool := bitAt (s.r (hlcR i 0x40)) g

/-- The cache port of a group (R264); none while the group is ABSENT (R277). A retrain does not move it (R277); a config-only port counts as
not UP (R75). -/
def cachePort (s : State) (g : Nat) : Option Nat :=
  if absent s g then none
  else (portsOf s g).find? fun n =>
    ((s.port n).link == .up || (s.port n).link == .retrain) && (s.port n).cxl && (s.port n).cacheEn && !(s.port n).configOnly

/-- HLC.CACHE_PORT (R263, R279). -/
def cachePortReg (s : State) (i : Nat) : Nat :=
  fields ((List.range 4).flatMap fun g => match cachePort s g with
    | some p => if cohEn s i g then [(2 * g, p), (8 + g, 1)] else []
    | none => [])

/-- A line's key: its group and HPA [51:6] (R265). -/
def lineKey (g hpa : Nat) : Nat := g * 2 ^ 46 + hpa / 64 % 2 ^ 46

/-- The group of a line's key. -/
def keyGroup (k : Nat) : Nat := k / 2 ^ 46

/-- The address of a line's key. -/
def keyAddr (k : Nat) : Nat := k % 2 ^ 46 * 64

/-- The line of a key, if held. -/
def State.line? (s : State) (i k : Nat) : Option Line := Tbl.find (s.hl i).lines k

/-- A line stored, as the most recently used of its set; a change of host-visible state goes to the partner (R278). -/
def putLine (s : State) (i k : Nat) (l : Line) : State :=
  let old := (s.line? i k).map Line.st
  let s := s.updHlc i fun h => { h with lines := Tbl.put h.lines k { l with use := h.clock }, clock := h.clock + 1 }
  if old == some l.st then s else s.report i []

/-- A line dropped. -/
def dropLine (s : State) (i k : Nat) : State :=
  if (s.line? i k).isSome then (s.updHlc i fun h => { h with lines := Tbl.del h.lines k }).report i [] else s

/-- Whether a line is busy (R269). -/
def lineBusy (s : State) (i k : Nat) : Bool := (s.hl i).txns.any fun t => t.key == k

/-- Ring snoops in flight (R270). -/
def ringsUp (s : State) (i : Nat) : Nat := ((s.hl i).txns.filter fun t => t.ring.isSome).length + (s.hl i).all.length

/-- The sites a ring snoop visits (R270, R274): owned, alive, with a coherent window in their station-port table. -/
def ringSites (s : State) (i : Nat) : List Nat :=
  (List.range 12).filter fun k =>
    owner s k == i && linkOk s k && !bitAt (s.r (hlcR i 0x5C)) k && (Tbl.getD s.spt k []).any fun e => e.kind == .hlc

/-- A ring snoop sent to sites (R270); `op` as in SNOOP frames, 4 standing for an SNP_INV_ALL whose data is kept. Bit 0 of
its tag is the instance, so that an understudy knows no tag of the failed instance (R312). -/
def sendRingTo (s : State) (i op k : Nat) (sites : List Nat) : State × Ring :=
  let tag := 2 * (s.hl i).tag + i
  let s := (s.updHlc i fun h => { h with tag := (h.tag + 1) % 2 ^ 31 }).bump (hlcR i 0x78) 1
  let arg := if 3 ≤ op then 0 else fields [(52, keyGroup k)] + keyAddr k
  (sites.foldl (fun s n => sendFrame s n 0x10 [0, min op 3, 0, tag, arg]) s, { op, tag, sites })

/-- A ring snoop sent to every site of the ring (R270). -/
def sendRing (s : State) (i op k : Nat) : State × Ring := sendRingTo s i op k (ringSites s i)

/-- An SNP_INV_ALL of the ring (R270): it waits where 64 ring snoops are in flight. -/
def ringAll (s : State) (i : Nat) (r : Ring) : State :=
  if r.sites.isEmpty then s
  else if 64 ≤ ringsUp s i then s.updHlc i fun h => { h with due := h.due ++ [r] }
  else
    let x := sendRingTo s i r.op 0 r.sites
    x.1.updHlc i fun h => { h with all := h.all ++ [{ r with tag := x.2.tag }] }

/-- HLC.LAST_POISON overwritten (R279). -/
def notePoison (s : State) (i k cause : Nat) : State :=
  s.setR (hlcR i 0x90) (fields [(63, 1), (0, cause), (4, keyGroup k)] + keyAddr k)

/-- A line newly poisoned (R275). -/
def newPoison (s : State) (i k cause : Nat) : State :=
  ((notePoison s i k cause).bump (hlcR i 0x80) 1).irq (hlcPage i) 16

/-- What a finished ring snoop leaves of a line (R269, R270): SNP_INV no copy, SNP_DATA an S copy where a site owned the line. A
dead owner may have held dirty data: the line is poisoned, and M as data that may be dirty (R271's example) (DEDUCED, log entry 144). -/
def afterRing (s : State) (i k op : Nat) : State :=
  match s.line? i k with
  | none => s
  | some l =>
    let dead := match l.owner with | some d => bitAt (s.r (hlcR i 0x5C)) d | none => false
    let s := if dead && !l.poison then newPoison s i k 1 else s
    let l := { l with st := if dead then .m else l.st, poison := l.poison || dead, owner := if dead then none else l.owner }
    if op = 0 then putLine s i k { l with ring := false, owner := none }
    else if op = 1 then putLine s i k { l with ring := l.ring || l.owner.isSome, owner := none }
    else putLine s i k l

/-- What leaves on a CXL port; it waits while the port retrains (R277). -/
def cxlOut (s : State) (i p : Nat) (o : Out) : State :=
  if (s.port p).link == .retrain then s.updHlc i fun h => { h with txWait := h.txWait ++ [(p, o)] } else s.emit o

/-- What waited for a retrain of a port leaves, in its order (R277). -/
def cxlResume (s : State) (i p : Nat) : State :=
  let os := (s.hl i).txWait.filter fun e => e.1 == p
  os.foldl (fun s e => s.emit e.2) (s.updHlc i fun h => { h with txWait := h.txWait.filter fun e => e.1 != p })

/-- A CXL.cache request (R268) on a group's cache port: 0 RdShared, 1 RdAny, 2 RdOwn, 3 RdOwnNoData, 4 ItoMWr, 5 WrCur,
6 CleanEvictNoData, 7 CleanEvict, 8 DirtyEvict, 9 a write-back that keeps the line; with the poison indication of its data (R275). -/
def sendCxl (s : State) (i op k : Nat) (bs : List Byte) (poison : Bool) : State :=
  match cachePort s (keyGroup k) with
  | some p => cxlOut s i p (.cxlReq p op (keyAddr k) bs poison)
  | none => s

/-- The WrCur of a partial write (R268): its bytes from byte `o` of the line on, no other byte enabled. -/
def sendWrCur (s : State) (i k o : Nat) (bs : List Byte) : State :=
  match cachePort s (keyGroup k) with
  | some p => cxlOut s i p (.cxlReq p 5 (keyAddr k + o) bs false)
  | none => s

/-- The request of an access on a line: a WrCur for its own bytes, any other for the line. -/
def sendFor (s : State) (i op k : Nat) (w : HWork) (bs : List Byte) : State :=
  match w with
  | .access r => if op = 5 then sendWrCur s i k (r.addr % 64) bs else sendCxl s i op k bs false
  | _ => sendCxl s i op k bs false

/-- A line without station copies evicted (R268, R269). -/
def evictNow (s : State) (i k : Nat) : State :=
  match s.line? i k with
  | none => s
  | some l =>
    let s := match l.st with
      | .s => sendCxl s i 6 k [] false
      | .e => sendCxl s i 7 k [] false
      | .m => sendCxl s i 8 k l.data l.poison
    dropLine s i k

/-- Whether a line may have station copies. -/
def Line.shared (l : Line) : Bool := l.ring || l.owner.isSome

/-! ### What an access needs (R266-R269, R273) -/

/-- Bytes an access takes from its present line. -/
def HlcReq.piece (r : HlcReq) : Nat := min r.left (64 - r.addr % 64)

/-- Whether the present piece of a write covers its whole line. -/
def HlcReq.full (r : HlcReq) : Bool := r.piece == 64

/-- Whether the request writes. -/
def HlcReq.writes (r : HlcReq) : Bool := match r.kind with | .write => true | .atomic _ _ _ _ => true | _ => false

/-- The mode a request's window has: its own while it is coherent, else 0 (R263). -/
def winMode (s : State) (i : Nat) (r : HlcReq) : Nat :=
  if cohEn s i r.group && (cachePort s r.group).isSome then r.mode else 0

/-- The ring snoop and the CXL.cache request an access needs before it can finish (R266, R268, R269) (DEDUCED, log entry 59). An S line that
stations share is first dropped after its ring SNP_INV; only then does a one-way write leave (R268). -/
def hlcNeeds (mode : Nat) (l : Option Line) (r : HlcReq) : Option Nat × Option Nat :=
  let inv : Option Nat := match l with | some x => if x.shared then some 0 else none | none => none
  let data : Option Nat := match l with | some x => if x.owner.isSome then some 1 else none | none => none
  let st := l.map Line.st
  match r.kind with
  | .read => (data, if l.isNone && mode != 0 then some (if mode = 1 then 0 else 1) else none)
  | .readS =>
    let own := match r.src, l with | .station t _ _, some x => x.owner == some t | _, _ => false
    (if own then none else data, if l.isNone && mode != 0 then some (if mode = 1 then 0 else 1) else none)
  | .readO =>
    if mode = 2 then (inv, if st == some .e || st == some .m then none else some 2)
    else (data, if l.isNone && mode != 0 then some 0 else none)
  | .write =>
    if st == some .e || st == some .m then (inv, none)
    else if mode = 2 then (inv, some (if r.full then 3 else 2))
    else if inv.isSome then (inv, none)
    else (none, if mode = 1 then some (if r.full then 4 else 5) else none)
  | .atomic _ _ _ _ =>
    if mode = 2 then (inv, if st == some .e || st == some .m then none else some 2) else (inv, none)

/-- An atomic operation of R258 on an operand of `w` bytes: the new value. -/
def atomicNew (op w old arg cmp : Nat) : Nat :=
  let b := 8 * w
  let m := 2 ^ b
  let x := signed old b
  let y := signed arg b
  match op with
  | 0 => (old + arg) % m
  | 1 => if x ≤ y then old else arg % m
  | 2 => if y ≤ x then old else arg % m
  | 3 => min old (arg % m)
  | 4 => max old (arg % m)
  | 5 => old &&& (arg % m)
  | 6 => old ||| (arg % m)
  | 7 => old ^^^ (arg % m)
  | 8 => arg % m
  | _ => if old = cmp % m then arg % m else old

/-- Whether R258 has an atomic operation for host memory reached through a window of a mode: its op and width. -/
def atomicOk (mode op w : Nat) : Bool :=
  if mode = 2 then op ≤ 9 && (w == 4 || w == 8)
  else (op == 0 || op == 8) && (w == 4 || w == 8) || (op == 9 && (w == 4 || w == 8 || w == 16))

/-! ### The end of a request -/

/-- A station's request refused or failed, with a code of R306. -/
def stFails (s : State) (r : HlcReq) (code : Nat) : State :=
  match r.src with
  | .station k _ tag => s.emit (.stationErr k tag code)
  | .chan _ | .gone => s

/-- A request has been served whole: a read's data goes to its channel, a write is held (R272), a station is answered. -/
def reqDone (s : State) (i : Nat) (r : HlcReq) (st : Nat) : State :=
  match r.src with
  | .gone => s
  | .station k _ tag => s.emit (.stationRsp k tag st r.got)
  | .chan n =>
    if r.writes then
      let noPort (e : Nat × WUse) : Nat × WUse := if e.1 = n then (e.1, { e.2 with port := none }) else e
      landed (s.updPool i fun p => { p with writes := p.writes.map noPort }) i n
    else match Tbl.find (s.pool i).reads n with
      | some u => readEnd s i n u r.got .ok
      | none => s

/-- A request fails as on a poisoned line (R275, R276), or for an absent host (R88, R277): a station's with POISON, or with HOST_ATOMIC_ERROR
or HOST_LOST (log entry 140); a channel's halts the channel. -/
def reqFail (s : State) (i : Nat) (r : HlcReq) (absentHost : Bool) : State :=
  match r.src with
  | .gone => s
  | .station _ _ _ => stFails s r (if absentHost then (match r.kind with | .atomic _ _ _ _ => 8 | _ => 10) else 5)
  | .chan n =>
    if r.writes then
      match Tbl.find (s.pool i).writes n with
      | some w =>
        (match w.owner with
         | .chan c => writeFails s i n w c (if absentHost then 9 else 3)
         | _ => s.updPool i fun p => { p with writes := Tbl.del p.writes n })
      | none => s
    else match Tbl.find (s.pool i).reads n with
      | some u =>
        if absentHost then
          match u.owner with
          | .chan c => (haltChan s c 9 u.addr u.sp 0).updPool i fun p => { p with reads := Tbl.del p.reads n }
          | _ => s.updPool i fun p => { p with reads := Tbl.del p.reads n }
        else readEnd s i n u [] .poison
      | none => s

/-- A request whose present piece is served: the next piece goes to the front of the queue, or the request ends. -/
def pieceDone (s : State) (i : Nat) (r : HlcReq) (bs : List Byte) (st : Nat) : State :=
  let n := r.piece
  let r' : HlcReq := { r with addr := r.addr + n, left := r.left - n, got := r.got ++ bs, bytes := r.bytes.drop n }
  if r.src == .gone then s
  else if r'.left = 0 then reqDone s i r' st else s.updHlc i fun h => { h with queue := r' :: h.queue }

/-! ### Plain requests (R247, R267) -/

/-- A host write of a station command noted as carried on a port (R267, R295). -/
def noteCmdPort (s : State) (k slot p id : Nat) : State :=
  match cmdAt s k slot with
  | some (h, j, _) => s.updCmd h j fun c => { c with wports := (p, id) :: c.wports.filter fun e => e.1 != p }
  | none => s

/-- The port of a request: the channel's, or the one the command keeps, chosen under R79 at its first request (R267). -/
def reqPort (s : State) (i : Nat) (r : HlcReq) : State × Option Nat :=
  match r.src with
  | .gone => (s, none)
  | .chan _ =>
    (s, match r.port with
      | some p => stayPort s p r.group i
      | none => pickPort s r.group i)
  | .station k slot _ =>
    match cmdAt s k slot with
    | some (h, j, c) =>
      (match c.hport with
       | some p => (s, stayPort s p r.group i)
       | none =>
         let p := pickPort s r.group i
         (s.updCmd h j fun c => { c with hport := p }, p))
    | none => (s, pickPort s r.group i)

/-- A host write of a request noted on its port. -/
def noteReq (s : State) (i : Nat) (r : HlcReq) (p : Nat) : State :=
  let id := (s.pool i).flushId
  match r.src with
  | .gone => s
  | .station k slot _ => noteCmdPort s k slot p id
  | .chan n =>
    match (Tbl.find (s.pool i).writes n).map WUse.owner with
    | some (.chan c) => let ch := s.chan c; notePort s ch.home (ch.queue.getD 0) ch.pos p id
    | _ => s

/-- Relaxed Ordering of a request's write (R247): that of the channel's write; of a station's write, which no row names, 0 (DESIGN CHOICE, log
entry 145). -/
def reqRo (s : State) (i : Nat) (r : HlcReq) : Bool :=
  match r.src with
  | .chan n => ((Tbl.find (s.pool i).writes n).map WUse.ro).getD false
  | _ => false

/-- A host write of a request sent on a port: the whole of a channel's under its own number, else under a number for it. -/
def plainWrite (s : State) (i : Nat) (r : HlcReq) (p : Nat) (whole : Bool) : State × Bool :=
  let n := if whole then r.left else r.piece
  let bs := r.bytes.take n
  let a := reqAttr s p (reqRo s i r) true
  match r.src, whole with
  | .chan num, true => ((noteReq s i r p).emit (.hostWrite i p num r.addr bs a), true)
  | src, _ =>
    let o : WOwner := match src, whole with
      | .station t slot tag, true => .station t slot tag
      | _, _ => .line (lineKey r.group r.addr)
    let slot := freeQmSlot s i
    if slot = 16383 then (s, false)
    else
      let w : WUse := { owner := o, port := some p, sp := 1, addr := r.addr, taddr := r.addr, bytes := bs, unit := r.unit, ro := reqRo s i r }
      (((noteReq s i r p).updPool i fun x => { x with writes := Tbl.put x.writes slot w }).emit (.hostWrite i p slot r.addr bs a), true)

/-- A host read of a request sent on a port, likewise. -/
def plainRead (s : State) (i : Nat) (r : HlcReq) (p : Nat) (whole : Bool) : State × Bool :=
  let n := if whole then r.left else r.piece
  match r.src, whole with
  | .chan num, true =>
    (match Tbl.find (s.pool i).reads num with
     | some u => (sendRead s i p num u r.addr n (dataAttr s p), true)
     | none => (s, true))
  | src, _ =>
    let o : ROwner := match src, whole with
      | .station t slot tag, true => .station t slot tag false
      | _, _ => .line (lineKey r.group r.addr)
    if freeTag s i = 16384 || (freeHtag s i p).isNone then (s, false)
    else (sendRead s i p (freeTag s i) { owner := o, sp := 1, port := some p, addr := r.addr, len := n, unit := r.unit } r.addr n (dataAttr s p), true)

/-- What is left of a request sent as one plain request, or its present piece alone (`whole` false) with a number of the cache's own;
false where nothing could be sent. -/
def plainSend (s : State) (i : Nat) (r : HlcReq) (whole : Bool) : State × Bool :=
  match reqPort s i r with
  | (s, none) => (s, false)
  | (s, some p) => if r.writes then plainWrite s i r p whole else plainRead s i r p whole

/-- Whether a request may leave whole: it fits the limits of R151 and R243 on its port. -/
def fitsPort (s : State) (i : Nat) (r : HlcReq) : Bool :=
  match (reqPort s i r).2 with
  | some p => reqLen true (if r.writes then mpsOf s p else mrrsOf s p) r.addr r.left == r.left
  | none => true

/-- A station AtomicOp that goes to the host as a PCIe AtomicOp (R258, R267, R273): on the cache port for a one-way window. -/
def atomicSend (s : State) (i : Nat) (r : HlcReq) (mode : Nat) : State × Bool :=
  match r.kind, r.src with
  | .atomic op w arg cmp, .station k slot tag =>
    (match (if mode = 1 then (s, cachePort s r.group) else reqPort s i r) with
     | (s, some p) =>
       if freeTag s i = 16384 || (freeHtag s i p).isNone then (s, false)
       else
         let h := (freeHtag s i p).getD 0
         let u : RUse := { owner := .station k slot tag true, sp := 1, port := some p, addr := r.addr, len := w, unit := r.unit }
         (cxlOut (putRead s i (freeTag s i) u) i p (.pcieAtomic i p (wireTag i h) r.addr op w arg cmp (strictAttr s p)), true)
     | (s, none) => (s, false))
  | _, _ => (s, true)

/-! ### Serving one piece -/

/-- A request put back at the front of the queue. -/
def hlcBack (s : State) (i : Nat) (r : HlcReq) : State := s.updHlc i fun h => { h with queue := r :: h.queue }

/-- A plain request for the present piece of a request: the line is busy with it. -/
def plainPiece (s : State) (i : Nat) (r : HlcReq) : State :=
  let x := plainSend s i r false
  if x.2 then x.1.updHlc i fun h => { h with txns := h.txns ++ [{ key := lineKey r.group r.addr, work := .access r, plain := true }] }
  else hlcBack x.1 i r

/-- The end of a write's present piece on its line (R266, R268, R269): merged into a line in E or M; a line in S is dropped, and the write
leaves as it would have without it. -/
def writeAct (s : State) (i mode : Nat) (r : HlcReq) : State :=
  let k := lineKey r.group r.addr
  let o := r.addr % 64
  let n := r.piece
  match s.line? i k with
  | none => pieceDone s i r [] 3
  | some l =>
    if l.st == .s then
      let s := dropLine s i k
      if mode = 1 then
        let op := if r.full then 4 else 5
        let s := sendFor s i op k (.access r) (r.bytes.take n)
        s.updHlc i fun h => { h with txns := h.txns ++ [{ key := k, work := .access r, cxl := some ((cachePort s r.group).getD 0, op) }] }
      else plainPiece s i r
    else
      let d := l.data.take o ++ r.bytes.take n ++ l.data.drop (o + n)
      pieceDone (putLine s i k { l with st := .m, ring := false, owner := none, data := d, part := r.part, poison := l.poison && n != 64 }) i r [] 3

/-- The final act of an atomic (R273): in the cache for a two-way window, else as a PCIe AtomicOp once the line is evicted; on a poisoned
line it is a contained error of the job. -/
def atomicAct (s : State) (i mode : Nat) (r : HlcReq) (op w arg cmp : Nat) : State :=
  let k := lineKey r.group r.addr
  let o := r.addr % 64
  match s.line? i k with
  | some l =>
    if l.poison then reqFail s i r false
    else if mode = 2 then
      let old := leNat ((l.data.drop o).take w)
      let d := l.data.take o ++ leBytes w (atomicNew op w old arg cmp) ++ l.data.drop (o + w)
      let s := putLine s i k { l with st := .m, ring := false, owner := none, data := d, part := r.part }
      pieceDone s i { r with left := r.piece } (leBytes w old) 0
    else
      let x := atomicSend (evictNow s i k) i r mode
      if x.2 then x.1 else hlcBack x.1 i r
  | none =>
    if mode = 2 then reqFail s i r false
    else
      let x := atomicSend s i r mode
      if x.2 then x.1 else hlcBack x.1 i r

/-- The final act of an access on its line, once nothing it needs is missing (R266-R269, R273). -/
def hlcAct (s : State) (i mode : Nat) (r : HlcReq) : State :=
  let k := lineKey r.group r.addr
  match r.kind with
  | .write => writeAct s i mode r
  | .atomic op w arg cmp => atomicAct s i mode r op w arg cmp
  | kind =>
    match s.line? i k with
    | none => reqFail s i r false
    | some l =>
      let bs := (l.data.drop (r.addr % 64)).take r.piece
      if l.poison then reqFail s i r false
      else match kind, r.src, mode with
        | .readS, .station t _ _, 2 =>
          if l.owner == some t || (l.st != .s && !l.shared) then pieceDone (putLine s i k { l with owner := some t }) i r bs 2
          else pieceDone (putLine s i k { l with ring := true }) i r bs 1
        | .readO, .station t _ _, 2 =>
          pieceDone (putLine s i k { l with st := if l.st == .s then .e else l.st, owner := some t, ring := false, part := r.part }) i r bs 2
        | _, _, _ => pieceDone (putLine s i k l) i r bs 0

/-- The set of a line among 32,768 (DESIGN CHOICE, log entry 58). -/
def setOf (k : Nat) : Nat := k % 32768

/-- The lines an instance holds in the set of a key, and those its requests underway will fill there. -/
def setLoad (s : State) (i k : Nat) : Nat :=
  ((s.hl i).lines.filter fun e => setOf e.1 == setOf k).length +
  ((s.hl i).txns.filter fun t => (t.cxl.any fun c => c.2 ≤ 3) && setOf t.key == setOf k && (s.line? i t.key).isNone).length

/-- Whether a new line of a set needs the place of another (R265, R450). -/
def setFull (s : State) (i k : Nat) : Bool := 16 - banksLost s i 0 ≤ setLoad s i k

/-- The least recently used line of a set that is not busy (R265). -/
def victim (s : State) (i k : Nat) : Option Nat :=
  let mine := (s.hl i).lines.filter fun e => setOf e.1 == setOf k
  (mine.filter fun e => !lineBusy s i e.1).foldl (fun b e => match b with
    | none => some e.1
    | some v => if e.2.use < ((s.line? i v).map Line.use).getD 0 then some e.1 else some v) none

/-- Work that waits for a busy line (R269). -/
def hlcWait (s : State) (i k : Nat) (w : HWork) : State := s.updHlc i fun h => { h with wait := h.wait ++ [(k, w)] }

/-- A line made busy with a work and what it waits for. -/
def hlcBegin (s : State) (i k : Nat) (w : HWork) (ring cxl : Option Nat) (bs : List Byte) : State :=
  let x : State × Option Ring := match ring with
    | some op => let y := sendRing s i op k; (y.1, if y.2.sites.isEmpty then none else some y.2)
    | none => (s, none)
  let s := if ring.isSome && x.2.isNone then afterRing x.1 i k (ring.getD 2) else x.1
  let s := match cxl with
    | some op => sendFor s i op k w bs
    | none => s
  s.updHlc i fun h => { h with txns := h.txns ++ [{ key := k, work := w, ring := x.2, cxl := cxl.map fun op => ((cachePort s (keyGroup k)).getD 0, op) }] }

/-- An answer to a host snoop: 0 RspIHitI, 1 RspIHitSE, 2 RspIFwdM, 3 RspSHitSE, 4 RspSFwdM, 5 RspVHitV, 6 RspVFwdV (R271); it counts as one that
the instance has answered (R279). -/
def saySnoop (s : State) (i k p a : Nat) (bs : List Byte) (poison : Bool) : State :=
  cxlOut (s.bump (hlcR i 0x70) 1) i p (.snpRsp p a (keyAddr k) bs poison)

/-- The answer to a host snoop (R271): the line afterwards, the answer and the data, poisoned where the line is (R275). -/
def snoopAnswer (s : State) (i k p op : Nat) : State :=
  match s.line? i k with
  | none => saySnoop s i k p 0 [] false
  | some l =>
    let dirty := l.st == .m
    let say (s : State) (clean : Nat) : State :=
      if dirty then saySnoop s i k p (clean + 1) l.data l.poison else saySnoop s i k p clean [] false
    if op = 0 then say (dropLine s i k) 1
    else if op = 1 then say (putLine s i k { l with st := .s }) 3
    else say s 5

/-- The answer to a host snoop of a mirrored tag (R278): poisoned data for one in M, which is lost where it does not stay M (DEDUCED, log entry
146). SnpData leaves a tag in S (R271). -/
def tagAnswer (s : State) (i k p op : Nat) (t : LineSt) : State :=
  let s := s.updHlc i fun h => { h with ptags := if op = 0 then Tbl.del h.ptags k else if op = 1 then Tbl.put h.ptags k .s else h.ptags }
  let clean := 2 * op + 1
  if t == .m then
    let s := if op = 2 then s else (newPoison s i k 3).bump (hlcR i 0x88) 1
    saySnoop s i k p (clean + 1) (List.replicate 64 0) true
  else saySnoop s i k p clean [] false

/-- The ring snoop a host snoop of a line needs (R271). -/
def snoopRing (l : Line) (op : Nat) : Bool := if op = 0 then l.shared || l.st == .m else l.owner.isSome

/-- A host snoop of a line of the serving instance (R271): answered, after a ring snoop where one is needed; it waits while an earlier one of the
line runs, or where 64 are in flight (R270). -/
def hostSnoop (s : State) (i k p op : Nat) : State :=
  if (s.hl i).txns.any fun t => t.key == k && t.ring.isSome then hlcWait s i k (.snoop p op)
  else
    match s.line? i k, Tbl.find (s.hl i).ptags k with
    | none, some t => tagAnswer s i k p op t
    | none, none => snoopAnswer s i k p op
    | some l, _ =>
      if snoopRing l op then
        if 64 ≤ ringsUp s i then hlcWait s i k (.snoop p op)
        else
          let x := sendRing s i op k
          if x.2.sites.isEmpty then snoopAnswer (afterRing x.1 i k op) i k p op
          else x.1.updHlc i fun h => { h with txns := h.txns ++ [{ key := k, work := .snoop p op, ring := some x.2 }] }
      else snoopAnswer s i k p op

/-- A line to be evicted with what it holds (R269, R450): it waits while it is busy or 64 ring snoops are in flight. -/
def evictLine (s : State) (i k : Nat) : State :=
  match s.line? i k with
  | none => s
  | some l =>
    if lineBusy s i k then hlcWait s i k .evict
    else if !l.shared then evictNow s i k
    else if 64 ≤ ringsUp s i then hlcWait s i k .evict
    else
      let x := sendRing s i 0 k
      if x.2.sites.isEmpty then evictNow (afterRing x.1 i k 0) i k
      else x.1.updHlc i fun h => { h with txns := h.txns ++ [{ key := k, work := .evict, ring := some x.2 }] }

/-- Work that waited for a line taken up again: an access goes to the front of the queue. -/
def hlcAgain (s : State) (i k : Nat) (w : HWork) : State :=
  match w with
  | .access r => hlcBack s i r
  | .snoop p op => hostSnoop s i k p op
  | .evict => evictLine s i k
  | .flush => s

/-- A line is no longer busy: accesses that waited for it go to the front of the queue in their order, host snoops and evictions go on. -/
def hlcFree (s : State) (i k : Nat) : State :=
  let mine := ((s.hl i).wait.filter fun e => e.1 == k).map Prod.snd
  let s := s.updHlc i fun h => { h with wait := h.wait.filter fun e => e.1 != k }
  let rs := mine.filterMap fun w => match w with | .access r => some r | _ => none
  let s := s.updHlc i fun h => { h with queue := rs ++ h.queue }
  mine.foldl (fun s w => match w with | .access _ => s | w => hlcAgain s i k w) s

/-- A ring snoop has ended, so that one more may be sent (R270): an SNP_INV_ALL that is due, else the oldest work that waits for a line that is
not busy. -/
def ringRoom (s : State) (i : Nat) : State :=
  match (s.hl i).due with
  | r :: rest => ringAll (s.updHlc i fun h => { h with due := rest }) i r
  | [] =>
    match (s.hl i).wait.find? fun e => !lineBusy s i e.1 with
    | some e => hlcAgain (s.updHlc i fun h => { h with wait := h.wait.erase e }) i e.1 e.2
    | none => s

/-- A busy line has all it waited for: its work is done and the line is free. -/
def hlcFinish (s : State) (i : Nat) (t : HTxn) : State :=
  let s := s.updHlc i fun h => { h with txns := h.txns.filter (· != t) }
  let s := match t.work with
    | .access r => hlcAct s i (winMode s i r) r
    | .snoop p op => snoopAnswer s i t.key p op
    | .evict => evictNow s i t.key
    | .flush => s
  if lineBusy s i t.key then s else hlcFree s i t.key

/-- The busy lines of a key that wait for nothing any more finish. -/
def hlcSettle (s : State) (i k : Nat) : State :=
  match (s.hl i).txns.find? fun t => t.key == k && t.ring.isNone && t.cxl.isNone && !t.plain with
  | some t => hlcFinish s i t
  | none => s

/-- The lines of what is left of a request. -/
def HlcReq.keys (r : HlcReq) : List Nat :=
  (List.range ((r.addr % 64 + r.left + 63) / 64)).map fun n => lineKey r.group (alignDown r.addr 64 + 64 * n)

/-- Why a station's atomic is refused (R303, R306), if it is: an operation R258 does not give, then a misaligned operand. -/
def atomicRefused (mode : Nat) (r : HlcReq) : Option Nat :=
  match r.kind with
  | .atomic op w _ _ => if !atomicOk mode op w then some 6 else if !aligned r.addr w then some 7 else none
  | _ => none

/-- Whether an access needs no line: nothing of its line is held and its window is not coherent. An atomic then goes to the host at once. -/
def plainReq (mode : Nat) (l : Option Line) (r : HlcReq) : Bool :=
  mode = 0 && l.isNone && (match r.kind with | .atomic _ _ _ _ => false | _ => true)

/-- A coherent access, or one that hits: what it needs is asked for; a line that is to be filled may need the place of another (R265-R269). -/
def lineServe (s : State) (i mode : Nat) (r : HlcReq) : State :=
  let k := lineKey r.group r.addr
  match hlcNeeds mode (s.line? i k) r with
  | (none, none) => hlcAct s i mode r
  | (ring, cxl) =>
    let fills := (cxl.any fun op => op ≤ 3) && (s.line? i k).isNone
    if ring.isSome && 64 ≤ ringsUp s i then hlcBack s i r
    else if fills && setFull s i k then
      match victim s i k with
      | none => hlcBack s i r
      | some v =>
        if ((s.line? i v).map Line.shared).getD false then
          if 64 ≤ ringsUp s i then hlcBack s i r else evictLine (hlcWait s i v (.access r)) i v
        else hlcSettle (hlcBegin (evictNow s i v) i k (.access r) ring cxl []) i k
    else
      let out := cxl == some 4 || cxl == some 5
      let s := if out then dropLine s i k else s
      hlcSettle (hlcBegin s i k (.access r) ring cxl (if out then r.bytes.take r.piece else [])) i k

/-- The front request of the queue served as far as it can go now (R266-R269): probe, ring snoop, CXL.cache request, plain request. Without
coh_en no line is probed (R263). -/
def hlcServe (s : State) (i : Nat) (r : HlcReq) : State :=
  let k := lineKey r.group r.addr
  let mode := winMode s i r
  if absent s r.group then reqFail s i r true
  else if lineBusy s i k then hlcWait s i k (.access r)
  else
    match atomicRefused mode r with
    | some code => stFails s r code
    | none =>
      let l := s.line? i k
      let whole := r.got.isEmpty && fitsPort s i r && r.keys.all fun key => (s.line? i key).isNone && !lineBusy s i key
      let count (s : State) (n : Nat) : State := if cohEn s i r.group then s.bump (hlcR i (if l.isSome then 0x60 else 0x68)) n else s
      if plainReq mode l r then
        if whole then
          let x := plainSend s i r true
          if x.2 then count x.1 r.keys.length else hlcBack x.1 i r
        else if (reqPort s i r).2.isNone then hlcBack s i r
        else plainPiece (count s 1) i r
      else lineServe (count s 1) i mode r

/-! ### Station requests (R202, R214, R222, R267, R302) -/

/-- A station's host request that waits for its translation, or while a commit holds the host-line cache (R69). -/
def stPark (s : State) (i : Nat) (q : StWait) : State := s.updHlc i fun h => { h with stWait := h.stWait ++ [q] }

/-- A station's host request translated through its window and served (R202, R267): a miss waits in the ATU like any other; a missing right or a
translation that fails is a contained error (R222), the codes those of log entry 140. -/
def stGo (s : State) (h p : Nat) (q : StWait) (w : Bool) : State :=
  let i := carrier s h
  let answer (s : State) (n : Nat) : State := s.emit (.stationErr q.site q.tag n)
  match xlateAt s ⟨h, p, 0, pasidOf s h (q.ctag % 4096)⟩ 0 q.addr (!w) w with
  | (s, .fail n) => answer s (if n = 4 then 9 else 3)
  | (s, .right _ _ _) => answer s 9
  | (s, .miss key iova) =>
    addMiss (stPark s i q) h { who := .station q.site q.tag, key, iova, sp := 0, addr := q.addr, needR := !w, needW := w, data := false, part := p }
  | (s, .unit u) =>
    hlcServe s i { unit := some u, src := .station q.site q.slot q.tag, kind := q.kind, group := u.hostGroup, addr := u.tbase + (q.addr - u.base), left := q.len, bytes := q.bytes,
                   mode := u.mode, part := p }

/-- A station's host request arrives at the host-line cache of its partition's home (R214, R267, R302): GLOBAL_UNMAPPED without an entry of the
site's table, WRITE_DENIED without the right. -/
def stRequest (s : State) (q : StWait) : State :=
  let answer (s : State) (n : Nat) : State := s.emit (.stationErr q.site q.tag n)
  match partAt s q.site with
  | none => answer s 3
  | some (h, p) =>
    let w := match q.kind with | .read => false | .readS => false | _ => true
    match (Tbl.getD s.spt q.site []).find? fun e => e.part == p && e.base ≤ q.addr && q.addr + q.len ≤ e.base + e.size with
    | none => answer s 3
    | some e =>
      if e.kind != .host && e.kind != .hlc then answer s 3
      else if (w && !e.wr) || (!w && !e.rd) then answer s 9
      else if fnHeld s h .hlc then stPark s (carrier s h) q
      else stGo s h p q w

/-- Whether a station's request that waits may go on: its translation has come, or has failed. -/
def stReady (s : State) (q : StWait) : Bool :=
  q.code.isSome || match partAt s q.site with
    | some (h, _) => !(s.atu.get h).misses.any (fun m => m.who == .station q.site q.tag) && !fnHeld s h .hlc
    | none => true

/-- A station's request that waited goes on. -/
def stResume (s : State) (i : Nat) (q : StWait) : State :=
  let s := s.updHlc i fun h => { h with stWait := h.stWait.erase q }
  match q.code with
  | some n => s.emit (.stationErr q.site q.tag n)
  | none => stRequest s q

/-! ### Commands -/

/-- What a station's request asks of the cache (R302, R303): none for an invalid code, and for an atomic of scope 0 or of an invalid scope. -/
def stAsk (q : StReq) : Option (HKind × Nat × List Byte) :=
  match q.op with
  | .rd n => some (.read, n, [])
  | .wr bs => some (.write, bs.length, bs)
  | .atomic op w a c =>
    if q.scope.val = 0 || 4 < q.scope.val then none
    else some (.atomic op.val (4 * 2 ^ w.val) a.toNat c.toNat, 4 * 2 ^ w.val, [])
  | .invalid _ => none

/-- HLC_ACCESS (R266): the front request of the queue is served, a station's that waited for its translation first; or, with `st`, a station's
read, write or atomic arrives. -/
def execHlcAccess (i : Inst) (st : Option StReq) (s : State) : Host.Outcome State Fault Refusal :=
  match st with
  | some q =>
    live s fun s =>
      match stAsk q with
      | none => s.emit (.stationErr q.site.val q.tag.toNat 6)
      | some (kind, len, bytes) => stRequest s { site := q.site.val, slot := q.slot.toNat, tag := q.tag.toNat, ctag := q.ctag.toNat, addr := q.addr.toNat, len, kind, bytes }
  | none =>
    live s fun s =>
      if !alive s i.val || fnHeld s i.val .hlc then s
      else match (s.hl i.val).stWait.find? (stReady s) with
        | some q => stResume s i.val q
        | none => match (s.hl i.val).queue with
          | r :: rest => hlcServe (s.updHlc i.val fun h => { h with queue := rest }) i.val r
          | [] => s

/-- A station's cache request of the line that holds an address. -/
def stLine (k slot tag ctag addr : Nat) (kind : HKind) : StWait :=
  { site := k, slot, tag, ctag, addr := alignDown addr 64, len := 64, kind }

/-- STATION_READ (R269): RD_S of the line that holds an address. Scope and order of its attribute field, bits [30:26] (R302), change nothing of it. -/
def execStationRead (k : Site) (slot : BitVec 6) (tag ctag : BitVec 16) (addr : W64) (_so : BitVec 5) (s : State) :
    Host.Outcome State Fault Refusal :=
  live s fun s => stRequest s (stLine k.val slot.toNat tag.toNat ctag.toNat addr.toNat .readS)

/-- STATION_OWN (R269): RD_O of the line that holds an address. Scope and order of its attribute field, bits [30:26] (R302), change nothing of it. -/
def execStationOwn (k : Site) (slot : BitVec 6) (tag ctag : BitVec 16) (addr : W64) (_so : BitVec 5) (s : State) :
    Host.Outcome State Fault Refusal :=
  live s fun s => stRequest s (stLine k.val slot.toNat tag.toNat ctag.toNat addr.toNat .readO)

/-- The instance that serves a group's coherent lines (R263). -/
def lineServer (s : State) (g : Nat) : Option Nat := [0, 1].find? fun i => cohEn s i g && alive s i

/-- Dirty data of a station enters the cache of an understudy as a good M line and replaces the mirrored tag (R278); where the set has no place
that can be freed at once, it is written back to the host at once (DESIGN CHOICE, log entry 147). -/
def enterLine (s : State) (i k part : Nat) (data : List Byte) : State :=
  let s := s.updHlc i fun h => { h with ptags := Tbl.del h.ptags k }
  let put (s : State) : State := putLine s i k { st := .m, data, part }
  if (s.line? i k).isSome || !setFull s i k then put s
  else match (victim s i k).filter fun v => !((s.line? i v).map Line.shared).getD true with
    | some v => put (evictNow s i v)
    | none => sendCxl s i 8 k data false

/-- WB_DIRTY (R302, R304, R313): the line takes the station's data; a snoop underway that crosses it takes it as the owner's answer. -/
def execWbDirty (k : Site) (g : Group) (x : LineAttr) (data : List Byte) (s : State) : Host.Outcome State Fault Refusal :=
  live s fun s =>
    match lineServer s g.val with
    | none => s
    | some i =>
      let key := lineKey g.val x.hpa.toNat
      match s.line? i key with
      | some l => if l.owner == some k.val && data.length = 64 then putLine s i key { l with st := .m, owner := none, data } else s
      | none =>
        if data.length = 64 && (Tbl.find (s.hl i).ptags key).isSome && !bitAt (s.r (hlcR i 0x5C)) k.val then
          enterLine s i key ((partAt s k.val).map Prod.snd |>.getD 0) data
        else s

/-- EVICT_CLEAN (R304): the line has no owner any more. -/
def execEvictClean (k : Site) (g : Group) (x : LineAttr) (s : State) : Host.Outcome State Fault Refusal :=
  live s fun s =>
    match lineServer s g.val with
    | none => s
    | some i =>
      let key := lineKey g.val x.hpa.toNat
      match s.line? i key with
      | some l => if l.owner == some k.val then putLine s i key { l with owner := none } else s
      | none => s

/-- The instance and busy line of a key that waits for a GO of the host. -/
def goTxn (s : State) (k : Nat) : Option (Nat × HTxn) :=
  [0, 1].findSome? fun i => if !alive s i then none else ((s.hl i).txns.find? fun t => t.key == k && t.cxl.isSome).map fun t => (i, t)

/-- A line filled for a group whose coh_en has been cleared meanwhile (R263): no longer kept (DEDUCED, log entry 148). -/
def dropStray (s : State) (i k : Nat) : State := if cohEn s i (keyGroup k) then s else evictLine s i k

/-- CXL_GO (R268, R269): the GO of a line's request: it is filled in the state granted, or the write is done. Data that the host
sends poisoned poisons the line (R275). -/
def execCxlGo (g : Group) (hpa : W64) (shared : Bool) (data : List Byte) (poison : Bool) (s : State) : Host.Outcome State Fault Refusal :=
  live s fun s =>
    let k := lineKey g.val hpa.toNat
    match goTxn s k with
    | none => s
    | some (i, t) =>
      let op := (t.cxl.map Prod.snd).getD 0
      let old := (s.line? i k).getD { st := .e }
      if op < 3 && data.length != 64 then s
      else
        let s :=
          if op < 2 then putLine s i k { old with st := if shared then .s else .e, data, poison }
          else if op = 2 then putLine s i k { old with st := .e, data, poison }
          else if op = 3 then putLine s i k { old with st := .e, data := List.replicate 64 0, poison := false }
          else dropLine s i k
        let s := if op < 3 && poison then newPoison s i k 4 else s
        let clr (x : HTxn) : HTxn := if x == t then { x with cxl := none } else x
        dropStray (hlcSettle (s.updHlc i fun h => { h with txns := h.txns.map clr }) i k) i k

/-- A host snoop reaches both instances (R271, R34): the serving one answers on the group's cache port; the other's RspIHitI goes no further
than the HPC, which sends it where none serves. -/
def anySnoop (s : State) (p hpa op : Nat) : State :=
  let g := groupOf s p
  let k := lineKey g hpa
  let miss (i : Nat) (s : State) : State := if alive s i then s.bump (hlcR i 0x70) 1 else s
  match (lineServer s g).filter fun _ => cachePort s g == some p with
  | some i => hostSnoop (miss (partner i) s) i k p op
  | none => (miss 1 (miss 0 s)).emit (.snpRsp p 0 (keyAddr k) [] false)

/-- SNP_INV (R271). -/
def execSnpInv (p : Port) (hpa : W64) (s : State) : Host.Outcome State Fault Refusal := live s fun s => anySnoop s p.val hpa.toNat 0

/-- SNP_DATA (R271). -/
def execSnpData (p : Port) (hpa : W64) (s : State) : Host.Outcome State Fault Refusal := live s fun s => anySnoop s p.val hpa.toNat 1

/-- SNP_CUR (R271). -/
def execSnpCur (p : Port) (hpa : W64) (s : State) : Host.Outcome State Fault Refusal := live s fun s => anySnoop s p.val hpa.toNat 2

/-- A site has answered a line's ring snoop for good. -/
def ringAnswered (s : State) (i site : Nat) (t : HTxn) (rg : Ring) : State :=
  let left := rg.sites.filter (· != site)
  let r' : Option Ring := if left.isEmpty then none else some { rg with sites := left }
  let set (x : HTxn) : HTxn := if x == t then { x with ring := r' } else x
  let s := s.updHlc i fun h => { h with txns := h.txns.map set }
  if left.isEmpty then ringRoom (hlcSettle (afterRing s i t.key rg.op) i t.key) i else s

/-- A site has answered an SNP_INV_ALL for good; the end of one before a planned switch is noted (R277). -/
def allAnswered (s : State) (i site : Nat) (rg : Ring) : State :=
  let left := rg.sites.filter (· != site)
  if left.isEmpty then
    let s := if rg.op = 5 then { s with mir := s.mir.upd i fun m => { m with swept := true } } else s
    ringRoom (s.updHlc i fun h => { h with all := h.all.filter (· != rg) }) i
  else s.updHlc i fun h => { h with all := h.all.map fun x => if x == rg then { x with sites := left } else x }

/-- A dirty line of a lost cache port (R277): counted. -/
def countLost (s : State) (i : Nat) : State := (s.bump (hlcR i 0x88) 1).irq (hlcPage i) 17

/-- Dirty data that a station returns to the SNP_INV_ALL of a lost cache port (R277): a line of the lost group counts once, with one UCE-C
for each partition; a line of another group takes the data. -/
def lostData (s : State) (i : Nat) (rg : Ring) (k part : Nat) (data : List Byte) : State :=
  if keyGroup k != rg.group then
    match s.line? i k with
    | some l => putLine s i k { l with st := .m, owner := none, data }
    | none => s
  else
    let s := if rg.lines.contains k then s else countLost s i
    let s := if rg.parts.contains part then s else contained s i 3 0 part
    let r' : Ring := { rg with lines := (k :: rg.lines).eraseDups, parts := (part :: rg.parts).eraseDups }
    s.updHlc i fun h => { h with all := h.all.map fun x => if x == rg then r' else x }

/-- PARTNER_TAG_EVICT (R278): once every site taken over has moved and the takeover's SNP_INV_ALL has ended, the next remaining tag is evicted, a
dirty one as poison. -/
def evictTag (s : State) (i : Nat) : State :=
  if (((s.hl i).all ++ (s.hl i).due).any fun r => r.op == 4) || (List.range 12).any fun k => (s.site k).taking == some i then s
  else match (s.hl i).ptags with
    | [] => s
    | e :: r =>
      let s := s.updHlc i fun h => { h with ptags := r }
      match e.2 with
      | .m => (newPoison (sendCxl s i 8 e.1 (List.replicate 64 0) true) i e.1 3).bump (hlcR i 0x88) 1
      | .e => sendCxl s i 7 e.1 [] false
      | .s => sendCxl s i 6 e.1 [] false

/-- PARTNER_TAG_EVICT (R278). -/
def execPartnerTagEvict (i : Inst) (s : State) : Host.Outcome State Fault Refusal := live s fun s => if alive s i.val then evictTag s i.val else s

/-- Dirty data that a station returns to an SNP_INV_ALL: lost with a cache port (R277), a good line of an understudy (R278), merged before a
planned switch (R277). -/
def allData (s : State) (i site : Nat) (rg : Ring) (k : Nat) (data : List Byte) : State :=
  let part := ((partAt s site).map Prod.snd).getD 0
  if data.length != 64 then s
  else if rg.op = 3 then lostData s i rg k part data
  else if rg.op = 4 then enterLine s i k part data
  else match s.line? i k with
    | some l => putLine s i k { l with st := .m, owner := none, data }
    | none => s

/-- A station's answer to a ring snoop (R304): dirty data is merged; an answer of op 3 ends an SNP_INV_ALL. -/
def snpRsp (s : State) (site tag op g hpa : Nat) (data : List Byte) : State :=
  let i := owner s site
  match (s.hl i).all.find? fun r => r.tag == tag && r.sites.contains site with
  | some rg => if op = 2 then allData s i site rg (lineKey g hpa) data else if op = 3 then allAnswered s i site rg else s
  | none =>
    match (s.hl i).txns.findSome? fun t => match t.ring with
      | some rg => if rg.tag == tag && rg.sites.contains site then some (t, rg) else none
      | none => none with
    | none => s
    | some (t, rg) =>
      let s := match s.line? i t.key with
        | some l => if op = 2 && data.length = 64 then putLine s i t.key { l with st := .m, data, part := ((partAt s site).map Prod.snd).getD l.part } else s
        | none => s
      ringAnswered s i site t rg

/-- Whether a busy line holds the write of a command that commits, and waits for the data of a dead site (R277). -/
def commitWaits (s : State) (i k : Nat) (t : HTxn) : Bool :=
  ((s.line? i t.key).bind Line.owner) == some k &&
  (match t.work with
   | .access r => r.writes && (match r.src with
      | .station k' slot _ => k' != k && (cmdAt s k' slot).any fun c => c.2.2.st == .committing
      | _ => false)
   | _ => false)

/-- A ring snoop that waits for a dead site goes on (R274); the write of a command that commits on another site ends in a contained error of
its job (R277). -/
def deadAnswers (s : State) (i k : Nat) (t : HTxn) (rg : Ring) : State :=
  if commitWaits s i k t then
    let t' : HTxn := { t with work := .flush }
    let s := s.updHlc i fun h => { h with txns := h.txns.map fun x => if x == t then t' else x }
    ringAnswered (match t.work with | .access r => reqFail s i r false | _ => s) i k t' rg
  else ringAnswered s i k t rg

/-- A site is dead (R274): its bit is set, its copies count as dropped, the ring snoops that wait for it go on. -/
def siteDead (s : State) (k : Nat) : State :=
  let i := owner s k
  let s := s.orR (hlcR i 0x5C) (2 ^ k)
  let rest (r : Ring) : Ring := { r with sites := r.sites.filter (· != k) }
  let s := s.updHlc i fun h => { h with due := (h.due.map rest).filter fun r => !r.sites.isEmpty }
  let s := ((s.hl i).all.filter fun r => r.sites.contains k).foldl (fun s r => allAnswered s i k r) s
  ((s.hl i).txns.filterMap fun t => match t.ring with
    | some rg => if rg.sites.contains k then some (t, rg) else none
    | none => none).foldl (fun s e => deadAnswers s i k e.1 e.2) s

/-- Whether HLC.GROUP_CFG refuses a value (R263): a bit would be set beside the partner's, or cleared while a line of the group is held. -/
def groupCfgBad (s : State) (i v : Nat) : Bool :=
  let old := s.r (hlcR i 0x40)
  let new := v % 16
  (List.range 4).any fun g =>
    (bitAt new g && !bitAt old g && cohEn s (partner i) g) ||
    (!bitAt new g && bitAt old g && (s.hl i).lines.any fun e => keyGroup e.1 == g)

/-- HLC.GROUP_CFG taken (R263): refused where a bit would be set beside the partner's, or cleared while a line of the group is held. -/
def setGroupCfg (s : State) (i v : Nat) : State :=
  if groupCfgBad s i v then s.perr (hlcPage i) 16 else s.setR (hlcR i 0x40) (v % 16)

/-- GROUP_CFG_WRITE (R263). -/
def execGroupCfgWrite (i : Inst) (a : Acc) (v : W32) (s : State) : Host.Outcome State Fault Refusal :=
  cmdD s i a (hlcPage i.val) (.groupCfgWrite i a v) (fun s => groupCfgBad s (carrier s i.val) v.toNat) fun s => setGroupCfg s (carrier s i.val) v.toNat

/-- Owned lines of a group snooped for a CLEAN or DROP, as many as may be in flight (R270, R279). -/
def flushRing (s : State) (i g op : Nat) (w : HWork) : State :=
  let ks := (s.hl i).lines.filterMap fun e =>
    if keyGroup e.1 == g && (if op = 1 then e.2.owner.isSome else e.2.shared) && !lineBusy s i e.1 then some e.1 else none
  (ks.take (64 - ringsUp s i)).foldl (fun s k => hlcSettle (hlcBegin s i k w (some op) none []) i k) s

/-- Whether a FLUSH_CMD is in progress (R279). -/
def hlcBusy (s : State) (i : Nat) : Bool := s.fld (hlcR i 0x50) 0 1 = 1

/-- A FLUSH_CMD accepted or refused (R279). -/
def hlcFlush (s : State) (i op g : Nat) : State :=
  let r := hlcR i 0x50
  if hlcBusy s i then s.perr (hlcPage i) 17
  else if op = 0 || op = 3 then s.setR r (0x14 * 256)
  else if !cohEn s i g then s.setR r (0x10 * 256)
  else flushRing ((s.setR r 1).updHlc i fun h => { h with flush := some (op, g) }) i g 1 .flush

/-- CLEAN (R279). -/
def execClean (i : Inst) (a : Acc) (g : Group) (s : State) : Host.Outcome State Fault Refusal :=
  cmdD s i a (hlcPage i.val) (.clean i a g) (fun s => hlcBusy s (carrier s i.val)) fun s => hlcFlush s (carrier s i.val) 1 g.val

/-- DROP (R279). -/
def execDrop (i : Inst) (a : Acc) (g : Group) (s : State) : Host.Outcome State Fault Refusal :=
  cmdD s i a (hlcPage i.val) (.drop i a g) (fun s => hlcBusy s (carrier s i.val)) fun s => hlcFlush s (carrier s i.val) 2 g.val

/-- Every M line of a group without an owner written back: it becomes E (R279). -/
def writeBack (s : State) (i g : Nat) : State :=
  let ks := (s.hl i).lines.filter fun e => keyGroup e.1 == g && e.2.st == .m && e.2.owner.isNone && !lineBusy s i e.1
  ks.foldl (fun s e => putLine (sendCxl s i 9 e.1 e.2.data e.2.poison) i e.1 { e.2 with st := .e }) s

/-- HLC_FLUSH_DONE (R279): once no owner is left to snoop, the M lines of the group are written back; a DROP then evicts every
line. The command ends when nothing is left to do; until then a call goes on with the ring snoops that are due. -/
def flushStep (s : State) (i : Nat) : State :=
  match (s.hl i).flush with
  | none => s
  | some (op, g) =>
    let owned := (s.hl i).lines.any fun e => keyGroup e.1 == g && e.2.owner.isSome
    let busy (w : HWork) : Bool := (s.hl i).txns.any fun t => keyGroup t.key == g && t.work == w
    if owned || busy .flush then flushRing s i g 1 .flush
    else
      let s := writeBack s i g
      let s :=
        if op = 2 then
          let ks := ((s.hl i).lines.filter fun e => keyGroup e.1 == g && !e.2.shared && !lineBusy s i e.1).map Prod.fst
          flushRing (ks.foldl (fun s k => evictNow s i k) s) i g 0 .evict
        else s
      let left := (s.hl i).lines.any fun e => keyGroup e.1 == g && (op == 2 || e.2.st == .m)
      if left then s
      else (((s.updHlc i fun h => { h with flush := none }).setR (hlcR i 0x50) 0x100).irq (hlcPage i) 18)

/-- HLC_FLUSH_DONE (R279). -/
def execHlcFlushDone (i : Inst) (s : State) : Host.Outcome State Fault Refusal := live s fun s => if alive s i.val then flushStep s i.val else s

/-- DEAD_SITE_READMIT (R274): HLC.DEAD_SITES, W1C. -/
def execDeadSiteReadmit (i : Inst) (a : Acc) (k : Site) (s : State) : Host.Outcome State Fault Refusal :=
  cmdI s i a (hlcPage i.val) (.deadSiteReadmit i a k) fun s => s.setFld (hlcR (carrier s i.val) 0x5C) k.val 1 0

/-- Every line of a group is lost with its cache port (R277): SNP_INV_ALL on the ring; lines in M count at once, those of an owner that
answers with dirty data when it does; one UCE-C for each partition. Mirrored tags of a takeover go with them. Accesses under way are served anew (DEDUCED, log entry 149). -/
def linesLost (s : State) (i g : Nat) : State :=
  let mine := (s.hl i).lines.filter fun e => keyGroup e.1 == g
  let txns := (s.hl i).txns.filter fun t => keyGroup t.key == g && !t.plain
  let tags := (s.hl i).ptags.filter fun e => keyGroup e.1 == g
  let s := (tags.filter fun e => e.2 == .m).foldl (fun s _ => countLost s i) (s.updHlc i fun h => { h with ptags := h.ptags.filter fun e => keyGroup e.1 != g })
  if mine.isEmpty && txns.isEmpty then s
  else
    let dirty := mine.filter fun e => e.2.st == .m
    let ps := (dirty.map fun e => e.2.part).eraseDups
    let s := dirty.foldl (fun s _ => countLost s i) s
    let s := ps.foldl (fun s p => contained s i 3 0 p) s
    let again (w : HWork) : List HlcReq := match w with | .access r => [r] | _ => []
    let rs := (txns.flatMap fun t => again t.work) ++ ((s.hl i).wait.filter fun w => keyGroup w.1 == g && !lineBusy s i w.1 || txns.any fun t => t.key == w.1).flatMap fun w => again w.2
    let flushed := (s.hl i).flush.any fun f => f.2 == g
    let s := s.updHlc i fun h =>
      { h with lines := h.lines.filter fun e => keyGroup e.1 != g, txns := h.txns.filter fun t => keyGroup t.key != g || t.plain,
               wait := h.wait.filter fun w => keyGroup w.1 != g || h.txns.any fun t => t.plain && t.key == w.1,
               queue := rs ++ h.queue, txWait := h.txWait.filter fun e => groupOf s e.1 != g,
               flush := match h.flush with | some (op, f) => if f == g then none else some (op, f) | none => none }
    let s := ringAll s i { op := 3, tag := 0, sites := ringSites s i, group := g, lines := dirty.map Prod.fst, parts := ps }
    if flushed then (s.setR (hlcR i 0x50) 0x100).irq (hlcPage i) 18 else s

/-! ### Host completions (R151, R153) -/

/-- The busy line whose plain request has ended goes on with the data, or its access fails. -/
def linePlain (s : State) (i k : Nat) (data : List Byte) (st : Rsp) : State :=
  match (s.hl i).txns.find? fun t => t.key == k && t.plain with
  | none => s
  | some t =>
    let s := s.updHlc i fun h => { h with txns := h.txns.filter (· != t) }
    let s := match t.work with
      | .access r => if st == .ok then pieceDone s i r data (if r.writes then 3 else 0) else reqFail s i r false
      | _ => s
    hlcFree s i k

/-- A host completion that goes to no one: an instance that is not at work, a descriptor read, whose data comes by DESCRIPTOR_READ_RETURN (log
entry 150), or data of another length than was asked for. -/
def cplLost (s : State) (i : Nat) (u : RUse) (data : List Byte) (st : Rsp) : Bool :=
  !alive s i || (match u.owner with | .desc _ _ _ => true | _ => false) || (st == .ok && data.length != u.len)

/-- HOST_COMPLETION (R151): the completion of the host read that a tag on port `p` names, bit 9 of it the instance (R34, R74); a success ends a
run of completion timeouts (R84). A flushing read that completes also serves a REATTACH copy (R94) and station commands (R267). -/
def hostCompletion (s : State) (p tag : Nat) (data : List Byte) (st : Rsp) : State :=
  match readByTag s p tag with
  | none => s
  | some (i, t, u) =>
    if cplLost s i u data st then s
    else
      let s := if st == .ok then s.updGroup (groupOf s p) fun g => { g with cto := 0 } else s
      let s := match u.owner with
        | .flush id =>
          let fix (c : CopySt) : CopySt := { c with ports := dropFlushed c.ports p id }
          cmdsFlushed { s with copy := s.copy.map fix } i p id
        | _ => s
      let s := readEnd s i t u data st
      match u.owner with
      | .line k => linePlain s i k data st
      | _ => s

/-- HOST_COMPLETION (R151); its tag is `th` over `tl`, bits [13:10] and [9:0]. -/
def execHostCompletion (p : Port) (th : BitVec 4) (tl : BitVec 10) (data : List Byte) (st : Rsp) (s : State) :
    Host.Outcome State Fault Refusal :=
  live s fun s => hostCompletion s p.val (th ++ tl).toNat data st

/-- HOST_WRITE_ACK (R153): a host write has landed; nothing is delivered to a fenced instance (R440). -/
def execHostWriteAck (i : Inst) (slot : BitVec 14) (s : State) : Host.Outcome State Fault Refusal :=
  live s fun s =>
    match Tbl.find (s.pool i.val).writes slot.toNat with
    | some w =>
      if !alive s i.val || w.port.isNone then s
      else
        let s := landed s i.val slot.toNat
        match w.owner with
        | .line k => linePlain s i.val k [] .ok
        | .station k _ tag => s.emit (.stationRsp k tag 3 [])
        | _ => s
    | none => s

end Sys2Proof.Machine
end

