-- ==== Sys2Proof/Machine/Serve.lean ====
section
/-! DEFINITION. What the ensemble composer does to sequences, pools and steps (R350-R371): blocks and tables, the end of a
sequence, the end of a step. -/
namespace Sys2Proof.Machine

/-- A register of the ENS page. -/
def ensR (i off : Nat) : Nat := reg .ens i 0 off

/-- The ENS page. -/
def ensPage (i : Nat) : PageId := ⟨.ens, i, 0⟩

/-- A register of the KVA page. -/
def kvaR (i off : Nat) : Nat := reg .kva i 0 off

/-- The KVA page. -/
def kvaPage (i : Nat) : PageId := ⟨.kva, i, 0⟩

/-- The composer of an instance. -/
def State.en (s : State) (i : Nat) : Ens := s.ens.get i

/-- The state with a composer changed. -/
def State.updEns (s : State) (i : Nat) (f : Ens → Ens) : State := { s with ens := s.ens.upd i f }

/-- The ensemble of a partition. -/
def State.ensemble (s : State) (i p : Nat) : EnsRec := Tbl.getD (s.en i).recs p {}

/-- The state with an ensemble changed. -/
def State.updEnsemble (s : State) (i p : Nat) (f : EnsRec → EnsRec) : State := s.updEns i fun e => { e with recs := Tbl.upd e.recs p {} f }

/-- A field of a configuration register of an ensemble (R372). -/
def ensF (s : State) (i p off lo w : Nat) : Nat := s.fld (ensR i (off + 0x40 * p)) lo w

/-- The number of the pool an ensemble uses. -/
def poolNo (s : State) (i p : Nat) : Nat := ensF s i p 0x400 0 4

/-- A pool that exists. -/
def pool? (s : State) (i n : Nat) : Option PoolRec := Tbl.find (s.en i).pools n

/-- The state with a pool changed, if it exists. -/
def updPoolRec (s : State) (i n : Nat) (f : PoolRec → PoolRec) : State :=
  match pool? s i n with
  | some x => s.updEns i fun e => { e with pools := Tbl.put e.pools n (f x) }
  | none => s

/-- Free blocks of a pool. -/
def PoolRec.free (p : PoolRec) : Nat := p.freed.length + (p.blocks - p.next)

/-- Free block tables of a pool. -/
def PoolRec.tablesFree (p : PoolRec) : Nat := p.tfreed.length + (2 ^ p.tabLog2 - p.tnext)

/-- k: KV bytes per token (R355). -/
def PoolRec.perToken (p : PoolRec) : Nat := 2 ^ p.log2 / max 1 p.btoks

/-- Blocks that hold `n` tokens. -/
def PoolRec.need (p : PoolRec) (n : Nat) : Nat := (n + max 1 p.btoks - 1) / max 1 p.btoks

/-- `n` blocks off the stack (R357). -/
def PoolRec.take : Nat → PoolRec → PoolRec × List Nat
  | 0, p => (p, [])
  | n + 1, p =>
    match p.freed with
    | b :: r => let x := PoolRec.take n { p with freed := r }; (x.1, b :: x.2)
    | [] => if p.next < p.blocks then let x := PoolRec.take n { p with next := p.next + 1 }; (x.1, p.next :: x.2) else (p, [])

/-- A sequence-table entry in use. -/
def seq? (s : State) (i n : Nat) : Option SeqRec := Tbl.find (s.en i).seqs n

/-- The state with a sequence changed, if it is in the table. -/
def updSeq (s : State) (i n : Nat) (f : SeqRec → SeqRec) : State :=
  match seq? s i n with
  | some x => s.updEns i fun e => { e with seqs := Tbl.put e.seqs n (f x) }
  | none => s

/-- A pool's free blocks fell below its reserve: low_free on the crossing (R373) (DEDUCED, log entry 74). -/
def lowFree (s : State) (i n before : Nat) : State :=
  match pool? s i n with
  | some p =>
    let s := updPoolRec s i n fun p => { p with low := min p.low p.free }
    if p.free < p.reserve && p.reserve ≤ before then s.irq (kvaPage i) 17 else s
  | none => s

/-- Blocks, and a table for its first, allocated to a sequence (R356, R361). -/
def allocBlocks (s : State) (i pn n b : Nat) : State :=
  match pool? s i pn, seq? s i n with
  | some p, some q =>
    let x := PoolRec.take b p
    let p1 := { x.1 with allocs := p.allocs + x.2.length }
    let t : PoolRec × Option Nat := match q.table, p1.tfreed with
      | some t, _ => (p1, some t)
      | none, t :: r => ({ p1 with tfreed := r }, some t)
      | none, [] => ({ p1 with tnext := p1.tnext + 1 }, some p1.tnext)
    let s := updPoolRec s i pn fun _ => t.1
    let s := updSeq s i n fun q => { q with blocks := q.blocks ++ x.2, table := t.2, pool := pn }
    lowFree s i pn p.free
  | _, _ => s

/-- The block-table entries that an allocation between two states adds (R356): their address, the blocks. -/
def newEntries (s s' : State) (i pn n : Nat) : List (Nat × List Nat) :=
  match pool? s' i pn, seq? s i n, seq? s' i n with
  | some p, some q, some q' =>
    if q'.blocks.length = q.blocks.length then []
    else [(p.btDa + 4 * 2 ^ p.btLog2 * q'.table.getD 0 + 4 * q.blocks.length, q'.blocks.drop q.blocks.length)]
  | _, _, _ => []

/-- A sequence's blocks and table freed, to the pool they came from (R357). -/
def freeBlocks (s : State) (i n : Nat) : State :=
  match seq? s i n with
  | none => s
  | some q =>
    let s := updPoolRec s i q.pool fun p =>
      { p with freed := q.blocks.reverse ++ p.freed, frees := p.frees + q.blocks.length, tfreed := match q.table with | some t => t :: p.tfreed | none => p.tfreed }
    updSeq s i n fun q => { q with blocks := [], table := none }

/-- The result of a sequence's record (R368). -/
def seqResult (q : SeqRec) (done : Bool) : Nat := fields [(0, q.gen % 2 ^ 32), (32, b2n done), (40, min q.recomputes 255)]

/-- A sequence ends (R368): its blocks are free, its record goes to QM; its status leaves the queue running. -/
def seqEnd (s : State) (i n status result : Nat) : State :=
  match seq? s i n with
  | none => s
  | some q =>
    let s := freeBlocks s i n
    endPos (s.updEns i fun e => { e with seqs := Tbl.del e.seqs n }) i q.q q.pos status result false

/-- A sequence whose record is already written is gone once its step has ended (R371). -/
def seqGone (s : State) (i n : Nat) : State := (freeBlocks s i n).updEns i fun e => { e with seqs := Tbl.del e.seqs n }

/-- The entry's sequence leaves its step: one that was cancelled or reset meanwhile ends now (R370, R371). -/
def seqLeave (s : State) (i n : Nat) : State :=
  match seq? s i n with
  | none => s
  | some q =>
    match q.late with
    | none => updSeq s i n fun q => { q with lane := none }
    | some 6 => seqGone s i n
    | some st => seqEnd s i n st (seqResult q false)

/-- The ensemble's lane is free; a STOPPING ensemble without steps is OFF (R351). -/
def laneFree (s : State) (i p lane : Nat) : State :=
  let s := s.updEnsemble i p fun e => { e with lanes := Tbl.del e.lanes lane }
  if (s.ensemble i p).st == 2 && (s.ensemble i p).lanes.isEmpty then
    let s := s.updEnsemble i p fun e => { e with st := 0 }
    if (s.en i).disabling == some p then
      (s.updEns i fun e => { e with disabling := none }).report i [.reg (ensR i 0x48) 0xFFFF 0x100, .irq (ensPage i) 16]
    else s
  else s

/-- The effect of one entry of a committed step (R367): `b` is its byte 0x38. A sequence cancelled or reset meanwhile leaves as such, with the
tokens this step committed counted (R370, R371). -/
def entryDone (s : State) (i : Nat) (e : SEnt) (b : Nat) : State :=
  match seq? s i e.seq with
  | none => s
  | some q =>
    let c := q.cached + (if e.prefill then e.tokens else 1)
    let g := q.gen + (if e.sample && bitAt b 1 then 1 else 0)
    let st : SeqSt := if 1 ≤ g && c = q.ptoks + g - 1 then .decode else .prefill
    let s := updSeq s i e.seq fun q => { q with cached := c, gen := g, st }
    if q.late.isSome then seqLeave s i e.seq
    else
      let q' := { q with gen := g }
      if e.sample && (bitAt b 0 || g == q.maxNew) then seqEnd s i e.seq 0 (seqResult q' (bitAt b 0))
      else seqLeave s i e.seq

/-- The entries' numbers of a step. -/
def stepEnts (s : State) (i p lane : Nat) : List SEnt := match Tbl.find (s.ensemble i p).lanes lane with
  | some t => t.ents
  | none => []

/-- A step's COMMIT_END (R367): byte 0x38 of every entry, in entry order. -/
def stepCommit (s : State) (i p lane : Nat) (marks : List Byte) : State :=
  let es := stepEnts s i p lane
  let s := (es.zip (marks.map BitVec.toNat ++ List.replicate es.length 0)).foldl (fun s e => entryDone s i e.1 e.2) s
  let d := (es.filter fun e => !e.prefill).length
  let f := ((es.filter fun e => e.prefill).map SEnt.tokens).sum
  laneFree (s.updEnsemble i p fun e => { e with steps := e.steps + 1, decodes := e.decodes + d, prefills := e.prefills + f }) i p lane

/-- A step killed before its commit point (R371): its sequences return unchanged. -/
def stepKilled (s : State) (i p lane : Nat) : State :=
  laneFree ((stepEnts s i p lane).foldl (fun s e => seqLeave s i e.seq) s) i p lane

/-- A step that fails (R371): before its commit its sequences return, and one in its third failed step ends; after it every
sequence ends, a cancelled one with this status too (DESIGN CHOICE, log entry 180). `status` 10 STATION_ERROR with `result`, or 6
TORN_DOWN. -/
def stepFailed (s : State) (i p lane : Nat) (committed : Bool) (status result : Nat) : State :=
  let es := stepEnts s i p lane
  let one (s : State) (e : SEnt) : State :=
    match seq? s i e.seq with
    | none => s
    | some q =>
      if q.late == some 6 then seqGone s i e.seq
      else if committed || 2 ≤ q.fails then seqEnd s i e.seq status (if status = 10 then result else seqResult q false)
      else seqLeave (updSeq s i e.seq fun q => { q with fails := q.fails + 1 }) i e.seq
  let s := es.foldl one s
  laneFree (if committed then s else s.updEnsemble i p fun e => { e with fails := e.fails + 1 }) i p lane

/-- Priority of the queue of a sequence (R110, R359). -/
def State.seqPrio (s : State) (i : Nat) (x : SeqRec) : Nat := (s.q i x.q).ctx.prio

/-- The sequence at a position of a queue. -/
def seqAt (s : State) (i q p : Nat) : Option SeqRec :=
  ((s.en i).seqs.find? fun e => e.2.q == q && e.2.pos == p && e.2.late != some 6).map Prod.snd

/-- Sequences of a queue. -/
def seqsOf (s : State) (i q : Nat) : List (Nat × SeqRec) := (s.en i).seqs.filter fun e => e.2.q == q && e.2.late != some 6

/-- Every sequence of a queue ends with a status (R370, R371): now, or when its step ends. -/
def cancelSeqs (s : State) (i q status : Nat) : State :=
  (seqsOf s i q).foldl (fun s e =>
    if e.2.lane.isNone then seqEnd s i e.1 status (seqResult e.2 false) else updSeq s i e.1 fun x => { x with late := some status }) s

/-- Every sequence of a queue is torn down at once (R371); one in a step leaves its blocks with the step. -/
def resetSeqs (s : State) (i q : Nat) : State :=
  (seqsOf s i q).foldl (fun s e => if e.2.lane.isNone then seqGone s i e.1 else updSeq s i e.1 fun x => { x with late := some 6 }) s

end Sys2Proof.Machine
end

