-- ==== Sys2Proof/Machine/Place.lean ====
section
/-! DEFINITION. Where a station command goes and what must move first (R320-R332): commands from descriptors and steps, the
shadow check (R215), windows, evictions, wings space. A plan is made on a copy of the state that is taken only where it succeeds. -/
namespace Sys2Proof.Machine

/-! ### Directory and ranges -/

/-- A handle of the directory. -/
def hnd? (s : State) (i h : Nat) : Option Hnd := Tbl.find (s.sc i).dir h

/-- The state with a handle changed, if defined. -/
def updHnd (s : State) (i h : Nat) (f : Hnd → Hnd) : State :=
  match hnd? s i h with
  | some x => s.updSch i fun c => { c with dir := Tbl.put c.dir h (f x) }
  | none => s

/-- The partition record. -/
def part? (s : State) (i p : Nat) : Option PartRec := Tbl.find (s.sc i).parts p

/-- The lowest offset of a free run of `n` below `cap` beside the used runs (R326). -/
def freeOff (used : List (Nat × Nat)) (n cap : Nat) : Option Nat :=
  leastBy id ((0 :: used.map fun u => u.1 + u.2).filter fun c => c + n ≤ cap && used.all fun u => u.1 + u.2 ≤ c || c + n ≤ u.1)

/-- The lowest number below `cap` that is not used. -/
def freeNum (used : List Nat) (cap : Nat) : Option Nat := (List.range cap).find? fun n => !used.contains n

/-- The first address from `cur` to below `hi` that no entry covers (R215). -/
def gapIn (es : List SptEnt) (hi : Nat) : Nat → Nat → Option Nat
  | 0, cur => if hi ≤ cur then none else some cur
  | f + 1, cur =>
    if hi ≤ cur then none
    else match es.find? fun e => e.base ≤ cur && cur < e.base + e.size with
      | some e => gapIn es hi f (e.base + e.size)
      | none => some cur

/-- The first address of a range of a partition that a site's shadow does not cover (R204, R215). -/
def shadowGap (s : State) (k p lo n : Nat) : Option Nat :=
  let es := (Tbl.getD s.spt k []).filter fun e => e.part == p
  gapIn es (lo + n) (es.length + 1) lo

/-- The shadow check of a range of a partition at a site (R215). -/
def shadow (s : State) (k p lo n : Nat) : Bool := (shadowGap s k p lo n).isNone

/-! ### Commands (R289, R320, R363) -/

/-- Whether a handle word names a private window (R320). -/
def wordPriv (w : Nat) : Bool := bitAt w 25

/-- Handle id, or private size in MiB, of a handle word. -/
def wordId (w : Nat) : Nat := bits w 0 16

/-- The directory handles a list of words names. -/
def dirWords (ws : List Nat) : List Nat := (ws.filter fun w => w != 0 && !wordPriv w).map wordId

/-- The directory handles a list of words may write. -/
def writeWords (ws : List Nat) : List Nat := (ws.filter fun w => w != 0 && !wordPriv w && bitAt w 24).map wordId

/-- The private windows of a list of words. -/
def privWords (ws : List Nat) : List Priv := (ws.zipIdx.filter fun w => wordPriv w.1).map fun w => { k := w.2, size := wordId w.1 }

/-- The handle words of a RUN descriptor. -/
def rawWords (raw : List Byte) : List Nat := (List.range 8).map fun k => fieldAt raw (0x20 + 4 * k) 4

/-- The command class of a RUN (R321). -/
def runClass (x : Queue) (raw : List Byte) : Nat := if bitAt (df raw 0 9 1) 0 then 2 else x.ctx.save

/-- The command of a RUN descriptor (R320, R321). -/
def runCmd (x : Queue) (q pos : Nat) (raw : List Byte) : Cmd :=
  { src := .run q pos, part := x.part, tag := x.ctx.ctxTag, cls := runClass x raw, lc := x.ctx.cls == 1, prio := x.ctx.prio,
    prog := df raw 8 0 52, progKib := df raw 0x18 0 16, args := df raw 0x10 0 52, argsKib := df raw 0x18 16 16,
    engines := df raw 0x18 32 9, words := rawWords raw, bound := df raw 0 16 16,
    barrier := if df raw 0 10 1 = 1 then some (df raw 8 52 12, df raw 0x10 52 10) else none, privs := privWords (rawWords raw) }

/-- The site mask of a command: the descriptor's, within its VD's (R320, R379) (DEDUCED, log entry 68). -/
def siteMask (s : State) (i : Nat) (c : Cmd) (raw : List Byte) : Nat :=
  let v := c.tag % 4096
  let d := df raw 0x18 48 12
  let vd := bits (s.vd i v).cfg0 32 12
  if d = 0 then vd else d &&& vd

/-- The sites of a partition that a mask admits. -/
def sitesFor (s : State) (i p mask : Nat) : List Nat := match part? s i p with
  | some r => onesOf (r.sites &&& mask) 12
  | none => []

/-- Whether a site's shadow covers the program and the arguments of a command (R322). -/
def covers (s : State) (k : Nat) (c : Cmd) : Bool :=
  shadow s k c.part c.prog (1024 * c.progKib) && shadow s k c.part c.args (1024 * c.argsKib)

/-- The first address of the program, then of the arguments, of a command that a site's shadow does not cover (R204). -/
def uncovered (s : State) (k : Nat) (c : Cmd) : Option Nat :=
  (shadowGap s k c.part c.prog (1024 * c.progKib)).orElse fun _ => shadowGap s k c.part c.args (1024 * c.argsKib)

/-- The ranges that a SEQUENCE names (R352): prompt, out and, where it has them, params, each with its bytes and whether it is written. -/
def seqRanges (raw : List Byte) : List (Nat × Nat × Bool) :=
  let params := df raw 0x20 0 52
  [(df raw 8 0 52, 4 * df raw 0x10 0 24, false), (df raw 0x18 0 52, 1024 * df raw 0x30 0 16, true)] ++
  (if params = 0 then [] else [(params, 1024 * df raw 0x30 16 16, false)])

/-- The step command of an ensemble's lane (R363) (DEDUCED, log entry 75). -/
def stepCmd (s : State) (i p lane : Nat) (lc : Bool) : Cmd :=
  let scratch := ensF s i p 0x41C 16 13
  let ws := (if scratch = 0 then 0 else 2 ^ 25 + scratch) :: (List.range 7).map fun k => s.r (ensR i (0x800 + 0x20 * p + 4 * (k + 1)))
  { src := .step p lane, part := p, tag := 4096 * p, cls := 0, lc, prog := s.r (ensR i (0x420 + 0x40 * p)),
    progKib := ensF s i p 0x428 0 16, args := s.r (ensR i (0x430 + 0x40 * p)) + 0x10000 * lane, argsKib := 64,
    engines := ensF s i p 0x428 16 9, words := ws, bound := max 1 (ensF s i p 0x41C 0 16), privs := privWords ws }

/-! ### Holds over station commands and sequences (R236, R333) -/

/-- A range of the DA of a partition and VD as spans: in DA and, through a host window, in host space. -/
def daSpans (s : State) (i part vd lo n : Nat) : List (XKey × Nat × Nat) :=
  (.da part, lo, n) :: (List.range 16).filterMap fun w =>
    let v := winReg s i part w
    if bitAt v 0 && winBase w ≤ lo && lo < winBase w + 2 ^ 46 then some ((XKey.host (bits v 5 2) (pasidOf s i vd), winHost v + (lo - winBase w), n) : XKey × Nat × Nat) else none

/-- What a station command names: the ranges of its program, arguments and handle copies, in DA and, through a host window, in host
space (R333). -/
def cmdSpans (s : State) (i : Nat) (c : Cmd) : List (XKey × Nat × Nat) :=
  let hs := (dirWords c.words).flatMap fun h => match hnd? s i h with
    | some d => (match d.slot with | some a => [(a, d.size * 2 ^ 20)] | none => []) ++ (if d.host then [(d.hostDa, d.size * 2 ^ 20)] else [])
    | none => []
  (((c.prog, 1024 * c.progKib) :: (c.args, 1024 * c.argsKib) :: hs).flatMap fun r => daSpans s i c.part (c.tag % 4096) r.1 r.2)

/-- Whether a hold covers one of these spans. -/
def Hold.meetsAny (h : Hold) (l : List (XKey × Nat × Nat)) : Bool := l.any fun r => 0 < r.2.2 && h.covers r.1 r.2.1 r.2.2

/-- Whether a hold covers what a command names (DEDUCED, log entry 56). -/
def Hold.meetsCmd (h : Hold) (s : State) (i : Nat) (c : Cmd) : Bool := h.meetsAny (cmdSpans s i c)

/-- The hub queue of a command's source; a step has none. -/
def Cmd.hub (c : Cmd) (i : Nat) : Option Nat := match c.src with
  | .run q _ => some (hubQ i q)
  | .step _ _ => none

/-- The active holds that keep a command from being dispatched (R236, R333). -/
def cmdHeld (s : State) (i : Nat) (c : Cmd) : List Nat :=
  (s.acc.get i).holds.filterMap fun e => if e.2.active && (e.2.exempt.isNone || e.2.exempt != c.hub i) && e.2.meetsCmd s i c then some e.1 else none

/-- The waiter that stands for a command. -/
def Cmd.who (c : Cmd) : Who := match c.src with
  | .run q p => .desc q p 0
  | .step p l => .step p l

/-- The spans of a SEQUENCE of a queue (R236, R352). -/
def seqSpans (s : State) (i q : Nat) (raw : List Byte) : List (XKey × Nat × Nat) :=
  let x := s.q i q
  (seqRanges raw).flatMap fun r => daSpans s i x.part x.vd r.1 r.2.1

/-- The active holds that keep a SEQUENCE from being taken in (R236). -/
def seqHeld (s : State) (i q : Nat) (raw : List Byte) : List Nat :=
  (s.acc.get i).holds.filterMap fun e => if e.2.active && e.2.exempt != some (hubQ i q) && e.2.meetsAny (seqSpans s i q raw) then some e.1 else none

/-- The first address of a SEQUENCE that a hold covers (R204, R238). -/
def seqHoldAddr (s : State) (i q : Nat) (h : Hold) (raw : List Byte) : Nat :=
  let x := s.q i q
  ((seqRanges raw).findSome? fun r => (daSpans s i x.part x.vd r.1 r.2.1).findSome? fun e =>
    if 0 < e.2.2 && h.covers e.1 e.2.1 e.2.2 then some (r.1 + (h.base - e.2.1)) else none).getD 0

/-- Whether an instance is the home of a partition (R31), and it is not being torn down. -/
def homeOf (s : State) (i p : Nat) : Bool := match part? s i p with
  | some r => r.dying.isNone
  | none => false

/-! ### What holds a site -/

/-- Whether a command's engines count as busy: from its place on, those of a barrier member from its ACCEPT (R339). -/
def Cmd.busy (c : Cmd) : Bool := c.barrier.isNone || c.st == .loaded || c.st == .running || c.st == .committing

/-- Engines busy on a site beside those of command `j` of instance `i`. -/
def busyBeside (s : State) (k : Nat) (j : Option (Nat × Nat)) : Nat :=
  (((cmdsOn s k).filter fun e => e.2.2.busy && j != some (e.1, e.2.1)).map fun e => e.2.2.engines).sum

/-- Engines busy on a site. -/
def busyEngines (s : State) (k : Nat) : Nat := busyBeside s k none

/-- Whether a handle is bound (R325): a command in its slot names it, from its START on (DEDUCED, log entry 175). -/
def bound (s : State) (i h : Nat) : Bool := (s.sc i).cmds.any fun e => e.2.inSlot && (dirWords e.2.words).contains h

/-- Whether SCH leaves a handle where it is: bound, or made ready for a command that is placed and not started (DEDUCED, log entry 175). -/
def readied (s : State) (i h : Nat) : Bool := (s.sc i).cmds.any fun e => e.2.onSite && (dirWords e.2.words).contains h

/-- The keys of the windows of a site that are leaving. -/
def leavingWins (s : State) (k : Nat) : List Nat := ((s.site k).wins.filter fun w => w.2.leaving).map Prod.fst

/-- The number of a window on its site (R287). -/
def winNum (w : Nat) : Nat := w % 64

/-- A window marked as leaving. -/
def leaveWin (s : State) (k w : Nat) : State :=
  s.updSite k fun x => { x with wins := x.wins.map fun e => if e.1 = w then (e.1, { e.2 with leaving := true }) else e }

/-! ### Wings space (R324, R328) -/

/-- The runs of a partition's wings in use, in MiB from its base, but for the slots of the handles `going`. -/
def wingsUsed (s : State) (i p b : Nat) (going : List Nat) : List (Nat × Nat) :=
  ((s.sc i).dir.filterMap fun e => if e.2.part = p && !going.contains e.1 then e.2.slot.map fun d => ((d - b) / 2 ^ 20, e.2.size) else none) ++
  ((s.sc i).cmds.filterMap fun e => if e.2.part = p then e.2.save.map fun r => ((r.1 - b) / 2 ^ 20, r.2) else none)

/-- Free wings space of `n` MiB, without moving anything; the handles `going` leave the wings first. -/
def wingsFree (s : State) (i p n : Nat) (going : List Nat) : Option Nat :=
  match part? s i p with
  | some r => (freeOff (wingsUsed s i p r.wbase going) n (r.wsize * 64)).map fun o => r.wbase + o * 2 ^ 20
  | none => none

/-- Whether the copies between wings and host have a channel (R328). -/
def spillOk (s : State) (i : Nat) : Bool := bitAt (s.r (schR i 1 0x70)) 31

/-- The least recently dispatched of a list of handles. -/
def lruHnd (l : List (Nat × Hnd)) : Option (Nat × Hnd) :=
  l.foldl (fun b e => match b with
    | none => some e
    | some x => if e.2.last < x.2.last then some e else some x) none

/-- The handles that a plan's actions copy to the host: their slots are free once they have run. -/
def goingOf (acts : List (Nat × Act)) : List Nat := acts.filterMap fun a => match a.2 with | .copy h _ true => some h | _ => none

/-- Wings space of `n` MiB, moving host-backed handles in WINGS to HOST, least recently dispatched first (R328) (DEDUCED, log entry 65); `going` are
those that leave already. A RESIDENT handle whose host copy is current gives up its slot where nothing can be moved (DEDUCED, log entry 176). -/
def wingsAlloc (i p n : Nat) (keep : List Nat) : Nat → List Nat → State → Option (State × Nat × List (Nat × Act))
  | 0, _, _ => none
  | f + 1, going, s =>
    match wingsFree s i p n going with
    | some d => some (s, d, [])
    | none =>
      let mine (st : Nat) : List (Nat × Hnd) := (s.sc i).dir.filter fun e => e.2.part == p && e.2.host && e.2.st == st && !keep.contains e.1
      match lruHnd ((mine 1).filter fun _ => spillOk s i) with
      | some (h, x) =>
        let s' := updHnd s i h fun y => if x.changed then { y with st := 4 } else { y with st := 2, slot := none }
        (wingsAlloc i p n keep f (if x.changed then h :: going else going) s').map fun r =>
          (r.1, r.2.1, (if x.changed then [(0, Act.copy h (x.slot.getD 0) true)] else []) ++ r.2.2)
      | none =>
        match lruHnd ((mine 3).filter fun e => e.2.slot.isSome && !e.2.changed) with
        | none => none
        | some (h, _) => wingsAlloc i p n keep f going (updHnd s i h fun y => { y with slot := none })

/-! ### Evictions and windows (R326, R327) -/

/-- The next eviction from a site, with its actions (R327): private windows of a saved command, then clean handles, then dirty ones; the handles
`going` leave the wings in the same plan. -/
def evictOne (s : State) (i p k : Nat) (keep going : List Nat) : Option (State × List (Nat × Act)) :=
  match (s.sc i).cmds.findSome? fun e =>
    if e.2.st == .preempted && e.2.site == k then (e.2.privs.find? fun v => v.win.isSome).map fun v => (e.1, e.2, v) else none with
  | some (j, c, v) =>
    let w := v.win.getD 0
    let drop (x : Priv) : Priv := if x.k = v.k then { x with win := none } else x
    let s := (leaveWin s k w).updCmd i j fun c => { c with privs := c.privs.map drop }
    some (s, [(k, .spill w (v.slot.getD 0) 0 v.size c.tag), (k, .revoke w 0)])
  | none =>
    let cands := (s.sc i).dir.filter fun e => e.2.st == 3 && e.2.site == k && !keep.contains e.1 && !readied s i e.1
    match lruHnd (cands.filter fun e => !e.2.dirty) with
    | some (h, x) => some (leaveWin (updHnd s i h fun y => { y with st := 4 }) k x.win, [(k, .revoke x.win h)])
    | none =>
      match lruHnd (cands.filter fun e => e.2.dirty) with
      | none => none
      | some (h, x) =>
        let go (s : State) (d : Nat) (pre : List (Nat × Act)) : State × List (Nat × Act) :=
          (leaveWin (updHnd s i h fun y => { y with st := 4, slot := some d }) k x.win, pre ++ [(k, .spill x.win d h x.size (4096 * x.part)), (k, .revoke x.win h)])
        match x.slot with
        | some d => some (go s d [])
        | none => (wingsAlloc i p x.size (h :: keep) (2 * (s.sc i).dir.length + 1) going s).map fun r => go r.1 r.2.1 r.2.2

/-- A window of `n` MiB reserved on a site, after evictions where it does not fit (R326, R327). The windows `old` were leaving before the plan and
stand until then; one that the plan itself takes off the site is gone before the GRANT, so that its range and its number are free. -/
def reserveWin (i p k n vsp job : Nat) (keep old : List Nat) : Nat → List Nat → State → Option (State × Nat × List (Nat × Act))
  | 0, _, _ => none
  | f + 1, going, s =>
    let ws := (s.site k).wins.filter fun w => !w.2.leaving || old.contains w.1
    match freeOff (ws.map fun w => (w.2.off, w.2.size)) n (capF s k 0xC 0 16), freeNum (ws.map fun w => winNum w.1) (capF s k 0xC 16 7) with
    | some o, some w =>
      let w := if (s.site k).wins.any fun x => x.1 == w then w + 64 else w
      some (s.updSite k fun x => { x with wins := Tbl.put x.wins w { off := o, size := n, vsp, job } }, w, [])
    | _, _ =>
      match evictOne s i p k keep going with
      | none => none
      | some (s', acts) => (reserveWin i p k n vsp job keep old f (goingOf acts ++ going) s').map fun r => (r.1, r.2.1, acts ++ r.2.2)

/-! ### Placing (R329, R332) -/

/-- One handle word made ready on a site (R329): the state with what it reserves, the actions, the private windows so far. `none`
where the site cannot take it now. `old` are the windows of the site that were leaving before. -/
def readyWord (i j k : Nat) (c : Cmd) (old : List Nat) (st : Option (State × List (Nat × Act) × List Priv)) (x : Nat × Nat) : Option (State × List (Nat × Act) × List Priv) :=
  match st with
  | none => none
  | some (s, acts, ps) =>
    let w := x.1
    let keep := dirWords c.words
    let going := goingOf acts
    if w = 0 then some (s, acts, ps)
    else if wordPriv w then
      match c.privs.find? fun v => v.k == x.2 with
      | none => some (s, acts, ps)
      | some v =>
        let n := (s.sc i).vsp
        let vsp := 0x10000 + n
        let s := s.updSch i fun y => { y with vsp := (n + 1) % 2 ^ 30 }
        let out : List (Nat × Act) := match v.win with
          | some old => [(c.site, .spill old (v.slot.getD 0) 0 v.size c.tag), (c.site, .revoke old 0)]
          | none => []
        let s := match v.win with | some old => leaveWin s c.site old | none => s
        (reserveWin i c.part k v.size vsp j keep old 66 going s).map fun r =>
          (r.1, acts ++ out ++ r.2.2 ++ [(k, .grant r.2.1 0 c.tag)] ++ (if c.restore then [(k, .fill r.2.1 (v.slot.getD 0) 0 v.size c.tag)] else []),
           ps ++ [{ v with win := some r.2.1, vsp }])
    else
      let h := wordId w
      match hnd? s i h with
      | none => none
      | some d =>
        let place (s : State) (da : Nat) (pre : List (Nat × Act)) : Option (State × List (Nat × Act) × List Priv) :=
          (reserveWin i c.part k d.size h 0 keep old 66 (goingOf pre ++ going) s).map fun r =>
            (updHnd r.1 i h fun y => { y with st := 4, slot := some da },
             acts ++ pre ++ r.2.2 ++ [(k, .grant r.2.1 h (4096 * d.part)), (k, .fill r.2.1 da h d.size (4096 * d.part))], ps)
        let fromHost (s : State) (pre : List (Nat × Act)) : Option (State × List (Nat × Act) × List Priv) :=
          if !spillOk s i then none
          else match wingsAlloc i c.part d.size keep (2 * (s.sc i).dir.length + 1) going s with
            | none => none
            | some (s, da, al) => place s da (pre ++ al ++ [(0, .copy h da false)])
        let again := acts.any fun a => match a.2 with | .grant _ g _ => g == h && a.1 == k | _ => false
        if again || (d.st = 3 && d.site = k) then some (s, acts, ps)
        else if d.st = 3 then
          if readied s i h then none
          else
            let s := leaveWin s d.site d.win
            match d.slot, d.dirty with
            | some da, dirty => place s da ((if dirty then [(d.site, .spill d.win da h d.size (4096 * d.part))] else []) ++ [(d.site, .revoke d.win h)])
            | none, true =>
              (match wingsAlloc i c.part d.size keep (2 * (s.sc i).dir.length + 1) going s with
               | none => none
               | some (s, da, al) => place s da (al ++ [(d.site, .spill d.win da h d.size (4096 * d.part)), (d.site, .revoke d.win h)]))
            | none, false => fromHost s [(d.site, .revoke d.win h)]
        else if d.st = 1 then place s (d.slot.getD 0) []
        else if d.st = 2 then fromHost s []
        else none

/-- Bytes that actions move by SPILL and FILL. -/
def movedBytes (acts : List (Nat × Act)) : Nat :=
  (acts.map fun a => match a.2 with | .spill _ _ _ n _ => n * 2 ^ 20 | .fill _ _ _ n _ => n * 2 ^ 20 | _ => 0).sum

/-- A command placed on a site (R332): the lowest free slot and engine base, within the site's quota (R394), with its handles and
windows; `none` where it does not fit now. -/
def placeAt (s : State) (i j : Nat) (c : Cmd) (k : Nat) : Option (State × Cmd × List (Nat × Act)) :=
  let on := (cmdsOn s k).map fun e => e.2.2
  let old := leavingWins s k
  if (s.site k).st != .up || (s.site k).query || (s.site k).moving || (s.site k).purge.isSome || !covers s k c then none
  else if quota s k < busyEngines s k + c.engines then none
  else
    match freeNum (on.map Cmd.slot) (capF s k 8 16 7), freeOff (on.map fun x => (x.ebase, x.engines)) c.engines (capEngines s k) with
    | some slot, some base =>
      ((c.words.zipIdx).foldl (readyWord i j k c old) (some (s, [], []))).map fun r =>
        (r.1, { c with site := k, slot, ebase := base, privs := r.2.2, st := .placing }, r.2.1)
    | _, _ => none

/-- Bytes of a command's directory handles already RESIDENT on a site (R332). -/
def residentBytes (s : State) (i : Nat) (c : Cmd) (k : Nat) : Nat :=
  ((dirWords c.words).map fun h => match hnd? s i h with
    | some d => if d.st = 3 && d.site = k then d.size else 0
    | none => 0).sum

/-- Bytes that the evictions of a plan from its site move: what it spills there (R332). -/
def spillBytes (k : Nat) (acts : List (Nat × Act)) : Nat := (acts.map fun a => match a.2 with | .spill _ _ _ n _ => if a.1 = k then n else 0 | _ => 0).sum

/-- The best placement of a command among sites (R332). -/
def placeBest (s : State) (i j : Nat) (c : Cmd) (ks : List Nat) : Option (State × Cmd × List (Nat × Act)) :=
  ks.foldl (fun b k => match placeAt s i j c k, b with
    | none, _ => b
    | some x, none => some x
    | some x, some y =>
      let rx := residentBytes s i c k
      let ry := residentBytes s i c y.2.1.site
      if ry < rx || (rx == ry && spillBytes k x.2.2 < spillBytes y.2.1.site y.2.2) then some x else some y) none

/-- Whether a command can never be placed on the sites admitted (R330). -/
def neverFits (s : State) (i : Nat) (c : Cmd) (ks : List Nat) : Bool :=
  let total := ((dirWords c.words).eraseDups.map fun h => ((hnd? s i h).map Hnd.size).getD 0).sum + (c.privs.map Priv.size).sum
  let n := (dirWords c.words).eraseDups.length + c.privs.length
  let host := (dirWords c.words).any fun h => match hnd? s i h with
    | some d => d.st == 2 || (d.st == 3 && d.slot.isNone && !d.dirty && !ks.contains d.site)
    | none => false
  (host && !spillOk s i) || ks.all fun k => capEngines s k < c.engines || capF s k 0xC 0 16 < total || capF s k 0xC 16 7 < n

end Sys2Proof.Machine
end

