-- ==== Sys2Proof/Machine/Sched.lean ====
section
/-! DEFINITION. The scheduler at work (R323-R346): window and handle moves, starts under the di/dt budget, the end of a command,
job faults, the loss of a station, the frames of stations. -/
namespace Sys2Proof.Machine

/-! ### Copies between wings and host (R328) -/

/-- The queue index under which the copies of a scheduler run: beyond every queue, it has no context, ring or record. -/
def copyQ : Nat := 2 ^ 20

/-- A COPY descriptor of the scheduler: `n` bytes from one DA to another, chained. -/
def copyDesc (src dst n : Nat) (chain : Bool) : DescSt :=
  { raw := leBytes 8 (fields [(0, 1), (8, b2n chain)]) ++ leBytes 8 src ++ leBytes 8 dst ++ leBytes 8 n ++ List.replicate 32 0 }

/-- The descriptors of a copy of `n` MiB, 32 MiB each so that every piece stays within the limits of R139. -/
def copyChain (src dst n : Nat) : List DescSt :=
  let m := (n + 31) / 32
  (List.range m).map fun k => copyDesc (src + 32 * 2 ^ 20 * k) (dst + 32 * 2 ^ 20 * k) ((min 32 (n - 32 * k)) * 2 ^ 20) (k + 1 < m)

/-- A copy of a handle begun: its descriptors stand as a position of the copy queue (R328). -/
def copyBegin (s : State) (i h da : Nat) (toHost : Bool) : State :=
  match hnd? s i h with
  | none => s
  | some d =>
    let ds := if toHost then copyChain da d.hostDa d.size else copyChain d.hostDa da d.size
    s.setQ i copyQ { ctx := { ctxTag := 4096 * d.part }, poss := [{ pos := 0, fet := .whole, descs := ds }] }

/-- The descriptors of the copy translated, and the copy started on the channel set aside once its head is ready and the channel is IDLE, enabled and not
held by a commit (R132, R133, R135, R328); a migration hold keeps it like any descriptor (R236). -/
def copyAdvance (s : State) (i : Nat) : State :=
  match (s.q i copyQ).poss with
  | [] => s
  | p :: _ =>
    if p.ph == .ended then s
    else
      let x := s.q i copyQ
      let tr (s : State) (e : DescSt × Nat) : State :=
        if e.1.ph != .pending then s
        else match xlateFps (xctx s i x) ((footprints e.1.raw).map fun f => (f, false)) s [] 0 with
          | (s, us, .ok) => updDesc s i copyQ 0 e.2 fun d => { d with ph := .ready, units := us, wins := (List.range 16).map (winReg s i x.part) }
          | (s, us, t) =>
            let s := updDesc s i copyQ 0 e.2 fun d => { d with units := us, ph := .miss }
            applyStop s i (.desc copyQ 0 e.2) x.part none t
      let s := p.descs.zipIdx.foldl tr s
      match (s.q i copyQ).poss with
      | [] => s
      | p :: _ =>
        let cid := chanId (carrier s i) (s.fld (schR i 1 0x70) 0 8)
        let idle := (s.chan cid).st == .idle && chanEnabled s cid && !commitHeld s (dmaPage cid)
        match p.descs.head? with
        | some d =>
          if p.ph != .waiting || d.ph != .ready || !spillOk s i || !idle || fnHeld s i .sch || (hostGroups s i x d.raw).any (absent s) then s
          else match mayStart s i copyQ 0 0 d with
            | (s, false) => s
            | (s, true) =>
              let nif := (s.chan cid).nif
              let s := s.updChan cid fun _ => { st := .running, home := i, queue := some copyQ, pos := 0, nif }
              let s := s.updQ i copyQ fun x => x.updPos 0 fun y => { y with ph := .started, chan := some cid }
              startDesc s cid d.raw
        | none => s

/-! ### Actions on sites (R300, R301, R327, R329) -/

/-- An action sent: its frame, or its copy where no other copy runs; whether it is under way. -/
def issueAct (s : State) (i : Nat) (a : Nat × Act) : State × Bool :=
  let k := a.1
  match a.2 with
  | .spill w da _ _ tag => (sendFrame s k 8 [0, winNum w, 0, (Tbl.getD (s.site k).wins w ⟨0, 0, 0, 0, false, false⟩).job, da, tag], true)
  | .revoke w _ => (sendFrame s k 7 [0, winNum w, 0, 0, 0], true)
  | .fill w da _ _ tag => (sendFrame s k 9 [0, winNum w, 0, (Tbl.getD (s.site k).wins w ⟨0, 0, 0, 0, false, false⟩).job, da, tag], true)
  | .grant w _ tag =>
    let x := Tbl.getD (s.site k).wins w ⟨0, 0, 0, 0, false, false⟩
    (sendFrame s k 6 [0, winNum w, 0, x.job, fields [(0, x.vsp), (32, 3)], fields [(0, x.off), (16, x.size), (32, tag)]], true)
  | .copy h da toHost =>
    if (s.q i copyQ).poss.isEmpty then (copyAdvance (copyBegin s i h da toHost) i, true) else (s, false)

/-- The first action of every task that waits is sent. -/
def kick (s : State) (i : Nat) : State :=
  let go (acc : State × List Task) (t : Task) : State × List Task :=
    if t.sent then (acc.1, acc.2 ++ [t])
    else match t.acts with
      | [] => (acc.1, acc.2 ++ [t])
      | a :: _ => let r := issueAct acc.1 i a; (r.1, acc.2 ++ [{ t with sent := r.2 }])
  let r := (s.sc i).tasks.foldl go (s, [])
  r.1.updSch i fun x => { x with tasks := r.2 }

/-- Windows of a command's private handles revoked: by a task of their own where the station has confirmed them (R337, R343). -/
def dropPrivs (s : State) (i k : Nat) (ps : List Priv) : State :=
  let ws := ps.filterMap Priv.win
  let known := ws.filter fun w => (Tbl.getD (s.site k).wins w ⟨0, 0, 0, 0, false, false⟩).granted
  let s := (ws.filter fun w => !known.contains w).foldl (fun s w => s.updSite k fun x => { x with wins := Tbl.del x.wins w }) s
  let s := known.foldl (fun s w => leaveWin s k w) s
  if known.isEmpty then s
  else kick (s.updSch i fun x => { x with tasks := x.tasks ++ [{ what := .none, acts := known.map fun w => (k, Act.revoke w 0) }] }) i

/-- The overrun of a stretched slice at a command's end (R335): counted, and recorded as debt of its queue. -/
def settleDebt (s : State) (i : Nat) (c : Cmd) : State :=
  match c.stretch, c.src with
  | some t, .run q _ =>
    let us := (s.time i - t) / 1000
    let s := (s.bump (schR i 0 0x118) 1).bump (schR i 0 0x120) us
    let ds := (s.sc i).debts
    let new := Tbl.getD ds q 0 + us
    if Tbl.has ds q || ds.length < 1024 then s.updSch i fun x => { x with debts := Tbl.put x.debts q new }
    else
      let low := ds.foldl (fun b e => if e.2 < b.2 then e else b) (q, new)
      (s.bump (schR i 0 0x130) 1).updSch i fun x => { x with debts := Tbl.del (Tbl.put x.debts q new) low.1 }
  | some t, _ => (s.bump (schR i 0 0x118) 1).bump (schR i 0 0x120) ((s.time i - t) / 1000)
  | none, _ => s

/-- Whether an action moves a private window of a command, or grants it. -/
def Act.ofPrivs (ps : List Priv) : Act → Bool
  | .grant _ h _ => h == 0
  | .fill _ _ h _ _ => h == 0
  | .spill _ da h _ _ => h == 0 && ps.any fun v => v.slot == some da
  | _ => false

/-- The window of a GRANT for a private handle whose answer a task awaits. -/
def Task.granting (t : Task) : Option (Nat × Nat) :=
  match t.sent, t.acts with
  | true, (k, .grant w 0 _) :: _ => some (k, w)
  | _, _ => none

/-- A task whose command has ended: the moves of handles go on, those of its private windows do not; a private window whose GRANT is under way
is revoked after it. -/
def taskStop (ps : List Priv) (t : Task) : Task :=
  let head := if t.sent then t.acts.take 1 else []
  let rest := (t.acts.drop head.length).filter fun a => !a.2.ofPrivs ps
  let back : List (Nat × Act) := match t.granting with | some (k, w) => [(k, .revoke w 0)] | none => []
  { what := .none, acts := head ++ rest ++ back, sent := t.sent }

/-- A barrier group loses a member (R339); the waves of a released group stay as they were at its close (R341). -/
def leaveBarriers (s : State) (i j : Nat) : State :=
  let leave (b : Barrier) : Barrier := { b with jobs := b.jobs.filter (· != j) }
  s.updSch i fun x => { x with barriers := (x.barriers.map leave).filter fun b => !b.jobs.isEmpty }

/-- A command leaves the scheduler: its slot is FREE, its private windows go, its barrier group loses it. -/
def finishCmd (s : State) (i j : Nat) : State :=
  match s.cmd? i j with
  | none => s
  | some c =>
    let s := leaveBarriers (settleDebt s i c) i j
    let mine := (s.sc i).tasks.filter fun t => t.what == .job j
    let fly := (mine.filterMap Task.granting).map Prod.snd
    let stop (t : Task) : Task := if t.what == .job j then taskStop c.privs t else t
    let s := s.updSch i fun x =>
      { x with cmds := Tbl.del x.cmds j, tasks := (x.tasks.map stop).filter fun t => !t.acts.isEmpty || t.what != .none }
    let s := fly.foldl (fun s w => leaveWin s c.site w) s
    dropPrivs s i c.site (c.privs.filter fun v => !(v.win.any fun w => fly.contains w))

/-- The job of a command goes back to the head of its queue (R334, R337), a killed step's sequences to the composer (R371). -/
def returnJob (s : State) (i : Nat) (c : Cmd) : State :=
  match c.src with
  | .run q p => s.updQ i q fun x => x.updPos p fun y => { y with ph := .waiting }
  | .step p lane => stepKilled s i p lane

/-- A saved command whose RESTORE has not left waits as PREEMPTED again, with its save region (R337): what would have filled its new windows is
dropped, the spills of old ones and the moves of handles go on. -/
def backToSaved (s : State) (i j : Nat) (c : Cmd) : State :=
  let mine := (s.sc i).tasks.filter fun t => t.what == .job j
  let fly := (mine.filterMap Task.granting).map Prod.snd
  let stop (t : Task) : Task := if t.what == .job j then taskStop [] t else t
  let s := s.updSch i fun x => { x with tasks := (x.tasks.map stop).filter fun t => !t.acts.isEmpty || t.what != .none }
  let s := fly.foldl (fun s w => leaveWin s c.site w) s
  let s := s.updCmd i j fun c => { c with st := .preempted, restore := false, privs := c.privs.map fun v => { v with win := none } }
  dropPrivs s i c.site (c.privs.filter fun v => !(v.win.any fun w => fly.contains w))

/-- A command that has not reached its station is taken back: its moves go on, its job waits again, a saved one as PREEMPTED. -/
def unplace (s : State) (i j : Nat) : State :=
  match s.cmd? i j with
  | some c => if c.restore then backToSaved s i j c else finishCmd (returnJob s i c) i j
  | none => s

/-- The job of a command ends with a status. -/
def endCmdJob (s : State) (i : Nat) (c : Cmd) (status result : Nat) : State :=
  match c.src with
  | .run q p => endPos s i q p status result true
  | .step p lane => stepFailed s i p lane c.committed status result

/-- Handles that a torn-down command may have left half written are damaged (R344): it has started, and may be saved or on its way back. -/
def damageWritten (s : State) (i : Nat) (c : Cmd) : State :=
  if (c.inSlot || c.st == .preempted || c.restore) && (c.cls != 0 || c.committed) then (writeWords c.words).foldl (fun s h => updHnd s i h fun x => { x with damaged := true }) s else s

/-- The station's side of a command whose job has ended: KILL with force where the link is up and it holds a slot, else it leaves at
once (R343, R345). The private windows go once the slot is FREE. -/
def killCmd (s : State) (i j : Nat) (link : Bool) : State :=
  match s.cmd? i j with
  | none => s
  | some c =>
    if c.inSlot && link then
      leaveBarriers ((sendFrame s c.site 2 [c.slot, 1, 0, j, 0]).updCmd i j fun c => { c with dead := true, ask := some .force, isSave := false }) i j
    else finishCmd s i j

/-- A job fault (R343): handles damaged (R344), the TORN_DOWN record, the contained fault, the end of the command (DEDUCED, log entry 67). -/
def jobFault (s : State) (i j : Nat) (link : Bool) : State :=
  match s.cmd? i j with
  | none => s
  | some c =>
    if c.dead then (if link then s else finishCmd s i j)
    else
      let s := damageWritten s i c
      let s := endCmdJob s i c 6 0
      let s := (s.bump (schR i 0 0x128) 1).irq (schPage i 0) 18
      let s := contained s i 0 6 (match c.src with | .run q _ => hubQ i q | .step p _ => p)
      killCmd s i j link

/-! ### START (R289, R341, R342, R394) -/

/-- The di/dt budget of an interval (R342). -/
def didtBudget (s : State) (i : Nat) : Nat := max 1 (s.fld (schR i 0 0xC4) 0 12)

/-- Engines started at a site. -/
def startedEngines (s : State) (k : Nat) : Nat := ((cmdsOn s k).map fun e => e.2.2.goNext).sum

/-- The handle words of a START: VSP handles two to a 64-bit word (R289, R326). -/
def vspWords (c : Cmd) : List Nat :=
  let one (x : Nat × Nat) : Nat :=
    if x.1 = 0 then 0
    else if wordPriv x.1 then ((c.privs.find? fun v => v.k == x.2).map Priv.vsp).getD 0
    else wordId x.1
  let l := c.words.zipIdx.map one
  (List.range 4).map fun n => fields [(0, l.getD (2 * n) 0), (32, l.getD (2 * n + 1) 0)]

/-- GO frames of a command loaded for its size (R342): at most the rest of the budget, within the quota. -/
def pumpGo (s : State) (i j : Nat) : State :=
  match s.cmd? i j with
  | none => s
  | some c =>
    if !c.hold || c.barrier.isSome || c.dead || !(c.st == .loaded || c.st == .running) || c.engines ≤ c.goNext || startsStopped s c.site || fnHeld s i .sch then s
    else
      let n := min (min (didtBudget s i - (s.sc i).started) (c.engines - c.goNext)) (quota s c.site - startedEngines s c.site)
      if n = 0 then s
      else
        let s := sendFrame s c.site 5 [c.slot, 0, 0, j, fields [(0, c.ebase + c.goNext), (8, n)]]
        let s := s.updSch i fun x => { x with started := x.started + n }
        s.updCmd i j fun c => { c with goNext := c.goNext + n, st := .running }

/-- Whether every directory handle of a command stands on its site (R329). -/
def handlesReady (s : State) (i : Nat) (c : Cmd) : Bool := (dirWords c.words).all fun h => (hnd? s i h).any fun x => x.st == 3 && x.site == c.site

/-- A command whose windows are ready sends START or RESTORE once the engines may start (R341, R342, R345, R394, R409). A site whose
table no longer covers it takes the command back, and so does one from which a directory command has taken a handle. -/
def trySend (s : State) (i j : Nat) : State :=
  match s.cmd? i j with
  | none => s
  | some c =>
    if c.st != .due || startsStopped s c.site || (s.site c.site).st != .up || fnHeld s i .sch || !homeOf s i c.part then s
    else if !covers s c.site c || !handlesReady s i c then unplace s i j
    else match cmdHeld s i c with
    | h :: _ => addHeld s i h c.who
    | [] =>
      let hold := c.barrier.isSome || didtBudget s i < c.engines
      if !hold && (didtBudget s i < (s.sc i).started + c.engines || quota s c.site < startedEngines s c.site + c.engines) then s
      else if hold && quota s c.site < busyBeside s c.site (some (i, j)) + c.engines then s
      else
        let w := fields [(0, c.tag), (16, c.ebase), (24, c.engines), (33, c.cls), (35, b2n hold), (48, c.bound)]
        let arg := if c.restore then (c.save.map Prod.fst).getD 0 else c.prog
        let s := sendFrame s c.site (if c.restore then 4 else 1) ([c.slot, 0, 0, j, arg, w, c.args] ++ vspWords c)
        let s := s.bump (schR i 0 0x100) 1
        let now := (s.sc i).clock
        let s := s.updSch i fun x => { x with clock := now + 1, started := if hold then x.started else x.started + c.engines }
        let s := (dirWords c.words).foldl (fun s h => updHnd s i h fun x => { x with last := now }) s
        let s := (writeWords c.words).foldl (fun s h => updHnd s i h fun x => { x with dirty := true }) s
        s.updCmd i j fun c => { c with st := .sent, hold, goNext := if hold then 0 else c.engines }

/-- SAVE for a command whose save region stands (R297, R337). -/
def sendSave (s : State) (i j : Nat) : State :=
  match s.cmd? i j with
  | some c =>
    if c.inSlot && c.isSave && c.ask.isSome then
      let mib := (capF s c.site 0x14 0 32 + 1023) / 1024
      sendFrame s c.site 3 [c.slot, 0, 0, j, (c.save.map Prod.fst).getD 0, 1024 * mib]
    else s
  | none => s

/-- A list of actions has been carried out. -/
def taskEnd (s : State) (i : Nat) (t : TaskFor) : State :=
  match t with
  | .job j => trySend (s.updCmd i j fun c => if c.st == .placing then { c with st := .due } else c) i j
  | .save j => sendSave s i j
  | .dir op h =>
    let s := if op = 5 then updHnd s i h fun x => { x with st := 2, slot := none, dirty := false, changed := false }
      else if op = 2 then s.updSch i fun x => { x with dir := Tbl.del x.dir h }
      else s
    (s.report i [.reg (schR i 1 0x50) 0xFFFF 0x100, .irq (schPage i 1) 17])
  | .none => s

/-- The effect of an action that its station has carried out (R325, R329). -/
def actEffect (s : State) (i : Nat) (a : Nat × Act) : State :=
  let k := a.1
  match a.2 with
  | .spill _ _ h n _ => (updHnd s i h fun x => { x with dirty := false, changed := true }).bump (schR i 1 0x88) (n * 2 ^ 20)
  | .revoke w h =>
    let s := s.updSite k fun x => { x with wins := Tbl.del x.wins w }
    let moving := (s.sc i).tasks.any fun t => t.acts.any fun b => match b.2 with
      | .fill _ _ g _ _ => g == h
      | .copy g _ _ => g == h
      | _ => false
    updHnd s i h fun x => if moving then x else { x with st := if x.slot.isSome then 1 else 2 }
  | .grant w _ _ => s.updSite k fun x => { x with wins := x.wins.map fun e => if e.1 = w then (e.1, { e.2 with granted := true }) else e }
  | .fill w _ h n _ =>
    (updHnd s i h fun x => { x with st := 3, site := k, win := w }).bump (schR i 1 0x80) (n * 2 ^ 20)
  | .copy h _ toHost =>
    let n := ((hnd? s i h).map Hnd.size).getD 0
    (updHnd s i h fun x => if toHost then { x with st := 2, slot := none, changed := false } else { x with changed := false }).bump (schR i 1 0x90) (n * 2 ^ 20)

/-- The task at a position of the list goes on with its next action, or ends. -/
def taskNext (s : State) (i n : Nat) : State :=
  match (s.sc i).tasks[n]? with
  | none => s
  | some t =>
    let rest := t.acts.drop 1
    let s := s.updSch i fun x =>
      { x with tasks := if rest.isEmpty then x.tasks.eraseIdx n else x.tasks.set n { t with acts := rest, sent := false } }
    let s := if rest.isEmpty then taskEnd s i t.what else s
    kick s i

/-- A command that has a slot of its save region at an address: its job number. -/
def savedAt (s : State) (i da : Nat) : Option Nat :=
  ((s.sc i).cmds.find? fun e => e.2.privs.any fun v => v.slot == some da).map Prod.fst

/-- A handle that was MOVING is where its lasting copy is. -/
def settleHnd (s : State) (i h : Nat) : State :=
  updHnd s i h fun x => if x.st = 4 then { x with st := if x.slot.isSome then 1 else 2 } else x

/-- Whether an action takes something off a site or out of the wings, so that it goes on without the command it was planned for. -/
def Act.away : Act → Bool
  | .spill .. => true
  | .revoke .. => true
  | .copy _ _ toHost => toHost
  | _ => false

/-- The rest of a task whose command will not start: what brings handles and windows to its site is taken back, evictions go on. -/
def takeBack (s : State) (i n : Nat) (acts : List (Nat × Act)) : State :=
  let kept := acts.filter fun a => a.2.away
  let s := s.updSch i fun x =>
    { x with tasks := if kept.isEmpty then x.tasks.eraseIdx n else x.tasks.set n { what := .none, acts := kept } }
  let leaves (h : Nat) : Bool := kept.any fun a => match a.2 with | .revoke _ g => g == h | _ => false
  (acts.filter fun a => !a.2.away).foldl (fun s a => match a.2 with
    | .grant w h _ =>
      let s := s.updSite a.1 fun x => { x with wins := Tbl.del x.wins w }
      if leaves h then s else settleHnd s i h
    | .copy h _ _ => updHnd s i h fun x => { x with st := 2, slot := none }
    | _ => s) s

/-- A window that stands on a site without what it was granted for: revoked. -/
def dropWin (s : State) (i k w : Nat) : State :=
  (leaveWin s k w).updSch i fun x => { x with tasks := x.tasks ++ [{ what := .none, acts := [(k, Act.revoke w 0)] }] }

/-- What a task was for ends with it (R323, R344): a RUN that names a damaged handle with HANDLE_DAMAGED, else as a job fault. -/
def taskFailed (s : State) (i : Nat) (t : TaskFor) (damaged : Bool) : State :=
  match t with
  | .job j => (match s.cmd? i j with
    | some c => if damaged then finishCmd (endCmdJob s i c 14 0) i j else jobFault s i j true
    | none => s)
  | .save j => sendSave s i j
  | .dir _ _ => s.report i [.reg (schR i 1 0x50) 0xFFFF 0x1000, .irq (schPage i 1) 17]
  | .none => s

/-- A failed action (R300, R344): a SPILL or FILL that answers DATA_ERROR (`bad`), and no other, damages its handle; the task's job ends, a RUN that
names the damaged handle with HANDLE_DAMAGED (DEDUCED, log entry 66). A private window that cannot be spilled is the fault of the saved job. -/
def actFailed (s : State) (i n : Nat) (a : Nat × Act) (bad : Bool) : State :=
  match (s.sc i).tasks[n]? with
  | none => s
  | some t =>
    let rest := t.acts.drop 1
    match a.2 with
    | .spill _ da h _ _ =>
      if h = 0 then
        let s := taskNext s i n
        match savedAt s i da with
        | some j => jobFault s i j true
        | none => s
      else taskNext (updHnd s i h fun x => { x with damaged := x.damaged || bad, dirty := false }) i n
    | .revoke _ _ => taskNext (actEffect s i a) i n
    | .grant w h _ =>
      let s := takeBack s i n rest
      let s := s.updSite a.1 fun x => { x with wins := Tbl.del x.wins w }
      kick (taskFailed (settleHnd s i h) i t.what false) i
    | .fill w _ h _ _ =>
      let s := dropWin (takeBack s i n rest) i a.1 w
      kick (taskFailed (settleHnd (updHnd s i h fun x => { x with damaged := x.damaged || bad }) i h) i t.what (bad && h != 0)) i
    | .copy h _ _ =>
      let s := takeBack s i n rest
      kick (taskFailed (settleHnd s i h) i t.what false) i

/-- The task whose first action a station's OP_DONE answers: its position in the list. -/
def taskFor (s : State) (i k code win : Nat) : Option (Nat × (Nat × Act)) :=
  (s.sc i).tasks.zipIdx.findSome? fun e => if !e.1.sent then none else match e.1.acts with
    | (k', a) :: _ =>
      let hit := match a with
        | .spill w _ _ _ _ => code == 8 && winNum w == win
        | .fill w _ _ _ _ => code == 9 && winNum w == win
        | .grant w _ _ => code == 6 && winNum w == win
        | .revoke w _ => code == 7 && winNum w == win
        | .copy _ _ _ => false
      if k' == k && hit then some (e.2, (k', a)) else none
    | [] => none

/-- The copy that runs has ended: its task goes on (R328). -/
def copyDone (s : State) (i : Nat) : State :=
  match (s.q i copyQ).poss with
  | p :: _ =>
    if p.ph != .ended then copyAdvance s i
    else
      let ok := (p.recs.head?.map Rec.status) == some 0
      let s := s.setQ i copyQ {}
      match (s.sc i).tasks.zipIdx.findSome? fun e => if !e.1.sent then none else match e.1.acts with
        | (k, .copy h d t) :: _ => some (e.2, (k, Act.copy h d t))
        | _ => none with
      | none => s
      | some (n, a) => if ok then taskNext (actEffect s i a) i n else actFailed s i n a false
  | [] => s

/-! ### KILL and SAVE (R297, R334, R336, R337, R383) -/

/-- KILL without force. -/
def askKill (s : State) (i j : Nat) (why : Ask) : State :=
  match s.cmd? i j with
  | some c => (sendFrame s c.site 2 [c.slot, 0, 0, j, 0]).updCmd i j fun c => { c with ask := some why, isSave := false }
  | none => s

/-- The slots of private windows in a save region, in handle order behind the save area (R337). -/
def saveSlots (at_ : Nat) : List Priv → List Priv
  | [] => []
  | v :: r => { v with slot := some at_ } :: saveSlots (at_ + v.size * 2 ^ 20) r

/-- SAVE of a command, once its save region stands in the wings (R328, R337); `none` where the wings cannot hold one. -/
def askSave (s : State) (i j : Nat) (why : Ask) : Option State :=
  match s.cmd? i j with
  | none => none
  | some c =>
    let mib := (capF s c.site 0x14 0 32 + 1023) / 1024
    let total := mib + (c.privs.map Priv.size).sum
    (wingsAlloc i c.part total (dirWords c.words) (2 * (s.sc i).dir.length + 1) [] s).map fun r =>
      let s := r.1.updCmd i j fun c => { c with save := some (r.2.1, total), privs := saveSlots (r.2.1 + mib * 2 ^ 20) c.privs, ask := some why, isSave := true }
      if r.2.2.isEmpty then sendSave s i j
      else kick (s.updSch i fun x => { x with tasks := x.tasks ++ [{ what := .save j, acts := r.2.2 }] }) i

/-! ### The loss of a station (R311, R344) -/

/-- A PURGE of a partition being destroyed is answered, or its site is lost (R319). -/
def noLongerDying (s : State) (i k : Nat) : State :=
  let f (e : Nat × PartRec) : Nat × PartRec := (e.1, { e.2 with dying := e.2.dying.map fun l => l.filter (· != k) })
  s.updSch i fun x => { x with parts := x.parts.map f }

/-- The STP source bit of a site's island (R424). -/
def stpSrc (k : Nat) : Nat := 16 * (k / 6) + 8 + k % 6

/-- The STP island of a site reset with its link (R37): every register of its page but STP.RETRAINS, which only power-on clears (R314). -/
def stpReset (s : State) (k : Nat) : State :=
  let b := (stpPage k).key
  { s with regs := s.regs.filter fun e => !(b ≤ e.1 && e.1 < b + 0x1000) || e.1 == stpR k 0x100 }

/-- A station is lost (R311, R426): every job on it is torn down, its windows are gone, handles RESIDENT and dirty there are damaged, moves
with it fail, the site is dead for ring snoops, and the link is reset through the sideband and trains again. The event is a UCE-C contained
to the site (R432) (DEDUCED, log entry 183). -/
def siteLost (s : State) (k : Nat) : State :=
  let s := contained (faultEvent s (stpSrc k) 1 { kind := 2, idx := k } none) (owner s k) 4 0 k
  let s := siteDead s k
  let on := cmdsOn s k
  let s := s.updSite k fun x => { swapped := x.swapped, moving := x.moving, taking := x.taking, st := .training }
  let gone (i : Nat) (s : State) : State :=
    let ws := (s.hl i).stWait.filter fun q => q.site == k
    ws.foldl (fun s q => dropMisses s 1 (.station k q.tag)) (ws.foldl (fun s q => dropMisses s 0 (.station k q.tag)) (s.updHlc i fun h => { h with stWait := h.stWait.filter fun q => q.site != k }))
  let s := gone 1 (gone 0 s)
  let s := on.foldl (fun s e => if e.2.2.inSlot then jobFault s e.1 e.2.1 false else unplace s e.1 e.2.1) s
  let one (i : Nat) (s : State) : State :=
    let s := ((s.sc i).cmds.filter fun e => e.2.st == .preempted && e.2.site == k && e.2.privs.any fun v => v.win.isSome).foldl
      (fun s e => jobFault s i e.1 false) s
    let bad (t : Task) : Bool := t.acts.any fun a => a.1 == k && (match a.2 with | .copy _ _ _ => false | _ => true)
    let dead := (s.sc i).tasks.filter bad
    let s := s.updSch i fun x => { x with tasks := x.tasks.filter fun t => !bad t }
    let hs := dead.flatMap fun t => t.acts.filterMap fun a => match a.2 with
      | .spill _ _ h _ _ => some h
      | .fill _ _ h _ _ => some h
      | .revoke _ h => some h
      | .grant _ h _ => some h
      | .copy h _ _ => some h
    let back (s : State) (h : Nat) : State := updHnd s i h fun x =>
      if x.st = 4 then { x with st := if x.slot.isSome then 1 else 2, damaged := x.damaged || x.dirty, dirty := false } else x
    let s := hs.eraseDups.foldl back s
    let s := dead.foldl (fun s t => match t.what with
      | .job j => unplace s i j
      | .save j => sendSave s i j
      | .dir _ _ => s.report i [.reg (schR i 1 0x50) 0xFFFF 0x1000, .irq (schPage i 1) 17]
      | .none => s) s
    let res := (s.sc i).dir.filter fun e => e.2.st == 3 && e.2.site == k
    let s := res.foldl (fun s e => updHnd s i e.1 fun x =>
      { x with st := if x.slot.isSome then 1 else 2, damaged := x.damaged || x.dirty, dirty := false }) s
    noLongerDying s i k
  let s := one 1 (one 0 s)
  ((stpReset s k).irq (stpPage k) 16).emit (.siteReset k)

/-! ### Answers of stations (R292-R305) -/

/-- The command of a frame: in the slot, with the job number. -/
def frameCmd (s : State) (k slot job : Nat) : Option (Nat × Nat × Cmd) :=
  match cmdAt s k slot with
  | some (i, j, c) => if j = job then some (i, j, c) else none
  | none => none

/-- A command's barrier group (R339). -/
def joinBarrier (s : State) (i j : Nat) (c : Cmd) : State :=
  match (if c.dead then none else c.barrier) with
  | none => s
  | some (id, m) =>
    let mine (b : Barrier) : Bool := b.part == c.part && b.id == id && b.left.isNone
    let add (b : Barrier) : Barrier := if mine b then { b with jobs := b.jobs ++ [j], first := if b.first.isNone then some (s.time i) else b.first } else b
    if (s.sc i).barriers.any mine then s.updSch i fun x => { x with barriers := x.barriers.map add }
    else s.updSch i fun x => { x with barriers := x.barriers ++ [{ part := c.part, id, members := m, jobs := [j], first := some (s.time i) }] }

/-- The engines of a closed group, by site and engine number (R341). -/
def barrierEngines (s : State) (i : Nat) (b : Barrier) : List (Nat × Nat) :=
  (List.range 12).flatMap fun k =>
    let cs := b.jobs.filterMap fun j => (s.cmd? i j).bind fun c => if c.site = k then some (j, c) else none
    let es := cs.flatMap fun e => (List.range e.2.engines).map fun n => (e.2.ebase + n, e.1)
    (sortBy (fun a b => a.1 ≤ b.1) es).map fun e => (e.2, e.1)

/-- A wave of engines of a released group, split over GO frames by slot and run of engines (R341). -/
def goRuns : List (Nat × Nat) → List (Nat × Nat × Nat)
  | [] => []
  | (j, e) :: r =>
    match goRuns r with
    | (j', b, n) :: rest => if j' = j && b = e + 1 then (j, e, n + 1) :: rest else (j, e, 1) :: (j', b, n) :: rest
    | [] => [(j, e, 1)]

/-- The next wave of a released group, of the engines it had at the close (R341, R342, R394): it waits where the di/dt budget, a site's quota or a
stop of starts does not let it go. -/
def barrierWave (s : State) (i p id : Nat) : State :=
  match (s.sc i).barriers.find? fun b => b.part == p && b.id == id && b.left.isSome with
  | none => s
  | some b =>
    let es := b.left.getD []
    let w := max 1 (min b.wave (didtBudget s i))
    let now := (es.take w).filter fun e => b.jobs.contains e.1
    let on := now.filterMap fun e => (s.cmd? i e.1).map Cmd.site
    let stopped (k : Nat) : Bool := startsStopped s k || quota s k < startedEngines s k + (on.filter (· == k)).length
    let set (f : Barrier → Barrier) (s : State) : State := s.updSch i fun x => { x with barriers := x.barriers.map fun y => if y == b then f y else y }
    if didtBudget s i < (s.sc i).started + now.length || on.any stopped || fnHeld s i .sch then set (fun y => { y with due := true }) s
    else
      let rest := es.drop w
      let s := set (fun y => { y with left := some rest, due := false }) s
      let s := s.updSch i fun x => { x with started := x.started + now.length, barriers := if rest.isEmpty then x.barriers.filter fun y => !(y.part == p && y.id == id && y.left == some []) else x.barriers }
      (goRuns now).foldl (fun s r => match s.cmd? i r.1 with
        | some c => (sendFrame s c.site 5 [c.slot, 0, 0, r.1, fields [(0, r.2.1), (8, r.2.2)]]).updCmd i r.1 fun c => { c with st := if c.st == .loaded then .running else c.st, goNext := c.goNext + r.2.2 }
        | none => s) s

/-- The private windows of a saved command spilled into its save region and revoked (R337, R383). -/
def spillSaved (s : State) (i j : Nat) : State :=
  match s.cmd? i j with
  | none => s
  | some c =>
    let k := c.site
    let vs := c.privs.filter fun v => v.win.isSome
    if vs.isEmpty then s
    else
      let s := vs.foldl (fun s v => leaveWin s k (v.win.getD 0)) s
      let s := s.updCmd i j fun c => { c with privs := c.privs.map fun v => { v with win := none } }
      let act (v : Priv) : List (Nat × Act) := [(k, Act.spill (v.win.getD 0) (v.slot.getD 0) 0 v.size c.tag), (k, Act.revoke (v.win.getD 0) 0)]
      kick (s.updSch i fun x => { x with tasks := x.tasks ++ [{ what := .none, acts := vs.flatMap act }] }) i

/-- Saved commands whose private windows still stand once the command that they made room for has started, on whatever site: their windows are
spilled (R337). One that a slice end saved has no such command: the next one to start there (DEDUCED, log entry 151). -/
def spillAfter (s : State) (i k : Nat) (src : CmdSrc) : State :=
  let due := (s.sc i).cmds.filter fun e => e.2.st == .preempted && (e.2.victim == some src || (e.2.victim.isNone && e.2.site == k)) && e.2.privs.any fun v => v.win.isSome
  due.foldl (fun s e => spillSaved s i e.1) s

/-- ACCEPT (R293, R334, R335): the slot is LOADED or RUNNING and the slice starts; a barrier group that is whole is released. -/
def onAccept (s : State) (k slot job : Nat) : State :=
  match frameCmd s k slot job with
  | none => s
  | some (i, j, c) =>
    if c.st != .sent then s
    else
      let q := match c.src with | .run q _ => q | .step _ _ => copyQ
      let d := Tbl.getD (s.sc i).debts q 0
      let full := max 1 (s.fld (schR i 0 (0x80 + 4 * c.part)) 0 16)
      let n := (s.sc i).clock
      let s := s.updSch i fun x => { x with clock := n + 1, debts := Tbl.del x.debts q }
      let s := s.updCmd i j fun c =>
        { c with st := if c.hold && c.goNext == 0 then .loaded else .running, accSeq := n, slice := max 1 (full - d), save := if c.restore then none else c.save, restore := false, ask := c.ask }
      let s := joinBarrier s i j c
      let s := match c.barrier with
        | none => pumpGo s i j
        | some (id, m) =>
          match (s.sc i).barriers.find? fun b => b.part == c.part && b.id == id && b.left.isNone && b.jobs.contains j with
          | some b =>
            if b.jobs.length < m then s
            else
              let es := barrierEngines s i b
              let waves := max 1 (s.fld (schR i 0 0xC0) 0 4)
              let wave := (es.length + waves - 1) / waves
              barrierWave (s.updSch i fun x => { x with barriers := x.barriers.map fun y => if y == b then { y with left := some es, wave } else y }) i c.part id
          | none => s
      spillAfter s i k c.src

/-- COMMIT_BEGIN (R292, R294). -/
def onCommitBegin (s : State) (k slot job : Nat) : State :=
  match frameCmd s k slot job with
  | none => s
  | some (i, j, c) => if c.st == .running && c.cls = 0 then s.updCmd i j fun c => { c with st := .committing, committed := true } else s

/-- COMMIT_END (R295, R323, R364, R367): the job ends with the station's result; a step's entries are read at their byte 0x38. -/
def onCommitEnd (s : State) (k slot job arg : Nat) (marks : List Byte) (st : Rsp) : State :=
  match frameCmd s k slot job with
  | none => s
  | some (i, j, c) =>
    if c.dead then finishCmd s i j
    else
      let s := finishCmd s i j
      match c.src with
      | .run q p => endPos s i q p 0 arg true
      | .step p lane =>
        if st == .ok then stepCommit s i p lane marks
        else
          let s := stepKilled s i p lane
          contained ((s.updEnsemble i p fun e => { e with st := if e.st == 1 then 3 else e.st }).irq (ensPage i) 17) i 3 0 p

/-- CMD_ERROR (R305): the job ends with STATION_ERROR. -/
def onCmdError (s : State) (k slot job code engine addr : Nat) : State :=
  let s := (s.setR (stpR k 0x58) (fields [(0, code), (8, slot), (16, engine), (31, 1)])).setR (stpR k 0x60) addr
  let s := s.irq (stpPage k) 17
  match frameCmd s k slot job with
  | none => s
  | some (i, j, c) =>
    if c.dead then finishCmd s i j
    else
      let result := fields [(0, code), (8, k), (12, engine), (20, addr / 2 ^ 20)]
      let s := finishCmd s i j
      endCmdJob s i c 10 result

/-- PREEMPT_RSP (R292, R297, R334, R337): a victim that commits stays one until COMMIT_END; a command whose job has ended leaves unless the answer says that it continues. -/
def onPreempt (s : State) (k slot job result arg : Nat) : State :=
  match frameCmd s k slot job with
  | none => s
  | some (i, j, c) =>
    if c.dead then (if result = 2 || result = 3 then s else finishCmd s i j)
    else
      match c.ask with
      | none => s
      | some why =>
        if result = 0 then
          let s := if why == .preempt || why == .slice then s.bump (schR i 0 0x108) 1 else s
          finishCmd (returnJob s i c) i j
        else if result = 1 then
          let s := (leaveBarriers (s.bump (schR i 0 0x110) 1) i j).updCmd i j fun c => { c with barrier := none, st := .preempted, ask := none, curtain := why == .curtain, goNext := 0, stretch := none, saved := arg }
          let s := settleDebt s i c
          if why == .curtain then spillSaved s i j else s
        else if result = 5 then jobFault (s.updCmd i j fun c => { c with ask := none }) i j true
        else
          let late := result = 2 && why == .slice
          s.updCmd i j fun c => { c with ask := none, victim := if result = 2 then c.victim else none, save := if c.isSave then none else c.save,
                                         stretch := if late && c.stretch.isNone then some (s.time i) else c.stretch }

/-- The slots of a partition on a site are FREE (R300): each job ends as a job fault, but where DESTROY ends it with its queue (R319). -/
def purged (s : State) (k p : Nat) : State :=
  let one (s : State) (e : Nat × Nat × Cmd) : State :=
    if (part? s e.1 p).any fun r => r.dying.isSome then finishCmd s e.1 e.2.1 else jobFault s e.1 e.2.1 false
  ((cmdsOn s k).filter fun e => e.2.2.part == p && e.2.2.inSlot).foldl one s

/-- A step that its station no longer holds, and of which no end came before, has failed (R371): before its commit, or after it, as the mirror
has it. Its STATION_ERROR names the site alone (DESIGN CHOICE, log entry 181). -/
def stepGone (s : State) (i j : Nat) : State :=
  match s.cmd? i j with
  | some c =>
    match c.src with
    | .step _ _ =>
      let s := finishCmd s i j
      if c.dead then s else endCmdJob s i c 10 (2 ^ 8 * c.site)
    | .run _ _ => s
  | none => s

/-- STATE_RSP (R312, R371, R443): a slot that is not FREE and that no command holds is killed; a step whose slot is FREE has failed; the site
takes commands again. -/
def onStateRsp (s : State) (k : Nat) (codes : List Nat) : State :=
  if !(s.site k).query then s
  else
    let odd := (codes.zipIdx.filter fun e => e.1 != 0 && (cmdAt s k e.2).isNone).map Prod.snd
    let gone := codes.zipIdx.filterMap fun e => if e.1 = 0 then (cmdAt s k e.2).map fun c => (c.1, c.2.1) else none
    let s := gone.foldl (fun s e => stepGone s e.1 e.2) (s.updSite k fun x => { x with query := false })
    odd.foldl (fun s n => sendFrame s k 2 [n, 1, 0, 0, 0]) s

/-- HOST_FLUSH (R287, R295): the host writes of the command in a slot are to be reported flushed; the frame carries a tag in place of a job number. -/
def onHostFlush (s : State) (k slot : Nat) : State :=
  match cmdAt s k slot with
  | some (i, j, _) => s.updCmd i j fun c => { c with flushing := true }
  | none => s

/-- ACTIVITY (R309): counts added to STP.ACT0-7. -/
def onActivity (s : State) (k : Nat) (counts : List Nat) : State :=
  ((counts.take 8).zipIdx).foldl (fun s e => s.bump (stpR k (0xC0 + 8 * e.2)) (e.1 % 2 ^ 32)) s

/-- The tear-down of a station that SITE_ERR_N, or a STATION_FAULT of class UCE or FATAL, reports (R426). -/
def stationFailed (s : State) (k : Nat) : State := siteLost s k

/-- STATION_FAULT (R288, R314, R426): recorded; class CE is counted, the others tear down the station. -/
def onStationFault (s : State) (k cls code detail : Nat) : State :=
  let s := (s.setR (stpR k 0x68) (fields [(0, cls), (8, code), (31, 1)])).irq (stpPage k) 18
  let m : FltSrc := { kind := 2, idx := k, detail := fields [(16, detail % 2 ^ 15)] }
  let s := faultEvent s (40 + k) (if cls = 0 then 0 else 1) m none
  if cls = 0 then s else stationFailed s k

/-- CAP_DATA (R290, R291): the block is kept; the site is UP where the protocol fits and every field is in range, else MISMATCH. -/
def onCapData (s : State) (k : Nat) (block : List Byte) : State :=
  if block.length != 64 || !((s.site k).st == .cap || (s.site k).st == .up || (s.site k).st == .mismatch) then s
  else
    let s := (List.range 8).foldl (fun s n => s.setR (stpR k (0x80 + 8 * n)) (fieldAt block (8 * n) 8)) s
    let f (off lo w : Nat) : Nat := capF s k off lo w
    let inR (v lo hi : Nat) : Bool := lo ≤ v && v ≤ hi
    let ok := f 0 8 8 == 1 && inR (f 8 0 9) 1 256 && inR (f 8 16 7) 1 64 && inR (f 0xC 0 16) 64 65535 && inR (f 0xC 16 7) 8 64 &&
      inR (f 0x10 0 16) 1 100 && inR (f 0x10 16 16) 1 10000 && 400 ≤ f 0x18 16 16 && f 0x1C 5 27 == 0 && f 0x20 0 64 == 0 && f 0x28 0 64 == 0 &&
      f 0x30 0 64 == 0 && f 0x38 0 64 == 0
    let s := s.updSite k fun x => { x with st := if ok then .up else .mismatch }
    let s := s.irq (stpPage k) 16
    if ok then flushFrames s k else s.irq (stpPage k) 19

/-- OP_DONE (R300): the task it answers goes on; a PURGE ends the partition's jobs on the site. -/
def onOpDone (s : State) (k result code win : Nat) : State :=
  if code = 10 then
    match (s.site k).purge with
    | none => s
    | some p =>
      let s := purged (s.updSite k fun x => { x with purge := none }) k p
      let gone := ((s.site k).wins.filter fun w => w.2.job != 0 || ((partAt s k).any fun x => x.2 == p)).map Prod.fst
      let s := gone.foldl (fun s w => s.updSite k fun x => { x with wins := Tbl.del x.wins w }) s
      let one (i : Nat) (s : State) : State :=
        let res := (s.sc i).dir.filter fun e => e.2.st == 3 && e.2.site == k && e.2.part == p
        let s := res.foldl (fun s e => updHnd s i e.1 fun x => { x with st := if x.slot.isSome then 1 else 2, damaged := x.damaged || x.dirty, dirty := false }) s
        noLongerDying s i k
      one 1 (one 0 s)
  else
    match [0, 1].findSome? fun i => (taskFor s i k code win).map fun t => (i, t) with
    | none => s
    | some (i, n, a) => if result = 0 then taskNext (actEffect s i a) i n else actFailed s i n a (result == 4)

/-- A frame of a station (R288): held while no instance that works owns the site (R312). -/
def onFrame (s : State) (k : Nat) (f : Frame) : State :=
  if !ownerWorks s k then s.updSite k fun x => { x with held := x.held ++ [f] }
  else
    let s := takeCredit s k f
    match f with
    | .accept slot job => onAccept s k slot job
    | .commitBegin slot job => onCommitBegin s k slot job
    | .commitEnd slot job arg marks st => onCommitEnd s k slot job arg marks st
    | .preempt slot job r arg => onPreempt s k slot job r arg
    | .opDone _ r code w => onOpDone s k r code w
    | .cmdError slot job code e a => onCmdError s k slot job code e a
    | .capData b => onCapData s k b
    | .stateRsp cs => onStateRsp s k cs
    | .snpRsp tag op d => snpRsp s k tag (op % 4) (op / 4 % 4) (op / 16) d
    | .hostFlush slot _ => onHostFlush s k slot
    | .activity cs => onActivity s k cs
    | .fault c code d => onStationFault s k c code d
    | .unknown => faultEvent s (stpSrc k) 0 { kind := 2, idx := k } none

end Sys2Proof.Machine
end

