-- ==== Sys2Proof/Machine/Qcmd.lean ====
section
/-! DEFINITION. Pre-translation (R203, R140, R322, R353) and the queue commands that reach station commands and sequences:
ENABLE, DISABLE, RESUME, RESET (R115, R345, R371). -/
namespace Sys2Proof.Machine

/-! ### Pre-translation -/

/-- The footprints of a DMA descriptor, each with whether it is a data footprint: the next descriptor's is none (R222). -/
def taggedFps (raw : List Byte) : List (Fp × Bool) :=
  let n := (operandsOf raw).length
  (footprints raw).zipIdx.map fun e => (e.1, e.2 < n)

/-- A DMA descriptor checked (R140) and translated (R203): it is ready, or it waits, or it fails (DESIGN CHOICE, log entry 33). -/
def pretransDma (s : State) (i q pos idx : Nat) (raw : List Byte) (us : List URec) : State :=
  match checkDesc raw idx with
  | some r => failDesc s i q pos idx 8 (fields [(0, r), (8, idx % 4096)])
  | none =>
    let x := s.q i q
    match xlateFps (xctx s i x) (taggedFps raw) s us 0 with
    | (s, us, .ok) =>
      (updDesc s i q pos idx fun d => { d with ph := .ready, units := us, wins := (List.range 16).map (winReg s i x.part) }).updQ i q fun x => x.updPos pos fun y =>
        { y with nonIdem := jobNonIdem (y.descs.map DescSt.raw) }
    | (s, us, t) =>
      let s := updDesc s i q pos idx fun d => { d with units := us, ph := .miss }
      applyStop s i (.desc q pos idx) x.part (pasidOf s i x.vd) t

/-- The ranges of a STATION or SERVING descriptor that lie in host windows, translated (R222): such a descriptor raises no page request, and is
ready, waits, or ends with PRQ_NOT_ALLOWED where a right is missing. -/
def pretransHost (s : State) (i q pos : Nat) (rs : List (Nat × Nat × Bool)) : State :=
  let x := s.q i q
  let fp (r : Nat × Nat × Bool) : Fp × Bool := (⟨0, (r.1 : Int), (r.1 : Int) + r.2.1, !r.2.2, r.2.2⟩, false)
  let host := rs.filter fun r => 2 ^ 50 ≤ r.1 && r.1 < 2 ^ 51 && r.2.1 != 0
  match xlateFps (xctx s i x) (host.map fp) s [] 0 with
  | (s, _, .ok) => updDesc s i q pos 0 fun d => { d with ph := .ready }
  | (s, _, t) => applyStop (updDesc s i q pos 0 fun d => { d with ph := .miss }) i (.desc q pos 0) x.part (pasidOf s i x.vd) t

/-- The check that a descriptor of a STATION or SERVING queue shares with DMA queues where QM completes it (R322, R352). -/
def qmOpCheck (raw : List Byte) : Option Nat := if chainOf raw then some 2 else checkDesc raw 0

/-- Whether a handle word of a RUN is in range (R320, R322). -/
def wordOk (s : State) (i p w : Nat) : Bool :=
  w == 0 || (bits w 16 8 == 0 && bits w 26 6 == 0 &&
    (if wordPriv w then 1 ≤ wordId w && wordId w ≤ 4096
     else match hnd? s i (wordId w) with
       | some d => d.part == p
       | none => false))

/-- FIELD_RANGE of a RUN (R322): members is checked whether or not the RUN joins a barrier group. -/
def runRange (s : State) (i : Nat) (x : Queue) (raw : List Byte) : Bool :=
  let cls := runClass x raw
  let e := df raw 0x18 32 9
  let m := df raw 0x10 52 10
  let saveless := (sitesFor s i x.part 0xFFF).any fun k => !bitAt (capF s k 0x1C 0 32) 0
  chainOf raw || df raw 0 11 5 != 0 || df raw 0x10 62 2 != 0 || df raw 0x18 41 7 != 0 || df raw 0x18 60 4 != 0 ||
  (cls != 1 && df raw 0 16 16 == 0) || (cls == 1 && saveless) || e == 0 || 256 < e || df raw 0x18 0 16 == 0 ||
  m == 0 || 768 < m || (rawWords raw).any fun w => !wordOk s i x.part w

/-- A descriptor of a STATION queue (R320, R322): a RUN that no site of its partition covers ends with STATION_UNMAPPED, whatever its mask admits
(R330); the address is the first that the lowest-numbered site lacks (DEDUCED, log entry 172). -/
def pretransRun (s : State) (i q pos : Nat) (raw : List Byte) : State :=
  let x := s.q i q
  let o := opcodeOf raw
  let bad (r : Nat) : State := failDesc s i q pos 0 8 r
  if o = 0xC || o = 0xE || o = 0xF then
    match qmOpCheck raw with
    | some r => bad r
    | none => updDesc s i q pos 0 fun d => { d with ph := .ready }
  else if o != 0x30 then bad 1
  else if runRange s i x raw then bad 2
  else
    let c := runCmd x q pos raw
    let ks := sitesFor s i x.part 0xFFF
    if ks.any fun k => covers s k c then pretransHost s i q pos [(c.prog, 1024 * c.progKib, false), (c.args, 1024 * c.argsKib, false)]
    else failDesc s i q pos 0 3 (xlateResult 9 0 0 ((ks.findSome? fun k => uncovered s k c).getD c.prog))

/-- FIELD_RANGE of a SEQUENCE's own fields (R352, R353). -/
def seqRange (raw : List Byte) : Bool :=
  chainOf raw || df raw 0 9 23 != 0 || df raw 8 52 12 != 0 || df raw 0x18 52 12 != 0 || df raw 0x20 52 12 != 0 || df raw 0x10 48 16 != 0 ||
  df raw 0x28 0 64 != 0 || df raw 0x30 32 32 != 0 || df raw 0x38 0 64 != 0 || df raw 0x10 0 24 == 0 || df raw 0x10 24 24 == 0 || df raw 0x30 0 16 == 0

/-- Whether a sequence exceeds what a pool can hold (R353). -/
def seqTooLong (k : PoolRec) (raw : List Byte) : Bool :=
  let n := df raw 0x10 0 24 + df raw 0x10 24 24
  2 ^ k.btLog2 * k.btoks < n || k.blocks - k.reserve < k.need n

/-- A descriptor of a SERVING queue, checked in the order of R353; while its partition's ensemble has no pool the position waits before the
checks that need one (R351) (DEDUCED, log entry 152). -/
def pretransSeq (s : State) (i q pos : Nat) (raw : List Byte) : State :=
  let x := s.q i q
  let o := opcodeOf raw
  let bad (r : Nat) : State := failDesc s i q pos 0 8 r
  let ready : State := updDesc s i q pos 0 fun d => { d with ph := .ready }
  if o = 0xC || o = 0xE || o = 0xF then
    match qmOpCheck raw with
    | some r => bad r
    | none => ready
  else if o != 0x40 then bad 1
  else if seqRange raw then bad 2
  else if df raw 8 0 2 != 0 || df raw 0x18 0 6 != 0 then bad 3
  else
    match pool? s i (poolNo s i x.part) with
    | none => s
    | some k =>
    if seqTooLong k raw then bad 2 else
    let ks := sitesFor s i x.part 0xFFF
    let gap (lo n : Nat) : Option Nat := if ks.isEmpty then some lo else leastBy id (ks.filterMap fun k => shadowGap s k x.part lo n)
    let bad3 (a : Nat) : State := failDesc s i q pos 0 3 (xlateResult 9 0 0 a)
    let rs := seqRanges raw
    match rs.findSome? fun r => gap r.1 r.2.1 with
    | some a => bad3 a
    | none => pretransHost s i q pos rs

/-- The first descriptor of a queue that ATU has not yet read, with its position and chain index. -/
def firstPending (x : Queue) : Option (Nat × Nat × DescSt) :=
  x.poss.findSome? fun p =>
    if p.ph == .ended then none
    else (p.descs.zipIdx.find? fun e => e.1.ph == .pending).map fun e => (p.pos, e.2, e.1)

/-- PRETRANSLATE (R203): the next fetched descriptor of a queue is checked and translated. -/
def pretranslate (s : State) (i q : Nat) : State :=
  let x := s.q i q
  match firstPending x with
  | none => s
  | some (pos, idx, d) =>
    if x.ctx.kind = 1 then pretransRun s i q pos d.raw
    else if x.ctx.kind = 2 then pretransSeq s i q pos d.raw
    else pretransDma s i q pos idx d.raw d.units

/-- PRETRANSLATE (R203). -/
def execPretranslate (i : Inst) (q : Qidx) (s : State) : Host.Outcome State Fault Refusal :=
  liveF s i.val .atu fun s => pretranslate s i.val q.toNat

/-! ### Context commands that reach running work (R115) -/

/-- Station commands of a queue, by job number. -/
def cmdsOfQueue (s : State) (i q : Nat) : List (Nat × Cmd) :=
  (s.sc i).cmds.filter fun e => (match e.2.src with | .run q' _ => q' == q | .step _ _ => false) && !e.2.dead

/-- A channel whose job is torn down by RESET stops as on a halt, without latching an error (R115). -/
def tornChan (s : State) (cid : Nat) : State :=
  match (s.chan cid).st with
  | .running | .pausing | .paused => dropWork (s.updChan cid fun ch => { ch with st := .halting, torn := true }) cid
  | .halting => s.updChan cid fun ch => { ch with torn := true }
  | _ => s

/-- A queue torn down (R115, R345, R368, R371): every started position ends with TORN_DOWN, its work is stopped, the queue is DISABLED. -/
def tearQueue (s : State) (i q : Nat) : State :=
  let st := (s.q i q).poss.filter fun p => p.ph == .started
  let s := st.foldl (fun s p => match p.chan with
    | some cid => tornChan s cid
    | none => s) s
  let stop (s : State) (e : Nat × Cmd) : State := match s.cmd? i e.1 with
    | some c => killCmd (damageWritten s i c) i e.1 (linkOk s c.site)
    | none => s
  let s := (cmdsOfQueue s i q).foldl stop s
  let res := st.map fun p => (p.pos, ((seqAt s i q p.pos).map fun x => seqResult x false).getD 0)
  let s := resetSeqs s i q
  let s := res.foldl (fun s e => dropPosWaits (endPos s i q e.1 6 e.2 false) i q e.1) s
  let s := dropUnstarted s i q
  showPinned (s.updQ i q fun x => { x with mode := .disabled, conds := {}, evt := none, cqBad := false, ctx := { x.ctx with fetch := x.ctx.tail, done := x.ctx.tail, pinned := false } }) i

/-- CTX_RESET (R115): allowed in every state but DISABLED. -/
def ctxReset (s : State) (i q : Nat) : State :=
  if (s.q i q).mode == .disabled then ctxEnd s i q 0x10 false else ctxEnd (tearQueue s i q) i q 0x01 true

/-- CTX_RESET (R115). -/
def execCtxReset (i : Inst) (a : Acc) (s : State) : Host.Outcome State Fault Refusal := ctxCmd s i a (.ctxReset i a) fun s q => ctxReset s i.val q

/-- A queue begins to drain (R115, R371): unstarted positions go without records, sequences in no step end with CANCELLED. -/
def drainQueue (s : State) (i q : Nat) : State :=
  let s := cancelSeqs (dropUnstarted s i q) i q 0x10
  s.updQ i q fun x => { x with mode := .draining }

/-- CTX_DISABLE (R115): allowed in every state but DISABLED and DRAINING. -/
def ctxDisable (s : State) (i q : Nat) : State :=
  if (s.q i q).mode != .enabled then ctxEnd s i q 0x10 false else ctxEnd (drainQueue s i q) i q 0x01 true

/-- CTX_DISABLE (R115). -/
def execCtxDisable (i : Inst) (a : Acc) (s : State) : Host.Outcome State Fault Refusal := ctxCmd s i a (.ctxDisable i a) fun s q => ctxDisable s i.val q

/-- CTX_RESUME (R113, R115): the shown condition goes; AHEAD, and an ERROR of AHEAD_TIMEOUT (R109), read again at once. HOST_WAIT
goes only while the group is ATTACHED. -/
def ctxResume (s : State) (i q : Nat) : State :=
  let x := s.q i q
  let reread (x : Queue) : Queue := { x with poss := x.poss.map fun y => if y.fet == .parked then { y with fet := .due } else y }
  let ok (f : Queue → Queue) : State := ctxEnd (s.updQ i q f) i q 0x01 true
  match x.state with
  | 7 => ok fun x => reread { x with conds := { x.conds with error := false }, cqBad := false }
  | 4 => if (s.group x.ctx.group).st == .attached then ok fun x => { x with conds := { x.conds with hostWait := false } } else ctxEnd s i q 0x01 true
  | 3 => ok fun x => reread { x with conds := { x.conds with ahead := false } }
  | _ => ctxEnd s i q 0x10 false

/-- CTX_RESUME (R115). -/
def execCtxResume (i : Inst) (a : Acc) (s : State) : Host.Outcome State Fault Refusal := ctxCmd s i a (.ctxResume i a) fun s q => ctxResume s i.val q

end Sys2Proof.Machine
end

