-- ==== Sys2Proof/Machine/Vd.lean ====
section
/-! DEFINITION. Virtual devices (R374-R392): creation, destruction, the curtain, the state image, the mailbox. -/
namespace Sys2Proof.Machine

/-- A register of the VDM page. -/
def vdmR (i off : Nat) : Nat := reg .vdm i 0 off

/-- The VDM page. -/
def vdmPage (i : Nat) : PageId := ⟨.vdm, i, 0⟩

/-- The partition, group, queue base and count of a VD. -/
def VdRec.part (r : VdRec) : Nat := bits r.cfg0 0 4

/-- The host group of a VD. -/
def VdRec.group (r : VdRec) : Nat := bits r.cfg0 4 2

/-- First queue index of a VD. -/
def VdRec.qbase (r : VdRec) : Nat := bits r.cfg1 0 20

/-- Queues of a VD. -/
def VdRec.qcount (r : VdRec) : Nat := bits r.cfg1 32 21

/-- First vector of a VD. -/
def VdRec.vbase (r : VdRec) : Nat := bits r.cfg2 0 16

/-- Vectors of a VD. -/
def VdRec.vcount (r : VdRec) : Nat := bits r.cfg2 32 17

/-- First event counter of a VD. -/
def VdRec.ebase (r : VdRec) : Nat := bits r.cfg3 0 12

/-- Event counters of a VD. -/
def VdRec.ecount (r : VdRec) : Nat := bits r.cfg3 16 13

/-- The context tag of a VD. -/
def VdRec.tag (r : VdRec) (v : Nat) : Nat := 4096 * r.part + v

/-- VDM.STATUS.state of a VD. -/
def VdPhase.code : VdPhase → Nat
  | .free => 0 | .active => 1 | .closing => 2 | .down => 3

/-- Existing VDs of an instance. -/
def vdsOf (s : State) (i : Nat) : List (Nat × VdRec) := (s.vdm.get i).filter fun e => e.2.st != .free

/-- Listed queues in the range of a VD, with their indices. -/
def vdQueues (s : State) (i : Nat) (r : VdRec) : List (Nat × Queue) :=
  (queuesOf s i).filter fun e => r.qbase ≤ e.1 && e.1 < r.qbase + r.qcount

/-- PREEMPTED commands of the queues of a VD, in job order. -/
def vdSaved (s : State) (i : Nat) (r : VdRec) : List (Nat × Cmd) :=
  (s.sc i).cmds.filter fun e => e.2.st == .preempted && (match e.2.src with
    | .run q _ => r.qbase ≤ q && q < r.qbase + r.qcount
    | .step _ _ => false)

/-- Sequences of the queues of a VD, in table order. -/
def vdSeqs (s : State) (i : Nat) (r : VdRec) : List (Nat × SeqRec) :=
  (s.en i).seqs.filter fun e => r.qbase ≤ e.2.q && e.2.q < r.qbase + r.qcount && e.2.late != some 6

/-- A VD command ends (R375, R392): with a change it reports once the partner holds it (DEDUCED, log entry 80). -/
def vdEnd (s : State) (i result : Nat) (changed : Bool) : State :=
  if changed && mirrored s i then
    (s.setR (vdmR i 0x48) 1).report i [.reg (vdmR i 0x48) 0xFF01 (256 * result), .irq (vdmPage i) 16]
  else (s.setR (vdmR i 0x48) (256 * result)).irq (vdmPage i) 16

/-- A VD command: refused while one is in progress (R392). -/
def vdCmd (s : State) (i : Inst) (a : Acc) (c : Instr) (f : State → Nat → State) : Host.Outcome State Fault Refusal :=
  cmdD s i a (vdmPage i.val) c (fun s => s.fld (vdmR i.val 0x48) 0 1 = 1) fun s =>
    if s.fld (vdmR i.val 0x48) 0 1 = 1 then s.perr (vdmPage i.val) 16 else f s (s.fld (vdmR i.val 0x40) 0 12)

/-! ### Creation and destruction (R376, R382) -/

/-- The record that VDM.CFG0-CFG4 describe. -/
def cfgRec (s : State) (i : Nat) : VdRec :=
  { st := .active, cfg0 := s.r (vdmR i 0x50), cfg1 := s.r (vdmR i 0x58), cfg2 := s.r (vdmR i 0x60), cfg3 := s.r (vdmR i 0x68), cfg4 := s.r (vdmR i 0x70) }

/-- Whether a VD has memory of its own: mem_valid. -/
def VdRec.mem (r : VdRec) : Bool := bitAt r.cfg4 40

/-- BAD_FIELD of CREATE (R376). -/
def vdBadField (s : State) (i : Nat) (r : VdRec) : Bool :=
  let sites := match part? s i r.part with
    | some p => p.sites
    | none => 0
  let m := bits r.cfg0 32 12
  let rt := bits r.cfg4 32 8
  let lo := bits r.cfg4 0 13
  let hi := bits r.cfg4 16 13
  bits r.cfg0 8 20 == 0 || r.qcount == 0 || 2 ^ 20 < r.qcount || r.vcount == 0 || 65536 < r.vcount || r.vcount ≤ bits r.cfg3 32 16 ||
  4096 < r.ecount || 2 ^ 20 < r.qbase + r.qcount || 65536 < r.vbase + r.vcount || 4096 < r.ebase + r.ecount ||
  m == 0 || m &&& sites != m || (r.mem && (rt / 128 != i || hi < lo || 6143 < hi))

/-- Whether the ranges of two VDs of an instance meet (R376): an empty range meets none. -/
def VdRec.overlaps (a b : VdRec) : Bool :=
  let meet (x n y m : Nat) : Bool := n != 0 && m != 0 && rangesMeet x n y m
  meet a.qbase a.qcount b.qbase b.qcount || meet a.vbase a.vcount b.vbase b.vcount || meet a.ebase a.ecount b.ebase b.ecount

/-- A range-table entry sent to the six controllers (R217). -/
def putRange (s : State) (n d0 d1 : Nat) : State := { s with rt := Tbl.put s.rt n (d0, d1) }.emit (.rangeWrite n d0 d1)

/-- The owner word of a VD's event counters: valid, its context tag (R124, R376). -/
def evtOwner (r : VdRec) (v : Nat) : Nat := 2 ^ 31 + r.tag v

/-- The listed vector entries of a VD's range made invalid. -/
def dropVectors (s : State) (i : Nat) (r : VdRec) : State :=
  let b := s.r (qmR i 0 0xD8)
  let f (e : Nat × VEntry) : Nat × VEntry :=
    if b + 16 * r.vbase ≤ e.1 && e.1 < b + 16 * (r.vbase + r.vcount) then (e.1, { e.2 with valid := false }) else e
  { s with qm := s.qm.upd i fun m => { m with vt := m.vt.map f } }

/-- The registers of a page at their reset values. -/
def freshPage (s : State) (p : PageId) : State :=
  { s with regs := s.regs.filter fun e => !(p.key ≤ e.1 && e.1 < p.key + 0x1000), rlatch := Tbl.del s.rlatch p.key, wlatch := Tbl.del s.wlatch p.key }

/-- VD_CREATE (R376) (DEDUCED, log entry 77). -/
def vdCreate (s : State) (i v : Nat) : State :=
  let r := cfgRec s i
  if v = 0 || (s.vd i v).st != .free || !homeOf s i r.part then vdEnd s i 0x10 false
  else if vdBadField s i r then vdEnd s i 0x11 false
  else if [0, 1].any fun h => (vdsOf s h).any fun e => e.2.group == r.group && bits e.2.cfg0 8 20 == bits r.cfg0 8 20 then vdEnd s i 0x12 false
  else if (vdsOf s i).any (fun e => r.overlaps e.2) || (vdQueues s i r).any (fun e => !e.2.disabled) ||
      (r.mem && bitAt (Tbl.getD s.rt (bits r.cfg4 32 8) (0, 0)).1 0) then vdEnd s i 0x13 false
  else
    let s := (List.range r.ecount).foldl (fun s k => setEvt s i (r.ebase + k) { val := 0, owner := evtOwner r v }) s
    let s := dropVectors s i r
    let s := if r.mem then putRange s (bits r.cfg4 32 8) (fields [(0, 1), (1, 1), (2, 1), (8, r.part), (12, v)]) (fields [(0, bits r.cfg4 0 13), (16, bits r.cfg4 16 13)]) else s
    let s := freshPage (s.updVd i v fun _ => r) (vdPage i v)
    vdEnd s i 0x01 true

/-- VD_CREATE (R376). -/
def execVdCreate (i : Inst) (a : Acc) (s : State) : Host.Outcome State Fault Refusal := vdCmd s i a (.vdCreate i a) fun s v => vdCreate s i.val v

/-- Whether a range-table entry names a VD of a partition (R217, R382): an entry for every VD of it, or for IGX's own requests, names none. -/
def rangeNames (d0 p v : Nat) : Bool := bits d0 3 2 == 0 && bits d0 8 4 == p && bits d0 12 12 == v

/-- A VD destroyed (R382): its counters and vectors are no one's, its range-table entries of this instance's half and its mailbox are
cleared. -/
def dropVd (s : State) (i v : Nat) : State :=
  let r := s.vd i v
  let s := (List.range r.ecount).foldl (fun s k => setEvt s i (r.ebase + k) { evtCtr s i (r.ebase + k) with owner := bits (evtCtr s i (r.ebase + k)).owner 0 31 }) s
  let s := dropVectors s i r
  let mine := s.rt.filter fun e => e.1 / 128 == i && rangeNames e.2.1 r.part v
  let s := mine.foldl (fun s e => putRange s e.1 0 0) s
  freshPage { s with vdm := s.vdm.upd i fun m => Tbl.del m v } (vdPage i v)

/-- VD_DESTROY (R382). A VD that does not exist, and VD 0, give BAD_STATE. -/
def vdDestroy (s : State) (i v : Nat) : State :=
  let r := s.vd i v
  if v = 0 || r.st == .free then vdEnd s i 0x10 false
  else if (vdQueues s i r).any (fun e => !e.2.disabled) || !(vdSaved s i r).isEmpty then vdEnd s i 0x15 false
  else vdEnd (dropVd s i v) i 0x01 true

/-- VD_DESTROY (R382). -/
def execVdDestroy (i : Inst) (a : Acc) (s : State) : Host.Outcome State Fault Refusal := vdCmd s i a (.vdDestroy i a) fun s v => vdDestroy s i.val v

/-- VD_READ (R392): the selected VD's record. -/
def vdRead (s : State) (i v : Nat) : State :=
  let r := s.vd i v
  let s := ((((s.setR (vdmR i 0x50) r.cfg0).setR (vdmR i 0x58) r.cfg1).setR (vdmR i 0x60) r.cfg2).setR (vdmR i 0x68) r.cfg3).setR (vdmR i 0x70) r.cfg4
  vdEnd s i 0x01 false

/-- VD_READ (R392). -/
def execVdRead (i : Inst) (a : Acc) (s : State) : Host.Outcome State Fault Refusal := vdCmd s i a (.vdRead i a) fun s v => vdRead s i.val v

/-- Whether a queue that is to be enabled keeps the limits of its VD (R377). -/
def vdQueueOk (s : State) (i q : Nat) : Bool :=
  let x := s.q i q
  let v := x.vd
  let r := s.vd i v
  if v = 0 then !((vdsOf s i).any fun e => e.2.qbase ≤ q && q < e.2.qbase + e.2.qcount)
  else r.st != .free && x.part == r.part && r.qbase ≤ q && q < r.qbase + r.qcount && x.ctx.group == r.group &&
    r.vbase ≤ x.ctx.vector && x.ctx.vector < r.vbase + r.vcount

/-- CTX_ENABLE (R115, R116, R377), by the access with these parts. -/
def execCtxEnable (i : Inst) (cp : Bool) (port : Port) (rid : BitVec 16) (s : State) : Host.Outcome State Fault Refusal :=
  ctxCmd s i ⟨cp, port, rid⟩ (.ctxEnable i cp port rid) fun s q => ctxEnable s i.val q (homeOf s i.val (s.q i.val q).part && vdQueueOk s i.val q)

/-! ### The curtain (R383-R385) -/

/-- A station command of a VD at CURTAIN_DOWN (R383): class 1 is saved, or killed while it only waits to start; class 0 before its
commit point is killed; what has not been sent goes back, a saved one to PREEMPTED; the rest finishes. -/
def curtainCmd (s : State) (i j : Nat) : State :=
  match s.cmd? i j with
  | none => s
  | some c =>
    if c.dead then s
    else match c.st with
      | .placing | .due => if c.restore then spillSaved ((unplace s i j).updCmd i j fun c => { c with curtain := true }) i j else unplace s i j
      | .preempted => spillSaved (s.updCmd i j fun c => { c with curtain := true }) i j
      | .committing | .ended => s
      | .sent | .loaded | .running =>
        if c.ask.isSome then s.updCmd i j fun c => { c with ask := some .curtain }
        else if c.cls = 2 then s
        else if c.cls = 0 || c.st == .loaded then askKill s i j .curtain
        else (askSave s i j .curtain).getD s

/-- CURTAIN_DOWN (R383) (DEDUCED, log entry 78). -/
def curtainDown (s : State) (i v : Nat) : State :=
  let r := s.vd i v
  if v = 0 || r.st != .active then vdEnd s i 0x10 false
  else
    let s := s.updVd i v fun r => { r with st := .closing, late := false }
    let qs := vdQueues s i r
    let s := qs.foldl (fun s e => if e.2.disabled then s else s.updQ i e.1 fun x => { x with conds := { x.conds with curtain := true } }) s
    let js := qs.flatMap fun e => (cmdsOfQueue s i e.1).map Prod.fst
    let s := js.foldl (fun s j => curtainCmd s i j) s
    let s := (vdSeqs s i r).foldl (fun s e => updSeq s i e.1 fun x => { x with frozen := true }) s
    vdEnd s i 0x01 true

/-- CURTAIN_DOWN (R383). -/
def execCurtainDown (i : Inst) (a : Acc) (s : State) : Host.Outcome State Fault Refusal := vdCmd s i a (.curtainDown i a) fun s v => curtainDown s i.val v

/-- Whether a spill of a saved command's private windows is still underway. -/
def spilling (s : State) (i : Nat) (c : Cmd) : Bool :=
  c.privs.any (fun v => v.win.isSome) ||
  (s.sc i).tasks.any fun t => t.acts.any fun a => match a.2 with
    | .spill _ da 0 _ _ => c.privs.any fun v => v.slot == some da
    | _ => false

/-- Records of a queue in order: position and record. -/
def heldRecs (x : Queue) : List (Nat × Rec) := x.poss.flatMap fun p => p.recs.map fun r => (p.pos, r)

/-- Bytes of a saved command's record in the image (R387). -/
def savedBytes (c : Cmd) : Nat := 128 + alignUp c.saved 64 + (c.privs.map fun v => v.size * 2 ^ 20).sum

/-- Bytes of the state image of a VD (R387). -/
def imageBytes (s : State) (i : Nat) (r : VdRec) : Nat :=
  let held := ((vdQueues s i r).map fun e => (heldRecs e.2).length).sum
  128 + alignUp (128 * r.qcount + 32 * held) 64 + alignUp (8 * r.ecount) 64 + alignUp (16 * r.vcount) 64 +
  ((vdSaved s i r).map fun e => savedBytes e.2).sum + 128 * (vdSeqs s i r).length

/-- Whether a slot still holds a command of a queue (R384), one torn down and not yet answered among them. -/
def queueInSlot (s : State) (i q : Nat) : Bool :=
  (s.sc i).cmds.any fun e => e.2.inSlot && (match e.2.src with | .run q' _ => q' == q | .step _ _ => false)

/-- Whether a CLOSING VD has come to rest (R384). A record that could still be written is waited for. -/
def curtainRest (s : State) (i : Nat) (r : VdRec) : Bool :=
  (vdQueues s i r).all (fun e =>
    !(e.2.poss.any fun p => p.ph == .started && !((vdSaved s i r).any fun c => c.2.src == .run e.1 p.pos) &&
      !((vdSeqs s i r).any fun q => q.2.q == e.1 && q.2.pos == p.pos && q.2.lane.isNone)) &&
    e.2.recFly.isEmpty && (e.2.headRec.isNone || e.2.cqFull || e.2.cqBad) &&
    !queueInSlot s i e.1 && (cmdsOfQueue s i e.1).all fun c => c.2.st == .preempted && !spilling s i c.2)

/-- CURTAIN_CLOSED (R384): the VD becomes DOWN; its image size is computed. -/
def curtainClosed (s : State) (i v : Nat) : State :=
  let r := s.vd i v
  if v != 0 && r.st == .closing && curtainRest s i r then
    (s.updVd i v fun r => { r with st := .down, need := imageBytes s i r }).irq (vdmPage i) 17
  else s

/-- CURTAIN_CLOSED (R384). -/
def execCurtainClosed (i : Inst) (v : BitVec 12) (s : State) : Host.Outcome State Fault Refusal :=
  liveI s i.val fun s => curtainClosed s i.val v.toNat

/-- CURTAIN_LATE (R384): the limit has passed while the VD is CLOSING; once per CURTAIN_DOWN. -/
def curtainLate (s : State) (i v : Nat) : State :=
  let r := s.vd i v
  if r.st == .closing && !r.late then (s.updVd i v fun r => { r with late := true }).irq (vdmPage i) 18 else s

/-- CURTAIN_LATE (R384). -/
def execCurtainLate (i : Inst) (v : BitVec 12) (s : State) : Host.Outcome State Fault Refusal :=
  liveI s i.val fun s => curtainLate s i.val v.toNat

/-- CURTAIN_UP (R385). -/
def curtainUp (s : State) (i v : Nat) : State :=
  let r := s.vd i v
  if v = 0 || !(r.st == .closing || r.st == .down) then vdEnd s i 0x10 false
  else
    let s := s.updVd i v fun r => { r with st := .active, late := false }
    let s := (vdQueues s i r).foldl (fun s e => s.updQ i e.1 fun x => { x with conds := { x.conds with curtain := false } }) s
    let s := (vdSeqs s i r).foldl (fun s e => updSeq s i e.1 fun x => { x with frozen := false }) s
    vdEnd s i 0x01 true

/-- CURTAIN_UP (R385). -/
def execCurtainUp (i : Inst) (a : Acc) (s : State) : Host.Outcome State Fault Refusal := vdCmd s i a (.curtainUp i a) fun s v => curtainUp s i.val v

/-! ### The state image (R386, R387) -/

/-- Bytes padded with zeros to 64. -/
def pad64 (l : List Byte) : List Byte := l ++ List.replicate (alignUp l.length 64 - l.length) 0

/-- Queue section of one queue (R387). -/
def imgQueue (s : State) (i : Nat) (q : Nat) : List Byte :=
  let x := s.q i q
  let rs := heldRecs x
  let recs := rs.zipIdx.flatMap fun e => recBytes i q { x.ctx with cqSeq := (x.ctx.cqSeq + e.2) % 2 ^ 32 } e.1.1 e.1.2
  leBytes 64 (ctxImage x) ++
  leBytes 64 (fields [(0, rs.length), (8, b2n (!x.disabled)), (9, b2n x.conds.error), (10, b2n x.conds.hostWait), (11, b2n x.conds.indet)]) ++ recs

/-- The image bytes of a vector entry (R122). -/
def vecBytes (e : VEntry) : List Byte :=
  leBytes 8 e.addr.toNat ++ leBytes 4 e.data ++ leBytes 4 (fields [(0, b2n e.mask), (1, b2n e.pending), (2, e.group), (4, b2n e.valid)])

/-- The descriptor of a position. -/
def posRaw (s : State) (i q p : Nat) : List Byte := match ((s.q i q).pos? p).bind fun y => y.descs.head? with
  | some d => d.raw
  | none => List.replicate 64 0

/-- The record of a saved command; `data` is its save area and private windows as they lie in the wings. -/
def imgSaved (s : State) (i : Nat) (r : VdRec) (c : Cmd) (data : List Byte) : List Byte :=
  match c.src with
  | .run q p =>
    leBytes 4 (q - r.qbase) ++ leBytes 4 p ++ leBytes 8 (alignUp c.saved 64) ++ leBytes 8 (savedBytes c) ++ List.replicate 40 0 ++ posRaw s i q p ++ data
  | .step _ _ => []

/-- The record of a sequence. -/
def imgSeq (s : State) (i : Nat) (r : VdRec) (x : SeqRec) : List Byte :=
  leBytes 4 (x.q - r.qbase) ++ leBytes 4 x.pos ++ leBytes 4 x.gen ++ leBytes 1 x.recomputes ++ List.replicate 51 0 ++ posRaw s i x.q x.pos

/-- The image header (R387). -/
def imgHead (s : State) (i v : Nat) (r : VdRec) (bytes crc : Nat) : List Byte :=
  leBytes 8 (fields [(0, 1), (16, 0x0D2A), (32, v), (44, r.part), (48, bits (s.r (reg .gen i 0 0x40)) 16 8)]) ++ leBytes 8 bytes ++ leBytes 4 r.qcount ++ leBytes 4 r.ecount ++
  leBytes 4 r.vcount ++ leBytes 4 (vdSaved s i r).length ++ leBytes 8 (vdSeqs s i r).length ++ leBytes 8 (s.time i) ++ leBytes 8 r.vbase ++ leBytes 8 crc

/-- The state image of a VD (R387). -/
def vdImage (s : State) (i v : Nat) (data : List (List Byte)) : List Byte :=
  let r := s.vd i v
  let j := Tbl.getD (s.qm.get i).jobs v {}
  let body := leBytes 8 j.submitted ++ leBytes 8 j.completed ++ leBytes 8 j.failed ++ leBytes 8 j.dbDropped ++ List.replicate 32 0 ++
    pad64 ((List.range r.qcount).flatMap fun k => imgQueue s i (r.qbase + k)) ++
    pad64 ((List.range r.ecount).flatMap fun k =>
      let e := evtCtr s i (r.ebase + k)
      leBytes 8 (fields [(0, e.val), (32, bits e.owner 16 1)])) ++
    pad64 ((List.range r.vcount).flatMap fun k => vecBytes (vtEntry s i (r.vbase + k))) ++
    (((vdSaved s i r).zip data).flatMap fun e => imgSaved s i r e.1.2 e.2) ++
    (vdSeqs s i r).flatMap fun e => imgSeq s i r e.2
  let n := 64 + body.length
  imgHead s i v r n (crc64 (imgHead s i v r n 0 ++ body)) ++ body

/-- A VD command that its instance's failure cuts off (R389) is in progress until a partner takes over (DESIGN CHOICE, log entry 177). -/
def vdHangs (s : State) (i : Nat) : State := s.setFld (vdmR i 0x48) 0 1 1

/-- SAVE_STATE (R386): `data` holds, for each saved command in job order, its save area and private windows read from the wings; `st`
how the accesses end. -/
def saveState (s : State) (i v : Nat) (data : List (List Byte)) (st : VdIo) : State :=
  let r := s.vd i v
  if v = 0 || r.st != .down then vdEnd s i 0x10 false
  else if s.r (vdmR i 0x84) * 1024 < r.need then vdEnd s i 0x16 false
  else if st.isCut then vdHangs s i
  else if data.map List.length != (vdSaved s i r).map (fun e => savedBytes e.2 - 128) then s
  else if st != .ends .ok then vdEnd s i 0x17 false
  else
    let ctl := s.r (vdmR i 0x80)
    let sp := bits ctl 0 1
    let s := s.emit (.bulk 2 (s.r (vdmR i 0x78)) (sp :: (if sp = 0 then r.part else bits ctl 4 2) :: (vdImage s i v data).map BitVec.toNat))
    vdEnd s i 0x01 false

/-- SAVE_STATE (R386). -/
def execSaveState (i : Inst) (a : Acc) (data : List (List Byte)) (st : VdIo) (s : State) : Host.Outcome State Fault Refusal :=
  vdCmd s i a (.saveState i a data st) fun s v => saveState s i.val v data st

/-! ### RESTORE (R388) -/

/-- A queue record of an image: context, status block, held records. -/
structure ImgQ where
  ctx : Nat
  status : Nat
  recs : List (List Byte)
  deriving DecidableEq, Repr

/-- The queue records of an image, and the offset behind them. -/
def imgQueues (b : List Byte) : Nat → Nat → List ImgQ × Nat
  | 0, off => ([], off)
  | n + 1, off =>
    let st := fieldAt b (off + 64) 8
    let held := bits st 0 8
    let r := imgQueues b n (off + 128 + 32 * held)
    (⟨fieldAt b off 64, st, (List.range held).map fun k => (b.drop (off + 128 + 32 * k)).take 32⟩ :: r.1, r.2)

/-- A saved command of an image: VD-relative queue, position, descriptor, save area, windows. -/
structure ImgC where
  q : Nat
  pos : Nat
  raw : List Byte
  save : List Byte
  wins : List Byte
  deriving DecidableEq, Repr

/-- The saved commands of an image, and the offset behind them. -/
def imgCmds (b : List Byte) : Nat → Nat → List ImgC × Nat
  | 0, off => ([], off)
  | n + 1, off =>
    let sb := fieldAt b (off + 8) 8
    let rb := fieldAt b (off + 16) 8
    let r := imgCmds b n (off + max 128 rb)
    (⟨bits (fieldAt b off 4) 0 21, bits (fieldAt b (off + 4) 4) 0 24, (b.drop (off + 64)).take 64, (b.drop (off + 128)).take sb,
      (b.drop (off + 128 + sb)).take (rb - 128 - sb)⟩ :: r.1, r.2)

/-- A job number of an instance that no command has (R323): bit 31 names the instance, never 0. -/
def newJob (s : State) (i : Nat) : Nat :=
  let n := (s.sc i).job
  let cand (k : Nat) : Nat := i * 2 ^ 31 + (n + k) % (2 ^ 31 - 1) + 1
  (((List.range ((s.sc i).cmds.length + 1)).find? fun k => !Tbl.has (s.sc i).cmds (cand k)).map cand).getD (cand 0)

/-- A position of the present incarnation put in ring order behind `done`; those of an earlier one stay before it. -/
def addPos (x : Queue) (p : Pos) : Queue :=
  let old := x.poss.filter fun y => 2 ^ 24 ≤ y.pos
  let new := x.poss.filter fun y => y.pos < 2 ^ 24
  { x with poss := old ++ sortBy (fun a b => sub24 a.pos x.ctx.done ≤ sub24 b.pos x.ctx.done) (new ++ [p]) }

/-- A queue restored (R388). Records of an earlier incarnation that wait stay to be delivered (R119). -/
def restoreQueue (s : State) (i v : Nat) (r : VdRec) (vb : Nat) (q : Nat) (g : ImgQ) : State :=
  let c := ({} : QCtx).load g.ctx
  let c := { c with ctxTag := r.tag v, group := r.group, vector := (c.vector + 2 ^ 16 - vb + r.vbase) % 2 ^ 16, fetch := c.done,
                    irqPending := bits g.ctx 416 8, aheadTries := bits g.ctx 424 8, dbTime := bits g.ctx 448 64 }
  let on := bitAt g.status 8
  let pos (b : List Byte) : Pos :=
    { pos := bits (fieldAt b 8 4) 0 24, ph := .ended, fet := .whole,
      recs := [{ status := bits (fieldAt b 4 4) 24 8, result := fieldAt b 16 8, user := fieldAt b 12 4, time := fieldAt b 24 8, reissued := bitAt (fieldAt b 8 4) 25 }] }
  let conds : QConds := { error := bitAt g.status 9, hostWait := bitAt g.status 10, indet := bitAt g.status 11, curtain := true }
  (keepOld s i (r.qbase + q)).updQ i (r.qbase + q) fun x =>
    { ctx := c, mode := if on then .enabled else .disabled, conds := if on then conds else {}, dbWait := x.dbWait, recFly := x.recFly,
      recPort := x.recPort, poss := x.poss ++ g.recs.map pos }

/-- A saved command restored (R388): PREEMPTED at its position, its save area and windows in the target's wings. -/
def restoreCmd (i : Nat) (r : VdRec) (k mib : Nat) (o : Option State) (g : ImgC) : Option State :=
  match o with
  | none => none
  | some s =>
    let q := r.qbase + g.q
    let c := runCmd (s.q i q) q g.pos g.raw
    let total := mib + (c.privs.map Priv.size).sum
    (wingsAlloc i c.part total [] (2 * (s.sc i).dir.length + 1) [] s).map fun w =>
      let j := newJob w.1 i
      let c := { c with st := .preempted, site := k, save := some (w.2.1, total), privs := saveSlots (w.2.1 + mib * 2 ^ 20) c.privs, saved := g.save.length, curtain := true }
      let s := w.1.updSch i fun x => { x with cmds := Tbl.put x.cmds j c, job := j % 2 ^ 31 }
      let s := s.updSch i fun x => { x with tasks := if w.2.2.isEmpty then x.tasks else x.tasks ++ [{ what := .none, acts := w.2.2 }] }
      let s := (s.emit (.bulk 4 w.2.1 (g.save.map BitVec.toNat))).emit (.bulk 4 (w.2.1 + mib * 2 ^ 20) (g.wins.map BitVec.toNat))
      kick (s.updQ i q fun x => addPos x { pos := g.pos, ph := .started, fet := .whole, descs := [{ raw := g.raw, ph := .ready }] }) i

/-- The sequence of a SEQUENCE descriptor at a position (R352, R354). -/
def seqOfRaw (s : State) (i q pos : Nat) (raw : List Byte) : SeqRec :=
  let x := s.q i q
  { part := x.part, q, pos, prompt := df raw 8 0 52, ptoks := df raw 0x10 0 24, maxNew := df raw 0x10 24 24, out := df raw 0x18 0 52, params := df raw 0x20 0 52,
    user := fieldAt raw 4 4, lc := x.ctx.cls == 1 }

/-- A sequence put into the table at its lowest free index (R353), last in intake order. -/
def putSeq (s : State) (i : Nat) (x : SeqRec) : State :=
  match Tbl.freshFrom (s.en i).seqs 65536 0 with
  | none => s
  | some n => s.updEns i fun e => { e with seqs := Tbl.put e.seqs n { x with intake := e.order }, order := e.order + 1 }

/-- A sequence restored (R388). -/
def restoreSeq (i : Nat) (r : VdRec) (s : State) (b : List Byte) : State :=
  let q := r.qbase + bits (fieldAt b 0 4) 0 21
  let pos := bits (fieldAt b 4 4) 0 24
  let raw := (b.drop 64).take 64
  let x := { seqOfRaw s i q pos raw with gen := fieldAt b 8 4, recomputes := bits (fieldAt b 12 4) 0 8, frozen := true }
  (putSeq s i x).updQ i q fun y => addPos y { pos, ph := .started, fet := .whole, descs := [{ raw, ph := .ready }] }

/-- The kind a save area names (R298). -/
def areaKind (b : List Byte) : Nat × Nat × Nat := (fieldAt b 0 2, fieldAt b 4 4, fieldAt b 2 2)

/-- What RESTORE writes first (R388): the contexts with their held records, the event counters, the VD's counters and its vectors. -/
def vdWritten (s : State) (i v : Nat) (b : List Byte) (qs : List ImgQ) (eo vo : Nat) : State :=
  let r := s.vd i v
  let ne := fieldAt b 0x14 4 % 2 ^ 13
  let nv := fieldAt b 0x18 4 % 2 ^ 17
  let vb := fieldAt b 0x30 2
  let s := qs.zipIdx.foldl (fun s e => restoreQueue s i v r vb e.2 e.1) s
  let s := (List.range ne).foldl (fun s n =>
    let w := fieldAt b (eo + 8 * n) 8
    setEvt s i (r.ebase + n) { val := bits w 0 32, owner := evtOwner r v + 2 ^ 16 * bits w 32 1 }) s
  let s := updJobs s i v fun j => { j with submitted := fieldAt b 64 8, completed := fieldAt b 72 8, failed := fieldAt b 80 8, dbDropped := fieldAt b 88 8 }
  (List.range nv).foldl (fun s n =>
    let w := fieldAt b (vo + 16 * n + 12) 4
    setVt s i (r.vbase + n) { addr := BitVec.ofNat 64 (fieldAt b (vo + 16 * n) 8), data := fieldAt b (vo + 16 * n + 8) 4, mask := bitAt w 0, pending := bitAt w 1, group := r.group, valid := bitAt w 4 }) s

/-- A second pass cut off (R389): the queues stay DISABLED, held records, saved commands and sequences are gone (DESIGN CHOICE, log
entry 177). -/
def vdCutShort (s : State) (i v : Nat) (b : List Byte) (qs : List ImgQ) (eo vo : Nat) : State :=
  vdHangs (vdWritten s i v b (qs.map fun g => { g with status := 0, recs := [] }) eo vo) i

/-- The second pass of RESTORE over an image that passed the first (R388). -/
def vdRestored (s : State) (i v : Nat) (b : List Byte) (qs : List ImgQ) (eo vo co : Nat) : Option State :=
  let r := s.vd i v
  let cs := imgCmds b (fieldAt b 0x1C 4 % 2 ^ 16) co
  let ns := fieldAt b 0x20 4
  let k := ((sitesFor s i r.part 0xFFF).head?).getD 0
  let mib := (capF s k 0x14 0 32 + 1023) / 1024
  let s := vdWritten s i v b qs eo vo
  match cs.1.foldl (restoreCmd i r k mib) (some s) with
  | none => none
  | some s => some ((List.range ns).foldl (fun s n => restoreSeq i r s ((b.drop (cs.2 + 128 * n)).take 128)) s)

/-- VD_RESTORE (R388): `img` is what the reads of the image return, `st` how they end (DEDUCED, log entry 79). -/
def vdRestore (s : State) (i v : Nat) (img : List Byte) (st : VdIo) : State :=
  let r := s.vd i v
  if v = 0 || !(r.st == .active || r.st == .down) then vdEnd s i 0x10 false
  else if (vdQueues s i r).any (fun e => !e.2.disabled) || !(vdSaved s i r).isEmpty then vdEnd s i 0x15 false
  else
    let n := fieldAt img 8 8
    let size := s.r (vdmR i 0x84) * 1024
    if st == .cut false then vdHangs s i
    else if !(st.isCut || st == .ends .ok) || img.length < 64 || (n ≤ size && img.length < n) then vdEnd s i 0x17 false
    else
      let b := img.take n
      let nq := fieldAt b 0x10 4 % 2 ^ 21
      let ne := fieldAt b 0x14 4 % 2 ^ 13
      let nv := fieldAt b 0x18 4 % 2 ^ 17
      let crc := crc64 (b.take 0x38 ++ List.replicate 8 0 ++ b.drop 0x40)
      if fieldAt img 0 2 != 1 || fieldAt img 2 2 != 0x0D2A || size < n || crc != fieldAt b 0x38 8 || r.qcount < nq || r.ecount < ne || r.vcount < nv then vdEnd s i 0x18 false
      else
        let qs := imgQueues b nq 128
        let eo := alignUp qs.2 64
        let vo := alignUp (eo + 8 * ne) 64
        let co := alignUp (vo + 16 * nv) 64
        let cs := imgCmds b (fieldAt b 0x1C 4 % 2 ^ 16) co
        let kinds := (sitesFor s i r.part 0xFFF).map (siteKind s)
        if cs.1.any fun c => kinds.any fun k => k != areaKind c.save then vdEnd s i 0x18 false
        else if 65536 < (s.en i).seqs.length + fieldAt b 0x20 4 then vdEnd s i 0x1A false
        else match vdRestored s i v b qs.1 eo vo co with
          | none => vdEnd s i 0x1A false
          | some s' => if st.isCut then vdCutShort s i v b qs.1 eo vo else vdEnd (s'.updVd i v fun r => { r with st := .down, need := imageBytes s' i r }) i 0x01 true

/-- VD_RESTORE (R388). -/
def execVdRestore (i : Inst) (a : Acc) (img : List Byte) (st : VdIo) (s : State) : Host.Outcome State Fault Refusal :=
  vdCmd s i a (.vdRestore i a img st) fun s v => vdRestore s i.val v img st

/-! ### The mailbox (R381) -/

/-- Whether the mailbox of a VD's page takes a request (R381). -/
def canSend (s : State) (i v : Nat) : Bool := (s.vdm.get i).any fun e => e.1 == v && e.2.st != .free && !e.2.mbox

/-- MBOX_SEND (R381): VD.MBOX_CTL.send; ignored while busy. -/
def mboxSend (s : State) (i v : Nat) : State :=
  if canSend s i v then
    (s.updVd i v fun r => { r with mbox := true }).irq (vdmPage i) 19
  else s

/-- MBOX_SEND (R381). -/
def execMboxSend (i : Inst) (v : BitVec 12) (_a : Acc) (s : State) : Host.Outcome State Fault Refusal :=
  liveI s i.val fun s => dropIf (!canSend s i.val v.toNat) s (mboxSend (clearLatches s (vdPage i.val v.toNat)) i.val v.toNat)

/-- MBOX_RESPOND (R381): the response goes to the selected VD's page. -/
def mboxRespond (s : State) (i : Nat) : State :=
  let v := s.fld (vdmR i 0x40) 0 12
  if (s.vd i v).mbox then
    let s := (List.range 8).foldl (fun s k => s.setR (reg .vd i v (0x100 + 8 * k)) (s.r (vdmR i (0x100 + 8 * k)))) s
    (s.updVd i v fun r => { r with mbox := false }).irq (vdPage i v) 16
  else s.perr (vdmPage i) 16

/-- MBOX_RESPOND (R381). -/
def execMboxRespond (i : Inst) (a : Acc) (s : State) : Host.Outcome State Fault Refusal :=
  cmdD s i a (vdmPage i.val) (.mboxRespond i a) (fun s => !(s.vd i.val (s.fld (vdmR i.val 0x40) 0 12)).mbox) fun s => mboxRespond s i.val

end Sys2Proof.Machine
end

