-- ==== Sys2Proof/Machine/Parts.lean ====
section
/-! DEFINITION. Partitions (R316-R319, R348), site owners (R30), station-port tables (R214), migration holds over station
commands (R237, R238, R333). -/
namespace Sys2Proof.Machine

/-! ### Station-port tables (R214) -/

/-- The entry of a host window that may be loaded: valid with station_ok (R214, R219). -/
def winEnt (s : State) (i p w : Nat) : Option SptEnt :=
  let v := winReg s i p w
  if bitAt v 0 && bitAt v 2 then
    some { part := p, base := winBase w, size := min (2 ^ bits v 8 6) (2 ^ 46), kind := if bits v 3 2 = 0 then .host else .hlc, tbase := winHost v, rd := true, wr := bitAt v 1 }
  else none

/-- The entry of a peer window that may be loaded (R214, R196). -/
def peerEnt (s : State) (i p w : Nat) : Option SptEnt :=
  let v := s.r (atuR i 2 (0x400 + 0x40 * p + 8 * w))
  if bitAt v 0 && bitAt v 2 then
    some { part := p, base := 2 ^ 51 + w * 2 ^ 47, size := 2 ^ bits v 16 6, kind := .peer, tbase := 2 ^ 63 + bits v 4 3 * 2 ^ 56 + bits v 8 4 * 2 ^ 52, rd := true, wr := bitAt v 1 }
  else none

/-- The entry of a device page with the station bit. -/
def pageEnt (p : Nat) (l : Leaf) : Option SptEnt :=
  if leafOk l && bitAt l.ent.toNat 4 then
    let e := leafEnt p l
    some { part := p, base := e.base, size := 2 ^ e.log2, kind := .hbm, tbase := e.hbm, rd := e.rd, wr := e.wr }
  else none

/-- What a walk of a DA range of a partition finds: the entries it may load, and what it skips. A 64 MiB unit of the device region
under no page counts as one skipped page. -/
def walkRange (s : State) (i p lo n : Nat) (leaves : List Leaf) : List SptEnt × Nat :=
  if lo < 2 ^ 50 then
    let ls := leaves.filter fun l => leafOk l && rangesMeet (alignDown l.base.toNat (2 ^ l.log2)) (2 ^ l.log2) lo n
    let es := ls.filterMap (pageEnt p)
    let mapped := (ls.map fun l => (min (alignDown l.base.toNat (2 ^ l.log2) + 2 ^ l.log2) (lo + n) - max (alignDown l.base.toNat (2 ^ l.log2)) lo) / 2 ^ 26).sum
    (es, (ls.length - es.length) + (n / 2 ^ 26 - mapped))
  else if lo < 2 ^ 51 then
    let ws := (List.range 16).filter fun w => rangesMeet (winBase w) (2 ^ 46) lo n
    let es := ws.filterMap (winEnt s i p)
    (es, ws.length - es.length)
  else
    let ws := (List.range 8).filter fun w => rangesMeet (2 ^ 51 + w * 2 ^ 47) (2 ^ 47) lo n
    let es := ws.filterMap (peerEnt s i p)
    (es, ws.length - es.length)

/-- Whether an active hold of the DA range of an entry forbids loading it (R236). -/
def loadHeld (s : State) (i : Nat) (e : SptEnt) : Bool :=
  (s.acc.get i).holds.any fun h => h.2.active && h.2.covers (.da e.part) e.base e.size

/-- One entry written to a site's table of 4,096: false where it is full. -/
def putSpt (s : State) (k : Nat) (e : SptEnt) : State × Bool :=
  let t := (Tbl.getD s.spt k []).filter fun x => !(x.part == e.part && x.base == e.base && x.size == e.size)
  if 4096 ≤ t.length then (s, false) else (({ s with spt := Tbl.put s.spt k (t ++ [e]) } : State).emit (.sptWrite k e.part e.base e.size e.tbase e.rd e.wr), true)

/-- Entries loaded one after another, up to a full table. -/
def loadSpt (k : Nat) : List SptEnt → State → State × Bool
  | [], s => (s, true)
  | e :: r, s => match putSpt s k e with
    | (s, true) => loadSpt k r s
    | (s, false) => (s, false)

/-- A station-table command: refused while one is in progress (R220). -/
def sptCmd (s : State) (i : Inst) (a : Acc) (c : Instr) (f : State → State) : Host.Outcome State Fault Refusal :=
  cmdD s i a (atuPage i.val 2) c (fun s => s.fld (atuR i.val 2 0x48) 0 1 = 1) fun s => if s.fld (atuR i.val 2 0x48) 0 1 = 1 then s.perr (atuPage i.val 2) 16 else f s

/-- A station-table command ends. -/
def sptEnd (s : State) (i result skipped : Nat) : State :=
  (s.setR (atuR i 2 0x48) (fields [(8, result), (16, min skipped 0xFFFF)])).irq (atuPage i 2) 16

/-- The checks of SPT_CMD (R220). A range lies in one region of the DA (R191): a range that begins outside the device region is one of
windows. -/
def sptCheck (s : State) (i k p : Nat) : Option Nat :=
  let lo := s.r (atuR i 2 0x50)
  let n := s.fld (atuR i 2 0x58) 0 24 * 2 ^ 26
  let top := if lo < 2 ^ 50 then 2 ^ 50 else if lo < 2 ^ 51 then 2 ^ 51 else 2 ^ 51 + 2 ^ 50
  if owner s k != carrier s i || partAt s k != some (i, p) then some 0x10
  else if n = 0 || top < lo + n then some 0x11
  else none

/-- SPT_LOAD (R214, R220): `leaves` are the leaves that the walk of the range finds. -/
def sptLoad (s : State) (i k p : Nat) (leaves : List Leaf) : State :=
  match sptCheck s i k p with
  | some r => sptEnd s i r 0
  | none =>
    let w := walkRange s i p (s.r (atuR i 2 0x50)) (s.fld (atuR i 2 0x58) 0 24 * 2 ^ 26) leaves
    match loadSpt k w.1 s with
    | (s, ok) => sptEnd s i (if ok then 0x01 else 0x13) w.2

/-- SPT_LOAD (R214). -/
def execSptLoad (i : Inst) (a : Acc) (site : Fin 16) (part : Part) (leaves : List Leaf) (s : State) : Host.Outcome State Fault Refusal :=
  sptCmd s i a (.sptLoad i a site part leaves) fun s => sptLoad s i.val site.val part.val leaves

/-- SPT_UNLOAD (R209): an invalidation of one site's entries; DONE once it is complete. -/
def sptUnload (s : State) (i k p : Nat) : State :=
  match sptCheck s i k p with
  | some r => sptEnd s i r 0
  | none =>
    let v : InvScope := { key := .da p, base := s.r (atuR i 2 0x50), size := s.fld (atuR i 2 0x58) 0 24 * 2 ^ 26, site := some k }
    invalidate (s.setR (atuR i 2 0x48) 1) i .spt v

/-- SPT_UNLOAD (R214). -/
def execSptUnload (i : Inst) (a : Acc) (site : Fin 16) (part : Part) (s : State) : Host.Outcome State Fault Refusal :=
  sptCmd s i a (.sptUnload i a site part) fun s => sptUnload s i.val site.val part.val

/-- The oldest invalidation that awaits a site's acknowledgement, with its instance. -/
def invAwaiting (s : State) (k : Nat) : Option (Nat × Inv) :=
  [0, 1].findSome? fun i => ((s.atu.get i).invs.find? fun v => v.sites.contains k).map fun v => (i, v)

/-- A site has acknowledged (R214): the covered range is walked again and every page still mapped is loaded, but those under a hold, which
are loaded at its release (R236). -/
def siteAcked (s : State) (i k : Nat) (v : Inv) (leaves : List Leaf) : State :=
  let s := s.updAtu i fun a => { a with invs := a.invs.map fun x => if x == v then { x with sites := x.sites.filter (· != k) } else x }
  match v.scope.key, v.scope.site with
  | .da p, none =>
    let dev := walkRange s i p v.scope.base (2 ^ 50 - v.scope.base) leaves
    let win := (List.range 16).filterMap (winEnt s i p) ++ (List.range 8).filterMap (peerEnt s i p)
    let es := ((if v.scope.base < 2 ^ 50 then dev.1 else []) ++ win).filter fun e => rangesMeet e.base e.size v.scope.base v.scope.size
    let held := es.filter fun e => loadHeld s i e
    let note (e : SptEnt) (h : Hold) : Hold := if h.active && h.covers (.da e.part) e.base e.size && !h.reload.contains k then { h with reload := h.reload ++ [k] } else h
    let mark (s : State) (e : SptEnt) : State := { s with acc := s.acc.upd i fun a => { a with holds := Tbl.mapV a.holds (note e) } }
    let s := held.foldl mark s
    if partAt s k == some (i, p) then (loadSpt k (es.filter fun e => !loadHeld s i e) s).1 else s
  | _, _ => s

/-- SITE_INV_ACK (R214): the site's requests under the covered entries have completed. -/
def execSiteInvAck (site : Site) (leaves : List Leaf) (s : State) : Host.Outcome State Fault Refusal :=
  live s fun s => match invAwaiting s site.val with
    | some (i, v) => siteAcked s i site.val v leaves
    | none => s

/-- SITE_INV_TIMEOUT (R214): 20 µs have passed; every job on the station ends as a job fault, and the site counts as having
acknowledged (DEDUCED, log entry 57). -/
def siteInvTimeout (s : State) (k : Nat) (leaves : List Leaf) : State :=
  match invAwaiting s k with
  | none => s
  | some (i, v) =>
    let js := (cmdsOn s k).filter fun e => e.2.2.inSlot
    let s := js.foldl (fun s e => jobFault s e.1 e.2.1 (linkOk s k)) s
    siteAcked (s.irq (atuPage i 0) 18) i k v leaves

/-- SITE_INV_TIMEOUT (R214). -/
def execSiteInvTimeout (site : Site) (leaves : List Leaf) (s : State) : Host.Outcome State Fault Refusal :=
  live s fun s => siteInvTimeout s site.val leaves

/-! ### Holds over station commands (R237, R238, R333) -/

/-- Whether nothing started uses a held range any more (R237). -/
def holdQuiet (s : State) (i : Nat) (h : Hold) : Bool :=
  !((startedUnits s i).any fun e => h.exempt != some e.1 && e.2.any h.meets) &&
  !((s.sc i).cmds.any fun e => e.2.onSite && owner s e.2.site == carrier s i && h.meetsCmd s i e.2)

/-- QUIET (R237). -/
def execQuiet (i : Inst) (h : Fin 8) (s : State) : Host.Outcome State Fault Refusal :=
  liveI s i.val fun s =>
    let x := holdOf s i.val h.val
    if x.st = 1 && holdQuiet s i.val x then (setHold s i.val h.val { x with st := 2 }).irq (accPage i.val) 17 else s

/-- The first address of a descriptor that a hold covers (R204, R238): of its first footprint with a unit in the range, the lowest. -/
def holdAddr (h : Hold) (d : DescSt) : Nat × Nat :=
  ((footprints d.raw).findSome? fun f =>
    let us := d.units.filter fun u => u.key.space == f.sp && decide ((u.base : Int) < f.hi) && decide (f.lo < (u.base : Int) + u.size) && h.meets u
    match us.map fun u => max f.lo.toNat u.base with
    | a :: r => some (f.sp, r.foldl min a)
    | [] => none).getD (0, 0)

/-- A held waiter at the expiry of its hold (R238): a descriptor fails, a station command or a step ends as a job fault. -/
def holdExpired (s : State) (i : Nat) (h : Hold) (w : Who) : State :=
  match w with
  | .desc q p k =>
    let x := s.q i q
    (match x.pos? p with
     | none => s
     | some y =>
       if x.ctx.kind = 1 then
         if y.ph == .waiting then
           contained (((endPos s i q p 6 0 true).bump (schR i 0 0x128) 1).irq (schPage i 0) 18) i 0 6 (hubQ i q)
         else match waitingCmd s i (.run q p) with
           | some j => jobFault s i j true
           | none => s
       else if x.ctx.kind = 2 then
         failWho s i (.desc q p k) 24 0 ((y.descs[k]?.map fun d => seqHoldAddr s i q h d.raw).getD 0)
       else
         let a := (y.descs[k]?.map (holdAddr h)).getD (0, 0)
         failWho s i (.desc q p k) 24 a.1 a.2)
  | .step p l =>
    match waitingCmd s i (.step p l) with
    | some j => jobFault s i j true
    | none =>
      if stillWaits s i w then contained (((stepFailed s i p l false 6 0).bump (schR i 0 0x128) 1).irq (schPage i 0) 18) i 0 6 p else s
  | _ => s

/-- MIG_LIMIT_EXPIRY (R238): what is still held fails; the hold enters EXPIRED. -/
def migExpiry (s : State) (i n : Nat) : State :=
  let h := holdOf s i n
  if h.active then
    let s := h.waiters.foldl (fun s w => holdExpired s i h w) s
    (freeHold s i n 3).irq (accPage i) 18
  else s

/-- MIG_LIMIT_EXPIRY (R238). -/
def execMigLimitExpiry (i : Inst) (h : Fin 8) (s : State) : Host.Outcome State Fault Refusal :=
  liveI s i.val fun s => migExpiry s i.val h.val

/-- A hold freed, with the entries that it kept from being loaded (R236). -/
def releaseHold (s : State) (i n : Nat) (leaves : List Leaf) : State :=
  let h := holdOf s i n
  let s := freeHold s i n 0
  match h.key with
  | .da p =>
    h.reload.foldl (fun s k =>
      let es := ((walkRange s i p h.base (2 ^ h.log2) leaves).1).filter fun e => !loadHeld s i e
      if partAt s k == some (i, p) then (loadSpt k es s).1 else s) s
  | .host _ _ => s

/-- RELEASE (R238): `leaves` are what the walk of the range finds. -/
def execRelease (i : Inst) (a : Acc) (leaves : List Leaf) (s : State) : Host.Outcome State Fault Refusal :=
  cmdD s i a (accPage i.val) (.release i a leaves) (fun s => (holdOf s i.val (s.fld (accR i.val 0x100) 0 3)).st = 0) fun s =>
    let n := s.fld (accR i.val 0x100) 0 3
    if (holdOf s i.val n).st = 0 then s.perr (accPage i.val) 16 else releaseHold s i.val n leaves

/-! ### Partitions (R317-R319) -/

/-- The instance that is home to a partition, if it exists. -/
def partHome (s : State) (p : Nat) : Option Nat := [0, 1].find? fun i => (part? s i p).isSome

/-- A partition command ends (R317). -/
def partEnd (s : State) (i result : Nat) (changed : Bool) : State :=
  if changed && mirrored s i then
    (s.setR (schR i 0 0x48) 1).report i [.reg (schR i 0 0x48) 0xFFFFFFFF (256 * result), .irq (schPage i 0) 16]
  else (s.setR (schR i 0 0x48) (256 * result)).irq (schPage i 0) 16

/-- A partition command: refused while one is in progress (R348). -/
def partCmd (s : State) (i : Inst) (a : Acc) (c : Instr) (f : State → Nat → State) (drop : State → Nat → Bool := fun _ _ => false) :
    Host.Outcome State Fault Refusal :=
  cmdD s i a (schPage i.val 0) c (fun s => s.fld (schR i.val 0 0x48) 0 1 = 1 || drop s (s.fld (schR i.val 0 0x40) 0 4)) fun s =>
    if s.fld (schR i.val 0 0x48) 0 1 = 1 then s.perr (schPage i.val 0) 16 else f s (s.fld (schR i.val 0 0x40) 0 4)

/-- CREATE is done once no site of the partition still changes its owner (R317). -/
def createEnd (s : State) (i p : Nat) : State :=
  match part? s i p with
  | some r => if (onesOf r.sites 12).any fun k => (s.site k).moving then s.setR (schR i 0 0x48) 1 else partEnd s i 0x01 true
  | none => s

/-- CREATE (R317). -/
def partCreate (s : State) (i p : Nat) : State :=
  let m := s.fld (schR i 0 0x4C) 0 12
  let base := s.r (schR i 0 0x50)
  let size := s.fld (schR i 0 0x58) 0 16
  let ks := onesOf m 12
  if (partHome s p).isSome then partEnd s i 0x10 false
  else if m = 0 || size = 0 || !aligned base (2 ^ 26) || 2 ^ 50 < base + size * 2 ^ 26 then partEnd s i 0x11 false
  else if ks.any fun k => (partAt s k).isSome || (s.site k).st != .up then partEnd s i 0x12 false
  else if (ks.map (siteKind s)).eraseDups.length != 1 then partEnd s i 0x13 false
  else
    let s := s.updSch i fun x => { x with parts := Tbl.put x.parts p { sites := m, wbase := base, wsize := size } }
    let s := ks.foldl (fun s k => if owner s k != i then s.updSite k fun x => { x with moving := true } else s) s
    createEnd s i p

/-- CREATE (R317). -/
def execCreate (i : Inst) (a : Acc) (s : State) : Host.Outcome State Fault Refusal := partCmd s i a (.create i a) fun s p => partCreate s i.val p

/-- A site moves to instance `u` in a switch of the pair: the first frame of the new owner is STATE_QUERY, with an SNP_INV_ALL for a takeover
(R278), the frames that waited for it leave, and those held for a new owner are served (R30, R312, R443). -/
def siteMoves (s : State) (u k : Nat) : State :=
  let q := (s.site k).after
  let fs := (s.site k).held
  let s := (s.updSite k fun x => { x with swapped := decide (k / 6 ≠ u), moving := false, taking := none, after := [], held := [] }).emit (.steer k u)
  let s := if linkOk s k then (sendFrame s k 0x0C [0, 0, 0, 0, 0]).updSite k fun x => { x with query := true } else s
  let s := ringAll s u { op := 4, tag := 0, sites := (ringSites s u).filter (· == k) }
  let s := pumpFrames k q s
  settleAck (fs.foldl (fun s f => onFrame s k f) s) k

/-- SITE_OWNER_CHANGE (R30): nothing waits on the command path toward the old owner; the steering bit moves. -/
def siteOwnerChange (s : State) (k : Nat) : State :=
  let x := s.site k
  if !x.txq.isEmpty then s
  else if let some u := x.taking then siteMoves s u k
  else if x.moving then
    let s := s.updSite k fun x => { x with moving := false, swapped := !x.swapped }
    let s := s.emit (.steer k (owner s k))
    match partAt s k with
    | some (i, p) => if s.fld (schR i 0 0x48) 0 1 = 1 then createEnd s i p else s
    | none => s
  else s

/-- SITE_OWNER_CHANGE (R30). -/
def execSiteOwnerChange (k : Site) (s : State) : Host.Outcome State Fault Refusal := live s fun s => siteOwnerChange s k.val

/-- The copy of a handle between wings and host given up (R319). -/
def dropCopy (s : State) (i : Nat) : State :=
  let st := (s.q i copyQ).poss.filterMap Pos.chan
  (st.foldl tornChan s).setQ i copyQ {}

/-- The scheduler's and composer's state of a partition gone (R319 step 5, R371). -/
def dropPartState (s : State) (i p : Nat) : State :=
  let mine (h : Nat) : Bool := match hnd? s i h with
    | some d => d.part == p
    | none => false
  let copies := (s.sc i).tasks.any fun t => t.sent && (match t.acts with | (_, .copy h _ _) :: _ => mine h | _ => false)
  let ours (t : Task) : Bool := (match t.what with
      | .job j => (match s.cmd? i j with | some c => c.part == p | none => false)
      | .save j => (match s.cmd? i j with | some c => c.part == p | none => false)
      | .dir _ h => mine h
      | .none => false) || t.acts.any fun a => (partAt s a.1 == some (i, p) && (match a.2 with | .copy _ _ _ => false | _ => true)) || (match a.2 with | .copy h _ _ => mine h | _ => false)
  let s := if copies then dropCopy s i else s
  let dirs := (s.sc i).tasks.any fun t => ours t && (match t.what with | .dir _ _ => true | _ => false)
  let s := if dirs then s.report i [.reg (schR i 1 0x50) 0xFFFF 0x1000, .irq (schPage i 1) 17] else s
  let s := if (s.en i).disabling == some p then s.report i [.reg (ensR i 0x48) 0xFFFF 0x100, .irq (ensPage i) 16] else s
  let s := s.updSch i fun x =>
    { x with tasks := x.tasks.filter fun t => !ours t, cmds := x.cmds.filter fun e => e.2.part != p, dir := x.dir.filter fun e => e.2.part != p,
             barriers := x.barriers.filter fun b => b.part != p }
  s.updEns i fun e =>
    { e with recs := Tbl.del e.recs p, seqs := e.seqs.filter fun q => q.2.part != p, pools := e.pools.filter fun k => k.2.part != p,
             disabling := if e.disabling == some p then none else e.disabling }

/-- The rest of DESTROY once every PURGE is answered (R319 steps 3-7). -/
def destroyEnd (s : State) (i p : Nat) : State :=
  let s := ((queuesOf s i).filter fun e => e.2.part == p && !e.2.disabled && e.1 < 2 ^ 20).foldl (fun s e => tearQueue s i e.1) s
  let s := (List.range 8).foldl (fun s n => if (holdOf s i n).st != 0 && (holdOf s i n).key == .da p then freeHold s i n 0 else s) s
  let noEnt (t : Nat × List SptEnt) : Nat × List SptEnt := if partAt s t.1 == some (i, p) then (t.1, []) else t
  let s := { s with spt := s.spt.map noEnt }
  let s := dropPartState s i p
  let s := ((vdsOf s i).filter fun e => e.2.part == p).foldl (fun s e => dropVd s i e.1) s
  let gone := match part? s i p with
    | some r => onesOf r.sites 12
    | none => []
  let s := gone.foldl (fun s k => s.updSite k fun x => { x with wins := [], moving := false }) s
  partEnd (s.updSch i fun x => { x with parts := Tbl.del x.parts p }) i 0x01 true

/-- A DESTROY whose PURGEs are all answered goes on. -/
def settleDestroy (s : State) : State :=
  let one (i : Nat) (s : State) : State :=
    match (s.sc i).parts.find? fun e => e.2.dying == some [] with
    | some e => destroyEnd s i e.1
    | none => s
  one 1 (one 0 s)

/-- DESTROY (R319): dispatch stops, commands that have not started are taken back, and PURGE goes to every site of the partition whose link works. -/
def partDestroy (s : State) (i p : Nat) : State :=
  match part? s i p with
  | none => if (partHome s p).isSome then s.perr (schPage i 0) 16 else partEnd s i 0x10 false
  | some r =>
    let ks := (onesOf r.sites 12).filter (linkOk s)
    let s := s.updSch i fun x => { x with parts := Tbl.put x.parts p { r with dying := some ks } }
    let s := ((s.sc i).cmds.filter fun e => e.2.part == p && (e.2.st == .placing || e.2.st == .due)).foldl (fun s e => unplace s i e.1) s
    let s := ks.foldl (fun s k => if (s.site k).purge.isSome then s else (sendFrame s k 10 [0, p, 0, 0, 0]).updSite k fun x => { x with purge := some p }) s
    settleDestroy (s.setR (schR i 0 0x48) 1)

/-- DESTROY (R319). -/
def execDestroy (i : Inst) (a : Acc) (s : State) : Host.Outcome State Fault Refusal := 
  partCmd s i a (.destroy i a) (fun s p => partDestroy s i.val p) fun s p => (part? s i.val p).isNone && (partHome s p).isSome

/-- READ of a partition (R348). -/
def partRead (s : State) (i p : Nat) : State :=
  match partHome s p with
  | none => (s.setR (schR i 0 0x4C) 0).setR (schR i 0 0x48) 0x100 |>.irq (schPage i 0) 16
  | some h =>
    let sites := match part? s h p with
      | some r => r.sites
      | none => 0
    (s.setR (schR i 0 0x4C) sites).setR (schR i 0 0x48) (fields [(8, 1), (16, h), (17, 1)]) |>.irq (schPage i 0) 16

/-- PART_READ (R348). -/
def execPartRead (i : Inst) (a : Acc) (s : State) : Host.Outcome State Fault Refusal := partCmd s i a (.partRead i a) fun s p => partRead s i.val p

end Sys2Proof.Machine
end

