-- ==== Sys2Proof/Machine/Run.lean ====
section
/-! DEFINITION. Dispatch of station commands (R330-R335), slices (R334, R394), preemption (R336, R337), barrier groups (R339-R341), the
di/dt budget (R342). -/
namespace Sys2Proof.Machine

/-! ### Ready commands (R331) -/

/-- A ready command: the queue index or lane number that orders it among equals, and the command. -/
structure Cand where
  idx : Nat
  cmd : Cmd
  mask : Nat
  deriving DecidableEq, Repr

/-- The ready command of a STATION queue: the RUN at its first unstarted position, once the queue and the position may start. -/
def readyRun (s : State) (i q : Nat) : Option Cand :=
  match (startGate s i q).2 with
  | none => none
  | some (p, d) =>
    let x := s.q i q
    let c := runCmd x q p.pos d.raw
    if x.ctx.kind = 1 && d.ph == .ready && opcodeOf d.raw = 0x30 && homeOf s i x.part then some ⟨q, c, siteMask s i c d.raw⟩ else none

/-- The ready steps of an ensemble: lanes whose step SCH has not taken. The priority of a step is the highest of its sequences. -/
def readySteps (s : State) (i p : Nat) (e : EnsRec) : List Cand :=
  if !homeOf s i p then []
  else e.lanes.filterMap fun l =>
    if l.2.job.isSome then none
    else
      let prio := (l.2.ents.map fun n => ((seq? s i n.seq).map (s.seqPrio i)).getD 0).foldl max 0
      some ⟨2 ^ 20 + 16 * p + l.1, { l.2.cmd with prio }, 0xFFF⟩

/-- The partition, class and priority of a ready command, among whose queues the turn goes round (R331). -/
def Cand.rank (c : Cand) : Nat := 512 * c.cmd.part + (if c.cmd.lc then 256 else 0) + c.cmd.prio

/-- The order of R331: LC first, higher priority first, round-robin after the last one taken of its partition, class and priority. -/
def Cand.key (rr : Tbl Nat) (c : Cand) : Nat :=
  (if c.cmd.lc then 0 else 1) * 2 ^ 40 + (255 - c.cmd.prio) * 2 ^ 24 + (c.idx + 2 ^ 21 - 1 - Tbl.getD rr c.rank 0) % 2 ^ 21

/-- The ready commands of an instance in the order of R331. -/
def readyCmds (s : State) (i : Nat) : List Cand :=
  let rr := (s.sc i).rr
  let runs := ((queuesOf s i).filter fun e => e.1 < 2 ^ 20).filterMap fun e => readyRun s i e.1
  let steps := (s.en i).recs.flatMap fun e => readySteps s i e.1 e.2
  sortBy (fun a b => a.key rr ≤ b.key rr) (runs ++ steps)

/-- The sites of a command's partition that its mask admits and whose tables cover it (R322). -/
def eligible (s : State) (i : Nat) (c : Cand) : List Nat := (sitesFor s i c.cmd.part c.mask).filter fun k => covers s k c.cmd

/-- Host groups whose memory a command's program or arguments lie in. -/
def cmdGroups (s : State) (i : Nat) (c : Cmd) : List Nat :=
  (cmdSpans s i c).filterMap fun r => match r.1 with
    | .host g _ => some g
    | .da _ => none

/-- The barrier group that a command would join is open with another count of members, or its instance holds 64 other open groups (R339). -/
def openGroups (s : State) (i : Nat) : List (Nat × Nat × Nat) :=
  let b := ((s.sc i).barriers.filter fun b => b.left.isNone).map fun b => (b.part, b.id, b.members)
  let c := (s.sc i).cmds.filterMap fun e => if e.2.st == .placing || e.2.st == .due || e.2.st == .sent then e.2.barrier.map fun x => (e.2.part, x.1, x.2) else none
  (b ++ c).eraseDups

/-- How a ready command stands before it is placed. -/
inductive Stand where
  | ends (status result : Nat)   -- its job ends
  | waits                        -- it cannot go now, and is not passed over for want of room
  | goes (sites : List Nat)
  deriving DecidableEq, Repr

/-- The checks of a ready command before placement (R322, R330, R339, R344, R345): with no site left that covers it STATION_UNMAPPED, with none of
those that its mask admits NO_PLACEMENT. -/
def standing (s : State) (i : Nat) (c : Cand) : Stand :=
  let x := c.cmd
  let ks := sitesFor s i x.part c.mask
  let cov := eligible s i c
  let grp := (openGroups s i).filter fun g => x.barrier.any fun b => g.1 == x.part && g.2.1 == b.1
  if (dirWords x.words).any fun h => ((hnd? s i h).map Hnd.damaged).getD false then .ends 14 0
  else if ks.isEmpty then .ends 13 0
  else if !(sitesFor s i x.part 0xFFF).any fun k => covers s k x then
    .ends 3 (xlateResult 9 0 0 (((sitesFor s i x.part 0xFFF).findSome? fun k => uncovered s k x).getD x.prog))
  else if cov.isEmpty then .ends 13 0
  else if grp.any fun g => x.barrier.any fun b => g.2.2 != b.2 then .ends 8 (fields [(0, 2)])
  else if neverFits s i x cov then .ends 13 0
  else if x.barrier.isSome && grp.isEmpty && 64 ≤ ((openGroups s i).map fun g => (g.1, g.2.1)).eraseDups.length then .waits
  else .goes cov

/-- A command that an active hold or an ABSENT group keeps back, or commands that a hold let go before it (R88, R238, R333): what is noted for it
(DEDUCED, log entry 64). -/
def keptBack (s : State) (i : Nat) (c : Cmd) : Option State :=
  match cmdHeld s i c, (cmdGroups s i c).find? (absent s) with
  | h :: _, _ => some (addHeld s i h c.who)
  | [], some g => some (match c.src with
    | .run q _ => hostWait s i q g
    | .step _ _ => s)
  | [], none => if letFirst s i c.who then some s else none

/-- The end of a ready command that was not placed. -/
def endReady (s : State) (i : Nat) (c : Cand) (status result : Nat) : State :=
  endCmdJob (s.updSch i fun x => { x with passed := x.passed.filter fun e => e.1 != c.idx }) i c.cmd status result

/-- A plan taken (R329, R332): the command stands on its site and what must move first is begun; its record's port is chosen (R79). -/
def takePlan (i j : Nat) (r : State × Cmd × List (Nat × Act)) : State :=
  let c := { r.2.1 with order := j }
  let s' := r.1.updSch i fun x => { x with cmds := Tbl.put x.cmds j c, job := j % 2 ^ 31, tasks := x.tasks ++ [{ what := .job j, acts := r.2.2 }] }
  let s' := match c.src with
    | .run q p => s'.updQ i q fun x => x.updPos p fun y => { y with ph := .started, port := pickPort s' x.ctx.group (carrier s' i) }
    | .step p lane => s'.updEnsemble i p fun e => { e with lanes := Tbl.upd e.lanes lane { num := 0, ents := [], lc := false, cmd := c } fun t => { t with job := some j } }
  if r.2.2.isEmpty then taskEnd (s'.updSch i fun x => { x with tasks := x.tasks.dropLast }) i (.job j) else kick s' i

/-- Whether debt passes a command over once as it comes due to start (R335): its debt reaches a slice and another ready command of its class waits. -/
def debtPass (s : State) (i : Nat) (c : Cand) (all : List Cand) : Option (Nat × Nat) :=
  match c.cmd.src with
  | .step _ _ => none
  | .run q _ =>
    let d := Tbl.getD (s.sc i).debts q 0
    let full := max 1 (s.fld (schR i 0 (0x80 + 4 * c.cmd.part)) 0 16)
    if full ≤ d && all.any (fun o => o.idx != c.idx && o.cmd.part == c.cmd.part && o.cmd.lc == c.cmd.lc) then some (q, full) else none

/-- Whether a BE command passed over for longer than the slice of its partition stands before a later one (R331). -/
def overdue (s : State) (i : Nat) (c : Cand) : Bool :=
  let full := max 1 (s.fld (schR i 0 (0x80 + 4 * c.cmd.part)) 0 16)
  match (s.sc i).passed.find? fun e => e.1 == c.idx with
  | some e => full * 1000 < s.time i - e.2
  | none => false

/-- A command noted as passed over, once. -/
def notePassed (s : State) (i : Nat) (c : Cand) : State :=
  if (s.sc i).passed.any fun e => e.1 == c.idx then s else s.updSch i fun x => { x with passed := x.passed ++ [(c.idx, s.time i)] }

/-- The ready commands in order, until one is placed or ends (R331): `blocked` are the partitions where no later BE command goes. -/
def dispatchFrom (i : Nat) (all : List Cand) : List Cand → List Nat → State → State
  | [], _, s => s
  | c :: r, blocked, s =>
    if !c.cmd.lc && blocked.contains c.cmd.part then dispatchFrom i all r blocked s
    else
      match standing s i c with
      | .ends st res => endReady s i c st res
      | .waits => dispatchFrom i all r blocked s
      | .goes ks =>
        match keptBack s i c.cmd with
        | some s => dispatchFrom i all r blocked s
        | none =>
          let j := newJob s i
          match placeBest s i j c.cmd ks, debtPass s i c all with
          | some _, some (q, full) => dispatchFrom i all r blocked (s.updSch i fun x => { x with debts := Tbl.upd x.debts q 0 fun d => d - full })
          | some plan, none =>
              takePlan i j (plan.1.updSch i fun x => { x with rr := Tbl.put x.rr c.rank c.idx, passed := x.passed.filter fun e => e.1 != c.idx }, plan.2)
          | none, _ =>
              let s := notePassed s i c
              dispatchFrom i all r (if c.cmd.lc || overdue s i c then c.cmd.part :: blocked else blocked) s

/-- Commands that wait to be sent tried again. -/
def sendDue (s : State) (i : Nat) : State :=
  ((s.sc i).cmds.filter fun e => e.2.st == .due).foldl (fun s e => trySend s i e.1) s

/-- STATION_DISPATCH (R332): copies that have ended are taken note of, commands that wait to be sent are tried, and the first ready command
that fits is placed. -/
def stationDispatch (s : State) (i : Nat) : State :=
  let s := sendDue (copyDone s i) i
  let s := ((queuesOf s i).filter fun e => e.2.ctx.kind == 1 && e.1 < 2 ^ 20).foldl (fun s e => (startGate s i e.1).1) s
  let all := readyCmds s i
  dispatchFrom i all all [] s

/-- STATION_DISPATCH (R332). -/
def execStationDispatch (i : Inst) (s : State) : Host.Outcome State Fault Refusal := liveF s i.val .sch fun s => stationDispatch s i.val

/-! ### Slices (R334, R394) -/

/-- The state as it would be without a command: killed, its private windows gone (R336). -/
def without (s : State) (i j : Nat) (c : Cmd) : State :=
  let ws := c.privs.filterMap Priv.win
  (s.updSite c.site fun x => { x with wins := x.wins.filter fun w => !ws.contains w.1 }).updSch i fun x => { x with cmds := Tbl.del x.cmds j }

/-- The state as it would be once a command is saved: its private windows stay until they are needed (R337). -/
def afterSave (s : State) (i j : Nat) : State := s.updCmd i j fun c => { c with st := .preempted }

/-- Whether a ready command of the same partition and class and of equal or higher priority would fit once a command leaves (R334). -/
def rivalFits (s : State) (i j : Nat) (c : Cmd) : Bool :=
  let after := if c.cls = 1 then afterSave s i j else without s i j c
  (readyCmds s i).any fun o => o.cmd.part == c.part && o.cmd.lc == c.lc && c.prio ≤ o.cmd.prio &&
    (match standing s i o with
     | .goes ks => (placeBest after i (newJob s i) o.cmd ks).isSome
     | _ => false)

/-- Whether the quota of a site makes a command leave at its slice end (R394): the later accepted commands leave first. -/
def overQuota (s : State) (c : Cmd) : Bool :=
  let on := (cmdsOn s c.site).map fun e => e.2.2
  let later := ((on.filter fun o => c.accSeq < o.accSeq && o.cls != 2 && o.inSlot).map Cmd.engines).sum
  c.cls != 2 && quota s c.site + later < busyEngines s c.site

/-- SLICE_END (R334, R394). -/
def sliceEnd (s : State) (i j : Nat) : State :=
  match s.cmd? i j with
  | none => s
  | some c =>
    if c.dead || c.ask.isSome || !(c.st == .loaded || c.st == .running || c.st == .committing) || !(overQuota s c || rivalFits s i j c) then s
    else if c.cls = 2 || c.st == .committing then s.updCmd i j fun c => { c with stretch := if c.stretch.isSome then c.stretch else some (s.time i) }
    else if c.cls = 0 || c.st == .loaded then askKill s i j .slice
    else (askSave s i j .slice).getD s

/-- SLICE_END (R334). -/
def execSliceEnd (i : Inst) (j : W32) (s : State) : Host.Outcome State Fault Refusal := liveF s i.val .sch fun s => sliceEnd s i.val j.toNat

/-! ### Preemption (R336, R337) -/

/-- A victim an LC command may choose: its job, its measure (bytes, priority, how late its ACCEPT, site). -/
structure Victim where
  job : Nat
  bytes : Nat
  prio : Nat
  acc : Nat
  site : Nat
  deriving DecidableEq, Repr

/-- Whether one victim is chosen before another (R336). -/
def Victim.before (a b : Victim) : Bool :=
  a.bytes < b.bytes || (a.bytes == b.bytes && (a.prio < b.prio || (a.prio == b.prio && (b.acc < a.acc || (b.acc == a.acc && a.site < b.site)))))

/-- A BE command measured as a victim for an LC command (R336); `none` where its departure does not let the LC command be placed there,
or where it cannot be saved (DEDUCED, log entry 69). -/
def victimOf (s : State) (i : Nat) (lc : Cand) (ks : List Nat) (e : Nat × Cmd) : Option Victim :=
  let c := e.2
  if c.lc || c.part != lc.cmd.part || c.chosen || c.ask.isSome || c.dead || !ks.contains c.site || !(c.st == .loaded || (c.st == .running && c.cls != 2)) then none
  else if c.cls = 1 && c.st == .running then
    let own := (c.privs.filterMap Priv.win)
    if (askSave s i e.1 .preempt).isNone then none
    else
      (placeAt (afterSave s i e.1) i (newJob s i) lc.cmd c.site).map fun p =>
        let other := p.2.2.filter fun a => !(match a.2 with | .spill w _ h _ _ => h == 0 && a.1 == c.site && own.contains w | _ => false)
        { job := e.1, bytes := 1024 * capF s c.site 0x14 0 32 + (c.privs.map Priv.size).sum * 2 ^ 20 + movedBytes other, prio := c.prio, acc := c.accSeq, site := c.site }
  else
    (placeAt (without s i e.1 c) i (newJob s i) lc.cmd c.site).map fun p =>
      { job := e.1, bytes := movedBytes p.2.2, prio := c.prio, acc := c.accSeq, site := c.site }

/-- The LC commands that cannot be placed and have no victim on its way, in the order of R331, each with its sites. -/
def stuckLc (s : State) (i : Nat) : List (Cand × List Nat) :=
  (readyCmds s i).filterMap fun c =>
    if !c.cmd.lc || (s.sc i).cmds.any fun e => e.2.victim == some c.cmd.src then none
    else match standing s i c with
      | .goes ks => if (placeBest s i (newJob s i) c.cmd ks).isNone && (keptBack s i c.cmd).isNone then some (c, ks) else none
      | _ => none

/-- LC_PREEMPT (R336): the first LC command that cannot be placed chooses the victim with the fewest bytes to move. -/
def lcPreempt (s : State) (i : Nat) : State :=
  match stuckLc s i with
  | [] => s
  | (c, ks) :: _ =>
    let vs := (s.sc i).cmds.filterMap (victimOf s i c ks)
    match vs.foldl (fun b v => match b with
      | none => some v
      | some w => if v.before w then some v else some w) (none : Option Victim) with
    | none => s
    | some v =>
      let s := s.updCmd i v.job fun x => { x with chosen := true, victim := some c.cmd.src }
      match s.cmd? i v.job with
      | some x => if x.cls = 1 && x.st == .running then (askSave s i v.job .preempt).getD s else askKill s i v.job .preempt
      | none => s

/-- LC_PREEMPT (R336). -/
def execLcPreempt (i : Inst) (s : State) : Host.Outcome State Fault Refusal := liveF s i.val .sch fun s => lcPreempt s i.val

/-- PREEMPTED_RESUME (R337): a saved command placed again, its windows filled from the save region; not before an LC command that waits,
nor behind the curtain of its VD. -/
def resumeCmd (s : State) (i j : Nat) : State :=
  match s.cmd? i j with
  | none => s
  | some c =>
    match c.src with
    | .step _ _ => s
    | .run q p =>
      if c.st != .preempted || (s.q i q).conds.curtain || spilling s i { c with privs := c.privs.map fun v => { v with win := none } } ||
          !homeOf s i c.part || (!c.lc && (stuckLc s i).any fun e => e.1.cmd.part == c.part) then s
      else match keptBack s i c with
      | some s => s
      | none =>
        let ks := (sitesFor s i c.part (siteMask s i c (posRaw s i q p))).filter fun k => covers s k c
        match placeBest s i j { c with restore := true, chosen := false, victim := none } ks with
        | some plan => takePlan i j plan
        | none => s

/-- PREEMPTED_RESUME (R337). -/
def execPreemptedResume (i : Inst) (j : W32) (s : State) : Host.Outcome State Fault Refusal := liveF s i.val .sch fun s => resumeCmd s i.val j.toNat

/-! ### Barrier groups and the di/dt interval (R340-R342) -/

/-- BARRIER_WAVE (R341). -/
def execBarrierWave (i : Inst) (part : Part) (id : BitVec 12) (s : State) : Host.Outcome State Fault Refusal :=
  liveF s i.val .sch fun s => barrierWave s i.val part.val id.toNat

/-- A loaded member killed as its group is dissolved: its job ends with BARRIER_TIMEOUT (R340). -/
def killMember (s : State) (i j : Nat) : State :=
  match s.cmd? i j with
  | none => s
  | some c =>
    if c.dead then s else
    let s := endCmdJob s i c 12 0
    if linkOk s c.site then (sendFrame s c.site 2 [c.slot, 0, 0, j, 0]).updCmd i j fun c => { c with dead := true, ask := some .preempt, isSave := false }
    else finishCmd s i j

/-- BARRIER_TIMEOUT (R340): a group that has not closed is dissolved. -/
def barrierTimeout (s : State) (i p id : Nat) : State :=
  match (s.sc i).barriers.find? fun b => b.part == p && b.id == id && b.left.isNone with
  | none => s
  | some b =>
    let s := s.updSch i fun x => { x with barriers := x.barriers.filter (· != b) }
    (b.jobs.foldl (fun s j => killMember s i j) s).irq (schPage i 0) 19

/-- BARRIER_TIMEOUT (R340). -/
def execBarrierTimeout (i : Inst) (part : Part) (id : BitVec 12) (s : State) : Host.Outcome State Fault Refusal :=
  liveI s i.val fun s => barrierTimeout s i.val part.val id.toNat

/-- DIDT_INTERVAL (R342): a new interval; starts that waited for the budget go on. -/
def didtInterval (s : State) (i : Nat) : State :=
  let s := s.updSch i fun x => { x with started := 0 }
  let due := (s.sc i).barriers.filter fun b => b.due
  let s := due.foldl (fun s b => barrierWave s i b.part b.id) s
  let s := (s.sc i).cmds.foldl (fun s e => pumpGo s i e.1) s
  sendDue s i

/-- DIDT_INTERVAL (R342). -/
def execDidtInterval (i : Inst) (s : State) : Host.Outcome State Fault Refusal := liveI s i.val fun s => didtInterval s i.val

/-! ### The directory (R324, R325, R349) -/

/-- A directory command ends (R349). -/
def dirEnd (s : State) (i result : Nat) (changed : Bool) : State :=
  if changed && mirrored s i then
    (s.setR (schR i 1 0x50) 1).report i [.reg (schR i 1 0x50) 0xFFFF (256 * result), .irq (schPage i 1) 17]
  else (s.setR (schR i 1 0x50) (256 * result)).irq (schPage i 1) 17

/-- A directory command: refused while one is in progress. -/
def dirCmd (s : State) (i : Inst) (a : Acc) (c : Instr) (f : State → Nat → State) : Host.Outcome State Fault Refusal :=
  cmdD s i a (schPage i.val 1) c (fun s => s.fld (schR i.val 1 0x50) 0 1 = 1) fun s =>
    if s.fld (schR i.val 1 0x50) 0 1 = 1 then s.perr (schPage i.val 1) 16 else f s (s.fld (schR i.val 1 0x48) 0 16)

/-- Whether a DA range lies in one valid host window of a partition (R324). -/
def inHostWin (s : State) (i p lo n : Nat) : Bool :=
  (List.range 16).any fun w =>
    let v := winReg s i p w
    bitAt v 0 && winBase w ≤ lo && lo + n ≤ winBase w + min (2 ^ bits v 8 6) (2 ^ 46)

/-- DEFINE (R349). Handle 0 cannot be defined. -/
def dirDefine (s : State) (i h : Nat) : State :=
  let d := s.r (schR i 1 0x58)
  let p := bits d 0 4
  let n := bits d 8 13
  let host := bitAt d 24
  let da := bits (s.r (schR i 1 0x60)) 6 46 * 64
  if (hnd? s i h).isSome then dirEnd s i 0x10 false
  else if h = 0 || !homeOf s i p || n = 0 || 4096 < n || (host && !inHostWin s i p da (n * 2 ^ 20)) then dirEnd s i 0x11 false
  else
    let put (s : State) (x : Hnd) : State := s.updSch i fun c => { c with dir := Tbl.put c.dir h x }
    if host then dirEnd (put s { part := p, size := n, host, hostDa := da, st := 2 }) i 0x01 true
    else match wingsFree s i p n [] with
      | none => dirEnd s i 0x12 false
      | some a => dirEnd ((put s { part := p, size := n, host, hostDa := 0, st := 1, slot := some a }).setR (schR i 1 0x68) a) i 0x01 true

/-- DEFINE (R349). -/
def execDefine (i : Inst) (a : Acc) (s : State) : Host.Outcome State Fault Refusal := dirCmd s i a (.define i a) fun s h => dirDefine s i.val h

/-- Whether a handle is bound or a PREEMPTED command names it (R349). -/
def named (s : State) (i h : Nat) : Bool :=
  (s.sc i).cmds.any fun e => (e.2.inSlot || e.2.st == .preempted) && (dirWords e.2.words).contains h

/-- A directory command's actions begun: it ends when they have been carried out. -/
def dirTask (s : State) (i op h : Nat) (acts : List (Nat × Act)) : State :=
  kick ((s.setR (schR i 1 0x50) 1).updSch i fun x => { x with tasks := x.tasks ++ [{ what := .dir op h, acts }] }) i

/-- DELETE (R349): the window goes without a spill, the slot is free. A handle that is not defined gives BAD_STATE, one that moves IN_USE (DEDUCED, log entry 71). -/
def dirDelete (s : State) (i h : Nat) : State :=
  match hnd? s i h with
  | none => dirEnd s i 0x10 false
  | some d =>
    if named s i h || d.st = 4 then dirEnd s i 0x13 false
    else if d.st = 3 then dirTask (leaveWin (updHnd s i h fun x => { x with st := 4 }) d.site d.win) i 2 h [(d.site, .revoke d.win h)]
    else dirEnd (s.updSch i fun x => { x with dir := Tbl.del x.dir h }) i 0x01 true

/-- DELETE (R349). -/
def execDelete (i : Inst) (a : Acc) (s : State) : Host.Outcome State Fault Refusal := dirCmd s i a (.delete i a) fun s h => dirDelete s i.val h

/-- DIR_DATA0 of a handle. -/
def Hnd.word (d : Hnd) : Nat :=
  fields [(0, d.part), (8, d.size), (24, b2n d.host), (36, b2n d.damaged), (37, b2n d.dirty), (38, if d.st = 3 then winNum d.win else 0), (44, if d.st = 3 then d.site else 0), (48, d.st)]

/-- READ (R349). -/
def dirRead (s : State) (i h : Nat) : State :=
  let s := match hnd? s i h with
    | some d => ((s.setR (schR i 1 0x58) d.word).setR (schR i 1 0x60) d.hostDa).setR (schR i 1 0x68) (d.slot.getD 0)
    | none => ((s.setR (schR i 1 0x58) 0).setR (schR i 1 0x60) 0).setR (schR i 1 0x68) 0
  dirEnd s i 0x01 false

/-- DIR_READ (R349). -/
def execDirRead (i : Inst) (a : Acc) (s : State) : Host.Outcome State Fault Refusal := dirCmd s i a (.dirRead i a) fun s h => dirRead s i.val h

/-- The actions that take a RESIDENT handle off its site: SPILL if it is dirty, with a wings slot found for it, then REVOKE. -/
def offSite (s : State) (i h : Nat) (d : Hnd) : Option (State × List (Nat × Act)) :=
  let go (s : State) (pre : List (Nat × Act)) : State × List (Nat × Act) := (leaveWin (updHnd s i h fun x => { x with st := 4 }) d.site d.win, pre ++ [(d.site, .revoke d.win h)])
  if !d.dirty then some (go s [])
  else match d.slot with
    | some a => some (go s [(d.site, .spill d.win a h d.size (4096 * d.part))])
    | none =>
      (wingsAlloc i d.part d.size [h] (2 * (s.sc i).dir.length + 1) [] s).map fun r =>
        go (updHnd r.1 i h fun x => { x with slot := some r.2.1 }) (r.2.2 ++ [(d.site, .spill d.win r.2.1 h d.size (4096 * d.part))])

/-- EVICT (R349). -/
def dirEvict (s : State) (i h : Nat) : State :=
  match hnd? s i h with
  | none => dirEnd s i 0x10 false
  | some d =>
    if d.st != 3 then dirEnd s i 0x10 false
    else if bound s i h then dirEnd s i 0x13 false
    else match offSite s i h d with
      | none => dirEnd s i 0x12 false
      | some (s, acts) => dirTask s i 4 h acts

/-- EVICT (R349). -/
def execEvict (i : Inst) (a : Acc) (s : State) : Host.Outcome State Fault Refusal := dirCmd s i a (.evict i a) fun s h => dirEvict s i.val h

/-- TO_HOST (R349): the host copy is made current, window and slot are free. -/
def dirToHost (s : State) (i h : Nat) : State :=
  match hnd? s i h with
  | none => dirEnd s i 0x10 false
  | some d =>
    if !d.host || !spillOk s i then dirEnd s i 0x10 false
    else if bound s i h || d.st = 4 then dirEnd s i 0x13 false
    else if d.st = 2 then dirEnd s i 0x01 true
    else if d.st = 1 then
      if d.changed then dirTask (updHnd s i h fun x => { x with st := 4 }) i 5 h [(0, .copy h (d.slot.getD 0) true)]
      else dirEnd (updHnd s i h fun x => { x with st := 2, slot := none }) i 0x01 true
    else match offSite s i h d with
      | none => dirEnd s i 0x12 false
      | some (s, acts) =>
        let da := ((hnd? s i h).bind Hnd.slot).getD 0
        dirTask s i 5 h (acts ++ (if d.dirty || d.changed then [(0, .copy h da true)] else []))

/-- TO_HOST (R349). -/
def execToHost (i : Inst) (a : Acc) (s : State) : Host.Outcome State Fault Refusal := dirCmd s i a (.toHost i a) fun s h => dirToHost s i.val h

/-- CLEAR_DAMAGE (R344, R349). -/
def dirClear (s : State) (i h : Nat) : State :=
  if (hnd? s i h).isSome then dirEnd (updHnd s i h fun x => { x with damaged := false }) i 0x01 true else dirEnd s i 0x10 false

/-- CLEAR_DAMAGE (R349). -/
def execClearDamage (i : Inst) (a : Acc) (s : State) : Host.Outcome State Fault Refusal := dirCmd s i a (.clearDamage i a) fun s h => dirClear s i.val h

end Sys2Proof.Machine
end

