-- ==== Sys2Proof/Machine/Stp.lean ====
section
/-! DEFINITION. The station protocol (R280-R314): the site link, its flits, lanes and retrains, and the frames of stations. -/
namespace Sys2Proof.Machine

/-! ### The link (R284, R285, R290, R310, R311) -/

/-- Whether flits arrive on a site link: it is trained and does not retrain. -/
def flits (s : State) (k : Nat) : Bool :=
  match (s.site k).st with
  | .up | .cap | .mismatch => true
  | _ => false

/-- A retrain of a site link begins (R310): its frames wait, STP.RETRAINS counts it. -/
def siteRetrain (s : State) (k : Nat) : State :=
  if flits s k then
    ((s.updSite k fun x => { x with back := x.st, st := .retrain }).satFld (stpR k 0x100) 0 16 1).irq (stpPage k) 16
  else s

/-- A NAK counted for a seq; whether it is the eighth for that seq (R284). -/
def nakCount (old : Nat × Nat) (seq : Nat) : (Nat × Nat) × Bool :=
  let n := if old.2 != 0 && old.1 == seq then old.2 + 1 else 1
  if 8 ≤ n then ((seq, 0), true) else ((seq, n), false)

/-- FLIT_CRC_ERROR (R284): the flit is dropped, a NAK names the last good seq, the eighth NAK for it starts a retrain. -/
def flitCrcError (s : State) (k : Nat) : State :=
  if !flits s k then s
  else
    let n := nakCount (s.site k).sent (s.site k).rxSeq
    let s := sendFlit (s.bump (stpR k 0x70) 1) k 2 []
    let s := s.updSite k fun x => { x with sent := n.1 }
    if n.2 then siteRetrain s k else s

/-- The flits of a replay buffer after a seq: those it acknowledges are gone; a seq of none of them acknowledges nothing. -/
def unacked (l : List (Nat × Nat × List Nat)) (seq : Nat) : List (Nat × Nat × List Nat) :=
  if l.any fun e => e.1 == seq then (l.dropWhile fun e => e.1 != seq).drop 1 else l

/-- Flits that acknowledge up to a seq leave the replay buffer, if the seq is one of its flits. -/
def ackUpTo (s : State) (k seq : Nat) : State :=
  s.updSite k fun x => { x with acked := if x.replay.any (fun e => e.1 == seq) then seq else x.acked, replay := unacked x.replay seq }

/-- Credits returned by a flit of the station (R285). -/
def addCredits (s : State) (k cmd snp : Nat) : State := s.updSite k fun x => { x with cred := (x.cred.1 + cmd, x.cred.2 + snp) }

/-- NAK (R284): its credits are taken, and every flit after the named seq is replayed, in order; the eighth NAK for it starts a retrain. -/
def nakFlit (s : State) (k seq cmd snp : Nat) : State :=
  if !flits s k then s
  else
    let s := addCredits (ackUpTo s k seq) k cmd snp
    let x := s.site k
    let s := if x.replay.isEmpty then s else s.bump (stpR k 0x78) x.replay.length
    let s := x.replay.foldl (fun s e => s.emit (.flit k 0 e.1 x.rxSeq (0, 0, 0) [(e.2.1, e.2.2)])) s
    let n := nakCount x.naks seq
    let s := s.updSite k fun x => { x with naks := n.1 }
    if n.2 then siteRetrain s k else flushFrames s k

/-- IDLE_FLIT (R284, R285): its ack and its credits let waiting frames go. The ack and the credits of a flit that brings a frame come by an IDLE_FLIT
before the frame's command (DESIGN CHOICE, log entry 61). -/
def idleFlit (s : State) (k ack cmd snp : Nat) : State :=
  if !flits s k then s
  else flushFrames (addCredits (ackUpTo s k ack) k cmd snp) k

/-- The rate a site link trains to: at most STP.LINK_CTL.rate_cap (R314). -/
def trainRate (s : State) (k rate : Nat) : Nat := if s.fld (stpR k 0x44) 0 2 = 1 then min rate 1 else rate

/-- The width that a link may train to beside the halves in which a lane failed without a redundant one left (R310). -/
def trainWidth (x : SiteRec) (width : Nat) : Nat :=
  let bad (half : Nat) : Bool := 3 ≤ x.lanes.getD half 0 || 3 ≤ x.lanes.getD (2 + half) 0
  width &&& ((if bad 0 then 0 else 1) + (if bad 1 then 0 else 2))

/-- SITE_LINK_UP (R285, R290, R309, R310, R311): the site is in CAP; its first flit grants the whole capacity of RSP, SRS and EVT, and CAP_READ goes
to its station, once credits are there. -/
def siteLinkUp (s : State) (k rate width : Nat) : State :=
  let x := s.site k
  let trained := x.st == .absent || x.st == .down || x.st == .training
  let width := trainWidth x width
  if !trained || rate = 0 || width = 0 then s
  else
    let s := s.updSite k fun x => { swapped := x.swapped, moving := x.moving, taking := x.taking, after := x.after, held := x.held,
                                    st := .cap, rate := trainRate s k rate, width, lanes := x.lanes, grant := (128, 64, 32) }
    let s := (List.range 8).foldl (fun s n => s.setR (stpR k (0xC0 + 8 * n)) 0) s
    sendFrame (settleAck (s.irq (stpPage k) 16) k) k 0x0B [0, 0, 0, 0, 0]

/-- SITE_RETRAIN_END (R310, R311): frames that waited go. -/
def siteRetrainEnd (s : State) (k : Nat) : State :=
  if (s.site k).st == .retrain then flushFrames ((s.updSite k fun x => { x with st := x.back }).irq (stpPage k) 16) k else s

/-- LANE_FAILURE (R310): direction and half of the lane. A redundant lane left repairs it; without one an x64 link goes on at x32 on
the other half, and one that trains is left that half; in the half in use at x32 the link goes down. A half out of use needs no action. -/
def laneFailure (s : State) (k dir half : Nat) : State :=
  let x := s.site k
  let n := 2 * dir + half
  let ce (s : State) : State := faultEvent s (stpSrc k) 0 { kind := 2, idx := k } none
  let repair (s : State) : State :=
    ce ((s.updSite k fun x => { x with lanes := x.lanes.set n (x.lanes.getD n 0 + 1) }).satFld (stpR k 0x100) 16 8 1)
  let used := x.width = 3 || x.width = half + 1
  match x.st with
  | .absent | .training =>
    if x.lanes.getD n 0 < 2 then repair s
    else if x.lanes.getD n 0 = 2 then ce (s.updSite k fun x => { x with lanes := x.lanes.set n 3 })
    else s
  | .down => s
  | _ =>
    if !used then s
    else if x.lanes.getD n 0 < 2 then siteRetrain (repair s) k
    else if x.width = 3 then siteRetrain (ce (s.updSite k fun x => { x with width := if half = 0 then 2 else 1 })) k
    else siteLost s k

/-- A site link goes down from a state in which it was trained; from TRAINING the training has failed (R311). -/
def siteDown (s : State) (k : Nat) : State :=
  match (s.site k).st with
  | .absent | .down => s
  | .training => (s.updSite k fun x => { x with st := .down }).irq (stpPage k) 16
  | _ => settleDestroy (siteLost s k)

/-- STP.CMD.link_reset (R311, R314) (DEDUCED, log entry 62). -/
def linkReset (s : State) (k : Nat) : State :=
  match (s.site k).st with
  | .training | .cap => s.perr (stpPage k) 16
  | .absent => (stpReset s k).emit (.siteReset k)
  | .down => ((stpReset (s.updSite k fun x => { x with st := .training }) k).irq (stpPage k) 16).emit (.siteReset k)
  | _ => settleDestroy (siteLost s k)

/-- STP.CMD.cap_read (R290, R314). -/
def capRead (s : State) (k : Nat) : State :=
  match (s.site k).st with
  | .training | .cap => s.perr (stpPage k) 16
  | .absent | .down => s
  | _ => sendFrame s k 0x0B [0, 0, 0, 0, 0]

/-- A good flit with a frame has come: it has the next seq, an ack is owed, the NAKs for one seq begin anew (R284). -/
def rxFlit (s : State) (k : Nat) : State := s.updSite k fun x => { x with rxSeq := (x.rxSeq + 1) % 4096, rxOwed := true, sent := (0, 0) }

/-- What follows once a frame has acted: a DESTROY that waited goes on, and the flit is acknowledged (R284, R285). -/
def frameEnds (s : State) (k : Nat) : State := settleAck (settleDestroy s) k

/-- A frame of a station received on a link that works, in a flit of its own with the next seq (log entry 61); the flit is acknowledged, and
the frame's credit granted again once it is taken (R284, R285). -/
def frameIn (s : State) (k : Nat) (f : Frame) : State := if !flits s k then s else frameEnds (onFrame (rxFlit s k) k f) k

/-- Whether STP.CMD is refused: the link trains or reads CAP (R314). -/
def linkBusy (s : State) (k : Nat) : Bool := (s.site k).st == .training || (s.site k).st == .cap

/-- A command to a site from a register of its STP page. -/
def stpCmd (s : State) (k : Nat) (a : Acc) (c : Instr) (f : State → Nat → State) : Host.Outcome State Fault Refusal :=
  liveI s (k / 6) fun s => guardD s a (stpPage k) c (fun s => linkBusy s k) fun s => f s k

/-! ### Allowances (R296) -/

/-- Whether a timed step of a command runs: the commit of class 0, a run of class 2, or a KILL or SAVE that is not answered. -/
def Cmd.timed (c : Cmd) : Bool := (c.cls == 0 && c.st == .committing) || (c.cls == 2 && c.st == .running) || c.ask.isSome

/-- STATION_ALLOWANCE_EXPIRY (R296): KILL with force, a UCE-C for the job; one that has ended already is killed with force all the same. -/
def allowanceOver (s : State) (k slot : Nat) : State :=
  match cmdAt s k slot with
  | some (i, j, c) =>
    if !c.timed || !flits s k then s
    else if !c.dead then jobFault s i j true
    else if c.ask == some .force then s
    else killCmd (contained s i 0 6 (match c.src with | .run q _ => hubQ i q | .step p _ => p)) i j true
  | none => s

/-- KILL_ALLOWANCE_EXPIRY (R296): PURGE for the partition once the KILL with force is not answered. -/
def killOver (s : State) (k slot : Nat) : State :=
  match cmdAt s k slot with
  | some (i, j, c) =>
    if c.ask != some .force || c.purged || !flits s k || (s.site k).purge.isSome then s
    else (sendFrame (s.updSite k fun x => { x with purge := some c.part }) k 0x0A [0, c.part, 0, 0, 0]).updCmd i j fun c => { c with purged := true }
  | none => s

/-- PURGE_TIMEOUT (R296): the link is reset. -/
def purgeOver (s : State) (k : Nat) : State := if (s.site k).purge.isSome && flits s k then settleDestroy (siteLost s k) else s

/-! ### Host flushes (R267, R272, R295) -/

/-- Whether a host-line request is a write or atomic of the command in a slot. -/
def HlcReq.ofSlot (k slot : Nat) (r : HlcReq) : Bool :=
  match r.src with
  | .station a b _ => a == k && b == slot && r.writes
  | .chan _ | .gone => false

/-- Whether host writes of the command in a slot are still to be translated, to be held or to land on an instance. -/
def hostWork (s : State) (i k slot : Nat) : Bool :=
  let h := s.hl i
  let work (w : HWork) : Bool := match w with | .access r => r.ofSlot k slot | _ => false
  let parked (q : StWait) : Bool := q.site == k && q.slot == slot && (match q.kind with | .write => true | .atomic _ _ _ _ => true | _ => false)
  h.stWait.any parked || h.queue.any (HlcReq.ofSlot k slot) || h.txns.any (fun t => work t.work) || h.wait.any (fun e => work e.2) ||
  (s.pool i).writes.any (fun e => match e.2.owner with | .station a b _ => a == k && b == slot | _ => false) ||
  (s.pool i).reads.any (fun e => match e.2.owner with | .station a b _ at_ => a == k && b == slot && at_ | _ => false)

/-- HOST_FLUSHED (R295): sent with op 1 where host writes were lost; else, once they are held and landed, the ports that carried
them are flushed, and then with op 0. -/
def hostFlushed (s : State) (k slot : Nat) : State :=
  match cmdAt s k slot with
  | none => s
  | some (h, j, c) =>
    let i := carrier s h
    let answer (s : State) (op : Nat) : State :=
      (sendFrame s k 0x0D [slot, op, 0, j, 0]).updCmd h j fun c => { c with flushing := false }
    if !c.flushing || !ownerWorks s k then s
    else if c.lost then answer s 1
    else if hostWork s i k slot then s
    else if !c.wports.isEmpty then issueFlushes s i c.wports
    else answer s 0

/-! ### A site that does not answer a ring snoop (R274) -/

/-- Whether a ring snoop with a tag waits for a site. -/
def ringWaits (s : State) (i k tag : Nat) : Bool :=
  let hit (r : Ring) : Bool := r.tag == tag && r.sites.contains k
  (s.hl i).all.any hit || (s.hl i).txns.any fun t => t.ring.any hit

/-- HOME_TIMEOUT (R274, R311): the site is dead for ring snoops, and every job on its station is torn down (DEDUCED, log entry 63). -/
def homeTimeout (s : State) (k tag : Nat) : State :=
  if (s.site k).st == .retrain || !ringWaits s (owner s k) k tag then s
  else
    let s := siteDead s k
    (cmdsOn s k).foldl (fun s e => if e.2.2.inSlot then jobFault s e.1 e.2.1 true else unplace s e.1 e.2.1) s

/-! ### Commands -/

/-- SITE_LINK_UP (R290). -/
def execSiteLinkUp (k : Site) (rate : Fin 3) (width : Fin 4) (s : State) : Host.Outcome State Fault Refusal :=
  live s fun s => siteLinkUp s k.val rate.val width.val

/-- CAP_DATA (R291). -/
def execCapData (k : Site) (block : List Byte) (s : State) : Host.Outcome State Fault Refusal :=
  live s fun s => frameIn s k.val (.capData block)

/-- Whether the CRC of a flit that came in fails (R283): the CRC-64 over all but its last 8 bytes is not what these carry. -/
def flitBad (bytes : List Byte) : Bool := crc64 (bytes.take 248) != leNat (bytes.drop 248)

/-- FLIT_CRC_ERROR (R284): a flit whose CRC fails came in. -/
def execFlitCrcError (k : Site) (bytes : List Byte) (s : State) : Host.Outcome State Fault Refusal :=
  live s fun s => if flitBad bytes then flitCrcError s k.val else s

/-- NAK (R284). -/
def execNak (k : Site) (n : NakFlit) (s : State) : Host.Outcome State Fault Refusal :=
  live s fun s => nakFlit s k.val n.seq.toNat n.cmd.toNat n.snp.toNat

/-- IDLE_FLIT (R284, R285). -/
def execIdleFlit (k : Site) (ack : BitVec 12) (cmd snp : Byte) (s : State) : Host.Outcome State Fault Refusal :=
  live s fun s => idleFlit s k.val ack.toNat cmd.toNat snp.toNat

/-- LANE_FAILURE (R310). -/
def execLaneFailure (k : Site) (dir half : Bool) (s : State) : Host.Outcome State Fault Refusal :=
  live s fun s => settleDestroy (laneFailure s k.val (b2n dir) (b2n half))

/-- SITE_RETRAIN_END (R310). -/
def execSiteRetrainEnd (k : Site) (s : State) : Host.Outcome State Fault Refusal := live s fun s => siteRetrainEnd s k.val

/-- SITE_RETRAIN_LIMIT (R311). -/
def execSiteRetrainLimit (k : Site) (s : State) : Host.Outcome State Fault Refusal :=
  live s fun s => if (s.site k.val).st == .retrain then settleDestroy (siteLost s k.val) else s

/-- SITE_LINK_DOWN (R311). -/
def execSiteLinkDown (k : Site) (s : State) : Host.Outcome State Fault Refusal := live s fun s => siteDown s k.val

/-- UNKNOWN_FRAME (R288). -/
def execUnknownFrame (k : Site) (s : State) : Host.Outcome State Fault Refusal := live s fun s => frameIn s k.val .unknown

/-- ACCEPT (R293). -/
def execAccept (k : Site) (slot : BitVec 6) (job : W32) (s : State) : Host.Outcome State Fault Refusal :=
  live s fun s => frameIn s k.val (.accept slot.toNat job.toNat)

/-- COMMIT_BEGIN (R294). -/
def execCommitBegin (k : Site) (slot : BitVec 6) (job : W32) (s : State) : Host.Outcome State Fault Refusal :=
  live s fun s => frameIn s k.val (.commitBegin slot.toNat job.toNat)

/-- COMMIT_END (R295), with what IGX reads of a step's batch entries (R367). -/
def execCommitEnd (k : Site) (slot : BitVec 6) (job : W32) (arg : W64) (marks : List Byte) (st : Rsp) (s : State) :
    Host.Outcome State Fault Refusal :=
  live s fun s => frameIn s k.val (.commitEnd slot.toNat job.toNat arg.toNat marks st)

/-- PREEMPT_RSP (R297). -/
def execPreemptRsp (k : Site) (slot : BitVec 6) (job : W32) (result : Byte) (arg : W64) (s : State) : Host.Outcome State Fault Refusal :=
  live s fun s => frameIn s k.val (.preempt slot.toNat job.toNat result.toNat arg.toNat)

/-- OP_DONE (R300). -/
def execOpDone (k : Site) (job : W32) (result code : Byte) (win : BitVec 6) (s : State) : Host.Outcome State Fault Refusal :=
  live s fun s => frameIn s k.val (.opDone job.toNat result.toNat code.toNat win.toNat)

/-- CMD_ERROR (R305). -/
def execCmdError (k : Site) (slot : BitVec 6) (job : W32) (code engine : Byte) (addr : W64) (s : State) : Host.Outcome State Fault Refusal :=
  live s fun s => frameIn s k.val (.cmdError slot.toNat job.toNat code.toNat engine.toNat addr.toNat)

/-- STATE_RSP (R312, R443). -/
def execStateRsp (k : Site) (codes : List Byte) (s : State) : Host.Outcome State Fault Refusal :=
  live s fun s => frameIn s k.val (.stateRsp (codes.map BitVec.toNat))

/-- ACTIVITY (R309). -/
def execActivity (k : Site) (counts : List W32) (s : State) : Host.Outcome State Fault Refusal :=
  live s fun s => frameIn s k.val (.activity (counts.map BitVec.toNat))

/-- STATION_FAULT (R288, R426). -/
def execStationFault (k : Site) (cls : Fin 3) (code : Byte) (detail : W64) (s : State) : Host.Outcome State Fault Refusal :=
  live s fun s => frameIn s k.val (.fault cls.val code.toNat detail.toNat)

/-- SNP_RSP (R304). -/
def execSnpRsp (k : Site) (tag : W32) (op : Fin 4) (g : Group) (hpa : W64) (data : List Byte) (s : State) : Host.Outcome State Fault Refusal :=
  live s fun s => frameIn s k.val (.snpRsp tag.toNat (op.val + 4 * g.val + 16 * hpa.toNat) data)

/-- HOST_FLUSH (R295). -/
def execHostFlush (k : Site) (slot : BitVec 6) (job : W32) (s : State) : Host.Outcome State Fault Refusal :=
  live s fun s => frameIn s k.val (.hostFlush slot.toNat job.toNat)

/-- HOST_FLUSHED (R295). -/
def execHostFlushed (k : Site) (slot : BitVec 6) (s : State) : Host.Outcome State Fault Refusal :=
  live s fun s => hostFlushed s k.val slot.toNat

/-- HOME_TIMEOUT (R274). -/
def execHomeTimeout (k : Site) (tag : W32) (s : State) : Host.Outcome State Fault Refusal := live s fun s => homeTimeout s k.val tag.toNat

/-- SITE_ERR (R426): SITE_ERR_N of a site is low; AON masks it only while it is itself in reset (R45). -/
def execSiteErr (k : Site) (s : State) : Host.Outcome State Fault Refusal :=
  aon s fun s =>
    let s := faultEvent s (40 + k.val) 1 { kind := 2, idx := k.val } none
    match (s.site k.val).st with
    | .absent | .down | .training => s
    | _ => settleDestroy (stationFailed s k.val)

/-- STATION_ALLOWANCE_EXPIRY (R296). -/
def execStationAllowanceExpiry (k : Site) (slot : BitVec 6) (s : State) : Host.Outcome State Fault Refusal :=
  live s fun s => allowanceOver s k.val slot.toNat

/-- KILL_ALLOWANCE_EXPIRY (R296). -/
def execKillAllowanceExpiry (k : Site) (slot : BitVec 6) (s : State) : Host.Outcome State Fault Refusal :=
  live s fun s => killOver s k.val slot.toNat

/-- PURGE_TIMEOUT (R296). -/
def execPurgeTimeout (k : Site) (s : State) : Host.Outcome State Fault Refusal := live s fun s => purgeOver s k.val

/-- LINK_RESET (R314). -/
def execLinkReset (k : Site) (a : Acc) (s : State) : Host.Outcome State Fault Refusal := stpCmd s k.val a (.linkReset k a) linkReset

/-- STP_CAP_READ (R314). -/
def execStpCapRead (k : Site) (a : Acc) (s : State) : Host.Outcome State Fault Refusal := stpCmd s k.val a (.stpCapRead k a) capRead

end Sys2Proof.Machine
end

