-- ==== Sys2Proof/Machine/Compose.lean ====
section
/-! DEFINITION. The ensemble composer (R350-R373): intake of sequences, composition of steps, the commands of the ENS and KVA
pages. -/
namespace Sys2Proof.Machine

/-! ### Intake (R353, R354) -/

/-- SEQUENCE_INTAKE (R351, R353): the first unstarted position of a serving queue, checked, is taken in once its ensemble is ON and a
sequence-table entry is free. -/
def sequenceIntake (s : State) (i q : Nat) : State :=
  match startGate s i q with
  | (s, none) => s
  | (s, some (p, d)) =>
    let x := s.q i q
    let ready := x.ctx.kind = 2 && d.ph == .ready && opcodeOf d.raw = 0x40
    if !ready || (s.ensemble i x.part).st != 1 then s
    else if let h :: _ := seqHeld s i q d.raw then addHeld s i h (.desc q p.pos 0)
    else if letFirst s i (.desc q p.pos 0) then s
    else match Tbl.freshFrom (s.en i).seqs 65536 0 with
      | none => s
      | some n =>
        let raw := d.raw
        let ord := (s.en i).order
        let r : SeqRec :=
          { part := x.part, q, pos := p.pos, prompt := df raw 8 0 52, ptoks := df raw 0x10 0 24, maxNew := df raw 0x10 24 24,
            out := df raw 0x18 0 52, params := df raw 0x20 0 52, user := df raw 0 32 32, lc := x.ctx.cls == 1, intake := ord }
        let s := s.updEns i fun e => { e with seqs := Tbl.put e.seqs n r, order := ord + 1 }
        s.updQ i q fun x => x.updPos p.pos fun y => { y with ph := .started, port := pickPort s x.ctx.group (carrier s i) }

/-- SEQUENCE_INTAKE (R353). -/
def execSequenceIntake (i : Inst) (q : Qidx) (s : State) : Host.Outcome State Fault Refusal :=
  liveF s i.val .ens fun s => sequenceIntake s i.val q.toNat

/-! ### Composition (R358-R362) -/

/-- The configuration that one composition reads (R358, R359). -/
structure StepCfg where
  pool : Nat
  budget : Nat
  entries : Nat
  chunk : Nat
  align : Nat
  target : Nat
  weight : Nat
  active : Nat
  limit : Nat
  deriving DecidableEq, Repr

/-- The configuration of an ensemble (R372) (DEDUCED, log entry 31). -/
def stepCfg (s : State) (i p : Nat) : StepCfg :=
  { pool := poolNo s i p, budget := max 1 (ensF s i p 0x404 0 16), entries := ensF s i p 0x404 16 10, chunk := max 1 (ensF s i p 0x408 0 16),
    align := max 1 (ensF s i p 0x408 16 8), target := s.r (ensR i (0x40C + 0x40 * p)), weight := s.r (ensR i (0x410 + 0x40 * p)),
    active := ensF s i p 0x418 0 17, limit := ensF s i p 0x418 20 8 }

/-- A step being composed: the state so far, its entries, T, M without k's factor applied to anything but its sum, whether the pass
has ended, the block-table entries to write. -/
structure Comp where
  s : State
  ents : List SEnt := []
  tabs : List (Nat × List Nat) := []
  t : Nat := 0
  m : Nat
  ended : Bool := false

/-- Whether a sequence may join a step: in none, and not frozen by a curtain (R371). -/
def SeqRec.joins (q : SeqRec) (p : Nat) : Bool := q.part == p && q.lane.isNone && !q.frozen && q.late.isNone

/-- Whether a sequence holds no blocks of another pool: one that does joins no step, nor is it a victim (R355) (DESIGN CHOICE, log entry 179). -/
def SeqRec.inPool (q : SeqRec) (pool : Nat) : Bool := q.blocks.isEmpty || q.pool == pool

/-- Whether a sequence is active (R354). -/
def SeqRec.active (q : SeqRec) : Bool := q.st != .waiting

/-- Victims of recompute in the order of R362: BE before LC, the latest admitted first. -/
def victims (s : State) (i p pool : Nat) (ents : List SEnt) : List (Nat × SeqRec) :=
  let c := (s.en i).seqs.filter fun e => e.2.joins p && e.2.active && e.2.inPool pool && !ents.any fun x => x.seq == e.1
  let key (e : Nat × SeqRec) : Nat := (if e.2.lc then 2 ^ 40 else 0) + (2 ^ 39 - e.2.admitNo)
  sortBy (fun a b => key a ≤ key b) c

/-- Recompute of one victim (R362): its blocks are free, it waits at the head of its class, or ends with KV_EXHAUSTED. -/
def recompute (s : State) (i p n limit : Nat) : State :=
  let s := s.updEnsemble i p fun e => { e with recomputes := e.recomputes + 1 }
  let s := freeBlocks s i n
  let ord := (s.en i).order
  let s := s.updEns i fun e => { e with order := ord + 1 }
  let s := updSeq s i n fun q => { q with cached := 0, st := .waiting, intake := - ((ord : Int) + 1), recomputes := q.recomputes + 1 }
  match seq? s i n with
  | some q => if limit < q.recomputes then seqEnd s i n 15 (seqResult q false) else s
  | none => s

/-- Blocks freed by recompute until `n` are free or no candidate remains (R362). -/
def recomputeTo (i p pool limit n : Nat) (ents : List SEnt) : Nat → State → State
  | 0, s => s
  | fuel + 1, s =>
    if ((pool? s i pool).map PoolRec.free).getD 0 < n then
      match victims s i p pool ents with
      | v :: _ => recomputeTo i p pool limit n ents fuel (recompute s i p v.1 limit)
      | [] => s
    else s

/-- Blocks that a sequence lacks for `n` tokens. -/
def lacks (k : PoolRec) (q : SeqRec) (n : Nat) : Nat := k.need n - q.blocks.length

/-- An entry added. -/
def Comp.add (c : Comp) (i pool k seq tokens pos miss : Nat) (prefill sample : Bool) : Comp :=
  let s := allocBlocks c.s i pool seq miss
  { s, ents := c.ents ++ [⟨seq, tokens, prefill, sample, pos⟩], tabs := c.tabs ++ newEntries c.s s i pool seq, t := c.t + tokens, m := c.m + k * (pos + tokens) }

/-- One sequence of the decode pass (R359, R361). -/
def decodeOne (i p : Nat) (cfg : StepCfg) (c : Comp) (n : Nat) : Comp :=
  if c.ended || cfg.entries ≤ c.ents.length || cfg.budget ≤ c.t then { c with ended := true }
  else match pool? c.s i cfg.pool, seq? c.s i n with
    | some k, some q =>
      if q.st != .decode then c
      else
        let miss := lacks k q (q.cached + 1)
        let s := if k.free < miss then recomputeTo i p cfg.pool cfg.limit miss c.ents (c.s.en i).seqs.length c.s else c.s
        let c := { c with s }
        match pool? s i cfg.pool, seq? s i n with
        | some k', some q' => if q'.st != .decode || k'.free < miss then c else c.add i cfg.pool k.perToken n 1 q.cached miss false true
        | _, _ => c
    | _, _ => c

/-- The sequences of the decode pass in its order (R359). -/
def decodeOrder (s : State) (i p : Nat) : List (Nat × SeqRec) :=
  let c := (s.en i).seqs.filter fun e => e.2.joins p && e.2.inPool (poolNo s i p) && e.2.st == .decode
  let before (a b : SeqRec) : Bool :=
    if a.lc != b.lc then a.lc else if a.lastStep != b.lastStep then a.lastStep < b.lastStep else a.admitNo ≤ b.admitNo
  sortBy (fun a b => before a.2 b.2) c

/-- The sequences of the prefill pass in its order: those begun in order of admission, then those that wait (R359). One returned by
recompute is at the head of its class (R362). -/
def prefillOrder (s : State) (i p : Nat) : List (Nat × SeqRec) :=
  let c := (s.en i).seqs.filter fun e => e.2.joins p && e.2.inPool (poolNo s i p)
  let begun := sortBy (fun a b => a.2.admitNo ≤ b.2.admitNo) (c.filter fun e => e.2.st == .prefill)
  let before (a b : SeqRec) : Bool :=
    if a.lc != b.lc then a.lc
    else if (a.intake < 0) != (b.intake < 0) then a.intake < 0
    else if !(a.intake < 0) && s.seqPrio i a != s.seqPrio i b then s.seqPrio i b < s.seqPrio i a
    else a.intake ≤ b.intake
  begun ++ sortBy (fun a b => before a.2 b.2) (c.filter fun e => e.2.st == .waiting)

/-- The chunk of a sequence with `r` known tokens left after position `c` (R359): `t` and `m` are T and M, `k` bytes per token. -/
def chunkOf (cfg : StepCfg) (k r c t m : Nat) : Nat :=
  let c0 := min (min r (cfg.budget - t)) cfg.chunk
  let c1 := if k < cfg.target then (if m + k * c < cfg.target * t then 0 else min c0 ((m + k * c - cfg.target * t) / (cfg.target - k))) else c0
  if c1 < r then c1 / cfg.align * cfg.align else c1

/-- One sequence of the prefill pass (R359, R361). -/
def prefillOne (i p : Nat) (cfg : StepCfg) (c : Comp) (n : Nat) : Comp :=
  if c.ended || cfg.entries ≤ c.ents.length || cfg.budget ≤ c.t then { c with ended := true }
  else match pool? c.s i cfg.pool, seq? c.s i n with
    | some k, some q =>
      let known := q.ptoks + q.gen
      let z := chunkOf cfg k.perToken (known - q.cached) q.cached c.t c.m
      let miss := lacks k q (q.cached + z)
      let fresh := q.st == .waiting
      let count := ((c.s.en i).seqs.filter fun e => e.2.part == p && e.2.active).length
      let ok := if fresh then count < cfg.active && 0 < k.tablesFree && k.reserve + miss ≤ k.free else miss ≤ k.free
      if z = 0 || !ok then { c with ended := true }
      else
        let ord := (c.s.en i).admits
        let s := if fresh then updSeq (c.s.updEns i fun e => { e with admits := ord + 1 }) i n fun q => { q with st := .prefill, admitNo := ord } else c.s
        { c with s }.add i cfg.pool k.perToken n z q.cached miss true (q.cached + z == known)
    | _, _ => c

/-- A batch entry as eight 64-bit words (R365). -/
def entryWords (s : State) (i : Nat) (k : PoolRec) (e : SEnt) : List Nat :=
  match seq? s i e.seq with
  | none => []
  | some q =>
    [fields [(0, e.seq), (32, e.tokens), (56, b2n e.prefill), (57, b2n e.sample)], fields [(0, e.pos), (32, q.gen)], q.prompt, q.out, q.params,
     k.btDa + 4 * 2 ^ k.btLog2 * q.table.getD 0, fields [(0, q.maxNew), (32, q.user)], 0]

/-- The batch buffer of a step as 64-bit words (R365). -/
def batchWords (s : State) (i p lane num : Nat) (k : PoolRec) (ents : List SEnt) (t : Nat) : List Nat :=
  let d := (ents.filter fun e => !e.prefill).length
  [num, fields [(0, ents.length), (16, d), (32, t)], k.base, fields [(0, k.log2), (8, k.btLog2), (16, k.btoks), (32, p), (40, lane)], 0, 0, 0, 0] ++
  ents.flatMap (entryWords s i k)

/-- The two passes of one composition (R359): the decode pass, then the prefill pass. -/
def composed (s : State) (i p : Nat) : Comp :=
  let cfg := stepCfg s i p
  let c := ((decodeOrder s i p).map Prod.fst).foldl (decodeOne i p cfg) { s, m := cfg.weight }
  ((prefillOrder c.s i p).map Prod.fst).foldl (prefillOne i p cfg) { c with ended := false }

/-- A step composed for a lane (R358-R365): an idle lane of an ensemble that is ON; its batch and block-table writes carry the partition's context
tag and the step's class (DEDUCED, log entry 73), `st` tells how they end. -/
def stepCompose (s : State) (i p lane : Nat) (st : Rsp) : State :=
  let e := s.ensemble i p
  let cfg := stepCfg s i p
  if e.st != 1 || ensF s i p 0x400 8 4 ≤ lane || 12 ≤ lane || Tbl.has e.lanes lane || !homeOf s i p then s
  else match pool? s i cfg.pool with
    | none => s
    | some k =>
      let c2 := composed s i p
      let s' := c2.s
      if c2.ents.isEmpty then s'
      else if st != .ok then
        contained ((s.updEnsemble i p fun e => { e with st := 3 }).irq (ensPage i) 17) i 3 0 p
      else
        let num := e.num + 1
        let lc := c2.ents.any fun x => ((seq? s' i x.seq).map SeqRec.lc).getD false
        let cmd := stepCmd s' i p lane lc
        let who := [cmd.tag, b2n lc]
        let s' := c2.tabs.foldl (fun s e => s.emit (.bulk 1 e.1 (who ++ e.2))) s'
        let s' := s'.emit (.bulk 3 cmd.args (who ++ batchWords s' i p lane num k c2.ents c2.t))
        let s' := c2.ents.foldl (fun s x => updSeq s i x.seq fun q => { q with lane := some lane, lastStep := num }) s'
        s'.updEnsemble i p fun e => { e with num, lanes := Tbl.put e.lanes lane { num, ents := c2.ents, lc, cmd } }

/-- STEP_COMPOSE (R359). -/
def execStepCompose (i : Inst) (p : Part) (lane : Fin 12) (st : Rsp) (s : State) : Host.Outcome State Fault Refusal :=
  liveF s i.val .ens fun s => stepCompose s i.val p.val lane.val st

/-! ### The ENS page (R351, R370, R372) -/

/-- An ensemble command ends, a change once the partner holds it (R372). -/
def ensEnd (s : State) (i result : Nat) (changed : Bool) : State :=
  if changed && mirrored s i then
    (s.setFld (ensR i 0x48) 0 16 1).report i [.reg (ensR i 0x48) 0xFFFF (256 * result), .irq (ensPage i) 16]
  else (s.setFld (ensR i 0x48) 0 16 (256 * result)).irq (ensPage i) 16

/-- An ensemble command on the partition of ENS.SEL: refused while one is in progress. -/
def ensCmd (s : State) (i : Inst) (a : Acc) (c : Instr) (f : State → Nat → State) : Host.Outcome State Fault Refusal :=
  cmdD s i a (ensPage i.val) c (fun s => s.fld (ensR i.val 0x48) 0 1 = 1) fun s =>
    if s.fld (ensR i.val 0x48) 0 1 = 1 then s.perr (ensPage i.val) 16 else f s (s.fld (ensR i.val 0x40) 0 4)

/-- The BAD_FIELD cases of ENABLE (R372). -/
def enableBad (s : State) (i p : Nat) : Bool :=
  let n := poolNo s i p
  let lanes := ensF s i p 0x400 8 4
  let shared := (s.en i).recs.any fun e => e.1 != p && e.2.st != 0 && poolNo s i e.1 == n
  let words := (List.range 7).map fun k => s.r (ensR i (0x800 + 0x20 * p + 4 * (k + 1)))
  let known (w : Nat) : Bool := w == 0 || (match hnd? s i (wordId w) with | some d => d.part == p | none => false)
  match pool? s i n with
  | none => true
  | some k =>
    k.part != p || shared || lanes = 0 || 12 < lanes || ensF s i p 0x428 16 9 = 0 || ensF s i p 0x428 0 16 = 0 ||
    2 ^ k.tabLog2 < ensF s i p 0x418 0 17 || words.any fun w => !known w

/-- ENABLE (R372). -/
def ensEnable (s : State) (i p : Nat) : State :=
  if !homeOf s i p || (s.ensemble i p).st != 0 then ensEnd s i 0x10 false
  else if enableBad s i p then ensEnd s i 0x11 false
  else ensEnd (s.updEnsemble i p fun e => { e with st := 1, num := 0 }) i 0x01 true

/-- ENABLE (R372). -/
def execEnable (i : Inst) (a : Acc) (s : State) : Host.Outcome State Fault Refusal := ensCmd s i a (.enable i a) fun s p => ensEnable s i.val p

/-- DISABLE (R351, R372): OFF once the steps in flight have ended. -/
def ensDisable (s : State) (i p : Nat) : State :=
  let e := s.ensemble i p
  if e.st != 1 && e.st != 3 then ensEnd s i 0x10 false
  else if e.lanes.isEmpty then ensEnd (s.updEnsemble i p fun e => { e with st := 0 }) i 0x01 true
  else ((s.updEnsemble i p fun e => { e with st := 2 }).updEns i fun e => { e with disabling := some p }).setFld (ensR i 0x48) 0 16 1

/-- DISABLE (R351). -/
def execDisable (i : Inst) (a : Acc) (s : State) : Host.Outcome State Fault Refusal := ensCmd s i a (.disable i a) fun s p => ensDisable s i.val p

/-- A cancel of the sequence at a hub queue's position (R370): NOT_FOUND where it is not in the composer (DEDUCED, log entry 76). -/
def ensCancel (s : State) (i v : Nat) : State :=
  let q := bits v 0 20
  let pos := bits v 32 24
  match (s.en i).seqs.find? fun e => e.2.q == q && e.2.pos == pos && e.2.late != some 6 with
  | some e =>
    if bits v 20 1 != i then s.setR (ensR i 0x60) 0x10
    else
      let s := s.setR (ensR i 0x60) 0x01
      if e.2.lane.isNone then seqEnd s i e.1 16 (seqResult e.2 false) else updSeq s i e.1 fun x => { x with late := some 16 }
  | none => s.setR (ensR i 0x60) 0x10

/-- ENS_CANCEL (R370), written whole or by halves (R57). A write to a function that a commit holds waits (R69). -/
def execEnsCancel (i : Inst) (a : Acc) (h : Half) (s : State) : Host.Outcome State Fault Refusal :=
  liveI s i.val fun s =>
    if fnHeld s i.val .ens && meets s a (ensPage i.val) == .acts then holdW s a (ensPage i.val) (.ensCancel i a h)
    else meetW s a (ensPage i.val) (.ensCancel i a h) go
where
  /-- The cancel of a write that acts. -/
  go (s : State) : State :=
    match takeHalf s (ensPage i.val) 0x58 h with
    | (s, some (some v)) => ensCancel s i.val v
    | (s, _) => s

/-! ### The KVA page (R355, R373) -/

/-- A pool command ends, a change once the partner holds it (R373). -/
def poolEnd (s : State) (i result : Nat) (changed : Bool) : State :=
  if changed && mirrored s i then
    (s.setR (kvaR i 0x48) 1).report i [.reg (kvaR i 0x48) 0xFFFF (256 * result), .irq (kvaPage i) 16]
  else (s.setR (kvaR i 0x48) (256 * result)).irq (kvaPage i) 16

/-- A command on the pool of KVA.POOL_SEL: refused while one is in progress. -/
def poolCmd (s : State) (i : Inst) (a : Acc) (c : Instr) (f : State → Nat → State) : Host.Outcome State Fault Refusal :=
  cmdD s i a (kvaPage i.val) c (fun s => s.fld (kvaR i.val 0x48) 0 1 = 1) fun s =>
    if s.fld (kvaR i.val 0x48) 0 1 = 1 then s.perr (kvaPage i.val) 16 else f s (s.fld (kvaR i.val 0x40) 0 4)

/-- The pool that the KVA registers describe. -/
def poolRegs (s : State) (i : Nat) : PoolRec :=
  let n := s.fld (kvaR i 0x5C) 0 23
  { part := s.fld (kvaR i 0x58) 8 4, base := s.r (kvaR i 0x50), log2 := s.fld (kvaR i 0x58) 0 5, btoks := s.fld (kvaR i 0x58) 16 16, blocks := n,
    btDa := s.r (kvaR i 0x60), btLog2 := s.fld (kvaR i 0x68) 0 5, tabLog2 := s.fld (kvaR i 0x68) 8 5, reserve := s.fld (kvaR i 0x6C) 0 23, low := n }

/-- Whether a field of a pool lies outside its range, or its blocks or tables leave the device region (R373, R191). -/
def PoolRec.bad (k : PoolRec) : Bool :=
  k.log2 < 16 || 21 < k.log2 || k.btoks = 0 || k.blocks = 0 || 4194304 < k.blocks || k.btLog2 < 4 || 16 < k.btLog2 || 16 < k.tabLog2 ||
  k.base % 2 ^ k.log2 != 0 || 2 ^ 50 < k.base + k.blocks * 2 ^ k.log2 || 2 ^ 50 < k.btDa + 4 * 2 ^ (k.tabLog2 + k.btLog2)

/-- CREATE of a pool (R373). -/
def poolCreate (s : State) (i n : Nat) : State :=
  let k := poolRegs s i
  if (pool? s i n).isSome || !homeOf s i k.part then poolEnd s i 0x10 false
  else if k.bad then poolEnd s i 0x11 false
  else poolEnd (s.updEns i fun e => { e with pools := Tbl.put e.pools n k }) i 0x01 true

/-- POOL_CREATE (R373). -/
def execPoolCreate (i : Inst) (a : Acc) (s : State) : Host.Outcome State Fault Refusal := poolCmd s i a (.poolCreate i a) fun s n => poolCreate s i.val n

/-- DESTROY of a pool (R373). -/
def poolDestroy (s : State) (i n : Nat) : State :=
  match pool? s i n with
  | none => poolEnd s i 0x10 false
  | some _ =>
    let held := (s.en i).seqs.any fun e => e.2.pool == n && !e.2.blocks.isEmpty
    let named := (s.en i).recs.any fun e => e.2.st != 0 && poolNo s i e.1 == n
    if held || named then poolEnd s i 0x13 false
    else poolEnd (s.updEns i fun e => { e with pools := Tbl.del e.pools n }) i 0x01 true

/-- POOL_DESTROY (R373). -/
def execPoolDestroy (i : Inst) (a : Acc) (s : State) : Host.Outcome State Fault Refusal := poolCmd s i a (.poolDestroy i a) fun s n => poolDestroy s i.val n

/-- READ of a pool (R373): its values into the RW registers, zero where there is none. -/
def poolRead (s : State) (i n : Nat) : State :=
  let k : PoolRec := (pool? s i n).getD ⟨0, 0, 0, 0, 0, 0, 0, 0, 0, [], 0, [], 0, 0, 0, 0⟩
  let s := (s.setR (kvaR i 0x50) k.base).setR (kvaR i 0x58) (fields [(0, k.log2), (8, k.part), (16, k.btoks)])
  let s := (s.setR (kvaR i 0x5C) k.blocks).setR (kvaR i 0x60) k.btDa
  let s := (s.setR (kvaR i 0x68) (fields [(0, k.btLog2), (8, k.tabLog2)])).setR (kvaR i 0x6C) k.reserve
  poolEnd s i 0x01 false

/-- POOL_READ (R373). -/
def execPoolRead (i : Inst) (a : Acc) (s : State) : Host.Outcome State Fault Refusal := poolCmd s i a (.poolRead i a) fun s n => poolRead s i.val n

end Sys2Proof.Machine
end

