-- ==== Sys2Proof/Machine/Txn.lean ====
section
/-! DEFINITION. The TXN page (R62-R65, R70, R71): tags opened, pages bound, tags ended. -/
namespace Sys2Proof.Machine

/-- A register of the TXN page. -/
def txnR (i off : Nat) : Nat := reg .txn i 0 off

/-- Whether the TXN page of an instance is served by its partner, which opens and binds nothing there (R441). -/
def txnFrozen (s : State) (i : Nat) : Bool := server s i != some i

/-- A command of the TXN page: tags 0 and 9-15 set bad_access; on a page that a partner serves it is refused (R62, R441). Where the slot is not
`ok` for it, it is dropped. -/
def txnCmd (s : State) (i v : Nat) (ok : TxnSlot → Bool) (f : State → Nat → State) : State :=
  let tag := bits v 0 4
  let drop := tag = 0 || 8 < tag || txnFrozen s i || !ok (slotOf s i tag)
  let s := if drop then { s with rlatch := Tbl.del s.rlatch (txnPage i).key } else clearLatches s (txnPage i)
  if tag = 0 || 8 < tag then s.perr (txnPage i) 0 else if txnFrozen s i then s.perr (txnPage i) 3 else f s tag

/-- Whether a tag is OPEN and `a` its opener: what BIND, COMMIT and ROLLBACK ask (R65, R68, R70). -/
def TxnSlot.mine (t : TxnSlot) (a : Acc) : Bool := t.st == .opened && t.openedBy a

/-- BEGIN (R63): a tag in FREE or DONE is opened. -/
def txnBegin (s : State) (i tag : Nat) (a : Acc) (cookie : Nat) : State :=
  match (slotOf s i tag).st with
  | .opened | .committing => s
  | _ =>
    let who : Acc := if a.cp then ⟨true, 0, 0⟩ else a
    updSlot s i tag fun _ => { st := .opened, opener := who, cookie, armed := s.fld (txnR i 0x50) 0 24 != 0 }

/-- TXN_BEGIN (R63). -/
def execTxnBegin (i : Inst) (a : Acc) (v : W32) (s : State) : Host.Outcome State Fault Refusal :=
  liveI s i.val fun s => txnCmd s i.val v.toNat (fun t => t.st != .opened && t.st != .committing) fun s tag => txnBegin s i.val tag a (bits v.toNat 16 16)

/-- BIND (R65) of the page with an index of the instance range: refused where another tag binds it, where it cannot be bound, and for
a 65th page. -/
def txnBind (s : State) (i tag : Nat) (a : Acc) (n : Nat) : State :=
  let t := slotOf s i tag
  let off := 0x800000 * i + 0x1000 * n
  if !t.mine a then s.perr (txnPage i) 3
  else if t.failed then s
  else match instPageAt n with
    | none => failSlot s i tag 0x12 off
    | some (ty, k) =>
      let p : PageId := ⟨ty, i, k⟩
      match binder s p with
      | some (other, _) => if other = tag then s else failSlot s i tag 0x11 off
      | none =>
        if ty == .txn then failSlot s i tag 0x12 off
        else if 64 ≤ t.pages.length then failSlot s i tag 0x13 off
        else updSlot s i tag fun t => { t with pages := t.pages ++ [p.key] }

/-- TXN_BIND (R65). -/
def execTxnBind (i : Inst) (a : Acc) (v : W32) (s : State) : Host.Outcome State Fault Refusal :=
  liveI s i.val fun s => txnCmd s i.val v.toNat (fun t => t.mine a) fun s tag => txnBind s i.val tag a (bits v.toNat 4 11)

/-- COMMIT (R68): the tag joins the commits of its instance. -/
def txnCommit (s : State) (i tag : Nat) (a : Acc) : State :=
  let t := slotOf s i tag
  if !t.mine a then s.perr (txnPage i) 3
  else
    let s := updSlot s i tag fun t => { t with st := .committing, armed := false }
    { s with txn := s.txn.upd i fun x => { x with queue := x.queue ++ [tag] } }

/-- TXN_COMMIT (R68). -/
def execTxnCommit (i : Inst) (a : Acc) (v : W32) (s : State) : Host.Outcome State Fault Refusal :=
  liveI s i.val fun s => txnCmd s i.val v.toNat (fun t => t.mine a) fun s tag => txnCommit s i.val tag a

/-- The pages of a tag unbound, their read_shadow cleared, and its log discarded; the count of its entries stays (R54, R62, R68). -/
def txnUnbind (s : State) (i tag : Nat) : State :=
  let s := (slotOf s i tag).pages.foldl (fun s k => s.setMask (k + 0x20) (2 ^ 31) 0) s
  let s := updSlot s i tag fun t => { t with pages := [], log := [], armed := false }
  { s with txn := s.txn.upd i fun x => { x with queue := x.queue.filter (· != tag) } }

/-- A tag enters DONE without being applied: the result, unless it had failed before (R67, R70, R71). -/
def txnEnd (s : State) (i tag result : Nat) (fails : Bool) : State :=
  let s := updSlot (txnUnbind s i tag) i tag fun t => { t with st := .done, result := if t.failed then t.result else result, failed := t.failed || fails }
  s.irq (txnPage i) (15 + tag)

/-- ROLLBACK (R70). -/
def txnRollback (s : State) (i tag : Nat) (a : Acc) : State :=
  let t := slotOf s i tag
  if !t.mine a then s.perr (txnPage i) 3 else txnEnd s i tag 0x02 false

/-- TXN_ROLLBACK (R70). -/
def execTxnRollback (i : Inst) (a : Acc) (v : W32) (s : State) : Host.Outcome State Fault Refusal :=
  liveI s i.val fun s => txnCmd s i.val v.toNat (fun t => t.mine a) fun s tag => txnRollback s i.val tag a

/-- TXN_TIMEOUT (R71): the deadline of an open tag passes (DESIGN CHOICE, log entry 6). -/
def execTxnTimeout (i : Inst) (tag : BitVec 4) (s : State) : Host.Outcome State Fault Refusal :=
  liveI s i.val fun s =>
    let t := slotOf s i.val tag.toNat
    if t.st == .opened && t.armed then txnEnd s i.val tag.toNat 0x17 true else s

/-- A slot that a failover ends before its commit was applied (R72): INSTANCE_RESET replaces any result, and fail_offset. A slot that was DONE
raises no second done_tag. Its failed bit is 1 (DESIGN CHOICE, log entry 169). -/
def txnLost (s : State) (i tag : Nat) : State :=
  let was := (slotOf s i tag).st
  let s := updSlot (txnUnbind s i tag) i tag fun t => { t with st := .done, result := 0x19, failOff := 0, failed := true, applied := false }
  if was == .done then s else s.irq (txnPage i) (15 + tag)

/-- The transactions that a port opened end with PORT_RESET (R71); a commit already applied is not affected. -/
def txnPortReset (s : State) (p : Nat) : State :=
  let one (i : Nat) (s : State) : State :=
    let hit (t : TxnSlot) : Bool := (t.st == .opened || (t.st == .committing && !t.applied)) && !t.opener.cp && t.opener.port.val == p
    ((s.txn.get i).slots.filter fun e => hit e.2).foldl (fun s e => txnEnd s i e.1 0x18 true) s
  one 1 (one 0 s)

end Sys2Proof.Machine
end

