-- ==== Sys2Proof/Machine/Absence.lean ====
section
/-! DEFINITION. The loss of a port (R86, R121, R230) and of a host (R87, R88, R277): what moves to another port, what is lost. -/
namespace Sys2Proof.Machine

/-- A register of an HPC page. -/
def hpcR (p off : Nat) : Nat := reg .hpc 0 p off

/-- The HPC page of a port. -/
def hpcPage (p : Nat) : PageId := ⟨.hpc, 0, p⟩

/-- A register of the XBAR page. -/
def xbarR (off : Nat) : Nat := reg .xbar 0 0 off

/-- The XBAR page. -/
def xbarPage : PageId := ⟨.xbar, 0, 0⟩

/-- Both instances in turn. -/
def bothInst (s : State) (f : State → Nat → State) : State := f (f s 0) 1

/-! ### Messages without an Ack (R86, R121) -/

/-- The vector entry whose message has an address and data: its instance, number and contents. -/
def vectorOf (s : State) (addr data : Nat) : Option (Nat × Nat × VEntry) :=
  [0, 1].findSome? fun i => ((s.qm.get i).vt.find? fun e => e.2.addr.toNat == addr && e.2.data == data && e.2.valid).map fun e =>
    (i, (e.1 - s.r (qmR i 0 0xD8)) / 16, e.2)

/-- The newest `n` interrupt messages sent on a port, oldest first. -/
def lastMsgs (s : State) (p n : Nat) : List Out :=
  ((s.out.filter fun o => match o with
    | .msix q _ _ => q == p
    | .vecMsg q _ _ _ => q == p
    | _ => false).take n).reverse

/-- A message that had no Ack is sent again, once, under the rule of its kind (R121); a queue's message goes to the journal while its
group is ABSENT (R89). -/
def resendMsg (s : State) (o : Out) : State :=
  match o with
  | .msix _ v _ => sendMsix s (if v < 2 then s.fld (qmR v 0 0x100) 0 4 else s.fld (fltR 0x60) 0 4) v
  | .vecMsg _ a d _ => (match vectorOf s a d with
    | some (i, v, e) => vtMessage s i v e noQ
    | none => s)
  | _ => s

/-! ### A port moves its work (R86) -/

/-- The port that takes over work of a lost one (R79, R86): enabled for the instance where one is, else any UP port of the group (DESIGN CHOICE, log entry 110). -/
def movePort (s : State) (g i : Nat) : Option Nat := match leastPort s g i with
  | some p => some p
  | none => leastBy (portLoad s) (upPorts s g)

/-- The instance that carries a journal copy. -/
def copyCarrier (s : State) : Nat := if alive s 0 then 0 else 1

/-- Whether the host-line cache still holds the request of a channel's number, so that nothing of it has been sent. -/
def hlcHolds (s : State) (i n : Nat) (w : Bool) : Bool :=
  let hit (r : HlcReq) : Bool := r.src == .chan n && r.writes == w
  let work (x : HWork) : Bool := match x with | .access r => hit r | _ => false
  (s.hl i).queue.any hit || (s.hl i).txns.any (fun t => work t.work) || (s.hl i).wait.any fun e => work e.2

/-- Something posted on a port without an Ack (R86): a host write by its slot, or a queue's interrupt message by address and data. -/
inductive Posted where
  | write (slot : Nat)
  | msg (addr data : Nat)
  deriving DecidableEq, Repr

/-- What an instance has posted on a port and must post again, in the order in which it was sent: the host writes in flight and the messages
among the newest `un` of the port; writes that the host-line cache still holds come last (DEDUCED, log entry 109). -/
def postedOn (s : State) (i p un : Nat) : List Posted :=
  let mine := ((s.pool i).writes.filter fun e => e.2.port == some p).map Prod.fst
  let msgs := lastMsgs s p un
  let step (x : List Posted × Nat) (o : Out) : List Posted × Nat :=
    match o with
    | .hostWrite c q n _ _ _ => if c = i && q = p && mine.contains n && !x.1.contains (.write n) then (.write n :: x.1, x.2) else x
    | .vecMsg q a d _ =>
      if q != p || msgs.length ≤ x.2 then x
      else (if (vectorOf s a d).any fun v => carrier s v.1 == i then .msg a d :: x.1 else x.1, x.2 + 1)
    | .msix q _ _ => if q == p && x.2 < msgs.length then (x.1, x.2 + 1) else x
    | _ => x
  let sent := (s.out.foldl step ([], 0)).1
  sent ++ (mine.filter fun n => !sent.contains (.write n)).map .write

/-- The port list of a position, a queue, a command or a copy with a lost port's entry on its successor, as a write issued there now (R248). -/
def rekey (p np id : Nat) (l : List (Nat × Nat)) : List (Nat × Nat) :=
  if l.any fun e => e.1 == p then (np, id) :: l.filter fun e => e.1 != p && e.1 != np else l

/-- Everything of an instance that names a lost port names its successor (R86, R248): the port of a descriptor, of a position's record, of a command;
host writes that the lost port carried are flushed on its successor. -/
def movePorts (s : State) (i p np : Nat) : State :=
  let id := (s.pool i).flushId
  let toNp (n : Nat) : Nat := if n = p then np else n
  let fq (x : Queue) : Queue :=
    { x with unflushed := rekey p np id x.unflushed, recFly := x.recFly.map fun e => (e.1, toNp e.2), recPort := x.recPort.map toNp,
             poss := x.poss.map fun y => { y with ports := rekey p np id y.ports, port := y.port.map toNp } }
  let fc (c : Cmd) : Cmd := { c with wports := rekey p np id c.wports, hport := c.hport.map toNp }
  let one (h : Nat) (s : State) : State :=
    if carrier s h == i then ({ s with qm := s.qm.upd h fun m => { m with ctxs := Tbl.mapV m.ctxs fq } } : State).updSch h fun x => { x with cmds := Tbl.mapV x.cmds fc }
    else s
  let s := one 1 (one 0 s)
  let s := s.updPool i fun x => { x with unflushed := x.unflushed.map fun u => if u.port = p then { u with port := np, id } else u }
  let fr (r : HlcReq) : HlcReq := { r with port := r.port.map toNp }
  let fw (w : HWork) : HWork := match w with | .access r => .access (fr r) | w => w
  let s := s.updHlc i fun h =>
    { h with queue := h.queue.map fr, txns := h.txns.map fun t => { t with work := fw t.work }, wait := h.wait.map fun e => (e.1, fw e.2) }
  let fch (c : ChanRec) : ChanRec := { c with ports := c.ports.map fun e => (e.1, toNp e.2) }
  { s with chans := s.chans.map (fun e => if e.1 / 256 = i then (e.1, fch e.2) else e),
           copy := s.copy.map fun c => if copyCarrier s = i then { c with ports := rekey p np id c.ports } else c }

/-- The bytes of a write sent again: a completion record says that it is re-issued (R117). -/
def WUse.again (w : WUse) : List Byte :=
  match w.owner with
  | .record _ _ _ => w.bytes.set 11 (w.bytes.getD 11 0 ||| 2)
  | _ => w.bytes

/-- The posted requests of a lost port issued again on its successor, in their order (R86). -/
def moveWrites (s : State) (i p np un : Nat) : State :=
  (postedOn s i p un).foldl (fun s o =>
    match o with
    | .write n =>
      (match Tbl.find (s.pool i).writes n with
       | none => s
       | some w =>
         let w := { w with port := some np, bytes := w.again }
         let s := s.updPool i fun y => { y with writes := Tbl.put y.writes n w }
         if hlcHolds s i n true then s else s.emit (.hostWrite i np n w.taddr w.bytes (reqAttr s np w.ro true)))
    | .msg a d => s.emit (.vecMsg np a d (strictAttr s np))) s

/-- The translated address of a read in flight. -/
def readAddr (s : State) (u : RUse) : Nat :=
  match u.owner with
  | .chan cid => (match curDesc s (s.chan cid) with
    | some d => (match findUnit d.units u.sp u.addr with
      | some x => x.tbase + (u.addr - x.base)
      | none => u.addr)
    | none => u.addr)
  | .desc h q _ => (match (s.q h q).ringRead with
    | some (_, x) => x.tbase + (u.addr - x.base)
    | none => u.addr)
  | _ => u.addr

/-- The reads of a lost port issued again on its successor; a station's AtomicOp is answered with an error instead, because the host may have
performed it (R86). One flushing read there, after the writes issued again, stands for those of the lost port (R261). -/
def moveReads (s : State) (i p np : Nat) : State :=
  let rs := (s.pool i).reads.filter fun e => e.2.port == some p
  let drop (s : State) (n : Nat) : State := s.updPool i fun y => { y with reads := Tbl.del y.reads n }
  let s := rs.foldl (fun s e =>
    match e.2.owner with
    | .dead | .flush _ => drop s e.1
    | .station k _ tag true => (drop s e.1).emit (.stationErr k tag 8)
    | _ => if hlcHolds s i e.1 false then putRead s i e.1 { e.2 with port := some np }
           else sendRead s i np e.1 e.2 (readAddr s e.2) e.2.len (dataAttr s np)) s
  if rs.any fun e => match e.2.owner with | .flush _ => true | _ => false then issueFlush s i np else s

/-- The ATS requests of a lost port end without a completion message (R213). -/
def dropAts (s : State) (i p : Nat) : State :=
  s.updAtu i fun a =>
    let f (v : InvSrc) : InvSrc := match v with | .ats q t => if q = p then .other else .ats q t | v => v
    { a with invs := a.invs.map fun v => { v with src := f v.src }, invWait := a.invWait.map fun w => (f w.1, w.2) }

/-- Translation Requests and page-request groups of a lost port are sent again (R80, R231). -/
def moveRequests (s : State) (g i p : Nat) : State :=
  let s := ((s.atu.get i).treqs.filter fun t => t.port == p).foldl (fun s t =>
    match anyPort s g with
    | none => s
    | some np => (s.updAtu i fun a => { a with treqs := a.treqs.map fun x => if x == t then { x with port := np } else x }).emit
        (.transReq (carrier s i) np t.pasid t.chunk t.needW)) s
  ((s.prq.get i).groups.filter fun e => e.2.port == some p && !e.2.quarantined).foldl (fun s e =>
    sendPrg (s.updPrq i fun x => { x with groups := Tbl.put x.groups e.1 { e.2 with port := none } }) i e.1) s

/-- The work of a lost port goes on on others of its group (R86): that of an instance on the port that R79 names at that moment (DESIGN CHOICE,
log entry 110); `un` interrupt messages sent there have no Ack. -/
def portMove (s : State) (p un : Nat) : State :=
  let g := groupOf s p
  bothInst s fun s i =>
    match movePort s g i with
    | some np => moveRequests (moveReads (moveWrites (movePorts s i p np) i p np un) i p np) g i p
    | none => s

/-! ### A host is lost (R88) -/

/-- A HOST_LOST record of a position (R88, R89). -/
def hostLost (s : State) (h q g n iova : Nat) : State :=
  jrnlAppend s h q { typ := 3, group := g, seq := 0, time := 0, queue := hubQ h q, aux := n % 2 ^ 32, iova }

/-- Whether a unit record's host requests are for a group. -/
def URec.ofGroup (u : URec) (g : Nat) : Bool := (u.kind == .host || u.kind == .hlc) && u.hostGroup == g

/-- The IOVA of an address of a unit. -/
def URec.iovaOf (u : URec) (a : Nat) : Nat := u.iova + (a - u.base)

/-- The host writes of a channel for a group that have not landed: chain index of their descriptor, IOVA and length. -/
def lostWrites (s : State) (cid g : Nat) : List (Nat × Nat × Nat) :=
  let ch := s.chan cid
  let desc (n : Nat) : Nat := ((ch.wrs.find? fun w => w.slot == some n).map Wr.desc).getD ch.desc
  let sent := (s.pool (cid / 256)).writes.filterMap fun e =>
    if e.2.owner == .chan cid then (match e.2.unit with
      | some u => if u.ofGroup g then some (desc e.1, u.iovaOf e.2.addr, e.2.bytes.length) else none
      | none => none)
    else none
  let us (k : Nat) : List URec := match jobOf s ch with
    | some (_, p) => (match p.descs[k]? with | some d => d.units | none => [])
    | none => []
  let due := ((ch.wrs.filter fun w => w.slot.isNone) ++ ch.held).filterMap fun w =>
    match findUnit (us w.desc) w.sp w.addr with
    | some u => if u.ofGroup g then some (w.desc, u.iovaOf w.addr, w.bytes.length) else none
    | none => none
  sent ++ due

/-- One HOST_LOST record for each descriptor among lost writes (R88): the bytes lost and the lowest IOVA. -/
def lostRecords (s : State) (h q g : Nat) (ws : List (Nat × Nat × Nat)) : State :=
  ((sortBy (fun a b => decide (a ≤ b)) (ws.map Prod.fst).eraseDups)).foldl (fun s k =>
    match (ws.filter fun w => w.1 == k).map Prod.snd with
    | [] => s
    | w :: r => hostLost s h q g ((w :: r).map Prod.snd).sum ((r.map Prod.fst).foldl min w.1)) s

/-- The accesses of a group at the host-line cache, in any stage. -/
def hlcReqs (s : State) (i g : Nat) : List HlcReq :=
  let of (w : HWork) : Option HlcReq := match w with | .access r => some r | _ => none
  ((s.hl i).queue ++ ((s.hl i).txns.filterMap fun t => of t.work) ++ (s.hl i).wait.filterMap fun w => of w.2).filter fun r => r.group == g

/-- The host reads of an instance for a group in flight, of a channel: on a port, or at the host-line cache. -/
def lostReads (s : State) (cid g : Nat) : List (Nat × RUse) :=
  let i := cid / 256
  let hs := hlcReqs s i g
  (s.pool i).reads.filter fun e => e.2.owner == .chan cid && (match e.2.port with
    | some p => groupOf s p == g
    | none => hs.any fun r => r.src == .chan e.1 && !r.writes)

/-- Whether the descriptor a channel is at, once started, has work for a group still to form. -/
def needsGroup (s : State) (cid g : Nat) : Bool :=
  let ch := s.chan cid
  match curDesc s ch with
  | some d => !ch.between && (!descFormed d.raw ch || ch.arrive.any fun a => a.hit.isNone) && d.units.any fun u => u.ofGroup g
  | none => false

/-- A channel loses a host (R88, R161): with host reads outstanding it halts with HOST_ABSENT; where writes are lost its descriptors complete
with HOST_LOST, one record for each; with neither, and work for the group still to form, it halts too (DEDUCED, log entry 111). -/
def chanLost (s : State) (cid g : Nat) : State :=
  let i := cid / 256
  let ch := s.chan cid
  let ws := lostWrites s cid g
  let rs := lostReads s cid g
  let s := match ch.queue with
    | some q => lostRecords s ch.home q g ws
    | none => s
  let gone := ((s.pool i).writes.filter fun e => e.2.owner == .chan cid && (match e.2.unit with | some u => u.ofGroup g | none => false)).map Prod.fst
  let s := (s.updPool i fun x => { x with writes := x.writes.filter fun e => !gone.contains e.1, reads := x.reads.filter fun e => !rs.any fun r => r.1 == e.1 }).updChan cid fun ch =>
    { ch with wrs := ch.wrs.filter fun w => match w.slot with | some n => !gone.contains n | none => true }
  match rs with
  | r :: _ => haltChan s cid 9 r.2.addr r.2.sp 0
  | [] =>
    if !ws.isEmpty then
      match (s.chan cid).st with
      | .running | .pausing | .paused => dropWork (s.updChan cid fun ch => { ch with st := .halting, errStatus := 1 }) cid
      | _ => s
    else if needsGroup s cid g then
      let d := (curDesc s ch).bind fun d => d.units.find? fun u => u.ofGroup g
      haltChan s cid 9 ((d.map URec.base).getD 0) ((d.map fun u => u.key.space).getD 0) 0
    else s

/-- Records that had not landed go to the journal, in their order (R88). -/
def recordsLost (s : State) (h g : Nat) : State :=
  let i := carrier s h
  (queuesOf s h).foldl (fun s e =>
    if e.2.ctx.group != g then s
    else (e.2.recFly.filter fun f => ((Tbl.find (s.pool i).writes f.1).bind WUse.port).isSome).foldl (fun s f =>
      match Tbl.find (s.pool i).writes f.1 with
      | some w =>
        let s := (s.updPool i fun x => { x with writes := Tbl.del x.writes f.1 }).updQ h e.1 fun x => { x with recFly := x.recFly.filter (· != f) }
        jrnlAppend s h e.1 { typ := 1, group := g, seq := 0, time := 0, queue := hubQ h e.1, iova := w.addr, payload := w.bytes }
      | none => s) s) s

/-- A station command has lost host writes (R88, R295); a RUN's position has its HOST_LOST record. -/
def cmdLost (s : State) (k slot g n iova : Nat) : State :=
  match cmdAt s k slot with
  | some (h, j, c) =>
    let s := s.updCmd h j fun c => { c with lost := true }
    (match c.src with
     | .run q _ => if c.lost then s else hostLost s h q g n iova
     | .step _ _ => s)
  | none => s

/-- The accesses of stations that wait for a translation of a lost host (R88): answered with an error. -/
def stWaitsLost (s : State) (h g : Nat) : State :=
  let i := carrier s h
  let ms := (s.atu.get h).misses.filter fun m => match m.key with | .host k _ => k == g | .da _ => false
  ms.foldl (fun s m => match m.who with
    | .station k t =>
      (match (s.hl i).stWait.find? fun q => q.site == k && q.tag == t with
       | some q =>
         let s := (dropMisses s h m.who).updHlc i fun x => { x with stWait := x.stWait.erase q }
         let r : HlcReq := { src := .station k q.slot t, kind := q.kind, group := g, addr := q.addr, left := q.len }
         reqFail (if r.writes then cmdLost s k q.slot g q.len q.addr else s) i r true
       | none => s)
    | _ => s) s

/-- The station requests of a lost host (R88): answered with an error. -/
def stationsLost (s : State) (i g : Nat) : State :=
  let on (p : Option Nat) : Bool := match p with | some n => groupOf s n == g | none => false
  let s := ((s.pool i).writes.filter fun e => on e.2.port).foldl (fun s e =>
    match e.2.owner with
    | .station k slot tag => ((cmdLost s k slot g e.2.bytes.length e.2.addr).updPool i fun x => { x with writes := Tbl.del x.writes e.1 }).emit (.stationErr k tag 10)
    | _ => s) s
  ((s.pool i).reads.filter fun e => on e.2.port).foldl (fun s e =>
    match e.2.owner with
    | .station k _ tag at_ => (s.updPool i fun x => { x with reads := Tbl.del x.reads e.1 }).emit (.stationErr k tag (if at_ then 8 else 10))
    | .dead | .desc _ _ _ => s.updPool i fun x => { x with reads := Tbl.del x.reads e.1 }
    | _ => s) s

/-- A request at the host-line cache for a lost host: a station's is answered with an error, and its command has lost what it wrote; a
channel's ends with the channel's other work for the host. -/
def reqLost (s : State) (i : Nat) (r : HlcReq) : State :=
  match r.src with
  | .station k slot _ => reqFail (if r.writes then cmdLost s k slot r.group r.left r.addr else s) i r true
  | .chan _ | .gone => s

/-- The requests of a lost host at the host-line cache fail, its lines are lost (R88, R277). -/
def hlcLost (s : State) (i g : Nat) : State :=
  let mine (p : Option Nat) : Bool := match p with | some n => groupOf s n == g | none => false
  let rs := hlcReqs s i g
  let access (w : HWork) : Bool := match w with | .access _ => true | _ => false
  let s := s.updHlc i fun h =>
    { h with queue := h.queue.filter fun r => r.group != g, txns := h.txns.filter fun t => keyGroup t.key != g || (!t.plain && !access t.work),
             wait := h.wait.filter fun w => keyGroup w.1 != g }
  let s := s.updPool i fun x =>
    { x with writes := x.writes.filter fun e => match e.2.owner with | .line _ => !mine e.2.port | _ => true,
             reads := x.reads.filter fun e => match e.2.owner with | .line _ => !mine e.2.port | _ => true }
  let s := rs.foldl (fun s r => reqLost s i r) s
  linesLost s i g

/-- Flushing reads outstanding on a lost host (R88, R257): the host writes they would have flushed are host-lost, with a count and
address the manual does not state; a waiting record takes the status HOST_LOST, a waiting keystone is not issued. Where the writes were of positions
recorded before, one HOST_LOST record stands for them and the queue enters HOST_WAIT (DESIGN CHOICE, log entry 142). -/
def flushesLost (s : State) (i g : Nat) : State :=
  let fs := (s.pool i).reads.filterMap fun e => match e.2.owner, e.2.port with
    | .flush id, some p => if groupOf s p == g then some (p, id) else none
    | _, _ => none
  let hit (l : List (Nat × Nat)) : Bool := l.any fun e => fs.any fun f => e.1 == f.1 && e.2 < f.2
  let on (e : Nat × Nat) : Bool := groupOf s e.1 != g
  let s := s.updPool i fun x =>
    { x with reads := x.reads.filter fun e => match e.2.owner, e.2.port with | .flush _, some p => groupOf s p != g | _, _ => true,
             unflushed := x.unflushed.filter fun u => groupOf s u.port != g }
  let onQueue (h : Nat) (s : State) (e : Nat × Queue) : State :=
    let gone := (hit (e.2.unflushed.filter fun u => !e.2.poss.any fun y => y.ports.contains u))
    let s := if gone then
        let d := s.draw
        haltQueue (hostLost d.2 h e.1 g d.1.toNat (Config.freeValue s.free).toNat) h e.1 1
      else s
    (e.2.poss.filter fun y => hit y.ports).foldl (fun s y =>
      let d := s.draw
      let s := hostLost d.2 h e.1 g d.1.toNat (Config.freeValue s.free).toNat
      let mark (r : Rec) : Rec := if r.keep || r.status != 0 then r else { r with status := 1, result := 0 }
      let s := s.updQ h e.1 fun x => x.updPos y.pos fun z => { z with recs := z.recs.map mark }
      if y.ph == .ended then haltQueue s h e.1 1
      else match y.chan with
        | some cid => (match (s.chan cid).st with
          | .running | .pausing | .paused => dropWork (s.updChan cid fun ch => { ch with st := .halting, errStatus := 1 }) cid
          | _ => s)
        | none => s) s
  let one (h : Nat) (s : State) : State :=
    if carrier s h != i then s
    else
      let s := (queuesOf s h).foldl (onQueue h) s
      let fq (x : Queue) : Queue := { x with unflushed := x.unflushed.filter on, poss := x.poss.map fun y => { y with ports := y.ports.filter on } }
      let fc (c : Cmd) : Cmd := { c with lost := c.lost || hit c.wports, wports := c.wports.filter on }
      ({ s with qm := s.qm.upd h fun m => { m with ctxs := Tbl.mapV m.ctxs fq } } : State).updSch h fun x => { x with cmds := Tbl.mapV x.cmds fc }
  one 1 (one 0 s)

/-- Descriptor reads of a lost host are made again when it is back; the translations in flight end, the ATC drops the group (R88). -/
def fetchesLost (s : State) (h g : Nat) : State :=
  let fq (x : Queue) : Queue := match x.ringRead with
    | some (pos, u) =>
      if u.ofGroup g then
        { x with ringRead := none, poss := x.poss.map fun y => if y.pos = pos && y.fet = .inFlight then { y with fet := .due } else y }
      else x
    | none => x
  let s := { s with qm := s.qm.upd h fun m => { m with ctxs := Tbl.mapV m.ctxs fq } }
  let s := s.updAtu h fun a =>
    { a with treqs := a.treqs.filter fun t => t.group != g,
             misses := a.misses.map fun m => match m.key with | .host k _ => if k == g && m.prg.isNone then { m with sent := false } else m | .da _ => m }
  invalidate s h .other { key := .host g none, base := 0, size := 2 ^ 64, allSpaces := true }

/-- The page-request groups of a lost host are quarantined; their waiters translate anew after RESUME, their queues enter HOST_WAIT
(R88, R231). -/
def prgsLost (s : State) (h g : Nat) : State :=
  let ns := ((s.prq.get h).groups.filter fun e => e.2.group == g && !e.2.quarantined).map Prod.fst
  ns.foldl (fun s n =>
    let ms := prgWaits s h n
    let s := s.updPrq h fun x => { x with groups := Tbl.upd x.groups n { group := g, pasid := none, chunk := 0, needR := false, needW := false } fun p => { p with quarantined := true } }
    ms.foldl (fun s m => wake (match m.who with | .desc q _ _ => hostWait s h q g | _ => s) h m) s) s

/-- Everything of a group's host that is in flight is lost (R88). -/
def hostGone (s : State) (g : Nat) : State :=
  let s := s.chans.foldl (fun s e => chanLost s e.1 g) s
  let s := bothInst s fun s i => hlcLost s i g
  let s := bothInst s fun s i => stationsLost (flushesLost s i g) i g
  let s := bothInst s fun s h => if (server s h).isSome then stWaitsLost s h g else s
  bothInst s fun s h => if (server s h).isSome then prgsLost (fetchesLost (recordsLost s h g) h g) h g else s

/-- XBAR.ATTACH_STATUS at the end of a command, with attach_done (R81). -/
def attachEnd (s : State) (g result : Nat) : State := (s.setR (xbarR 0x8C) (fields [(4, g), (8, result)])).irq xbarPage 17

/-- A group leaves ATTACHED or REATTACHING for ABSENT (R87, R88). A REATTACH copy underway ends with BUF_FAULT (R94). -/
def groupAbsent (s : State) (g cause : Nat) : State :=
  match (s.group g).st with
  | .attached | .reattaching =>
    let fresh := (s.group g).st == .attached
    let s := (s.updGroup g fun x => { x with st := .absent, cause, cto := 0, jvecs := if fresh then [] else x.jvecs }).irq xbarPage 16
    let s := if s.copy.any fun c => c.group == g then attachEnd { s with copy := none } g 0x13 else s
    wakeMsgs (hostGone s g)
  | _ => s

/-- A port is lost for its work: its transactions end (R71), its ATS requests have no answer (R213), page-request groups quarantined on it are freed (R230) (DEDUCED, log entry 112). -/
def portGone (s : State) (p : Nat) : State :=
  let s := txnPortReset s p
  bothInst s fun s i =>
    let s := dropAts s i p
    ((s.prq.get i).groups.filter fun e => e.2.quarantined && e.2.port == some p).foldl (fun s e => freePrg s i e.1) s

/-- What a group does when its port `p` stops being UP (R84, R86): its work moves while another port is UP, else the group is
ABSENT. `cached` tells that `p` was the group's cache port, whose lines are lost (R277). -/
def portDown (s : State) (p un : Nat) (cached : Bool) : State :=
  let g := groupOf s p
  let msgs := lastMsgs s p un
  let s := portGone s p
  let s :=
    if (upPorts s g).isEmpty then (if (s.group g).st == .detached then hostGone s g else groupAbsent s g 1)
    else
      let s := if cached then bothInst s fun s i => linesLost s i g else s
      wakeMsgs (portMove s p un)
  (if (upPorts s g).isEmpty then msgs else msgs.filter fun o => match o with | .msix _ _ _ => true | _ => false).foldl resendMsg s

end Sys2Proof.Machine
end

