-- ==== Sys2Proof/Machine/Ports.lean ====
section
/-! DEFINITION. Host ports and groups: link events that end no transaction (R82-R85), completion timeouts (R84, R276), the
registers of XBAR that are not staged, the presence commands and the journal copy (R81, R89-R94). -/
namespace Sys2Proof.Machine

/-! ### Link events (R82, R84) -/

/-- A link event: HPC.LAST_EVENT and its time, and its page interrupt. -/
def linkEvent (s : State) (p code bit : Nat) : State :=
  ((s.setR (hpcR p 0x58) code).setR (hpcR p 0x50) s.hubTime).irq (hpcPage p) bit

/-- A port's link in another state. -/
def setLink (s : State) (p : Nat) (l : LinkSt) : State := s.updPort p fun x => { x with link := l }

/-- LINK_RETRAIN_START (R84). -/
def execLinkRetrainStart (p : Port) (s : State) : Host.Outcome State Fault Refusal :=
  live s fun s =>
    if (s.port p.val).link == .up || (s.port p.val).link == .flr then (linkEvent (setLink s p.val .retrain) p.val 1 18).satFld (hpcR p.val 0x48) 0 16 1 else s

/-- LINK_RETRAIN_END (R85): a retrain loses nothing; CXL.cache traffic that waited leaves (R277). -/
def execLinkRetrainEnd (p : Port) (s : State) : Host.Outcome State Fault Refusal :=
  live s fun s => if (s.port p.val).link == .retrain then bothInst (wakeMsgs (sendPending (linkEvent (setLink s p.val .up) p.val 2 19) p.val)) fun s i => cxlResume s i p.val else s

/-- The highest rate a port may train to (R76, R82): LINK_CTL.rate_cap, and 64 GT/s once CXL is negotiated. -/
def rateCap (s : State) (p : Nat) (cxl : Bool) : Nat :=
  let c := s.fld (hpcR p 0x44) 0 2
  let r := if c = 0 then 7 else 4 + c
  if cxl then min r 6 else r

/-- LINK_UP (R75, R76, R82): a port has trained. -/
def linkUp (s : State) (p rate width : Nat) (cxl : Bool) : State :=
  let l := (s.port p).link
  if (s.port p).perst || !(l == .down || l == .training) || rate = 0 || !(width == 1 || width == 2 || width == 4 || width == 8 || width == 16) then s
  else
    let c := cxl && s.fld (hpcR p 0x44) 2 1 == 1
    let r := min rate (rateCap s p c)
    wakeMsgs (sendPending (linkEvent (s.updPort p fun x =>
      { x with link := .up, rate := r, width, cxl := c, configOnly := decide (r < 5) || decide (width < 4) }) p 4 17) p)

/-- LINK_UP (R82). -/
def execLinkUp (p : Port) (rate : Fin 8) (width : Fin 17) (cxl : Bool) (s : State) : Host.Outcome State Fault Refusal :=
  live s fun s => linkUp s p.val rate.val width.val cxl

/-- The level of a PERST pin while power-on or warm reset is held: ignored by IGX, acted on by the HPC (R43). -/
def perstHeld (s : State) (p : Nat) (low : Bool) : State :=
  s.updPort p fun x => { x with perst := low, link := if low then .reset else .training }

/-- PERST_RELEASE (R496): the port trains. -/
def execPerstRelease (p : Port) (s : State) : Host.Outcome State Fault Refusal :=
  if s.held then .next (perstHeld s p.val false)
  else live s fun s =>
    if (s.port p.val).perst then
      let s := s.updPort p.val fun x => { x with perst := false, link := .training }
      (s.setR (hpcR p.val 0x58) 6).setR (hpcR p.val 0x50) s.hubTime
    else s

/-- What identifies the function of a port to a host (R73). -/
structure FunctionId where
  vendor : Nat
  device : Nat
  classCode : Nat
  revision : Nat
  serial : BitVec 64
  deriving DecidableEq, Repr

/-- The identity that each of the four ports presents (R73): the revision is the stepping of GEN.BLOCK_ID, the serial number that of the hub. -/
def functionId (s : State) : FunctionId := ⟨Config.vendorId.toNat, 0x0D2A, 0x120000, s.fld (reg .gen 0 0 0x40) 16 8, Config.serial⟩

/-- The capability values of a port's function that R74 fixes: tag bits, the STU field, Invalidate Queue Depth and Outstanding Page Request
Capacity, PASID bits, MSI-X vectors, IDE link and selective streams with the address blocks of one, the completion-timeout ranges (A to D
as bits 0-3) and the default timeout in ms. -/
structure FunctionCaps where
  tagBits : Nat
  stu : Nat
  invDepth : Nat
  priCapacity : Nat
  pasidBits : Nat
  vectors : Nat
  linkStreams : Nat
  selStreams : Nat
  ideBlocks : Nat
  ctoRanges : Nat
  ctoDefault : Nat
  deriving DecidableEq, Repr

/-- The values of R74. -/
def functionCaps : FunctionCaps :=
  { tagBits := 14, stu := 9, invDepth := 32, priCapacity := 2048, pasidBits := 20, vectors := 32, linkStreams := 1, selStreams := 8,
    ideBlocks := 4, ctoRanges := 0xF, ctoDefault := 50 }

/-- A port's function at its reset configuration, with its MSI-X table (R492) (PRESUMED, log entry 124). -/
def fnReset (s : State) (p : Nat) : State :=
  let f (x : PortSt) : PortSt :=
    { x with ats := false, pri := false, respFail := false, uprgi := false, msix := false, cacheEn := false, relaxed := true, idoReq := false, idoCpl := false,
             busMaster := false, ctoOff := false, ctoRange := 0, mps := 128, mrrs := 512, alloc := 0 }
  let k := (hpcPage p).key
  { s.updPort p f with regs := s.regs.filter fun e => !(k + 0x800 ≤ e.1 && e.1 < k + 0xC08) }

/-- The HPC page of a port at its reset values but for HPC.EVENT_COUNT, which only power-on clears (R82, R492). -/
def hpcReset (s : State) (p : Nat) : State :=
  let k := (hpcPage p).key
  { s with regs := s.regs.filter fun e => !(k ≤ e.1 && e.1 < k + 0x1000) || e.1 == k + 0x48 }

/-! ### Completion timeouts (R84, R276) -/

/-- A completion timeout on a port's group: at cto_threshold in a row the group becomes ABSENT (R84). -/
def groupTimeout (s : State) (g : Nat) : State :=
  let s := s.updGroup g fun x => { x with cto := x.cto + 1 }
  let n := s.fld (xbarR 0x58) 0 8
  if n != 0 && n ≤ (s.group g).cto then groupAbsent s g 4 else s

/-- COMPLETION_TIMEOUT (R84): the host read of a tag on the port's link has had no completion in time, unless the function's control
registers disable the timeout (R74). Where the group becomes ABSENT the read is one of those outstanding (R88). -/
def completionTimeout (s : State) (p tag : Nat) : State :=
  match readByTag s p tag with
  | none => s
  | some (i, t, u) =>
    if (s.port p).ctoOff then s
    else
      let s := ((s.setR (hpcR p 0x4C) (satAdd 32 (s.r (hpcR p 0x4C)) 1)).irq (hpcPage p) 22)
      let s := groupTimeout s (groupOf s p)
      match Tbl.find (s.pool i).reads t with
      | none => s
      | some _ =>
        match u.owner with
        | .flush _ => s.updPool i fun x => { x with reads := Tbl.del x.reads t }
        | .line k => linePlain (readEnd s i t u [] .timeout) i k [] .timeout
        | .desc h q _ => descReadReturn s h q [] .timeout
        | _ => readEnd s i t u [] .timeout

/-- COMPLETION_TIMEOUT (R84); the tag is `th` over `tl`, bits [13:10] and [9:0]. -/
def execCompletionTimeout (p : Port) (th : BitVec 4) (tl : BitVec 10) (s : State) : Host.Outcome State Fault Refusal :=
  live s fun s => completionTimeout s p.val (th ++ tl).toNat

/-- CXL_GO_TIMEOUT (R276), unless the function's control registers disable the timeout of the port (R74): the line stays I and the access fails
as on a poisoned line, but no line is poisoned. -/
def cxlGoTimeout (s : State) (g hpa : Nat) : State :=
  let k := lineKey g hpa
  match goTxn s k with
  | none => s
  | some (i, t) =>
    if t.cxl.any fun c => (s.port c.1).ctoOff then s
    else
      let s := s.updHlc i fun h => { h with txns := h.txns.filter (· != t) }
      let s := notePoison s i k 2
      let s := match t.work with
        | .access r => reqFail s i r false
        | _ => s
      groupTimeout (hlcFree s i k) g

/-- CXL_GO_TIMEOUT (R276). -/
def execCxlGoTimeout (g : Group) (hpa : W64) (s : State) : Host.Outcome State Fault Refusal := live s fun s => cxlGoTimeout s g.val hpa.toNat

/-! ### Configuration of ports and of the time base (R74, R82, R264) -/

/-- CONFIGURATION_WRITE (R264): the capability bits of a port's function. The first one after an FLR finds the reset of the function over
(DESIGN CHOICE, log entry 132). A port that no longer qualifies loses the lines it cached
(R277). -/
def configWrite (s : State) (p : Nat) (c : PortFn) : State :=
  let l := (s.port p).link
  if !(l == .up || l == .retrain || l == .flr) then s
  else
    let g := groupOf s p
    let was := cachePort s g
    let s := s.updPort p fun x =>
      { x with link := if x.link == .flr then .up else x.link, ats := c.ats, pri := c.pri, respFail := c.respFail, uprgi := c.uprgi, msix := c.msix, cacheEn := c.cacheEn, relaxed := c.relaxed,
               idoReq := c.idoReq, idoCpl := c.idoCpl, ctoOff := c.ctoOff, ctoRange := c.ctoRange, busMaster := c.busMaster, mps := c.mps, mrrs := c.mrrs, alloc := c.alloc }
    let s := wakeMsgs (sendPending s p)
    if was == some p && cachePort s g != some p then bothInst s fun s i => linesLost s i g else s

/-- CONFIGURATION_WRITE (R264). -/
def execConfigurationWrite (p : Port) (c : PortFn) (s : State) : Host.Outcome State Fault Refusal := live s fun s => configWrite s p.val c

/-- The port whose PTM aligns the TSU: the lowest-numbered UP port with tsu_source = 1 (R82). -/
def ptmPort (s : State) : Option Nat := (List.range 4).find? fun n => portUp s n && s.fld (hpcR n 0x5C) 0 1 == 1

/-- The TSUs of the instances that work set by a function of their time; the others stay as they are (R37). -/
def tsuSet (s : State) (f : Nat → Nat) : Two Nat :=
  ⟨if alive s 0 then f s.tsu.a else s.tsu.a, if alive s 1 then f s.tsu.b else s.tsu.b⟩

/-- PTM_INTERVAL (R82): a PTM exchange sets the TSUs to the host's time. -/
def execPtmInterval (p : Port) (t : W64) (s : State) : Host.Outcome State Fault Refusal :=
  live s fun s => if ptmPort s = some p.val then ({ s with tsu := tsuSet s fun _ => t.toNat } : State).emit (.ptm p.val) else s

/-- Whether every group that has ports has one enabled for each instance (R81). -/
def enablesOk (s : State) : Bool :=
  (List.range 4).all fun g => (portsOf s g).isEmpty || [0, 1].all fun i => (portsOf s g).any fun n => portEn s n i

/-- PORT_CFG_WRITE (R81): the group changes only between DETACHED groups; an enable change may not leave a group without an enabled
port. What is refused sets cfg_refused (DEDUCED, log entry 114). -/
def portCfg (s : State) (n v : Nat) : State :=
  let r := xbarR (0x40 + 4 * n)
  let old := s.r r
  let g := bits v 0 2
  let s :=
    if bits old 0 2 = g then s
    else if (s.group (bits old 0 2)).st == .detached && (s.group g).st == .detached then s.setFld r 0 2 g
    else s.perr xbarPage 16
  if bits old 4 2 = bits v 4 2 then s
  else
    let t := s.setFld r 4 2 (bits v 4 2)
    if enablesOk t then t else s.perr xbarPage 16

/-- PORT_CFG_WRITE (R81). -/
def execPortCfgWrite (n : Port) (_ : Acc) (v : W32) (s : State) : Host.Outcome State Fault Refusal :=
  live s fun s =>
    let t := portCfg (clearLatches s xbarPage) n.val v.toNat
    let r := xbarR (0x40 + 4 * n.val)
    dropIf (t.r r == s.r r && (s.r r ^^^ v.toNat) &&& 0x33 != 0) s t

/-- Whether a journal register refuses a value (R81). -/
def jrnlBad (s : State) (i : Nat) (isSize : Bool) (v : Nat) : Bool :=
  let j := s.jrnl.get i
  let n := bits v 0 16
  !j.recs.isEmpty || !j.waiting.isEmpty || (isSize && (n % 64 != 0 || n < 64 || 2048 < n))

/-- JRNL_CFG_WRITE (R81): ignored while the journal holds records, or for a size out of range; no base is taken as out of range (DESIGN CHOICE,
log entry 134). -/
def jrnlCfg (s : State) (i : Nat) (isSize : Bool) (v : Nat) : State :=
  if jrnlBad s i isSize v then s.perr xbarPage 16
  else if isSize then s.setR (xbarR (0x108 + 0x40 * i)) (bits v 0 16)
  else s.setR (xbarR (0x100 + 0x40 * i)) (alignDown v (2 ^ 26))

/-- JRNL_CFG_WRITE (R81). -/
def execJrnlCfgWrite (i : Inst) (isSize : Bool) (_ : Acc) (v : W64) (s : State) : Host.Outcome State Fault Refusal :=
  live s fun s => dropIf (jrnlBad s i.val isSize v.toNat) s (jrnlCfg (clearLatches s xbarPage) i.val isSize v.toNat)

/-! ### Presence commands (R91-R94) -/

/-- A new token from Ashlar, not zero (R92) (DESIGN CHOICE, log entry 117). -/
def newToken (s : State) : W64 × State :=
  let d := s.draw
  (if d.1 = 0 then 1 else d.1, d.2)

/-- What leaving ABSENT clears (R93, R230): bad tries, the lock, the cause; the quarantined page-request groups of the group. -/
def leaveAbsent (s : State) (g : Nat) : State :=
  let s := s.updGroup g fun x => { x with badTries := 0, locked := false, cause := 0, jvecs := [] }
  bothInst s fun s i => ((s.prq.get i).groups.filter fun e => e.2.group == g && e.2.quarantined).foldl (fun s e => freePrg s i e.1) s

/-- A group ATTACHED with a new token (R92). -/
def attached (s : State) (g : Nat) : State :=
  let t := newToken s
  (leaveAbsent t.2 g).updGroup g fun x => { x with st := .attached, token := t.1 }

/-- Records that wait for the reserve enter the journal in order while there is room (R90). -/
def admitWaiting (s : State) (i : Nat) : State :=
  let s := { s with jrnl := s.jrnl.upd i fun j => { j with waiting := [], full := j.full && jrnlSize s i ≤ jrnlFill s i + 2 ^ 20 } }
  showJrnl s i

/-- Records of a group leave a journal; those that waited follow, the queues whose records did so after them (R90, R94). -/
def releaseRecs (s : State) (i : Nat) (keep : JRec → Bool) (wait : JRec → Bool) : State :=
  let ws := (s.jrnl.get i).waiting.filter wait
  let s := admitWaiting { s with jrnl := s.jrnl.upd i fun j => { j with recs := j.recs.filter keep } } i
  let s := ws.foldl (fun s r => jrnlAdd s i r none) s
  let in_ := ws.take (ws.length - (s.jrnl.get i).waiting.length)
  (in_.filter JRec.due).foldl (fun s r => recAdmitted s i (r.queue % 2 ^ 20)) s

/-- The records of a group's queues that wait inside QM for the reserve discarded (R90, R91, R93). -/
def discardHeld (s : State) (i g : Nat) : State :=
  (queuesOf s i).foldl (fun s e =>
    if e.2.ctx.group = g && e.2.jwait then s.updQ i e.1 fun x => { x with jwait := false, poss := x.poss.dropWhile fun y => y.ph == .ended && !y.held }
    else s) s

/-- A group's records discarded (R91, R93). -/
def discardRecs (s : State) (g : Nat) : State :=
  bothInst s fun s i => releaseRecs (discardHeld s i g) i (fun r => r.group != g) (fun r => r.group != g)

/-- Every queue of a group torn down, each as a UCE-C (R91, R93). -/
def tearGroup (s : State) (g : Nat) : State :=
  bothInst s fun s i => (queuesOfGroup s i g).foldl (fun s q => contained (tearQueue s i q) (carrier s i) 1 6 (hubQ i q)) s

/-- An XBAR.ATTACH_CMD (R93): ignored while one is carried out; accepted only on an UP port of the group (DEDUCED, log entry 113). -/
def attachCmd (a : Acc) (g : Group) (s : State) (f : State → Nat → State) : Host.Outcome State Fault Refusal :=
  live s fun s =>
    let s := if s.fld (xbarR 0x8C) 0 1 = 1 then { s with rlatch := Tbl.del s.rlatch xbarPage.key } else clearLatches s xbarPage
    if s.fld (xbarR 0x8C) 0 1 = 1 then s
    else if a.cp || groupOf s a.port.val != g.val || !portUp s a.port.val then attachEnd s g.val 0x14
    else f s g.val

/-- ATTACH (R93). -/
def execAttach (a : Acc) (g : Group) (s : State) : Host.Outcome State Fault Refusal :=
  attachCmd a g s fun s g => if (s.group g).st == .detached then attachEnd (attached s g) g 1 else attachEnd s g 0x10

/-- REATTACH (R93, R94): the token and the room of the buffer are checked, then the copy begins. -/
def reattach (s : State) (g : Nat) : State :=
  let x := s.group g
  if x.st != .absent || x.locked then attachEnd s g 0x10
  else if s.r (xbarR 0x80) != x.token.toNat then
    attachEnd (s.updGroup g fun x => { x with badTries := x.badTries + 1, locked := decide (4 ≤ x.badTries + 1) }) g 0x11
  else if s.r (xbarR 0x98) * 1024 < jrnlFill s 0 + jrnlFill s 1 + 2 ^ 20 then attachEnd s g 0x12
  else ({ s with copy := some { group := g } }.updGroup g fun x => { x with st := .reattaching }).setR (xbarR 0x8C) (fields [(0, 1), (4, g)])

/-- REATTACH (R94). -/
def execReattach (a : Acc) (g : Group) (s : State) : Host.Outcome State Fault Refusal := attachCmd a g s fun s g => reattach s g

/-- Two journals merged in ascending time, the first one's record first on equal time (R94). -/
def mergeRecs : Nat → List JRec → List JRec → List JRec
  | 0, _, _ => []
  | _ + 1, [], b => b
  | _ + 1, a, [] => a
  | n + 1, x :: a, y :: b => if x.time ≤ y.time then x :: mergeRecs n a (y :: b) else y :: mergeRecs n (x :: a) b

/-- A group's records of a journal. -/
def recsOf (s : State) (i g : Nat) : List JRec := (s.jrnl.get i).recs.filter fun r => r.group == g

/-- The records of a group that its copy does not hold yet. -/
def copyLeft (s : State) (c : CopySt) : List JRec :=
  let a := (recsOf s 0 c.group).drop c.copied.1
  let b := (recsOf s 1 c.group).drop c.copied.2
  mergeRecs (a.length + b.length + 1) a b

/-- A copy ends without ATTACHED: the group enters ABSENT again (R81, R94). -/
def copyFails (s : State) (c : CopySt) (result : Nat) : State :=
  attachEnd (({ s with copy := none }.updGroup c.group fun x => { x with st := .absent }).irq xbarPage 16) c.group result

/-- The 32 B units that the copy buffer has room for. -/
def copyRoom (s : State) : Nat := s.r (xbarR 0x98) * 32

/-- REATTACH_COPY_DONE (R94): what the group's records still hold is copied on any UP port of it (R247), then the ports used are flushed; once they are, with no
record left, the copied records are released and the group is ATTACHED. Records released in mid-copy to admit waiting ones (R90) are gone
even where the copy then fails (DESIGN CHOICE, log entry 133). -/
def copyStep (s : State) : State :=
  match s.copy with
  | none => s
  | some c =>
    let l := copyLeft s c
    let i := copyCarrier s
    let n := (l.map JRec.size).sum / 32
    if !l.isEmpty then
      match movePort s c.group i with
      | none => s
      | some p =>
        if copyRoom s < c.units + n then s
        else
          let s := s.emit (.copyWrite i p (s.r (xbarR 0x90) + 32 * c.units) (l.flatMap JRec.bytes) (dataAttr s p))
          let c := { c with units := c.units + n, copied := ((recsOf s 0 c.group).length, (recsOf s 1 c.group).length),
                            ports := (p, (s.pool i).flushId) :: c.ports.filter fun e => e.1 != p, flushing := true }
          issueFlushes { s with copy := some c } i c.ports
    else if !c.ports.isEmpty then issueFlushes { s with copy := some { c with flushing := true } } i c.ports
    else
      let more := [0, 1].any fun i => (s.jrnl.get i).waiting.any fun r => r.group == c.group
      let s := bothInst s fun s i => releaseRecs s i (fun r => r.group != c.group) (fun _ => true)
      if more then { s with copy := some { c with copied := (0, 0), flushing := false } }
      else attachEnd ((attached { s with copy := none } c.group).setR (xbarR 0x9C) c.units) c.group 1

/-- REATTACH_COPY_DONE (R94). -/
def execReattachCopyDone (s : State) : Host.Outcome State Fault Refusal := live s copyStep

/-- REATTACH_COPY_FAULT (R94): the end of the buffer is reached with records left, or a copy write fails. -/
def execReattachCopyFault (endOfBuf : Bool) (s : State) : Host.Outcome State Fault Refusal :=
  live s fun s =>
    match s.copy with
    | none => s
    | some c =>
      if !endOfBuf then copyFails s c 0x13
      else if copyRoom s < c.units + ((copyLeft s c).map JRec.size).sum / 32 then copyFails s c 0x12 else s

/-- FORCE (R93). -/
def execForce (a : Acc) (g : Group) (s : State) : Host.Outcome State Fault Refusal :=
  attachCmd a g s fun s g =>
    if (s.group g).st == .absent then attachEnd (attached (tearGroup (discardRecs s g) g) g) g 1 else attachEnd s g 0x10

/-- DEPART (R93): cause 5; the token is kept. -/
def execDepart (a : Acc) (g : Group) (s : State) : Host.Outcome State Fault Refusal :=
  attachCmd a g s fun s g => if (s.group g).st == .attached then attachEnd (groupAbsent s g 5) g 1 else attachEnd s g 0x10

/-- DETACH (R93). -/
def execDetach (a : Acc) (g : Group) (s : State) : Host.Outcome State Fault Refusal :=
  attachCmd a g s fun s g =>
    if (s.group g).st != .attached then attachEnd s g 0x10
    else if [0, 1].any fun i => !(queuesOfGroup s i g).isEmpty then attachEnd s g 0x15
    else attachEnd (s.updGroup g fun x => { x with st := .detached, token := 0 }) g 1

/-- ABSENCE_LIMIT_EXPIRY (R91). -/
def execAbsenceLimitExpiry (g : Group) (s : State) : Host.Outcome State Fault Refusal :=
  live s fun s =>
    if s.r (xbarR 0x5C) = 0 || (s.group g.val).st != .absent then s
    else (leaveAbsent (discardRecs (tearGroup s g.val) g.val) g.val).updGroup g.val fun x => { x with st := .detached, token := 0 }

end Sys2Proof.Machine
end

