-- ==== Sys2Proof/Machine/Power.lean ====
section
/-! DEFINITION. Power control: the budget (R397, R398), levels and reasons (R393-R396, R407, R408, R414, R415), droop and di/dt (R409,
R410), heat and supply sag (R411-R413). Domains 0-11 are the sites, 12 the hub, 13 HBM, 14 the peer die, 15 the package. -/
namespace Sys2Proof.Machine

/-- A register of the PWR page. -/
def pwrR (off : Nat) : Nat := reg .pwr 0 0 off

/-- The PWR page. -/
def pwrPage : PageId := ⟨.pwr, 0, 0⟩

/-- A register of the THR page. -/
def thrR (off : Nat) : Nat := reg .thr 0 0 off

/-- The THR page. -/
def thrPage : PageId := ⟨.thr, 0, 0⟩

/-- The state with what power control holds changed. -/
def State.updLev (s : State) (f : Levels → Levels) : State := { s with lev := f s.lev }

/-- The power master (R396): the lowest-numbered instance that works. -/
def powerMaster (s : State) : Option Nat := [0, 1].find? (alive s)

/-- What the power master tells the partner of (R396): pool state, levels, calibration results. -/
def powerKnown (s : State) : (Tbl Nat × Nat) × (List Nat × Nat × Nat × Bool) × (List Nat × Nat) × Nat :=
  ((s.lev.site, s.lev.hub), (s.lev.shares, s.lev.shareAt, s.lev.total, s.lev.pending), (s.lev.last, s.lev.steps), s.r (pwrR 0x1C4))

/-- A step of the power master (R396): none runs without one, and a change goes to the partner as one mirror record (DEDUCED, log entry 70). -/
def masterDoes (s : State) (f : State → State) : State :=
  match powerMaster s with
  | none => s
  | some m =>
    let t := f s
    if powerKnown t = powerKnown s then t else t.report m []

/-- A THR.ALERT bit becomes 1 (R413, R423). -/
def setAlert (s : State) (b : Nat) : State := if bitAt (s.r (thrR 0x44)) b then s else (s.orR (thrR 0x44) (2 ^ b)).irq thrPage 16

/-! ### The budget (R397, R398) -/

/-- Whether a pool is valid (R416). -/
def poolOn (s : State) : Bool := bitAt (s.r (pwrR 0x200)) 0

/-- The share of this package. -/
def poolShare (s : State) : Nat := s.fld (pwrR 0x218) 0 12

/-- The smallest of the budget terms, before the floor of 800 W, and the term that binds: 0 source, 1 pool share, 2 user limit. -/
def budgetTerm (s : State) : Nat × Nat :=
  let a := if poolOn s then poolShare s else s.fld (pwrR 0x44) 0 12
  let u := s.fld (pwrR 0x4C) 0 12
  let b := if u != 0 && u < a then (u, 2) else (a, b2n (poolOn s))
  (min b.1 2800, b.2)

/-- The effective budget B in watts (R398). -/
def budget (s : State) : Nat := max 800 (budgetTerm s).1

/-- PWR.BUDGET_NOW follows the terms; a B below 800 W raises budget_clamped (R398). -/
def showBudget (s : State) : State :=
  let t := budgetTerm s
  let v := fields [(0, max 800 t.1), (16, t.2)]
  let s := if t.1 < 800 then setAlert s 4 else s
  if s.r (pwrR 0x48) = v then s else (s.setR (pwrR 0x48) v).irq pwrPage 16

/-- The reason of the binding budget term (R408). -/
def budgetReason (s : State) : Nat :=
  match (budgetTerm s).2 with
  | 2 => 9
  | 1 => if poolShare s < s.lev.shareAt then 2 else 1
  | _ => 1

/-! ### Levels (R394, R395, R400, R405-R407, R411, R412, R420) -/

/-- The sites that belong to a partition. -/
def partSites (s : State) : List Nat := (List.range 12).filter fun k => (partAt s k).isSome

/-- Fixed mode (R400). -/
def fixedMode (s : State) : Bool := bitAt (s.r (pwrR 0x40)) 0

/-- The entry of the fixed-level table that serves the budget: hub and site level (R400). -/
def tableEnt (s : State) : Nat × Nat := (s.lev.fixed[min 20 ((budget s - 800) / 100)]?).getD (0, 0)

/-- The level a domain has without any reason: the fixed table's, or 0. -/
def floorOf (s : State) (d : Nat) : Nat :=
  if !fixedMode s then 0 else if d = 12 then (tableEnt s).1 else if (partSites s).contains d then (tableEnt s).2 else 0

/-- The highest levels of the pacing notices in force: site and hub. Fixed mode raises no level for them (R400, R420). -/
def paceLevels (s : State) : Nat × Nat :=
  if fixedMode s then (0, 0)
  else s.lev.notices.foldl (fun m n => (max m.1 n.1.site, max m.2 n.1.hub)) (0, 0)

/-- The steps that the budget puts on a domain (R405, R406): those of the policy and the two of the fast limit. Fixed mode raises no level for
reason 9 (R400). -/
def capSteps (s : State) (d : Nat) : Nat :=
  if fixedMode s && budgetReason s = 9 then 0 else Tbl.getD s.lev.cap d 0 + (if s.lev.fast && d < 12 then 2 else 0)

/-- The level a domain is to have with `n` steps of the budget: its floor, the steps raised above it, and the levels held by a notice, a brake or
heat (DEDUCED, log entry 81). -/
def wantedWith (s : State) (d n : Nat) : Nat :=
  let l := s.lev
  let steps := n + Tbl.getD l.iout d 0 + l.warm + b2n (l.storm.contains d)
  let hold := if l.brake || l.crit then (if d = 12 then 3 else 12) else 0
  let pace := if d = 12 then (paceLevels s).2 else (paceLevels s).1
  min (if d = 12 then 3 else 15) (max (floorOf s d + steps) (max hold pace))

/-- The level a domain is to have. -/
def wanted (s : State) (d : Nat) : Nat := wantedWith s d (capSteps s d)

/-- Whether the budget raises a domain above the level it would otherwise have (R408). -/
def capRaises (s : State) (d : Nat) : Bool := wantedWith s d 0 < wanted s d

/-- The level of a domain in force. -/
def levelOf (s : State) (d : Nat) : Nat := if d = 12 then s.lev.hub else Tbl.getD s.lev.site d 0

/-- A level in force set. -/
def setLevel (s : State) (d v : Nat) : State :=
  s.updLev fun l => if d = 12 then { l with hub := v } else { l with site := if v = 0 then Tbl.del l.site d else Tbl.put l.site d v }

/-- PWR.SITE_LEVEL and PWR.HUB_LEVEL. -/
def showLevels (s : State) : State :=
  (s.setR (pwrR 0xA0) (fields ((List.range 12).map fun k => (4 * k, levelOf s k)))).setR (pwrR 0x98) (levelOf s 12)

/-- The reasons in force at a domain (R408, R409, R411, R412, R414). -/
def reasonsAt (s : State) (d : Nat) : List Nat :=
  let l := s.lev
  let cut := match l.lowered with
    | some t => s.hubTime < t + 100000000 && (d = 12 || (partSites s).contains d)
    | none => false
  let p := paceLevels s
  (if capRaises s d && budgetReason s = 1 then [1] else []) ++
  (if (capRaises s d && budgetReason s = 2) || cut then [2] else []) ++
  (if (l.warned.any fun e => e.2 == d) || 0 < Tbl.getD l.iout d 0 then [3] else []) ++
  (if l.droop.contains d || l.storm.contains d then [4] else []) ++
  (if l.warn || l.crit || s.thermTrip || 0 < l.warm then [5] else []) ++
  (if l.brake then [6] else []) ++
  (if 0 < (if d = 12 then p.2 else p.1) then [7] else []) ++
  (if wanted s d < levelOf s d then [8] else []) ++
  (if (capRaises s d && budgetReason s = 9) || (l.sensorBad && (d = 12 || (partSites s).contains d)) then [9] else []) ++
  (if fixedMode s && 0 < floorOf s d && Tbl.getD l.power 15 0 < 16 * budget s then [10] else [])

/-- Every reason in force, by domain. -/
def allReasons (s : State) : List (Nat × Nat) := (List.range 13).flatMap fun d => (reasonsAt s d).map fun r => (d, r)

/-- One change of a reason noted in THR.LAST. -/
def noteReason (s : State) (d r : Nat) (came : Bool) : State :=
  (s.setR (thrR 0x78) (fields [(0, r), (4, b2n came), (16, d), (32, s.hubTime % 2 ^ 32)])).irq thrPage 17

/-- THR.ACTIVE, HUB_REASON, SITE_REASON and LAST follow the reasons (R415, R423). -/
def showReasons (s : State) : State :=
  let old := s.lev.reasons
  let new := allReasons s
  if new = old then s
  else
    let top (d : Nat) : Nat := (new.filter fun e => e.1 == d).foldl (fun m e => max m e.2) 0
    let s := (old.filter fun e => !new.contains e).foldl (fun s e => noteReason s e.1 e.2 false) s
    let s := (new.filter fun e => !old.contains e).foldl (fun s e => noteReason s e.1 e.2 true) s
    let act := (new.map Prod.snd).eraseDups.foldl (fun m r => m + 2 ^ r) 0
    let s := s.setR (thrR 0x40) (if act = 0 then 1 else act)
    let s := (s.setR (thrR 0x4C) (top 12)).setR (thrR 0x50) (fields ((List.range 12).map fun k => (4 * k, top k)))
    s.updLev fun l => { l with reasons := new, seen := (l.seen ++ new.map Prod.fst).eraseDups }

/-- The notice this package has to give (R420): its highest site level, the hub level and the reason, while it raises a site's level for reason
1, 2 or 9 in a valid pool (DEDUCED, log entry 86). -/
def paceDue (s : State) : Option (Nat × Nat × Nat) :=
  if poolOn s && ((List.range 12).any (capRaises s)) then
    some ((List.range 12).foldl (fun m k => max m (levelOf s k)) 0, levelOf s 12, budgetReason s)
  else none

/-- The members of the pool (R416). -/
def poolMembers (s : State) : List Nat := onesOf (s.fld (pwrR 0x200) 8 8) 8

/-- The number of this package (R416, R498). -/
def pkgNum (s : State) : Nat := s.fld (reg .atu 0 2 0x40) 0 3

/-- A 64-byte write to an offset of every member's mailbox (R418): this package's own at PWR.POOL_MBOX, another's through its peer window of
the pool partition, with that partition's context tag. -/
def toMailboxes (s : State) (off : Nat) (bytes : List Byte) : State :=
  let win (m : Nat) : Option Nat := if m = pkgNum s then none else some (s.fld (pwrR 0x20C) (4 * m) 3)
  (poolMembers s).foldl (fun s m => s.emit (.poolWrite m (win m) (s.r (pwrR 0x210) + off) (4096 * s.fld (pwrR 0x200) 16 4)
    ((bytes ++ List.replicate 64 0).take 64))) s

/-- A pacing notice written to slot 0x400 + 0x40 m of every member's mailbox (R420). -/
def sendNotice (s : State) (v : Nat × Nat × Nat) : State :=
  let n : PaceMsg := { seq := (s.lev.seq + 1) % 2 ^ 16, member := pkgNum s, site := v.1, hub := v.2.1, reason := v.2.2 }
  let w := fields [(0, n.seq), (16, n.member), (20, n.site), (24, n.hub), (28, n.reason)]
  let s := toMailboxes s (0x400 + 0x40 * pkgNum s) (leBytes 4 w)
  s.updLev fun l => { l with seq := n.seq, sent := some n }

/-- A notice follows each change of level while it is due, and one of level 0 ends it (R420). -/
def paceOut (s : State) : State :=
  match paceDue s, s.lev.sent with
  | some v, some n => if (n.site, n.hub, n.reason) = v then s else sendNotice s v
  | some v, none => sendNotice s v
  | none, some n => if poolOn s && n.site + n.hub != 0 then (sendNotice s (0, 0, n.reason)).updLev fun l => { l with sent := none } else s.updLev fun l => { l with sent := none }
  | none, none => s

/-- While a thermal-zone sensor is reported failed, firmware holds PWR.USER_LIMIT at the larger of 800 W and half the source
budget (R426). -/
def holdLimit (s : State) : State :=
  if s.lev.sensorBad then s.setR (pwrR 0x4C) (max 800 (s.fld (pwrR 0x44) 0 12 / 2)) else s

/-- Increases take effect at once; a decrease waits for the ramp (R407). The registers and notices follow. -/
def settleLevels (s : State) : State :=
  let s := (List.range 13).foldl (fun s d => if levelOf s d < wanted s d then setLevel s d (wanted s d) else s) (showBudget s)
  paceOut (showReasons (showLevels s))

/-- LEVEL_RAMP_STEP (R407): a waiting decrease moves its domain one step down. -/
def execLevelRampStep (d : Fin 13) (s : State) : Host.Outcome State Fault Refusal :=
  aon s fun s => if wanted s d.val < levelOf s d.val then settleLevels (setLevel s d.val (levelOf s d.val - 1)) else s

/-- The time of one microsecond in force: THR.DURr of every reason r in force, 1 to 10, counts (R415) (DEDUCED, log entry 83). -/
def durTick (s : State) : State :=
  ((List.range' 1 10).filter fun r => s.lev.reasons.any fun e => e.2 == r).foldl (fun s r => s.bump (thrR (0x80 + 8 * (r - 1))) 1) s

/-! ### Droop (R409) -/

/-- A droop event at a domain: reason 4, no starts there; storm_count events within 1 ms raise its level one step. -/
def droopEvent (s : State) (d : Nat) : State :=
  let c := s.fld (thrR 0x5C) 8 8
  let ts := s.hubTime :: (Tbl.getD s.lev.events d []).filter fun t => s.hubTime < t + 1000000
  let storm := max 1 c ≤ ts.length
  let s := (s.bump (thrR 0x68) 1).updLev fun l =>
    { l with droop := if l.droop.contains d then l.droop else d :: l.droop, droopOn := if l.droopOn.contains d then l.droopOn else d :: l.droopOn,
             events := Tbl.put l.events d (if storm then [] else ts), storm := if storm && !l.storm.contains d then d :: l.storm else l.storm }
  settleLevels s

/-- HUB_DROOP (R409). -/
def execHubDroop (s : State) : Host.Outcome State Fault Refusal := aon s fun s => droopEvent s 12

/-- SITE_DROOP (R308, R409). -/
def execSiteDroop (k : Site) (s : State) : Host.Outcome State Fault Refusal := aon s fun s => droopEvent s k.val

/-- DROOP_END (R409): the event ends and hold_us begins. -/
def execDroopEnd (d : Fin 13) (s : State) : Host.Outcome State Fault Refusal :=
  aon s fun s => s.updLev fun l => { l with droopOn := l.droopOn.filter (· != d.val) }

/-- DROOP_HOLD_EXPIRY (R409): reason 4 leaves the domain. -/
def execDroopHoldExpiry (d : Fin 13) (s : State) : Host.Outcome State Fault Refusal :=
  aon s fun s =>
    if s.lev.droopOn.contains d.val then s else settleLevels (s.updLev fun l => { l with droop := l.droop.filter (· != d.val) })

/-- DROOP_STORM_EXPIRY (R409): the level raised by a storm has been held for 10 ms. -/
def execDroopStormExpiry (d : Fin 13) (s : State) : Host.Outcome State Fault Refusal :=
  aon s fun s => settleLevels (s.updLev fun l => { l with storm := l.storm.filter (· != d.val) })

/-- SCH.DIDT_BUDGET of both instances, which the power master sets (R396, R410); it stays at 4,095 (DESIGN CHOICE, log entry 182). -/
def setDidt (s : State) : State :=
  let slew := s.fld (pwrR 0x6C) 0 12
  let ma := max 1 (s.fld (pwrR 0x6C) 16 12)
  if (powerMaster s).isNone then s
  else bothInst s fun s i =>
    let gap := max 1 (s.fld (schR i 0 0xC0) 16 16)
    s.setFld (schR i 0 0xC4) 0 12 (min 4095 (max 1 (slew * gap / ma)))

/-- The value of SCH.WAVE_CFG taken. -/
def setWave (s : State) (i v : Nat) : State := setDidt (s.setR (schR i 0 0xC0) (v &&& 0xFFFF000F))

/-- DIDT_CFG_WRITE (R410): PWR.DIDT_CFG, or SCH.WAVE_CFG of an instance, which is stageable (R348). -/
def execDidtCfgWrite (wave : Option Inst) (a : Acc) (v : W32) (s : State) : Host.Outcome State Fault Refusal :=
  match wave with
  | none => live s fun s => setDidt ((clearLatches s pwrPage).setR (pwrR 0x6C) (v.toNat &&& 0x0FFF0FFF))
  | some i => liveI s i.val fun s => guardD s a ⟨.sch, i.val, 0⟩ (.didtCfgWrite wave a v) (fun s => stageDrops s a ⟨.sch, i.val, 0⟩ 0xFFFF000F 0 false) fun s =>
      stageW s a ⟨.sch, i.val, 0⟩ 0xC0 4 0xFFFF000F 0 v.toNat fun s v => setWave s i.val v

/-! ### Heat and supply sag (R411, R412) -/

/-- The hottest zone in °C. -/
def hottest (s : State) : Nat := (List.range 8).foldl (fun m z => max m (s.fld (thrR 0x60) (8 * z) 8)) 0

/-- TEMP_UPDATE (R411): THR.TEMP, the thresholds warn_c with its release 3 °C below, and crit_c, held until below warn_c (DEDUCED, log entry 87). -/
def tempUpdate (s : State) (zones : List Nat) : State :=
  let s := s.setR (thrR 0x60) (fields ((List.range 8).map fun z => (8 * z, zones.getD z 0)))
  let t := hottest s
  let warn := s.fld (thrR 0x58) 0 8
  let crit := s.fld (thrR 0x58) 8 8
  let s := if warn ≤ t then setAlert s 0 else s
  let s := if crit ≤ t then setAlert s 1 else s
  settleLevels (s.updLev fun l =>
    { l with warn := if warn ≤ t then true else if t + 3 < warn then false else l.warn, warm := if t + 3 < warn then 0 else l.warm,
             crit := if crit ≤ t then true else if t < warn then false else l.crit })

/-- TEMP_UPDATE (R411). -/
def execTempUpdate (zones : List Byte) (s : State) : Host.Outcome State Fault Refusal := aon s fun s => tempUpdate s (zones.map BitVec.toNat)

/-- THERMTRIP (R411, R426): IGX_THERMTRIP_N goes low until power-on reset, every START and GO stops, a FATAL event of the hub. -/
def execThermtrip (s : State) : Host.Outcome State Fault Refusal :=
  aon s fun s => settleLevels (faultEvent (setAlert { s with thermTrip := true } 6) 52 2 {} none)

/-- NVS.STATUS.inhibit follows the inhibit, and NVS.INHIBITS counts its periods (R476, R481). -/
def setInhibit (s : State) (on : Bool) : State :=
  let s := if on && !s.nv.inhibit then s.bump (reg .nvs 0 0 0x68) 1 else s
  { s with nv := { s.nv with inhibit := on } }.setFld (reg .nvs 0 0 0x44) 16 1 (b2n on)

/-- A brake (R412, R476): levels and starts are held, the NV store is inhibited. -/
def brakeOn (s : State) : State :=
  let s := if s.nv.inhibit then s else cpLine (cpLine s 0 45) 1 45
  settleLevels ((setAlert (setInhibit s true) 2).updLev fun l => { l with brake := true })

/-- The end of a brake (R412): starts resume and levels fall under the ramp. -/
def brakeOff (s : State) : State := if s.lev.brake then settleLevels (s.updLev fun l => { l with brake := false }) else s

/-- AON samples IGX_BRAKE_N again once no reset is held (R43, R412). -/
def sampleBrake (s : State) : State :=
  if s.held then s else if s.brakeLow then (if s.lev.brake then s else brakeOn s) else brakeOff s

/-- BRAKE (R412, R476): IGX_BRAKE_N is low; the pin is ignored while reset is held (R43). -/
def execBrake (s : State) : Host.Outcome State Fault Refusal :=
  let s := { s with brakeLow := true }
  live s brakeOn

/-- BRAKE_RELEASE (R412): IGX_BRAKE_N has been high for THR.BRAKE_CFG.hold_us; the pin is ignored while reset is held (R43). -/
def execBrakeRelease (s : State) : Host.Outcome State Fault Refusal :=
  let s := { s with brakeLow := false }
  live s brakeOff

/-- SENSOR_RECOVERY (R426): firmware clears PWR.USER_LIMIT. -/
def execSensorRecovery (s : State) : Host.Outcome State Fault Refusal :=
  aon s fun s => if s.lev.sensorBad then settleLevels ((s.setR (pwrR 0x4C) 0).updLev fun l => { l with sensorBad := false }) else s

/-- A failed thermal-zone sensor (R426): PWR.USER_LIMIT at the larger of 800 W and half the source budget. -/
def sensorFails (s : State) : State := settleLevels (holdLimit (s.updLev fun l => { l with sensorBad := true }))

/-! ### The budget's writers (R397) -/

/-- The source budget set; its lowering puts reason 2 in force for 100 ms (R408) (DEDUCED, log entry 84). -/
def setBudget (s : State) (w : Nat) : State :=
  let old := s.fld (pwrR 0x44) 0 12
  settleLevels (holdLimit <| (s.setR (pwrR 0x44) w).updLev fun l => if w < old then { l with lowered := some s.hubTime } else l)

/-- Whether budget writes come in-band (R397). -/
def inBand (s : State) : Bool := s.fld (pwrR 0x40) 8 1 == 1

/-- PKG_BUDGET_WRITE (R397, R422): refused while src = 0 and outside 800-2,800 W. -/
def execPkgBudgetWrite (_ : Acc) (v : W32) (s : State) : Host.Outcome State Fault Refusal :=
  live s fun s =>
    let w := bits v.toNat 0 12
    if !inBand s || w < 800 || 2800 < w then ({ s with rlatch := Tbl.del s.rlatch pwrPage.key } : State).perr pwrPage 16
    else setBudget (clearLatches s pwrPage) w

/-- A message of the BMC through SBD: without an address SBD answers the assignment of one alone (R490). -/
def bmc (s : State) (f : State → State) : State := if s.boot.addr.isSome then f s else s

/-- PACKAGE_BUDGET (R397): sideband item 0x0100, which applies while src = 0. -/
def execPackageBudget (v : W32) (s : State) : Host.Outcome State Fault Refusal :=
  aon s fun s => bmc s fun s => if inBand s || v.toNat < 800 || 2800 < v.toNat then s else setBudget s v.toNat

/-- BUDGET_SOURCE (R397): sideband item 0x0101. -/
def execBudgetSource (inBand : Bool) (s : State) : Host.Outcome State Fault Refusal :=
  aon s fun s => bmc s fun s => settleLevels (s.setFld (pwrR 0x40) 8 1 (b2n inBand))

/-- PLDM_SENSOR_READ (R397): the four numeric sensors. -/
def execPldmSensorRead (id : BitVec 16) (s : State) : Host.Outcome State Fault Refusal :=
  aon s fun s => bmc s fun s =>
    if id = 0x200 then s.emit (.pldmValue (s.fld (pwrR 0x80) 0 20 / 16))
    else if id = 0x201 then s.emit (.pldmValue (s.r (pwrR 0x88) / 1000000))
    else if id = 0x202 then s.emit (.pldmValue (hottest s))
    else if id = 0x203 then s.emit (.pldmValue (s.r (thrR 0x40)))
    else s

/-! ### Snapshots of VD pages (R390) -/

/-- The snapshot of a VD of an instance (R390). VD 0 is of no partition: no site throttles it (DEDUCED, log entry 178). -/
def vdSnap (s : State) (i v : Nat) (r : VdRec) : State :=
  let j := Tbl.getD (s.qm.get i).jobs v {}
  let p (off : Nat) : Nat := reg .vd i v off
  let ks := match Tbl.find (s.sc i).parts (r.part) with
    | some x => if v = 0 then [] else (List.range 12).filter fun k => bitAt x.sites k
    | none => []
  let top := ks.foldl (fun m k => max m (s.fld (thrR 0x50) (4 * k) 4)) 0
  let ms := s.time i / 1000000
  let s := (((s.setR (p 0x68) ms).setR (p 0x70) j.submitted).setR (p 0x78) j.completed).setR (p 0x80) j.failed
  let last := if j.lastDrop = 0 then 0 else bits j.lastDrop 0 32 + 2 ^ 32 * (ms % 2 ^ 32)
  let s := ((s.setR (p 0x88) j.dbDropped).setR (p 0x90) last).setR (p 0xA0) top
  if ks.any fun k => s.lev.seen.contains k then s.bump (p 0xA8) 1 else s

/-- VD_SNAPSHOT (R390): at each 1 ms boundary, of VD 0 and every other VD of a served instance. -/
def execVdSnapshot (s : State) : Host.Outcome State Fault Refusal :=
  live s fun s =>
    let one (s : State) (i : Nat) : State :=
      if (server s i).isSome then (((s.vdm.get i).filter fun e => e.2.st != .free && e.1 != 0).foldl (fun s e => vdSnap s i e.1 e.2) (vdSnap s i 0 (s.vd i 0))) else s
    (bothInst s one).updLev fun l => { l with seen := (l.reasons.map Prod.fst).eraseDups }

end Sys2Proof.Machine
end

