-- ==== Sys2Proof/Machine/Measure.lean ====
section
/-! DEFINITION. Measuring power (R401-R404) and the policy step (R399, R405, R406). -/
namespace Sys2Proof.Machine

/-! ### Rails (R401) -/

/-- PWR.RAILn. -/
def railReg (s : State) (n : Nat) : Nat := s.r (pwrR (0x100 + 8 * n))

/-- The role of a rail in use: 1 site, 2 HBM, 3 hub, 4 peer die, 5 package input; 0 for a rail that is none. -/
def railRole (s : State) (n : Nat) : Nat :=
  let r := railReg s n
  if bitAt r 0 && bits r 1 3 ≤ 5 then bits r 1 3 else 0

/-- The IMON input of a rail. -/
def railImon (s : State) (n : Nat) : Option Nat :=
  let r := railReg s n
  if bitAt r 28 && bits r 24 4 < 8 then some (bits r 24 4) else none

/-- Full scale of a rail in A. -/
def railFs (s : State) (n : Nat) : Nat := bits (railReg s n) 32 12

/-- The domain of a rail; 15 where it is of no domain, as a rail of a site that does not exist (DESIGN CHOICE, log entry 182). -/
def railDom (s : State) (n : Nat) : Nat :=
  match railRole s n with
  | 1 => if bits (railReg s n) 4 4 < 12 then bits (railReg s n) 4 4 else 15
  | 2 => 13
  | 3 => 12
  | 4 => 14
  | _ => 15

/-- The rails in use. -/
def railsUsed (s : State) : List Nat := (List.range 16).filter fun n => railRole s n != 0

/-- What is known of a rail. -/
def railSt (s : State) (n : Nat) : RailSt := Tbl.getD s.lev.rails n {}

/-- The state with a rail changed. -/
def updRail (s : State) (n : Nat) (f : RailSt → RailSt) : State := s.updLev fun l => { l with rails := Tbl.upd l.rails n {} f }

/-- I_imon in mA of a raw sample (R401): gain × raw × fs_a / 4,095 + offset, gain in units of 2⁻¹⁶, offset signed mA; one below 0 counts as 0
(DESIGN CHOICE, log entry 182). -/
def imonMa (s : State) (n imon raw : Nat) : Nat :=
  let c := s.r (pwrR (0x180 + 8 * imon))
  let v : Int := ((bits c 0 32 * raw * railFs s n * 1000 / (65536 * 4095) : Nat) : Int) + signed (bits c 32 16) 16
  v.toNat

/-- The rails whose sum is the package power (R401): the package inputs where one is valid, else every other rail. -/
def pkgRails (s : State) : List Nat :=
  let p := (railsUsed s).filter fun n => railRole s n == 5
  if p.isEmpty then railsUsed s else p

/-- One IMON sample of a rail: its power in µW and current in mA, or the product of the PMBus readings without an IMON input. -/
def railSample (s : State) (raws : List Nat) (n : Nat) : Nat × Nat :=
  let x := railSt s n
  match railImon s n with
  | some m => let i := imonMa s n m (raws.getD m 0); (x.mv * i, i)
  | none => (x.mv * x.ma, x.ma)

/-- Whether a rail puts its domain on the activity model (R402). -/
def railBad (s : State) (n : Nat) : Bool :=
  3 ≤ (railSt s n).fails ||
  match railImon s n with
  | some m => bitAt (s.r (pwrR 0x1C4)) m || s.lev.pmiLost
  | none => false

/-- Whether the package power falls back to the activity model (R402): then its energy counts by the millisecond. -/
def pkgModel (s : State) : Bool := (pkgRails s).isEmpty || (pkgRails s).any (railBad s)

/-- IMON_SAMPLE (R401, R406): 1 µs of samples adds to the rails' sums, to the package energy and to the window of the fast limit, whose
excess raises every site two steps until the next policy step; window_us 0 acts as 1 (DESIGN CHOICE, log entry 182). -/
def imonSample (s : State) (raws : List Nat) : State :=
  if s.lev.pmiLost then s
  else
    let p := ((pkgRails s).map fun n => (railSample s raws n).1).sum
    let s := (railsUsed s).foldl (fun s n =>
      let v := railSample s raws n
      updRail s n fun x => { x with sumP := x.sumP + v.1, sumI := x.sumI + v.2 }) s
    let e := if pkgModel s then s.lev.energy else s.lev.energy + p
    let s := if e < 1000000 then s else s.bump (pwrR 0x88) (e / 1000000)
    let w := max 1 (s.fld (pwrR 0x68) 16 8)
    let win := (p :: s.lev.window).take w
    let much := decide (win.length = w) && decide (budget s * 1000000 * (100 + s.fld (pwrR 0x68) 0 8) * w < win.sum * 100)
    let s := s.updLev fun l => { l with samples := l.samples + 1, energy := e % 1000000, window := win, fast := l.fast || much }
    if much then settleLevels s else s

/-- IMON_SAMPLE (R401); nothing is sampled while reset is held (R43). -/
def execImonSample (raws : List (BitVec 12)) (s : State) : Host.Outcome State Fault Refusal :=
  live s fun s => imonSample s (raws.map BitVec.toNat)

/-- IOUT_WARNING (R406): a PMBus STATUS_IOUT warning on a rail begins or ends; reason 3 for its domain. -/
def execIoutWarning (rail : Fin 16) (on : Bool) (s : State) : Host.Outcome State Fault Refusal :=
  aon s fun s =>
    if railRole s rail.val = 0 then s
    else
      let d := railDom s rail.val
      settleLevels (s.updLev fun l =>
        let rest := l.warned.filter fun e => e.1 != rail.val
        if on then { l with warned := (rail.val, d) :: rest }
        else { l with warned := rest, iout := if rest.any fun e => e.2 == d then l.iout else Tbl.del l.iout d })

/-- The comparison of one rail with an IMON input (R403): its band is seen; a deviation above the tolerance sets cal_band. -/
def calRail (s : State) (n : Nat) : State :=
  match railImon s n with
  | none => s
  | some m =>
    let x := railSt s n
    let fs := 1000 * railFs s n
    let band := if 100 * x.ma < 30 * fs then 0 else if 100 * x.ma ≤ 70 * fs then 1 else 2
    let den := max x.ma (fs / 20)
    let dev := (x.meanI - x.ma) + (x.ma - x.meanI)
    let s := s.orR (pwrR 0x1C4) (2 ^ (8 + 3 * m + band))
    if s.fld (pwrR 0x1C0) 0 8 * den < dev * 1000 then setAlert ((s.orR (pwrR 0x1C4) (2 ^ m)).irq pwrPage 18) 3 else s

/-- CAL_CHECK (R403). -/
def execCalCheck (s : State) : Host.Outcome State Fault Refusal :=
  aon s fun s => masterDoes s fun s => (railsUsed s).foldl calRail s

/-! ### The policy step (R399-R406) -/

/-- The activity counters of a site (R309) (DEDUCED, log entry 85). -/
def actOf (s : State) (k : Nat) : List Nat := (List.range 8).map fun n => s.r (stpR k (0xC0 + 8 * n))

/-- The mean power of a site in 1/16 W by the activity model (R402): idle_w and the counts of the last millisecond, or
counter 5 alone where the station reports energy (DEDUCED, log entry 85). -/
def siteModel (s : State) (k : Nat) : Nat :=
  let old := Tbl.getD s.lev.act k []
  let d (n : Nat) : Nat := ((actOf s k).getD n 0 + 2 ^ 64 - old.getD n 0) % 2 ^ 64
  let c := Tbl.getD s.lev.coef k (0, 0)
  let m0 := c.1
  if capF s k 0x1C 4 1 = 1 then d 5 * 1000 * 16 / 1000000
  else 16 * bits c.2 0 12 + (d 0 * bits m0 0 16 + d 1 * bits m0 16 16 + (d 2 * bits m0 32 16 + d 3 * bits m0 48 16) / 1000) * 16 / 1000000

/-- Readings taken over for the millisecond that ends (R401). -/
def takeReads (s : State) (r : PwrRead) : State :=
  (List.range 16).foldl (fun s n =>
    let v := (r.rails[n]?).join
    let m := s.lev.samples
    updRail s n fun x =>
      { x with mv := (v.map fun e => e.1).getD x.mv, ma := (v.map fun e => e.2.1).getD x.ma, fails := if v.isSome then 0 else x.fails + 1,
               meanI := if m = 0 then x.meanI else x.sumI / m }) s

/-- The mean power of a rail over the millisecond, in µW. -/
def railMean (s : State) (n : Nat) : Nat :=
  let x := railSt s n
  if (railImon s n).isSome && s.lev.samples != 0 then x.sumP / s.lev.samples else x.mv * x.ma

/-- The mean power of a domain in 1/16 W, and whether it comes from the activity model (R402, R489). -/
def domMean (s : State) (r : PwrRead) (d : Nat) : Nat × Bool :=
  let ns := (railsUsed s).filter fun n => railRole s n != 5 && railDom s n == d
  if ns.isEmpty || ns.any (railBad s) then
    (if d = 12 then 16 * r.hub else if d = 13 then 16 * r.hbm else if d = 14 then 16 * r.peer else siteModel s d, true)
  else ((ns.map (railMean s)).sum * 16 / 1000000, false)

/-- The means of every domain and of the package (R401, R402), with PWR.PKG_POWER, DOM_POWER and SITE_POWERn;
PWR.PKG_ENERGY counts a millisecond without samples by its mean. -/
def setMeans (s : State) (r : PwrRead) : State :=
  let ds := (List.range 15).map fun d => (d, domMean s r d)
  let sum := (ds.map fun e => e.2.1).sum
  let mod := (ds.filter fun e => e.2.2).map Prod.fst
  let ps := (railsUsed s).filter fun n => railRole s n == 5
  let pkg := if ps.isEmpty || ps.any (railBad s) then (sum, !mod.isEmpty) else ((ps.map (railMean s)).sum * 16 / 1000000, false)
  let get (d : Nat) : Nat := ((ds.find? fun e => e.1 == d).map fun e => e.2.1).getD 0
  let s := s.updLev fun l =>
    { l with power := (ds.map fun e => (e.1, e.2.1)) ++ [(15, pkg.1)], model := mod, act := (List.range 12).map fun k => (k, actOf s k) }
  let s := s.setR (pwrR 0x80) (fields [(0, pkg.1 % 2 ^ 20), (28, b2n pkg.2)])
  let s := if pkgModel s || s.lev.samples = 0 then s.bump (pwrR 0x88) (pkg.1 * 1000 / 16) else s
  s.setR (pwrR 0x90) (fields [(0, get 12 / 16 % 65536), (16, get 13 / 16 % 65536), (32, get 14 / 16 % 65536)])

/-- The weight of a site (R399). -/
def weightOf (s : State) (k : Nat) : Nat := s.fld (pwrR (0x58 + 4 * (k / 4))) (8 * (k % 4)) 8

/-- Watts divided among sites in proportion to weight, rounded down, the rest one each to the lowest-numbered (R399); weights that are all 0 leave
the rest undivided (DESIGN CHOICE, log entry 182). -/
def divide (s : State) (ks : List Nat) (w : Nat) : List (Nat × Nat) :=
  let t := (ks.map (weightOf s)).sum
  let base := ks.map fun k => (k, if t = 0 then 0 else w * weightOf s k / t)
  let left := w - (base.map Prod.snd).sum
  base.zipIdx.map fun e => (e.1.1, e.1.2 + b2n (e.2 < left))

/-- The division of B (R399): steps 1 to 3. -/
def baseAllot (s : State) : Tbl Nat :=
  let sp := s.r (pwrR 0x50)
  let ks := partSites s
  let idle := s.fld (pwrR 0x54) 0 8
  let rest := budget s - (bits sp 0 10 + bits sp 10 10 + bits sp 20 10 + idle * (12 - ks.length))
  let ds := divide s ks rest
  ((List.range 12).map fun k => (k, match ds.find? fun e => e.1 == k with | some e => e.2 | none => idle)) ++
  [(12, bits sp 0 10), (13, bits sp 20 10), (14, bits sp 10 10)]

/-- The redistribution of maximum mode (R399): the unused allotment of domains more than 5 % below theirs goes to the sites within 2 %
of theirs. -/
def redistribute (s : State) (a : Tbl Nat) : Tbl Nat :=
  let p (d : Nat) : Nat := Tbl.getD s.lev.power d 0
  let low := a.filter fun e => p e.1 * 100 < e.2 * 16 * 95
  let give (e : Nat × Nat) : Nat := e.2 - (p e.1 + 15) / 16
  let ks := (List.range 12).filter fun k => let v := Tbl.getD a k 0; v * 16 * 98 ≤ p k * 100 && p k * 100 ≤ v * 16 * 102
  if ks.isEmpty then a
  else
    let ds := divide s ks (low.map give).sum
    a.map fun e =>
      if low.contains e then (e.1, e.2 - give e) else (e.1, e.2 + ((ds.find? fun x => x.1 == e.1).map Prod.snd).getD 0)

/-- The allotments in force, shown in PWR.SITE_POWERn; HBM's and the peer die's go to Plinth (R393, R399). -/
def setAllot (s : State) : State :=
  let a := if fixedMode s then baseAllot s else redistribute s (baseAllot s)
  let s := s.updLev fun l => { l with allot := a }
  let s := (List.range 12).foldl (fun s k =>
    s.setR (pwrR (0xC0 + 4 * k)) (fields [(0, Tbl.getD s.lev.power k 0 % 65536), (16, b2n (s.lev.model.contains k)), (20, Tbl.getD a k 0 % 4096)])) s
  (s.emit (.regulator 13 2 (Tbl.getD a 13 0))).emit (.regulator 14 2 (Tbl.getD a 14 0))

/-- Plinth's droop thresholds rewritten (R404); a rail in fallback keeps its last one. -/
def setVth (s : State) (r : PwrRead) : State :=
  (railsUsed s).foldl (fun s n =>
    match (r.rails[n]?).join with
    | some (_, _, vset) =>
      if railBad s n then s
      else
        let i := if (railImon s n).isSome then (railSt s n).meanI else (railSt s n).ma
        s.emit (.regulator n 1 (vset - i * s.fld (pwrR 0x70) 0 16 / 1000000 - s.fld (pwrR 0x70) 16 8))
    | none => s) s

/-- The steps of the budget policy at a domain. -/
def capAt (s : State) (d : Nat) : Nat := Tbl.getD s.lev.cap d 0

/-- Over budget (R405): every site above its allotment one step up; when no site can rise, the hub. In fixed mode only for reasons
up to 6 (R400). -/
def overBudget (s : State) : State :=
  if fixedMode s && budgetReason s = 9 then s
  else
    let ks := (List.range 12).filter fun k => Tbl.getD s.lev.allot k 0 * 16 < Tbl.getD s.lev.power k 0 && levelOf s k < 15
    let up (s : State) (d : Nat) : State := s.updLev fun l => { l with cap := Tbl.put l.cap d (Tbl.getD l.cap d 0 + 1) }
    if !ks.isEmpty then ks.foldl up s else if levelOf s 12 < 3 then up s 12 else s

/-- Under budget (R405): with the level of every site of a partition above its floor, the sites at the highest level fall one step, if the power that follows from
it stays within B. The hub falls with them (DEDUCED, log entry 82). -/
def underBudget (s : State) : State :=
  let top := (List.range 12).foldl (fun m k => max m (levelOf s k)) 0
  if top = 0 || (partSites s).any fun k => levelOf s k ≤ floorOf s k then s
  else if Tbl.getD s.lev.power 15 0 * (17 - top) ≤ 16 * budget s * (16 - top) then
    s.updLev fun l =>
      { l with cap := (l.cap.map fun e => if e.1 = 12 || (e.1 < 12 && levelOf s e.1 = top) then (e.1, e.2 - 1) else e).filter fun e => e.2 != 0 }
  else s

/-- What the step does with current warnings and heat (R406, R411): one step more while a warning lasts, or the hottest zone is at warn_c. -/
def raiseSteps (s : State) : State :=
  s.updLev fun l =>
    { l with iout := (l.warned.map Prod.snd).eraseDups.foldl (fun t d => if d ≤ 12 then Tbl.put t d (min 15 (Tbl.getD t d 0 + 1)) else t) l.iout,
             warm := if s.fld (thrR 0x58) 0 8 ≤ hottest s then min 15 (l.warm + 1) else l.warm }

/-- The power before and during pacing, from which the offer follows (R420). -/
def notePaced (s : State) : State :=
  let p := Tbl.getD s.lev.power 15 0
  if s.lev.notices.any fun n => n.1.site + n.1.hub != 0 then s.updLev fun l => { l with paced := (l.paced.1 + p, l.paced.2 + 1) } else s

/-- POWER_POLICY_STEP (R399-R406). -/
def policyStep (s : State) (r : PwrRead) : State :=
  let s := setMeans (takeReads s r) r
  let s := setVth (s.updLev fun l => { l with fast := false }) r
  let s := setAllot s
  let s := if 16 * budget s < Tbl.getD s.lev.power 15 0 then overBudget s else underBudget s
  let s := notePaced (raiseSteps s)
  let s := s.updLev fun l => { l with samples := 0, rails := Tbl.mapV l.rails fun x => { x with sumP := 0, sumI := 0 } }
  settleLevels s

/-- The power tick of the control processors (R459). -/
def powerTickLine (s : State) : State := cpLine (cpLine s 0 7) 1 7

/-- POWER_POLICY_STEP (R405): run by the power master (R396). -/
def execPowerPolicyStep (r : PwrRead) (s : State) : Host.Outcome State Fault Refusal :=
  live s fun s => masterDoes s fun s => policyStep (powerTickLine s) r

end Sys2Proof.Machine
end

