-- ==== Sys2Proof/Machine/Pool.lean ====
section
/-! DEFINITION. The job pool (R416-R420). -/
namespace Sys2Proof.Machine

/-- Watts shared equally among the members, what is left one each to the lowest-numbered (R416). -/
def equalShares (ms : List Nat) (total : Nat) : List Nat :=
  (List.range 8).map fun m => if ms.contains m then total / ms.length + b2n ((ms.filter (· < m)).length < total % ms.length) else 0

/-- Shares scaled to a new total, rounded down, what is left one each to the lowest-numbered (R416). -/
def scaleShares (ms : List Nat) (sh : List Nat) (old new : Nat) : List Nat :=
  let base := sh.map fun w => if old = 0 then 0 else w * new / old
  let left := new - base.sum
  (List.range 8).map fun m => base.getD m 0 + b2n (ms.contains m && (ms.filter (· < m)).length < left)

/-- This package's share shown and in force. -/
def showShare (s : State) : State :=
  settleLevels (s.setFld (pwrR 0x218) 0 12 (min 4095 (s.lev.shares.getD (pkgNum s) 0)))

/-- POOL_CONFIGURATION taken (R416): a rise of valid starts the pool, its fall ends it. -/
def setPoolCfg (s : State) (v : Nat) : State :=
  let was := poolOn s
  let s := s.setR (pwrR 0x200) (v &&& 0xFF0FFF01)
  if poolOn s && !was then
    let t := s.r (pwrR 0x204)
    let sh := equalShares (poolMembers s) t
    let s := s.updLev fun l =>
      { l with shares := sh, shareAt := sh.getD (pkgNum s) 0, total := t, last := [], steps := 0, pending := false, notices := [], sent := none, before := none, paced := (0, 0) }
    showShare s
  else if was && !poolOn s then
    settleLevels (s.updLev fun l => { l with notices := [], sent := none, before := none, paced := (0, 0), pending := false })
  else settleLevels s

/-- A write of PWR.POOL_TOTAL or PWR.POOL_CFG, in-band (refused while src = 0) or through the sideband, which applies while src = 0
(R397). -/
def poolWrite (s : State) (a : Option Acc) (f : State → State) : Host.Outcome State Fault Refusal :=
  match a with
  | some _ => live s fun s =>
    if inBand s then f (clearLatches s pwrPage) else ({ s with rlatch := Tbl.del s.rlatch pwrPage.key } : State).perr pwrPage 16
  | none => aon s fun s => bmc s fun s => if inBand s then s else f s

/-- POOL_TOTAL (R416): it takes effect at the next epoch boundary of a running pool. -/
def execPoolTotal (a : Option Acc) (v : W32) (s : State) : Host.Outcome State Fault Refusal :=
  poolWrite s a fun s => s.setR (pwrR 0x204) (bits v.toNat 0 16)

/-- POOL_CONFIGURATION (R416). -/
def execPoolConfiguration (a : Option Acc) (v : W32) (s : State) : Host.Outcome State Fault Refusal :=
  poolWrite s a fun s => setPoolCfg s v.toNat

/-- epoch_ms; 0 acts as 1 (R422). -/
def epochMs (s : State) : Nat := max 1 (s.fld (pwrR 0x200) 24 8)

/-- The power freed by pacing (R420): the mean before the first notice in force less the mean of the paced part of the epoch. -/
def offerW (s : State) : Nat :=
  match s.lev.before with
  | some b => if s.lev.paced.2 = 0 then 0 else (b - s.lev.paced.1 / s.lev.paced.2) / 16
  | none => 0

/-- The record of an ended epoch (R418). -/
def poolRecord (s : State) (e : Nat) : List Byte :=
  let l := s.lev
  let hot := l.reasons.any fun r => 4 ≤ r.2 && r.2 ≤ 6
  leBytes 4 (fields [(0, e % 65536), (16, pkgNum s), (19, 1)]) ++ leBytes 4 (fields [(0, poolShare s), (16, l.total)]) ++
  leBytes 8 (fields ((List.range 8).map fun m => (8 * m, min 255 (l.last.getD m 0)))) ++
  leBytes 4 (fields [(0, min 65535 l.steps), (16, min 4095 (offerW s)), (28, b2n hot)])

/-- POOL_EPOCH_END (R418): the record goes to every member's mailbox; a new POOL_TOTAL comes into force (R416); a notice in force is given
again (R420). -/
def epochEnd (s : State) : State :=
  if !poolOn s then s
  else
    let e := (s.hubTime / (epochMs s * 1000000) + (2 ^ 16 - 1)) % 2 ^ 16
    let s := toMailboxes s (0x40 * pkgNum s + 0x200 * (e % 2)) (poolRecord s e)
    let s := (s.setR (pwrR 0x21C) e).updLev fun l => { l with last := [], steps := 0, pending := true, paced := (0, 0) }
    let t := s.r (pwrR 0x204)
    let s := if t = s.lev.total then s else showShare (s.updLev fun l => { l with shares := scaleShares (poolMembers s) l.shares l.total t, total := t })
    match paceDue s with
    | some v => sendNotice s v
    | none => s

/-- POOL_EPOCH_END (R418). -/
def execPoolEpochEnd (s : State) : Host.Outcome State Fault Refusal := live s fun s => masterDoes s epochEnd

/-- The member with the greatest measure among candidates, the lowest-numbered on a tie. -/
def mostBy (f : Nat → Nat) : List Nat → Option Nat
  | [] => none
  | x :: r => match mostBy f r with
    | none => some x
    | some y => if f y ≤ f x then some x else some y

/-- The record of a member. -/
def recOf (rs : List PoolMsg) (m : Nat) : PoolMsg := (rs.find? fun r => r.member == m).getD ⟨0, m, 0, 0, [], 0, 0, false⟩

/-- The lateness of a member over the records (R419). -/
def lateOf (rs : List PoolMsg) (m : Nat) : Nat := (rs.map fun r => r.last.getD m 0).sum

/-- The transfer that R419 decides on, as (receiver, donor) (DEDUCED, log entry 86). -/
def poolTransfer (rs : List PoolMsg) (ms sh : List Nat) (step : Nat) : Option (Nat × Nat) :=
  if (rs.map PoolMsg.steps).sum = 0 then none
  else
    let lt := lateOf rs
    match mostBy lt (ms.filter fun m => !(recOf rs m).thermal && sh.getD m 0 + step ≤ 2800) with
    | none => none
    | some r =>
      let ds := ms.filter fun m => m != r && 800 + step ≤ sh.getD m 0 && lt m < lt r
      let big := ds.filter fun m => step ≤ (recOf rs m).offer
      let d := if big.isEmpty then leastBy lt ds else mostBy (fun m => (recOf rs m).offer) big
      d.map fun d => (r, d)

/-- POOL_DECISION (R419): every record of the last epoch is held, with equal totals. -/
def poolDecision (s : State) (rs : List PoolMsg) : State :=
  let ms := poolMembers s
  let all := ms.all fun m => rs.any fun r => r.member == m && r.epoch == s.fld (pwrR 0x21C) 0 16
  let same := rs.all fun r => some r.total == rs.head?.map PoolMsg.total
  if !poolOn s || !s.lev.pending || !all || rs.length != ms.length || !same then s
  else
    let step := s.fld (pwrR 0x208) 0 8
    let s := s.setR (pwrR 0x220) (fields ((List.range 8).map fun m => (8 * m, min 255 (lateOf rs m))))
    let s := (s.updLev fun l => { l with pending := false }).irq pwrPage 17
    match poolTransfer rs ms s.lev.shares step with
    | none => s
    | some (r, d) =>
      showShare (s.updLev fun l => { l with shares := l.shares.zipIdx.map fun e => if e.2 = r then e.1 + step else if e.2 = d then e.1 - step else e.1 })

/-- POOL_DECISION (R419). -/
def execPoolDecision (rs : List PoolMsg) (s : State) : Host.Outcome State Fault Refusal :=
  live s fun s => masterDoes s fun s => poolDecision s rs

/-- POOL_RECORD_TIMEOUT (R419): a record is still missing; no transfer for the epoch. -/
def execPoolRecordTimeout (s : State) : Host.Outcome State Fault Refusal :=
  live s fun s => masterDoes s fun s =>
    if poolOn s && s.lev.pending then
      setAlert ((s.satFld (pwrR 0x218) 16 16 1).updLev fun l => { l with pending := false }) 5
    else s

/-- POOL_MAILBOX_TICK (R420): the notices of other members found in the mailbox replace older ones of theirs; one that has stood for
2 × epoch_ms ends. -/
def mailboxTick (s : State) (ns : List PaceMsg) : State :=
  if !poolOn s then s
  else
    let keep := s.lev.notices.map fun n => if s.hubTime < n.2 + 2 * epochMs s * 1000000 then n else ({ n.1 with site := 0, hub := 0 }, n.2)
    let fresh := ns.filter fun n => n.member != pkgNum s && (poolMembers s).contains n.member &&
      !(s.lev.notices.any fun o => o.1.member == n.member && o.1.seq == n.seq)
    let all := (keep.filter fun n => !fresh.any fun f => f.member == n.1.member) ++ fresh.map fun n => (n, s.hubTime)
    let on := all.any fun n => n.1.site + n.1.hub != 0
    settleLevels (s.updLev fun l =>
      { l with notices := all, before := if !on then none else if l.before.isSome then l.before else some (Tbl.getD l.power 15 0) })

/-- POOL_MAILBOX_TICK (R420). -/
def execPoolMailboxTick (ns : List PaceMsg) (s : State) : Host.Outcome State Fault Refusal :=
  live s fun s => masterDoes s fun s => mailboxTick (cpLine (cpLine s 0 8) 1 8) ns

end Sys2Proof.Machine
end

