-- ==== Sys2Proof/Machine/Nvs.lean ====
section
/-! DEFINITION. The NV store (R474-R477, R481): records, the error log, flash operations in order, the inhibit; and what a firmware update
writes there (R464). -/
namespace Sys2Proof.Machine

/-- NVS page registers. -/
def nvsR (off : Nat) : Nat := reg .nvs 0 0 off

/-- The NVS page. -/
def nvsPage : PageId := ⟨.nvs, 0, 0⟩

/-- The state with the NV store changed. -/
def State.updNv (s : State) (f : NvSt → NvSt) : State := { s with nv := f s.nv }

/-- The state with the firmware state changed. -/
def State.updFw (s : State) (f : FwSt → FwSt) : State := { s with fw := f s.fw }

/-- An event line of the power master's control processor and of its partner's: the shared sources (R458, R459). -/
def nvLine (s : State) : State := cpBoth s 44

/-- A flash error (R426, R481): counted, and a CE of the NVS source (DEDUCED, log entry 101). -/
def flashError (s : State) : State := faultEvent (s.bump (nvsR 0x70) 1) 58 0 {} none

/-- An NVS command starts: NVS.STATUS.busy. -/
def nvBegin (s : State) (op : Nat) : State := (s.setFld (nvsR 0x44) 0 1 1).updNv fun n => { n with cmd := some op }

/-- An NVS command ends with a result (R481). -/
def nvEnd (s : State) (result : Nat) : State :=
  nvLine (((s.setFld (nvsR 0x44) 0 16 (result * 256)).updNv fun n => { n with cmd := none }).irq nvsPage 16)

/-- A flash operation queued behind those before it. -/
def nvQueue (s : State) (o : NvOp) : State := s.updNv fun n => { n with ops := n.ops ++ [o] }

/-- A write of NVS.CMD: refused while busy, FLASH_ERROR without a flash (R481). -/
def nvCmd (s : State) (f : State → State) : State :=
  let s := if s.nv.cmd.isSome then { s with rlatch := Tbl.del s.rlatch nvsPage.key } else clearLatches s nvsPage
  let t := s.updNv fun n => { n with confirm := none }
  if s.nv.cmd.isSome then t.perr nvsPage 16 else if !s.nv.present then nvEnd t 0x13 else f t

/-! ### Records (R475) -/

/-- One step of the CRC-32 of IEEE 802.3, least significant bit first. -/
def crc32Bit (c : BitVec 32) : BitVec 32 := if c.getLsbD 0 then (c >>> 1) ^^^ 0xEDB88320#32 else c >>> 1

/-- The CRC-32 over bytes. -/
def crc32 (bs : List Byte) : Nat :=
  ((bs.foldl (fun c b => (List.range 8).foldl (fun c _ => crc32Bit c) (c ^^^ b.zeroExtend 32)) (BitVec.allOnes 32)) ^^^ BitVec.allOnes 32).toNat

/-- A record copy as it stands in the flash: its 64 B header and the body. -/
def recImage (seq : Nat) (body : List Byte) : List Byte :=
  let head := leBytes 4 0x4E565352 ++ leBytes 4 seq ++ leBytes 4 body.length
  let tail := List.replicate 48 (0 : Byte)
  head ++ leBytes 4 (crc32 (head ++ leBytes 4 0 ++ tail ++ body)) ++ tail ++ body

/-- Whether seq `a` is greater than `b` under 32-bit modular comparison. -/
def seqAfter (a b : Nat) : Bool := a != b && (a + 2 ^ 32 - b) % 2 ^ 32 < 2 ^ 31

/-- The copy a reader uses, as (half, seq, body). -/
def goodCopy (s : State) (region : Nat) : Option (Nat × Nat × List Byte) :=
  match Tbl.find s.nv.recs (2 * region), Tbl.find s.nv.recs (2 * region + 1) with
  | some x, some y => if seqAfter y.1 x.1 then some (1, y) else some (0, x)
  | some x, none => some (0, x)
  | none, some y => some (1, y)
  | none, none => none

/-- The half a writer erases and the seq it writes: the other copy with the next seq; the lower half with seq 1 where there is none (DEDUCED,
log entry 99). -/
def nextCopy (s : State) (region : Nat) : Nat × Nat :=
  match goodCopy s region with
  | some (h, q, _) => (1 - h, (q + 1) % 2 ^ 32)
  | none => (0, 1)

/-- A record written over the other copy. -/
def putRecord (s : State) (region : Nat) (body : List Byte) : State :=
  let e := nextCopy s region
  s.updNv fun n => { n with recs := Tbl.put n.recs (2 * region + e.1) (e.2, body) }

/-- A write that did not end: the copy under it has no good CRC; the older one stays (R475). -/
def spoilRecord (s : State) (region : Nat) : State :=
  let e := nextCopy s region
  s.updNv fun n => { n with recs := Tbl.del n.recs (2 * region + e.1) }

/-- Bytes in a region (R474). -/
def regionSize (region : Nat) : Nat :=
  match region with
  | 0 => 0x100000 | 1 => 0x40000 | 2 => 0x200000 | 3 => 0x200000 | 4 => 0x10000 | 5 => 0x40000 | 6 => 0x40000 | 7 => 0x1000000 | _ => 0

/-- The REPAIR and ACTIVE records (R475): what their body holds and how long it is are not stated (DESIGN CHOICE, log entry 100). -/
def putOwnRecord (s : State) (region : Nat) : State :=
  let c := s.choose (regionSize region / 2 - 64)
  putRecord c.2 region ((List.range c.1).map (Config.freeByte s.free))

/-- Whether a region holds the two copies of a record (R475). -/
def recRegion (region : Nat) : Bool := region = 1 || (4 ≤ region && region ≤ 6)

/-- Bytes read from a region: of a record copy as R475 lays it out in its half, of anything else not stated (DESIGN CHOICE, log entry 100). -/
def nvBytes (s : State) (region off len : Nat) : List Byte :=
  let half := regionSize region / 2
  let img := fun h => match Tbl.find s.nv.recs (2 * region + h) with
    | some (q, b) => recImage q b
    | none => []
  let lo := if recRegion region then img 0 else []
  let hi := if recRegion region then img 1 else []
  (List.range len).map fun k =>
    let a := off + k
    let b := if a < half then lo[a]? else hi[a - half]?
    b.getD (Config.freeByte s.free a)

/-! ### The error log (R430, R475, R476) -/

/-- NVS.LOG_COUNT and NVS.LOG_NEXT follow the log. -/
def showLog (s : State) : State := (s.setR (nvsR 0x60) s.nv.log.length).setR (nvsR 0x64) s.nv.seq

/-- An error-log entry to be written: AON holds 16 during an inhibit; a later one, or one with no flash, is dropped and counted. -/
def pushLog (s : State) (e : LogEnt) : State :=
  if !s.nv.present then s.bump (nvsR 0x70) 1
  else if s.nv.inhibit then
    if s.nv.held.length < 16 then s.updNv fun n => { n with held := n.held ++ [e] } else s.bump (nvsR 0x70) 1
  else nvQueue s (.entry e)

/-- An entry in the ring of 262,144; a full ring first loses its oldest sector of 1,024. -/
def putLog (s : State) (e : LogEnt) : State :=
  showLog (s.updNv fun n =>
    { n with log := (if 262144 ≤ n.log.length then n.log.drop 1024 else n.log) ++ [{ e with seq := n.seq }], seq := (n.seq + 1) % 2 ^ 32 })

/-! ### Firmware updates (R464, R479) -/

/-- CPI page registers. -/
def cpiR (i off : Nat) : Nat := reg .cpi i 0 off

/-- The CPI page of an instance. -/
def cpiPage (i : Nat) : PageId := ⟨.cpi, i, 0⟩

/-- An update command ends with a result on the page it was written to (DEDUCED, log entry 104). -/
def updEnd (s : State) (result : Nat) : State :=
  match s.fw.upd with
  | some (i, _) => ((s.setFld (cpiR i 0x64) 0 16 (result * 256)).updFw fun w => { w with upd := none, phase := 0 }).irq (cpiPage i) 16
  | none => s

/-- The firmware slot that is not active. -/
def otherSlot (s : State) : Nat := 1 - s.fw.active

/-! ### Flash operations -/

/-- What a finished flash operation does. -/
def opDone (s : State) (o : NvOp) : State :=
  match o with
  | .record region body => nvEnd (putRecord s region body) 1
  | .clearLog => nvEnd (showLog (s.updNv fun n => { n with log := [] })) 1
  | .entry e => putLog s e
  | .image slot m =>
    let s := s.updFw fun w => { w with slots := Tbl.put w.slots slot m }
    if (s.fw.upd.map Prod.snd) = some 1 then updEnd (s.updFw fun w => { w with staged := some m }) 1 else s
  | .empty slot => updEnd (s.updFw fun w => { w with slots := Tbl.del w.slots slot, staged := none }) 1
  | .active slot =>
    let s := putOwnRecord (s.updFw fun w => { w with active := slot }) 4
    if (s.fw.upd.map Prod.snd) = some 2 then updEnd (s.updFw fun w => { w with staged := none }) 1 else s
  | .restore =>
    nvEnd (showLog (s.updNv fun n => { n with recs := (n.recs.filter fun e => e.1 / 2 != 5 && e.1 / 2 != 6), log := [] })) 1
  | .repair m => putOwnRecord (s.updNv fun n => { n with repair := m }) 1

/-- How an operation that is not finished ends its command: with `nv` on NVS, with `cpi` on CPI. -/
def opLost (s : State) (o : NvOp) (nv cpi : Nat) : State :=
  match o with
  | .record region _ => nvEnd (spoilRecord s region) nv
  | .clearLog | .restore => nvEnd s nv
  | .image slot _ =>
    let s := s.updFw fun w => { w with slots := Tbl.del w.slots slot }
    if (s.fw.upd.map Prod.snd) = some 1 then updEnd s cpi else s
  | .empty _ => updEnd s cpi
  | .active _ => if (s.fw.upd.map Prod.snd) = some 2 then updEnd (spoilRecord s 4) cpi else spoilRecord s 4
  | .repair _ => spoilRecord s 1
  | .entry _ => s

/-- FLASH_OP_DONE (R474-R476): the oldest operation ends, well or with a flash error; nothing ends while the store is inhibited. -/
def execFlashOpDone (ok : Bool) (s : State) : Host.Outcome State Fault Refusal :=
  aon s fun s =>
    if s.nv.inhibit then s
    else match s.nv.ops with
      | [] => s
      | o :: r =>
        let s := s.updNv fun n => { n with ops := r }
        if ok then opDone s o else opLost (flashError s) o 0x13 0x17

/-- NV_INHIBIT_LIFT (R476): the entries that AON held join the work, which resumes in order. -/
def execNvInhibitLift (s : State) : Host.Outcome State Fault Refusal :=
  aon s fun s =>
    if !s.nv.inhibit || s.lev.brake then s
    else
      let es := s.nv.held.map NvOp.entry
      cpBoth (setInhibit (s.updNv fun n => { n with ops := n.ops ++ es, held := [] }) false) 45

/-- NV_INHIBIT_TIMEOUT (R476): a command inhibited for 1 s ends INHIBITED, its operation undone. -/
def execNvInhibitTimeout (s : State) : Host.Outcome State Fault Refusal :=
  aon s fun s =>
    if !s.nv.inhibit then s
    else
      let ofCmd : NvOp → Bool
        | .record _ _ | .clearLog | .restore => s.nv.cmd.isSome
        | .image _ _ | .empty _ | .active _ => s.fw.upd.isSome
        | _ => false
      let lost := s.nv.ops.filter ofCmd
      let keep := s.nv.ops.filter fun o => !ofCmd o
      lost.foldl (fun s o => opLost s o 0x12 0x18) (s.updNv fun n => { n with ops := keep })

/-! ### The commands (R481) -/

/-- READ: bytes of a region copied into the buffer. -/
def execRead (_ : Acc) (region : BitVec 4) (st : Rsp) (s : State) : Host.Outcome State Fault Refusal :=
  live s fun s => nvCmd s fun s =>
    let g := region.toNat
    let off := s.fld (nvsR 0x48) 0 24
    let len := s.fld (nvsR 0x4C) 0 17
    let buf := s.r (nvsR 0x50)
    if !(g = 0 || g = 1 || (4 ≤ g && g ≤ 7)) || 65536 < len || regionSize g < off + len || buf % 64 != 0 then nvEnd s 0x11
    else if st != .ok then nvEnd (if st == .uncorr then flashError s else s) 0x13
    else
      let bs := nvBytes s g off len
      nvEnd ({ s with free := s.free + 1 }.emit (.bulk 6 buf (s.r (nvsR 0x58) :: bs.map BitVec.toNat))) 1

/-- WRITE_RECORD: one record of USER_CAL or USER_CFG, its body read from the buffer. A body of another length than NVS.LENGTH is no
answer to the read. -/
def execWriteRecord (_ : Acc) (region : BitVec 4) (body : List Byte) (st : Rsp) (s : State) : Host.Outcome State Fault Refusal :=
  live s fun s => nvCmd s fun s =>
    let g := region.toNat
    let len := s.fld (nvsR 0x4C) 0 17
    if g = 0 && s.fw.lifecycle != 0 then nvEnd s 0x10
    else if !(g = 5 || g = 6) || 131008 < len || s.r (nvsR 0x50) % 64 != 0 then nvEnd s 0x11
    else if st != .ok then nvEnd s 0x13
    else if body.length != len then s
    else nvQueue (nvBegin s 2) (.record g body)

/-- CLEAR_LOG: erases ERR_LOG. -/
def execClearLog (_ : Acc) (s : State) : Host.Outcome State Fault Refusal :=
  live s fun s => nvCmd s fun s => nvQueue (nvBegin s 3) .clearLog

/-- RESTORE_FACTORY (R477): only when the access to the page before it was NVS.CONFIRM = 0xFAC7 from the same port. -/
def execRestoreFactory (a : Acc) (s : State) : Host.Outcome State Fault Refusal :=
  live s fun s0 => nvCmd s0 fun s =>
    if s0.nv.confirm != some (portCode a) then nvEnd s 0x15 else nvQueue (nvBegin s 4) .restore

end Sys2Proof.Machine
end

