-- ==== Sys2Proof/Machine/Faults.lean ====
section
/-! DEFINITION. Fault events and what they do at once (R424-R434), the FLT page's commands, the patrol scrubber, failing banks and the
self-test (R433, R449-R452), lost clocks (R41). -/
namespace Sys2Proof.Machine

/-! ### Classes (R426, R434) -/

/-- The class of an event with no more known than its source (R426). -/
def srcClass (src cls : Nat) : Nat :=
  if src < 32 then (if 8 ≤ src % 16 && src % 16 ≤ 13 then min cls 1 else cls)
  else if src < 36 then min cls 1
  else if src < 38 then (if cls = 0 then 0 else 2)
  else if src = 38 || src = 39 || src = 53 || src = 58 then 0
  else if src < 52 || src = 54 || src = 55 then min cls 1
  else if src = 52 then 2
  else if src = 56 || src = 57 || src = 62 || src = 63 then 1
  else cls

/-- Whether an instance's partner holds a current copy of its state (R434, R435). -/
def protected_ (s : State) (i : Nat) : Bool :=
  (s.mir.get i).pair == .prot && (s.mir.get (partner i)).pair == .prot && alive s (partner i)

/-- The class of an event (R426, R434): an uncorrectable error of an instance by the structure it touched. -/
def eventClass (s : State) (src cls : Nat) (h : Hit) : Nat :=
  if src < 32 && cls != 0 then
    let i := src / 16
    match h with
    | .none | .sensor => srcClass src cls
    | .ctx _ dirty => if dirty && !protected_ s i then 1 else 0
    | .cached _ | .mirror => 0
    | .hlc k _ => match s.line? i k with
      | some l => if l.st == .m then 1 else 0
      | none => 0
    | .chan _ | .pipe _ _ | .table _ _ => 1
    | .cpSram | .control => 2
  else srcClass src cls

/-! ### Structures that lose entries (R434, R450) -/

/-- A list without its element at an index. -/
def dropNth {α : Type} (l : List α) (n : Nat) : List α := l.take n ++ l.drop (n + 1)

/-- One way of every set of a structure invalidated (R450); which entries it held is not stated: one free position. Structures as
in FLT.DEGRADED (DESIGN CHOICE, log entry 92). -/
def dropWay (s : State) (i what : Nat) : State :=
  let x := s.choose 16
  let r := x.1
  let s := x.2
  match what with
  | 0 =>
    let ks := (s.hl i).lines.map Prod.fst
    let sets := (ks.map setOf).eraseDups
    (sets.filterMap fun n => (ks.filter fun k => setOf k == n)[r]?).foldl (fun s k => evictLine s i k) s
  | 1 => s.updAtu i fun a => { a with atc := Tbl.mapV a.atc fun l => dropNth l r }
  | 2 => s.updAtu i fun a => { a with tlb := Tbl.mapV a.tlb fun l => dropNth l (r % 4) }
  | 3 =>
    let f (p : Pos) : Pos :=
      if p.ph == .waiting && p.pos % 16 == r then
        { p with descs := p.descs.map fun d => if d.ph == .ready then { d with ph := .pending, units := [] } else d }
      else p
    { s with qm := s.qm.upd i fun m => { m with ctxs := Tbl.mapV m.ctxs fun q => { q with poss := q.poss.map f } } }
  | 4 => { s with qm := s.qm.upd i fun m => { m with vtCache := m.vtCache.filter fun v => v % 16 != r } }
  | 7 =>
    let gone := ((s.qm.get i).cache.filterMap fun e => e.2[r]?).filter fun q => !(pinnedOf s i).contains q
    let s := gone.foldl (fun s q => ctxBack s i q) s
    { s with qm := s.qm.upd i fun m => { m with cache := Tbl.mapV m.cache fun l => l.filter fun q => !gone.contains q } }
  | _ => s

/-- A table of lists without the element at a position counted through them. -/
def dropAt {α : Type} : Nat → Tbl (List α) → Tbl (List α)
  | _, [] => []
  | n, (k, l) :: r => if n < l.length then (k, dropNth l n) :: r else (k, l) :: dropAt (n - l.length) r

/-- A descriptor translated anew, where it is the one of those ready that has the number `n` of its queues' positions. -/
def unready (n : Nat) (p : Pos) : Pos :=
  if p.ph == .waiting && p.pos = n then
    { p with descs := p.descs.map fun d => if d.ph == .ready then { d with ph := .pending, units := [] } else d }
  else p

/-- One entry of a cache dropped, to be translated or fetched again (R434); which one is not stated: it is free (DESIGN CHOICE, log entry 92). -/
def dropEntry (s : State) (i what : Nat) : State :=
  let pick (n : Nat) (f : State → Nat → State) : State := if n = 0 then s else let x := s.choose n; f x.2 x.1
  match what with
  | 1 => pick ((s.atu.get i).atc.map fun e => e.2.length).sum fun s n => s.updAtu i fun a => { a with atc := dropAt n a.atc }
  | 2 => pick ((s.atu.get i).tlb.map fun e => e.2.length).sum fun s n => s.updAtu i fun a => { a with tlb := dropAt n a.tlb }
  | 3 =>
    let ps := (queuesOf s i).flatMap fun e => (e.2.poss.filter fun p => p.ph == .waiting && p.descs.any fun d => d.ph == .ready).map fun p => (e.1, p.pos)
    pick ps.length fun s n => match ps[n]? with
      | some (q, m) => s.updQ i q fun x => { x with poss := x.poss.map (unready m) }
      | none => s
  | 4 => pick (s.qm.get i).vtCache.length fun s n => { s with qm := s.qm.upd i fun m => { m with vtCache := dropNth m.vtCache n } }
  | _ => s

/-! ### Spares and degraded capacity (R449, R450) -/

/-- FLT.DEGRADED, QM.CC_STATUS and RED.PIPE_STATUS of an instance follow its failed banks; a pipe that becomes offline raises pipe_offline (R190). -/
def showBanks (s : State) (i : Nat) : State :=
  let n (k : Nat) : Nat := (s.flt.banks.filter fun b => b.1 == i && b.2.1 == k).length
  let used := maskOf ((List.range 8).filter fun k => 1 ≤ n k)
  let deg := maskOf ((List.range 8).filter fun k => 2 ≤ n k)
  let pipes := maskOf (s.flt.banks.filterMap fun b => if b.1 == i && b.2.1 == 8 then some b.2.2 else none)
  let s := (s.setFld (fltR 0xC8) (8 * i) 8 used).setFld (fltR 0xC8) (16 + 8 * i) 8 deg
  let s := (s.setFld (qmR i 3 0x40) 16 1 (b2n (1 ≤ n 7))).setFld (qmR i 3 0x40) 17 1 (b2n (2 ≤ n 7))
  let fresh := pipes != (pipes &&& s.fld (redR i 0x44) 16 16)
  let s := s.setFld (redR i 0x44) 16 16 pipes
  if fresh then s.irq ⟨.red, i, 0⟩ 16 else s

/-- The island a structure lies in (R424). -/
def bankIsland (what : Nat) : Nat :=
  match what with
  | 0 => 6 | 1 => 3 | 2 => 3 | 3 => 3 | 4 => 2 | 5 => 4 | 6 => 5 | 7 => 2 | _ => 1

/-- The class of a bank's failure, `n` banks of the structure having failed before it (R449). -/
def bankClass (what n : Nat) : Nat :=
  if n = 0 then 0
  else if what = 6 then 2
  else if n = 1 then 0
  else if what = 2 then 2
  else if 16 - n < 12 then 2 else 1

/-- BANK_FAILURE (R449, R450): the bank is written back where it can be and invalidated; its spare takes its place, or capacity falls.
A reduction pipe (8) goes offline; the last one online is FATAL. The repair map goes to the NV store. -/
def bankFails (s : State) (i what n : Nat) : State :=
  if s.flt.banks.contains (i, what, n) then s
  else
    let before := (s.flt.banks.filter fun b => b.1 == i && b.2.1 == what).length
    let s := dropWay s i what
    let s := showBanks { s with flt := { s.flt with banks := s.flt.banks ++ [(i, what, n)] } } i
    let s := if s.nv.present then nvQueue s (.repair s.flt.banks) else s
    let m : FltSrc := { idx := 16 * i + bankIsland what }
    if what = 8 then
      faultEvent s (16 * i + 1) (if pipesOnline s i then 0 else 2) m (some i)
    else faultEvent s (16 * i + bankIsland what) (bankClass what before) m (some i)

/-- Two lists of banks as one. -/
def banksJoined (a b : List (Nat × Nat × Nat)) : List (Nat × Nat × Nat) := a ++ b.filter fun x => !a.contains x

/-- Whether an instance boots: DBG.BOOT.phase before RUNNING (R493, R501). -/
def booting (s : State) (i : Nat) : Bool :=
  let n := s.fld (reg .dbg i 0 0x44) 0 4
  (s.mir.get i).inst == .resetting && 1 ≤ n && n ≤ 4

/-- BANK_FAILURE (R450): of a working instance, or in the self-test of boot, after the repair map that boot has read (R493, R500). -/
def execBankFailure (i : Inst) (what : Fin 9) (n : Fin 16) (s : State) : Host.Outcome State Fault Refusal :=
  live s fun s =>
    if alive s i.val then bankFails s i.val what.val n.val
    else if booting s i.val then bankFails { s with flt := { s.flt with banks := banksJoined s.nv.repair s.flt.banks } } i.val what.val n.val
    else s

/-- PATROL_SCRUB (R433): a word that needs correction is rewritten and counts as a CE of its island. -/
def execPatrolScrub (i : Inst) (isl : Fin 16) (addr : W64) (fixed : Bool) (s : State) : Host.Outcome State Fault Refusal :=
  live s fun s =>
    let src := 16 * i.val + isl.val
    if alive s i.val && fixed then faultEvent s src 0 { idx := src, access := 3, addr := addr.toNat } none else s

/-! ### Ports that fail -/

/-- The IDE keys of a port are erased (R472): SEC.ide_change of both instances. -/
def eraseKeys (s : State) (p : Nat) : State :=
  if s.trust.ide.any fun e => e.1 / 16 == p then
    let s := { s with trust := { s.trust with ide := s.trust.ide.filter fun e => e.1 / 16 != p } }
    bothInst s fun s i => s.irq ⟨.sec, i, 0⟩ 16
  else s

/-- A port leaves UP for a state of its link (R84, R86). `un` are the newest messages without an Ack. -/
def portFalls (s : State) (p un : Nat) (l : LinkSt) : State :=
  let x := s.port p
  let cached := cachePort s (groupOf s p) == some p
  let s := eraseKeys (setLink s p l) p
  if !(x.link == .up || x.link == .retrain) then s
  else if x.configOnly then portGone s p
  else portDown s p un cached

/-- A port's link goes down (R82, R84). -/
def portLinkDown (s : State) (p un : Nat) : State :=
  let l := (s.port p).link
  if l == .up || l == .retrain || l == .flr then
    (linkEvent (portFalls s p un .down) p 3 16).satFld (hpcR p 0x48) 16 8 1
  else s

/-- A port is taken down by an error inside its HPC, or by its lost clock (R41, R426): as many of its newest messages as have no Ack are free,
since neither rule states them (DESIGN CHOICE, log entry 154). -/
def portFails (s : State) (p : Nat) : State :=
  let x := s.choose 257
  portLinkDown x.2 p x.1

/-! ### Events -/

/-- A self-test ends: FLT.BIST_STATUS and bist_done. -/
def bistEnd (s : State) (result skipped : Nat) : State :=
  ({ s with flt := { s.flt with bist := none } }.setR (fltR 0xC4) (fields [(8, result), (16, skipped)])).irq fltPage 18

/-- An MIR.CMD command ends with a result (R455); one that no write began shows nothing. -/
def mirEnd (s : State) (i result : Nat) : State :=
  if s.fld (reg .mir i 0 0x48) 0 1 = 1 then (s.setR (reg .mir i 0 0x48) (result * 256)).irq ⟨.mir, i, 0⟩ 18 else s

/-- A pair's states set. -/
def setPair (s : State) (i : Nat) (p : PairSt) : State := { s with mir := s.mir.upd i fun m => { m with pair := p } }

/-- A REJOIN on understudy `u` ends without its switch: nothing moves, and what ran it ends too. -/
def rejoinFails (s : State) (u result : Nat) : State :=
  let f := partner u
  let s := setPair (setPair s u .serving) f .standby
  let s := { s with mir := (s.mir.upd u fun m => { m with rejoin := false }).upd f fun m => { m with handover := false } }
  let s := if (s.fw.upd.map Prod.snd) = some 2 then updEnd s 0x10 else s
  let s := if s.flt.bist == some (f, 2) then bistEnd s 2 0 else s
  mirEnd s u result

/-- The mirror link is lost (R448): both instances of the pair enter LINK_LOST, report a CE and raise link_lost. A REJOIN that it
interrupts ends as on a timeout. -/
def mirrorLost (s : State) : State :=
  let p (i : Nat) : PairSt := (s.mir.get i).pair
  let on (x : PairSt) : Bool := x == .syncing || x == .prot
  if on (p 0) && on (p 1) then
    let s := match [0, 1].find? fun u => (s.mir.get u).rejoin with
      | some u => rejoinFails s u 0x17
      | none => setPair (setPair s 0 .linkLost) 1 .linkLost
    let s := bothInst s fun s i => { s with mir := s.mir.upd i fun m => { m with linkUp := false } }
    bothInst s fun s i => (faultEvent s (16 * i + 7) 0 { idx := 16 * i + 7, access := 7 } none).irq ⟨.mir, i, 0⟩ 17
  else s

/-- An uncorrectable error in a channel's data path (R434): the channel halts with POISON; a job that runs there is what the UCE-C is contained
to (R432) (DEDUCED, log entry 183). -/
def dataPathError (s : State) (i c : Nat) : State :=
  let cid := chanId i (c % 256)
  let s' := haltChan s cid 3 0 0 0
  match (s.chan cid).queue with
  | some q => if (s.chan cid).st == .running || (s.chan cid).st == .pausing || (s.chan cid).st == .paused then
      contained s' i 0 2 (hubQ (s.chan cid).home q) else s'
  | none => s'

/-- What an uncorrectable error does to the structure it touched (R434). -/
def hitAct (s : State) (src cls : Nat) (h : Hit) : State :=
  let i := src / 16 % 2
  let dp (c : Nat) : State := dataPathError s i c
  match h with
  | .none | .cpSram | .control | .sensor => s
  | .ctx q _ => if cls = 1 then contained (haltQueue s i q 5) i 1 5 (hubQ i q) else s
  | .cached what => dropEntry s i what
  | .hlc k _ =>
    match s.line? i k with
    | none => s
    | some l =>
      let s := newPoison (putLine s i k { l with poison := true }) i k 4
      if l.st == .m then (s.bump (hlcR i 0x88) 1).irq (hlcPage i) 17 else s
  | .chan c => dp c
  | .pipe p c =>
    let s := dp c
    let k := 16 * i + p % 16
    let again := match Tbl.find s.flt.pipeAt k with
      | some t => decide (s.time i - t ≤ 1000000000)
      | none => false
    let s := { s with flt := { s.flt with pipeAt := Tbl.put s.flt.pipeAt k (s.time i) } }
    if again then bankFails s i 8 (p % 16) else s
  | .mirror => mirrorLost s
  | .table kind id => contained s i (kind % 4) 0 id

/-- The response of a source to its own event (R426), reported with class `was`. -/
def srcAct (s : State) (src was cls : Nat) (h : Hit) : State :=
  if src < 32 then (if was = 0 then s else hitAct s src cls h)
  else if src < 36 then (if cls = 1 then portFails s (src - 32) else s)
  else if 40 ≤ src && src < 52 then
    if cls = 1 then
      (match (s.site (src - 40)).st with
       | .absent | .down | .training => s
       | _ => settleDestroy (stationFailed s (src - 40)))
    else s
  else if src = 53 then (match h with | .sensor => sensorFails s | _ => s)
  else if src = 54 && cls = 1 then { s with trust := { s.trust with lost := true } }
  else s

/-- An error report as FLT.FIRST_MASTER and its fellows take it (R428). -/
def reportOf (r : ErrReport) : FltSrc :=
  { kind := r.kind.val, idx := r.idx.toNat, access := r.access.val, addr := r.addr.toNat, detail := r.detail.toNat }

/-- An event of a source with its report (R424-R434): what the structure does first, for a CE or a contained error; then the event. -/
def errorEvent (s : State) (src cls : Nat) (m : FltSrc) (h : Hit) : State :=
  let c := eventClass s src cls h
  let s := faultEvent s src c m (srcInst src)
  if src < 32 && !alive s (src / 16) then s else srcAct s src cls c h

/-- An event of LIVENESS with the island's own bit (R424) (DEDUCED, log entry 93). -/
def livenessEvent (s : State) (src cls : Nat) (inst : Option Nat) : State :=
  let s := if cls = 2 then s.orR (fltR 0x50) (2 ^ src) else if cls = 1 then s.orR (fltR 0x48) (2 ^ src) else s
  (faultEvent s 59 cls { idx := src } inst).orR (fltR 0x40) (2 ^ src)

/-- Whether an island is shared by the instances (R37): an STP island, or one beside the instances' islands. -/
def sharedIsland (k : Nat) : Bool := 32 ≤ k || (8 ≤ k % 16 && k % 16 ≤ 13)

/-- Whether an island is held in reset or unpowered (R37): one of an instance while that is in instance reset or disabled by strap, an HPC
while its PERST is asserted, any but AON and SBD while warm reset is held. -/
def islandHeld (s : State) (k : Nat) : Bool :=
  s.por || (s.warm && k != 37 && k != 39) ||
  (32 ≤ k && k < 36 && (s.port (k - 32)).perst) ||
  (!sharedIsland k && ((s.mir.get (k / 16)).resetRun || (s.mir.get (k / 16)).inst == .disabled))

/-- Whether AON monitors an island's clock (R41, R424): every one but XBAR, AON and SBD. -/
def monitored (k : Nat) : Bool := k != 36 && k != 37 && k != 39

/-- CLOCK_LOST (R41). -/
def clockLost (s : State) (k : Nat) : State :=
  if !monitored k || islandHeld s k || s.flt.cond.contains k then s
  else
    let s := { s with flt := { s.flt with cond := k :: s.flt.cond } }
    if k < 32 then
      if 8 ≤ k % 16 && k % 16 ≤ 13 then siteDown (livenessEvent s k 1 none) (6 * (k / 16) + (k % 16 - 8))
      else livenessEvent s k 2 (some (k / 16))
    else if k < 36 then portFails (livenessEvent s k 1 none) (k - 32)
    else (livenessEvent s k 0 none).updLev fun l => { l with pmiLost := true }

/-- CLOCK_RETURN (R41, R402): the condition of the island's bit ends; PMI's readings count again. -/
def execClockReturn (k : Island) (s : State) : Host.Outcome State Fault Refusal :=
  aon s fun s =>
    let s := { s with flt := { s.flt with cond := s.flt.cond.filter (· != k.val) } }
    if k.val = 38 then s.updLev fun l => { l with pmiLost := false } else s

/-- HEARTBEAT_LOSS (R439): FATAL for the instance, on LIVENESS and the bit of QM or SCH. -/
def execHeartbeatLoss (i : Inst) (sch : Bool) (s : State) : Host.Outcome State Fault Refusal :=
  live s fun s => if alive s i.val then livenessEvent s (16 * i.val + if sch then 4 else 2) 2 (some i.val) else s

/-! ### The FLT page's commands -/

/-- Whether an acknowledgement names the open incident (R430). -/
def ackFits (s : State) (v : Nat) : Bool := s.fld (fltR 0x6C) 16 1 = 1 && s.fld (fltR 0x6C) 0 16 = bits v 0 16

/-- FLT_ACK (R430): the number of the open incident stops the grace timer. -/
def fltAck (s : State) (v : Nat) : State :=
  if ackFits s v then
    { s.setFld (fltR 0x6C) 19 1 1 with flt := { s.flt with grace := false } }
  else s

/-- FLT_ACK (R430). -/
def execFltAck (_ : Acc) (v : W32) (s : State) : Host.Outcome State Fault Refusal := live s fun s => dropIf (!ackFits s v.toNat) s (fltAck (clearLatches s fltPage) v.toNat)

/-- Sources whose condition still holds (R17, R431). -/
def condBits (s : State) : Nat :=
  maskOf s.flt.cond ||| (if s.flt.cond.isEmpty then 0 else 2 ^ 59) ||| (if s.thermTrip then 2 ^ 52 else 0) ||| (if s.lev.sensorBad then 2 ^ 53 else 0)

/-- A W1C write of FLT.WORD (R431): bits whose condition holds stay; the others go with those of FLT.UCE and FLT.FATAL. The
incident closes once the word is 0 (R427) (DEDUCED, log entry 89). -/
def wordClear (s : State) (v : Nat) : State :=
  let m := v - (v &&& condBits s)
  let clr (s : State) (off : Nat) : State := let x := s.r (fltR off); s.setR (fltR off) (x - (x &&& m))
  let s := clr (clr (clr s 0x40) 0x48) 0x50
  let s := if bitAt m 54 then { s with trust := { s.trust with lost := false } } else s
  if s.r (fltR 0x40) = 0 then { s.setFld (fltR 0x6C) 16 1 0 with flt := { s.flt with grace := false } } else s

/-- FLT_WORD_CLEAR (R431). -/
def execFltWordClear (_ : Acc) (v : W64) (s : State) : Host.Outcome State Fault Refusal :=
  live s fun s => wordClear (clearLatches s fltPage) v.toNat

/-- FLT.IRQ_CTL.rearm (R429): the interrupt again while an incident is open. -/
def fltRearm (s : State) : State := if s.fld (fltR 0x6C) 16 1 = 1 then faultIrq s else s

/-- FLT_IRQ_REARM (R429). -/
def execFltIrqRearm (_ : Acc) (s : State) : Host.Outcome State Fault Refusal := live s fun s => fltRearm (clearLatches s fltPage)

/-- FLT.CF_POP (R432): the oldest entry goes; overflow is cleared once the log is empty (DEDUCED, log entry 88). -/
def cfPop (s : State) : State :=
  { s with flt := { s.flt with cf := s.flt.cf.drop 1, cfOver := s.flt.cfOver && 2 ≤ s.flt.cf.length } }

/-- CF_POP (R432). -/
def execCfPop (_ : Acc) (s : State) : Host.Outcome State Fault Refusal := live s fun s => cfPop (clearLatches s fltPage)

/-- FLT.INJECT (R452): an event with FIRST_DETAIL bit 31 set in MANUFACTURE; anywhere else inject_refused. Class 3 is no class (DEDUCED, log entry 90). -/
def fltInject (s : State) (v : Nat) : State :=
  if s.fw.lifecycle != 0 then s.perr fltPage 16
  else if bits v 8 2 = 3 then s
  else
    let src := bits v 0 6
    errorEvent s src (bits v 8 2) { idx := if src < 40 then src else 0, detail := 2 ^ 31 + (bits v 0 31 - (bits v 0 31 &&& 0x33F)) } .none

/-! ### The self-test (R451) -/

/-- A write of FLT.BIST_CMD: refused while busy (R454). -/
def bistCmd (s : State) (i op : Nat) (ok : Bool) (f : State → State) : State :=
  let s := if s.flt.bist.isSome then { s with rlatch := Tbl.del s.rlatch fltPage.key } else clearLatches s fltPage
  if s.flt.bist.isSome then s.perr fltPage 17
  else if !ok then bistEnd s 0x10 0
  else f ({ s with flt := { s.flt with bist := some (i, op) } }.setR (fltR 0xC4) 1)

/-- SWEEP (R451): during service (DEDUCED, log entry 96). -/
def sweep (s : State) (i : Nat) : State := bistCmd s i 1 (alive s i) id

/-- SWEEP (R451). -/
def execSweep (_ : Acc) (i : Inst) (s : State) : Host.Outcome State Fault Refusal := live s fun s => sweep s i.val

/-- SWEEP_DONE (R451): every structure of the instance whose spare is in use was skipped and is counted. -/
def execSweepDone (passed : Bool) (s : State) : Host.Outcome State Fault Refusal :=
  live s fun s => match s.flt.bist with
    | some (i, 1) => bistEnd s (if passed then 1 else 2) (onesOf (s.fld (fltR 0xC8) (8 * i) 8) 8).length
    | _ => s

end Sys2Proof.Machine
end

