-- ==== Sys2Proof/Machine/Pair.lean ====
section
/-! DEFINITION. The mirror pair (R435-R448): synchronisation, takeover and planned switches (R440-R443, R447), instance resets (R445, R446,
R492), the escalation of an incident (R430). -/
namespace Sys2Proof.Machine

/-- The MIR page. -/
def mirPage (i : Nat) : PageId := ⟨.mir, i, 0⟩

/-- MIR page registers. -/
def mirR (i off : Nat) : Nat := reg .mir i 0 off

/-- DBG page registers. -/
def dbgR (i off : Nat) : Nat := reg .dbg i 0 off

/-- The state with the pair side of an instance changed. -/
def State.updMir (s : State) (i : Nat) (f : MirSt → MirSt) : State := { s with mir := s.mir.upd i f }

/-- Whether the straps make the instances a mirror pair (R435, R485). -/
def pairMode (s : State) : Bool := s.fld (dbgR 0 0x40) 8 1 = 1 && s.fld (dbgR 0 0x40) 12 2 = 3

/-! ### Registers of an instance that resets (R441, R492) -/

/-- The pages of some types of an instance at their reset values, but for fields that survive (ST). -/
def clearPages (s : State) (i : Nat) (ts : List Pg) : State :=
  let mine (k : Nat) : Bool := match pageOfKey k with
    | some p => p.inst == i && !p.ty.shared && p.ty != .vd && ts.contains p.ty
    | none => false
  let keep (e : Nat × W64) : Option (Nat × W64) :=
    if mine e.1 then
      let m := stMaskOf e.1
      let v := (e.2.toNat &&& m) + (resetOf e.1 - (resetOf e.1 &&& m))
      if v = resetOf e.1 then none else some (e.1, BitVec.ofNat 64 v)
    else some e
  { s with regs := s.regs.filterMap keep, rlatch := s.rlatch.filter fun e => !mine e.1, wlatch := s.wlatch.filter fun e => !mine e.1 }

/-- The pages that no one serves while an understudy serves the instance (R441). -/
def ownPages : List Pg := [.dma, .red, .mir, .cpi, .sec, .tsu, .dbg]

/-- Those pages of an instance that enters reset: straps stay shown, the cause of the reset is recorded (R501). -/
def resetOwnPages (s : State) (i : Nat) : State :=
  let straps := s.r (dbgR i 0x40)
  let busy := s.fld (cpiR i 0x64) 0 1
  let s := clearPages s i ownPages
  let s := (s.setR (dbgR i 0x40) straps).setR (dbgR i 0x48) (s.mir.get i).why
  showBanks (s.setR (cpiR i 0x64) busy) i

/-! ### Commits (R68, R72) -/

/-- The page of a log entry, its register and the value that the register would take. -/
def entryAt (s : State) (e : TxnEntry) : Option (PageId × Nat × Nat) :=
  (pageOfKey e.key).map fun p => (p, e.key - p.key, s.r e.key - (s.r e.key &&& e.mask) + e.val)

/-- The leaves of a partition among those that the walks of a commit found. -/
def leavesOf (peer : List (Part × Leaf)) (part : Nat) : List Leaf := (peer.filter fun e => e.1.val == part).map Prod.snd

/-- One entry applied: the effect of a direct write of its fields. -/
def applyEntry (peer : List (Part × Leaf)) (s : State) (e : TxnEntry) : State :=
  match entryAt s e with
  | none => s
  | some (p, off, v) =>
    match p.ty with
    | .dma =>
      if off = 0x08 then setEnable s (chanId p.inst p.idx) (bitAt v 0)
      else if off = 0x40 then setChanCfg s (chanId p.inst p.idx) v else s.setMask e.key e.mask e.val
    | .atu =>
      if p.idx = 1 && 0x800 ≤ off then setWin s p.inst ((off - 0x800) / 0x80) ((off - 0x800) / 8 % 16) v
      else if p.idx = 2 && 0x400 ≤ off then setPeer s p.inst ((off - 0x400) / 0x40) ((off - 0x400) / 8 % 8) v
      else if p.idx = 2 && 0x100 ≤ off then setPeerIn s p.inst ((off - 0x100) / 4) v (leavesOf peer ((off - 0x100) / 4))
      else s.setMask e.key e.mask e.val
    | .sch => if p.idx = 0 && off = 0xC0 then setWave s p.inst v else s.setMask e.key e.mask e.val
    | _ => s.setMask e.key e.mask e.val

/-- The registers of a commit as they were before it: it is undone where the partner does not hold it (R72). -/
def commitUndone (s : State) (i tag : Nat) : State :=
  (slotOf s i tag).log.foldl (fun s e => applyEntry [] s { e with val := e.base }) s

/-- The transactions of an instance whose partner takes over (R72): a commit that the partner does not hold is undone; every slot in use whose
commit it does not hold ends with INSTANCE_RESET, as only commits are mirrored (DEDUCED, log entry 153). -/
def txnsTaken (s : State) (f : Nat) : State :=
  let slots := (s.txn.get f).slots
  let s := (slots.filter fun e => e.2.applied).foldl (fun s e => commitUndone s f e.1) s
  (slots.filter fun e => e.2.st != .free && !(e.2.st == .done && e.2.result = 1)).foldl (fun s e => txnLost s f e.1) s

/-! ### What a switch does to the work of an instance (R442) -/

/-- Ports with host writes to be flushed, as the flushing reads of another instance count them. -/
def rebase (s : State) (u : Nat) (l : List (Nat × Nat)) : List (Nat × Nat) := l.map fun e => (e.1, (s.pool u).flushId)

/-- Whether a started position is one that QM runs itself (R131): EVENT_WAIT or EVENT_SIGNAL. -/
def Pos.byQm (p : Pos) : Bool := match p.descs.head? with
  | some d => !chainOf d.raw && (opcodeOf d.raw = 0xE || opcodeOf d.raw = 0xF)
  | none => false

/-- A position as its new instance takes it up (R442): fetched and translated anew unless its job ended or runs on a station; one that QM runs
itself is run again. -/
def Pos.taken (s : State) (u : Nat) (ahead : Bool) (p : Pos) : Pos :=
  let anew : Pos := { p with ph := .waiting, fet := if ahead && p.fet == .parked then .parked else .due, descs := [], chan := none, port := none, ports := [] }
  match p.ph with
  | .waiting => { anew with nonIdem := false }
  | .started =>
    if p.chan.isSome then (if p.nonIdem then { p with chan := none } else { anew with reissue := true })
    else if p.byQm then { anew with reissue := true } else { p with ports := rebase s u p.ports }
  | .ended => { p with recs := p.recs.map fun r => { r with reissued := true }, held := false, ports := rebase s u p.ports }

/-- A completion record's bytes with reissued = 1 (R117). -/
def reissuedBytes (bs : List Byte) : List Byte := bs.take 11 ++ ((bs.drop 11).take 1).map (· ||| 2) ++ bs.drop 12

/-- A record written and not marked delivered goes out again from `u` (R442); addressed to an ABSENT group it goes to the journal. -/
def reissueRec (s : State) (h u q : Nat) (w : WUse) (port : Option Nat) : State :=
  let bs := reissuedBytes w.bytes
  let g := (s.q h q).ctx.group
  if w.port.isSome && absent s g then
    jrnlAppend s h q { typ := 1, group := g, seq := 0, time := 0, queue := hubQ h q, iova := w.addr, payload := bs }
  else
    let slot := freeQmSlot s u
    let own := if w.port.isSome then (if port.isSome then port else w.port) else none
    let s := s.updPool u fun x => { x with writes := Tbl.put x.writes slot { w with port := own, bytes := bs } }
    let s := s.updQ h q fun x => { x with recFly := x.recFly ++ [(slot, own.getD 0)], recPort := if own.isSome then own else x.recPort }
    s.emit (match own with
      | some n => .hostWrite u n slot w.taddr bs (strictAttr s n)
      | none => .nocWrite u none slot w.taddr 2 (s.q h q).ctx.ctxTag 0 bs)

/-- A queue of home instance `h` taken up by `u` from `f` (R442, R207). -/
def queueTaken (s : State) (h f u q : Nat) : State :=
  let x := s.q h q
  let lost := x.poss.filter fun p => p.ph == .started && p.chan.isSome && p.nonIdem
  let recs := x.recFly.filterMap fun e => Tbl.find (s.pool f).writes e.1
  let ps := x.poss.map (Pos.taken s u x.conds.ahead)
  let un := rebase s u x.unflushed
  let s := s.updQ h q fun x => { x with poss := ps, ring := none, cq := none, ringRead := none, evt := none, unflushed := un, recFly := [] }
  let port := pickPort s x.ctx.group u
  let s := recs.foldl (fun s w => reissueRec s h u q w port) s
  lost.foldl (fun s p => contained (endPos s h q p.pos 5 0 true) u 1 5 (hubQ h q)) s

/-- The on-die state of home instance `h` that no partner holds, dropped at a switch (R213, R231, R436): caches, walks, requests;
page requests are quarantined, invalidations accepted anew, holds stay; an ENABLE that waits for its rings, and the context reads in flight, are
made again (R104, R115). -/
def dropOnDie (s : State) (h : Nat) : State :=
  let es := (s.atu.get h).misses.filterMap fun m => match m.who with | .enable q => some q | _ => none
  let s := s.updAtu h fun a =>
    { a with tlb := [], atc := [], misses := [], walks := [], treqs := [], invs := [], invWait := a.invs.map (fun v => (v.src, v.scope)) ++ a.invWait }
  let s := s.updPrq h fun p =>
    { p with groups := (p.groups.filter fun e => e.2.port.isSome).map fun e => (e.1, { e.2 with quarantined := true, lost := true }) }
  let s := { s with acc := s.acc.upd h fun a => { a with sets := [], released := [], holds := Tbl.mapV a.holds fun x => { x with waiters := [] } },
                    qm := s.qm.upd h fun m => { m with cache := [], vtCache := [] } }
  let s := (s.qm.get h).missFly.foldl (fun s q => fillRead s h q) (showEntries s h)
  es.foldl (fun s q => enableRun s h q) s

/-- Station requests in flight in an instance (R442): waiting for a translation, of its host-line cache and its plain requests, as (site, slot, tag, kind), kind 0 a
read, 1 an atomic, 2 a write. -/
def stationReqs (s : State) (i : Nat) : List (Nat × Nat × Nat × Nat) :=
  let h := s.hl i
  let ofReq (r : HlcReq) : Option (Nat × Nat × Nat × Nat) := match r.src with
    | .station k slot tag => some (k, slot, tag, match r.kind with | .atomic _ _ _ _ => 1 | .write => 2 | _ => 0)
    | _ => none
  let ofWork (w : HWork) : Option (Nat × Nat × Nat × Nat) := match w with
    | .access r => ofReq r
    | _ => none
  (h.stWait.map fun q => (q.site, q.slot, q.tag, match q.kind with | .atomic _ _ _ _ => 1 | .write => 2 | _ => 0)) ++ h.queue.filterMap ofReq ++ (h.txns.filterMap fun t => ofWork t.work) ++ (h.wait.filterMap fun e => ofWork e.2) ++
  ((s.pool i).reads.filterMap fun e => match e.2.owner with
    | .station k slot tag at_ => some (k, slot, tag, b2n at_)
    | _ => none) ++
  ((s.pool i).writes.filterMap fun e => match e.2.owner with
    | .station k slot tag => some (k, slot, tag, 2)
    | _ => none)

/-- The hub answers such a request with an error (R442, R306): POISON, or HOST_ATOMIC_ERROR for an atomic; after a lost write HOST_FLUSHED
carries op 1. -/
def stationReqFails (s : State) (r : Nat × Nat × Nat × Nat) : State :=
  let s := s.emit (.stationErr r.1 r.2.2.1 (if r.2.2.2 = 1 then 8 else 5))
  if r.2.2.2 = 2 then
    match cmdAt s r.1 r.2.1 with
    | some (h, j, _) => s.updCmd h j fun c => { c with lost := true }
    | none => s
  else s

/-! ### Sites and lines (R30, R278, R443) -/

/-- A site is to move to instance `u` (R440, R447): at once where nothing waits on the command path, else once that has left (R30). -/
def siteTaken (s : State) (u k : Nat) : State :=
  if (s.site k).txq.isEmpty then siteMoves s u k else s.updSite k fun x => { x with taking := some u }

/-- The commands of home instance `h` know their host writes by the flushing reads of `u`. -/
def cmdsRebased (s : State) (h u : Nat) : State :=
  let id := (s.pool u).flushId
  s.updSch h fun x => { x with cmds := Tbl.mapV x.cmds fun c => { c with wports := c.wports.map fun e => (e.1, id) } }

/-- Coherent groups move from the host-line cache of `f` to that of `u` (R278): their coh_en bits, the tags of their lines; dead sites
stay dead. -/
def linesTaken (s : State) (f u : Nat) (gs ks : List Nat) : State :=
  let mine (k : Nat) : Bool := gs.contains (keyGroup k)
  let tags := ((s.hl f).lines.filter fun e => mine e.1).map (fun e => (e.1, e.2.st)) ++ (s.hl f).ptags.filter fun e => mine e.1
  let s := s.updHlc f fun h => { h with lines := h.lines.filter fun e => !mine e.1, ptags := h.ptags.filter fun e => !mine e.1 }
  let s := s.updHlc u fun h => { h with ptags := tags.foldl (fun t e => Tbl.put t e.1 e.2) h.ptags }
  let g := maskOf gs
  let dead := s.r (hlcR f 0x5C) &&& maskOf ks
  let s := ((s.setMask (hlcR f 0x40) g 0).orR (hlcR u 0x40) g).setMask (hlcR f 0x5C) dead 0
  s.orR (hlcR u 0x5C) dead

/-! ### Takeover and switch (R440, R447) -/

/-- The channel engine, caches and TSU of an instance at reset (R37). -/
def enginesReset (s : State) (i : Nat) : State :=
  let id := (s.pool i).flushId
  { s with chans := s.chans.filter fun e => e.1 / 256 != i, pools := s.pools.set i { flushId := id }, red := s.red.set i {},
           hlc := s.hlc.set i { tag := (s.hl i).tag, clock := (s.hl i).clock }, cp := s.cp.set i {}, tsu := s.tsu.set i 0 }

/-- Slice timers of home instance `h` at a takeover (R345): each starts anew with a full slice. -/
def slicesAnew (s : State) (h : Nat) : State :=
  s.updSch h fun x => { x with cmds := Tbl.mapV x.cmds fun c =>
    if c.st == .loaded || c.st == .running || c.st == .committing then { c with slice := max 1 (s.fld (schR h 0 (0x80 + 4 * c.part)) 0 16), stretch := none } else c }

/-- A VD command in progress as its instance fails (R389) ends INSTANCE_RESET. -/
def vdCut (s : State) (i : Nat) : State := if s.fld (vdmR i 0x48) 0 1 = 1 then vdEnd s i 0x19 false else s

/-- What a command that an instance reset interrupts becomes: an ACTIVATE that did not call for the reset ends INSTANCE_RESET (R465), a
self-test of the instance has failed. -/
def resetCuts (s : State) (i : Nat) : State :=
  if (s.mir.get i).why != 3 then s
  else
    let s := if (s.fw.upd.map Prod.snd) = some 2 then updEnd s 0x19 else s
    match s.flt.bist with
    | some (k, _) => if k = i then bistEnd s 2 0 else s
    | none => s

/-- Steps 2-8 of R440: `f` is fenced, `u` applies what it holds and takes up the work of `f` (DESIGN CHOICE, log entry 98). -/
def takeOver (s : State) (f : Nat) : State :=
  let u := partner f
  let why := (s.mir.get f).why
  let failedAt := (s.mir.get f).failTime
  let rs := (s.mir.get f).wait.filter fun r => match r with | .txn _ => false | _ => true
  let s := txnsTaken (rs.foldl (applyReport f) s) f
  let s := fence s f
  let ks := (List.range 12).filter fun k => owner s k == f
  let gs := onesOf (s.r (hlcR f 0x40)) 4
  let s := s.updMir f fun m => { m with pair := .off, takenOver := true, failed := false, resetRun := true, sitesAt := ks, cohAt := gs }
  let s := s.updMir u fun m => { m with pair := .serving, inst := .serving }
  let reqs := stationReqs s f
  let s := (queuesOf s f).foldl (fun s e => queueTaken s f f u e.1) s
  let s := slicesAnew (vdCut (cmdsRebased (reqs.foldl stationReqFails (dropOnDie s f)) f u) f) f
  let s := linesTaken s f u gs ks
  let flushing := (s.hl f).flush.isSome
  let s := resetCuts (resetOwnPages (enginesReset s f) f) f
  let s := if flushing then (s.setR (hlcR f 0x50) 0x100).irq (hlcPage f) 18 else s
  let s := ks.foldl (fun s k => siteTaken s u k) s
  let s := match s.copy with
    | some c => { s with copy := some { group := c.group } }
    | none => s
  let now := s.tsu.get u
  let t := if why = 3 then failedAt else now
  let s := ((s.setR (mirR u 0x58) now).setR (mirR u 0x60) (min ((now - t) / 10) 65535)).irq (mirPage u) 16
  cpLine s u 3

/-- Whether a line must be cleaned before its group moves (R277). -/
def Line.unclean (l : Line) : Bool := l.st == .m || l.owner.isSome

/-- Whether a planned switch of the work of home instance `h`, carried by `f`, with the sites `ks` has nothing in flight (R447): no DMA job,
no record not delivered, no host request of these sites; the SNP_INV_ALL on their ring over, and no dirty line in its coherent groups
(R277) (DEDUCED, log entry 95). -/
def switchReady (s : State) (h f : Nat) (ks gs : List Nat) : Bool :=
  (queuesOf s h).all (fun e => e.2.recFly.isEmpty && e.2.poss.all fun p => !(p.ph == .started && p.chan.isSome)) &&
  ((stationReqs s f).all fun r => !ks.contains r.1) && ((s.mir.get f).swept || ((ringSites s f).filter fun k => ks.contains k).isEmpty) &&
  ((s.hl f).lines.all fun e => !gs.contains (keyGroup e.1) || !e.2.unclean)

/-- What comes before a planned switch (R277): a CLEAN of the next coherent group that needs one, then SNP_INV_ALL on the ring. -/
def switchClean (s : State) (f : Nat) (ks gs : List Nat) : State :=
  let sites := (ringSites s f).filter fun k => ks.contains k
  match (s.hl f).flush with
  | some _ => s
  | none =>
    match (s.hl f).lines.find? fun e => gs.contains (keyGroup e.1) && e.2.unclean with
    | some e => hlcFlush s f 1 (keyGroup e.1)
    | none =>
      if (s.mir.get f).swept || ((s.hl f).all ++ (s.hl f).due).any fun r => r.op == 5 then s
      else ringAll s f { op := 5, tag := 0, sites }

/-- TAKEOVER (R440, R447) of instance `f`: it has failed in a PROTECTED pair; or it hands over, and nothing is in flight any more. -/
def takeover (s : State) (f : Nat) : State :=
  let m := s.mir.get f
  let ks := (List.range 12).filter fun k => owner s k == f
  let gs := onesOf (s.r (hlcR f 0x40)) 4
  if !protected_ s f || !alive s f then s
  else if m.failed then takeOver s f
  else if m.handover then (if switchReady s f f ks gs then takeOver s f else switchClean s f ks gs)
  else s

/-- HANDOVER begins (R447): no position starts any more. -/
def handoverBegin (s : State) (i why : Nat) : State := s.updMir i fun m => { m with handover := true, why, failTime := s.tsu.get (partner i), swept := false }

/-- Whether an instance may hand over: in a PROTECTED pair in which no switch runs. -/
def handoverOk (s : State) (i : Nat) : Bool :=
  alive s i && protected_ s i && !(s.mir.get i).handover && !(s.mir.get (partner i)).handover && !(s.mir.get i).failed

/-- A write of MIR.CMD on the page of a working instance: refused while busy (R455). -/
def mirCmd (s : State) (i : Inst) (a : Acc) (c : Instr) (f : State → State) : Host.Outcome State Fault Refusal :=
  cmdD s i a (mirPage i.val) c (fun s => !alive s i.val || s.fld (mirR i.val 0x48) 0 1 = 1) fun s =>
    if !alive s i.val then s
    else if s.fld (mirR i.val 0x48) 0 1 = 1 then s.perr (mirPage i.val) 16
    else f (s.setR (mirR i.val 0x48) 1)

/-- MIR.CMD HANDOVER. -/
def mirHandover (s : State) (i : Nat) : State := if handoverOk s i then handoverBegin s i 4 else mirEnd s i 0x10

/-- HANDOVER (R447). -/
def execHandover (i : Inst) (a : Acc) (s : State) : Host.Outcome State Fault Refusal := mirCmd s i a (.handover i a) fun s => mirHandover s i.val

/-- HANDOVER_TIMEOUT (R447): started jobs have not ended in 10 ms; nothing moves. A REJOIN's switch ends likewise. -/
def handoverTimeout (s : State) (i : Nat) : State :=
  if !(s.mir.get i).handover then s
  else if (s.mir.get (partner i)).rejoin then rejoinFails s (partner i) 0x17
  else
    let s := s.updMir i fun m => { m with handover := false }
    let s := if (s.mir.get i).why = 5 then bistEnd s 2 0 else s
    let s := if (s.mir.get i).why = 4 && (s.fw.upd.map Prod.snd) = some 2 then updEnd s 0x10 else s
    mirEnd s i 0x17

/-- HANDOVER_TIMEOUT (R447). -/
def execHandoverTimeout (i : Inst) (s : State) : Host.Outcome State Fault Refusal := live s fun s => handoverTimeout s i.val

/-! ### FULL self-test (R451) -/

/-- FLT.BIST_CMD op FULL: the instance hands over. -/
def fullTest (s : State) (i : Nat) : State := bistCmd s i 2 (handoverOk s i) fun s => handoverBegin s i 5

/-- FULL (R451). -/
def execFull (_ : Acc) (i : Inst) (s : State) : Host.Outcome State Fault Refusal := live s fun s => fullTest s i.val

/-! ### REJOIN (R447, R435) -/

/-- REJOIN on an understudy: the pair copies its state in SYNCING. -/
def rejoinBegin (s : State) (u : Nat) : State :=
  (setPair (setPair s u .syncing) (partner u) .syncing).updMir u fun m => { m with rejoin := true, swept := false }

/-- Whether an understudy may start REJOIN: its partner waits in STANDBY. -/
def rejoinOk (s : State) (u : Nat) : Bool :=
  (s.mir.get u).inst == .serving && (s.mir.get u).pair == .serving && (s.mir.get (partner u)).pair == .standby

/-- MIR.CMD REJOIN. -/
def mirRejoin (s : State) (u : Nat) : State := if rejoinOk s u then rejoinBegin s u else mirEnd s u 0x10

/-- REJOIN (R447). -/
def execRejoin (i : Inst) (a : Acc) (s : State) : Host.Outcome State Fault Refusal := mirCmd s i a (.rejoin i a) fun s => mirRejoin s i.val

/-- What runs on once an instance has its work back: a FULL test has passed; ACTIVATE turns to IGX0, then to the ACTIVE record (R451,
R464). -/
def afterReturn (s : State) (f : Nat) : State :=
  let s := if s.flt.bist == some (f, 2) then bistEnd s 1 0 else s
  if (s.fw.upd.map Prod.snd) = some 2 then
    if f = 1 && s.fw.phase = 1 then (if handoverOk s 0 then handoverBegin (s.updFw fun w => { w with phase := 2 }) 0 4 else updEnd s 0x10)
    else if f = 0 && s.fw.phase = 2 then nvQueue (s.updFw fun w => { w with phase := 3 }) (.active (otherSlot s))
    else s
  else s

/-- The sites that go back to `f` (R29, R447): those it had, unless the understudy has placed a partition of its own there. -/
def sitesBack (s : State) (f : Nat) : List Nat :=
  (s.mir.get f).sitesAt.filter fun k => owner s k == partner f && (partAt s k).all fun e => e.1 != partner f

/-- The planned switch that returns the work of `f` from its understudy (R447): queues, sites, coherent groups. -/
def switchBack (s : State) (f : Nat) : State :=
  let u := partner f
  let ks := sitesBack s f
  let gs := (s.mir.get f).cohAt.filter (cohEn s u)
  let s := s.updMir f fun m =>
    { m with pair := .prot, inst := .active, fenced := false, takenOver := false, handover := false, sitesAt := [], cohAt := [] }
  let s := s.updMir u fun m => { m with pair := .prot, inst := .active, rejoin := false }
  let s := (queuesOf s f).foldl (fun s e => queueTaken s f u f e.1) s
  let s := linesTaken (cmdsRebased (dropOnDie s f) f f) u f gs ks
  let s := ks.foldl (fun s k => siteTaken s f k) s
  afterReturn (mirEnd s u 1) f

/-- SYNCING ends (R435): both copies are current and what waited for them becomes visible. In a REJOIN the work goes back once nothing
of it is in flight. -/
def mirrorSynced (s : State) : State :=
  if !((s.mir.get 0).pair == .syncing && (s.mir.get 1).pair == .syncing) then s
  else match [0, 1].find? fun u => (s.mir.get u).rejoin with
    | some u =>
      let f := partner u
      let s := s.updMir f fun m => { m with handover := true }
      let gs := (s.mir.get f).cohAt
      if switchReady s f u (sitesBack s f) gs then switchBack s f else switchClean s u (sitesBack s f) gs
    | none =>
      let both (s : State) (i : Nat) : State :=
        let rs := (s.mir.get i).wait
        rs.foldl (applyReport i) (s.updMir i fun m => { m with wait := [] })
      setPair (setPair (bothInst s both) 0 .prot) 1 .prot

/-- MIRROR_LINK_UP (R435, R448, R465): the pair copies its state once the version check passes; with different major versions it stays
in LINK_LOST. -/
def mirrorLinkUp (s : State) : State :=
  let ok (i : Nat) : Bool := alive s i && (s.mir.get i).inst == .active && (s.mir.get i).pair == .linkLost
  if !pairMode s || !ok 0 || !ok 1 then s
  else
    let s := bothInst s fun s i => s.updMir i fun m => { m with linkUp := true }
    if majorOf s 0 == majorOf s 1 then setPair (setPair s 0 .syncing) 1 .syncing else s

/-- MIRROR_LINK_UP (R435). -/
def execMirrorLinkUp (s : State) : Host.Outcome State Fault Refusal := live s mirrorLinkUp

/-- MIRROR_LINK_LOST (R448). -/
def execMirrorLinkLost (s : State) : Host.Outcome State Fault Refusal := live s mirrorLost

/-! ### Instance reset (R430, R445, R446) -/

/-- The firmware's registers for its carve-out, those of the journal apart (R494). -/
def fwSetup (s : State) (i : Nat) : State :=
  let c := 0x5F00000000 + 0x80000000 * i
  let s := (s.setR (reg .kva i 0 0x80) (c + 0x40000000)).setR (qmR i 0 0xD0) (c + 0x50000000)
  let s := (s.setR (qmR i 0 0xD8) (c + 0x54000000)).setR (schR i 1 0x40) (c + 0x54400000)
  (s.setR (reg .ens i 0 0x50) (c + 0x54800000)).setR (accR i 0x50) (c + 0x54C00000)

/-- An instance without partner leaves its reset (R446): ACTIVE, every queue DISABLED, no partition, one contained fault per queue that was
lost (DEDUCED, log entry 97). -/
def comeUpAlone (s : State) (i : Nat) : State :=
  let lost := ((queuesOf s i).filter fun e => !e.2.disabled).map Prod.fst
  let ks := (List.range 12).filter fun k => owner s k == i
  let pages : List Pg := [.gen, .txn, .cb, .qm, .atu, .prq, .acc, .hlc, .sch, .ens, .kva, .vdm]
  let s := clearPages (resetOwnPages (resetCuts (enginesReset s i) i) i) i pages
  let idle (x : Queue) : Queue := { ctx := x.ctx }
  let jseq := s.jrnl.get i
  let s := { s with txn := s.txn.set i {}, atu := s.atu.set i {}, prq := s.prq.set i {}, acc := s.acc.set i {}, sch := s.sch.set i {},
                    ens := s.ens.set i {}, vdm := s.vdm.set i [], jrnl := s.jrnl.set i { jseq with waiting := [] },
                    rtWait := s.rtWait.set i none,
                    qm := s.qm.upd i fun m => { ctxs := Tbl.mapV m.ctxs idle, vt := m.vt },
                    regs := s.regs.filter fun e => (match pageOfKey e.1 with | some p => !(p.ty == Pg.vd && p.inst == i) | none => true) }
  let s := fwSetup (s.updMir i fun m =>
    { m with inst := .active, fenced := false, failed := false, resetRun := false, pair := if pairMode s then .linkLost else .off }) i
  let s := showBanks ((s.setFld (dbgR i 0x44) 0 4 5).setFld (dbgR i 0x44) 8 1 s.fw.active) i
  let s := ks.foldl (fun s k => siteTaken (s.updSite k fun x => { x with wins := [] }) i k) s
  lost.foldl (fun s q => contained s i 1 0 (hubQ i q)) s

/-- An instance boots its firmware after an instance reset: the active slot, or the staged one under ACTIVATE (R464, R465). -/
def rebootFw (s : State) (i : Nat) : State :=
  let slot := if (s.fw.upd.map Prod.snd) = some 2 && (s.mir.get i).why = 4 then otherSlot s else s.fw.active
  let s := match Tbl.find s.fw.slots slot with
    | some m => s.updFw fun w => { w with run := Tbl.put w.run i (m, slot) }
    | none => s
  (s.setFld (dbgR i 0x44) 0 4 5).setFld (dbgR i 0x44) 8 1 slot

/-- An instance reset ends (R445, R446, R451): STANDBY under an understudy, with REJOIN of itself after FULL or for ACTIVATE; else ACTIVE.
`ok` is the result of the self-test of FULL. -/
def instanceResetEnd (s : State) (i : Nat) (ok : Bool) : State :=
  let m := s.mir.get i
  if m.inst != .resetting || !m.resetRun then s
  else if !m.takenOver then comeUpAlone (rebootFw s i) i
  else if m.why = 5 && !ok then bistEnd (s.updMir i fun m => { m with resetRun := false }) 2 0
  else
    let s := rebootFw (s.updMir i fun m => { m with pair := .standby, resetRun := false }) i
    let auto := m.why = 5 || (m.why = 4 && (s.fw.upd.map Prod.snd) = some 2)
    if auto && rejoinOk s (partner i) then rejoinBegin s (partner i) else s

/-! ### Escalation (R430) -/

/-- The incident as an entry of the persistent error log (R475). -/
def incidentEntry (s : State) : LogEnt :=
  { number := s.fld (fltR 0x6C) 0 16, cls := s.fld (fltR 0x6C) 17 2, word := s.r (fltR 0x40), src := s.r (fltR 0x80), master := s.r (fltR 0x84),
    addr := s.r (fltR 0x88), time := s.r (fltR 0x90), detail := s.r (fltR 0x98), merged := s.r (fltR 0x9C) }

/-- GRACE_EXPIRY (R430): an incident not acknowledged escalates to the log, the BMC and, where recovery needs one that no one has
started, a reset. -/
def graceExpiry (s : State) : State :=
  if !s.flt.grace then s
  else
    let s := { s with flt := { s.flt with grace := false } }
    let cls := s.fld (fltR 0x6C) 17 2
    let s := (s.setFld (fltR 0x6C) 20 1 1).irq fltPage 17
    let s := if bitAt (s.r (fltR 0x68)) 1 then pushLog s (incidentEntry s) else s
    let s := s.emit (.pldmEvent (s.fld (fltR 0x80) 0 6) cls)
    if cls != 2 then s
    else
      let one (s : State) (i : Nat) : State :=
        let m := s.mir.get i
        if m.fenced && m.inst == .resetting && !m.takenOver && m.failed && !m.resetRun then s.updMir i fun m => { m with resetRun := true } else s
      let s := bothInst s one
      if s.flt.hubFatal && bitAt (s.r (fltR 0x68)) 0 then { s with boot := { s.boot with asked := true } }.emit .warmReq else s

/-- GRACE_EXPIRY (R430). -/
def execGraceExpiry (s : State) : Host.Outcome State Fault Refusal := aon s graceExpiry

end Sys2Proof.Machine
end

