-- ==== Sys2Proof/Machine/Cp.lean ====
section
/-! DEFINITION. The control processors: watchdogs (R457), the interrupt controllers (R458-R461), firmware updates (R464-R467). -/
namespace Sys2Proof.Machine

/-- The control processor of an instance. -/
def State.cpu (s : State) (i : Nat) : CpSt := s.cp.get i

/-- The state with a control processor changed. -/
def State.updCp (s : State) (i : Nat) (f : CpSt → CpSt) : State := { s with cp := s.cp.upd i f }

/-! ### Watchdogs (R457) -/

/-- The watchdog of an instance restarted; CPI.WDOG_MAX keeps the longest interval, in µs. -/
def watchdogRestart (s : State) (i : Nat) : State :=
  let d := min ((s.time i - (s.cpu i).restart) / 1000) 65535
  let s := if s.r (cpiR i 0x68) < d then s.setR (cpiR i 0x68) d else s
  s.updCp i fun c => { c with restart := s.time i, warned := false }

/-- WATCHDOG_RESTART (R457). -/
def execWatchdogRestart (i : Inst) (s : State) : Host.Outcome State Fault Refusal :=
  live s fun s => if alive s i.val then watchdogRestart s i.val else s

/-- WATCHDOG_WARNING (R457): source 0 stays asserted until the watchdog is restarted. -/
def execWatchdogWarning (i : Inst) (s : State) : Host.Outcome State Fault Refusal :=
  live s fun s => if alive s i.val then s.updCp i.val fun c => { c with warned := true } else s

/-- WATCHDOG_EXPIRY (R457): FATAL on the CP island's bit. -/
def execWatchdogExpiry (i : Inst) (s : State) : Host.Outcome State Fault Refusal :=
  live s fun s =>
    let src := 16 * i.val + 5
    if alive s i.val then faultEvent s src 2 { kind := 0, idx := src } (some i.val) else s

/-! ### The interrupt controller (R458-R461) -/

/-- The fixed priority of a source (R459); 0 where none is used. -/
def srcPrio (n : Nat) : Nat :=
  if n ≤ 2 then 15 else if n = 3 then 13 else if n = 4 then 12 else if n = 5 || n = 6 then 10 else if n = 7 || n = 8 then 8
  else if n ≤ 42 then 6 else if n = 43 then 4 else if n = 44 || n = 45 then 2 else if n = 46 then 1 else 0

/-- Whether the line of a source is asserted at an instance (R459): levels as they stand, events until they are taken. -/
def lineUp (s : State) (i n : Nat) : Bool :=
  if n = 0 then (s.cpu i).warned
  else if n = 1 then s.lev.brake
  else if n = 2 then s.lev.crit
  else if 9 ≤ n && n ≤ 42 then
    let m := irqSummary s i
    if n ≤ 32 then bitAt m (n - 9) else if n = 33 then bits m 33 16 != 0 else bitAt m (n - 10)
  else (s.cpu i).lines.contains n

/-- The sources that may interrupt a core: pending, enabled, not active, above RP and the threshold (R460). -/
def ready (s : State) (i : Nat) : List Nat :=
  let c := s.cpu i
  (List.range 47).filter fun n => lineUp s i n && bitAt c.en n && !c.active.contains n && c.rp < srcPrio n && c.thr < srcPrio n

/-- The most urgent of them, the lowest-numbered at equal priority. -/
def urgent (s : State) (i : Nat) : Option Nat := leastBy (fun n => 15 - srcPrio n) (ready s i)

/-- What the core holds of the controller, as it stands at a command. -/
def coreSet (s : State) (i : Nat) (c : CpCore) : State :=
  s.updCp i fun x => { x with en := c.en.toNat, thr := c.thr.toNat, mask := c.mask }

/-- INTERRUPT_TAKE (R460): the most urgent source is entered; an event's line falls (DESIGN CHOICE, log entry 118). -/
def interruptTake (s : State) (i : Nat) : State :=
  if (s.cpu i).mask then s
  else match urgent s i with
    | none => s
    | some n => s.updCp i fun c =>
      { c with rp := srcPrio n, stack := c.rp :: c.stack, active := n :: c.active, lines := c.lines.filter (· != n), asleep := false }

/-- INTERRUPT_TAKE (R460). -/
def execInterruptTake (i : Inst) (c : CpCore) (s : State) : Host.Outcome State Fault Refusal :=
  live s fun s => if alive s i.val then interruptTake (coreSet s i.val c) i.val else s

/-- END_OF_INTERRUPT (R460): the stack is popped into RP, the source entered last is active no more. -/
def execEndOfInterrupt (i : Inst) (s : State) : Host.Outcome State Fault Refusal :=
  live s fun s =>
    if alive s i.val then
      s.updCp i.val fun c => match c.stack with
        | [] => c
        | p :: r => { c with rp := p, stack := r, active := c.active.drop 1 }
    else s

/-- WAIT (R461): with the global mask set the core sleeps. -/
def execWait (i : Inst) (c : CpCore) (s : State) : Host.Outcome State Fault Refusal :=
  live s fun s => if alive s i.val then (coreSet s i.val c).updCp i.val fun x => { x with asleep := x.asleep || c.mask } else s

/-- CP_WAKE (R461): a source that may interrupt wakes a sleeping core; no handler is entered. -/
def execCpWake (i : Inst) (c : CpCore) (s : State) : Host.Outcome State Fault Refusal :=
  live s fun s =>
    if alive s i.val then
      let s := coreSet s i.val c
      if (ready s i.val).isEmpty then s else s.updCp i.val fun x => { x with asleep := false }
    else s

/-- HOUSEKEEPING_TICK (R459): source 46. -/
def execHousekeepingTick (i : Inst) (s : State) : Host.Outcome State Fault Refusal :=
  live s fun s => if alive s i.val then cpLine s i.val 46 else s

/-! ### Firmware updates (R463-R467) -/

/-- A write of CPI.UPD_CMD on the page of a working instance: refused while an update runs (R464, R479). -/
def updCmd (s : State) (i : Inst) (a : Acc) (c : Instr) (op : Nat) (f : State → State) : Host.Outcome State Fault Refusal :=
  cmdD s i a (cpiPage i.val) c (fun s => !alive s i.val || s.fw.upd.isSome) fun s =>
    if !alive s i.val then s
    else
      let s := cpLine s i.val 43
      if s.fw.upd.isSome then s.perr (cpiPage i.val) 16
      else f ((s.setR (cpiR i.val 0x64) 1).updFw fun w => { w with upd := some (i.val, op) })

/-- Whether the header of an image is one of R462: a CP image with a body of 1 to 1,572,864 bytes. -/
def headerOk (m : ImageIn) : Bool := m.magicOk && m.hver == 1 && m.type == 1 && 1 ≤ m.body && m.body ≤ 1572864

/-- What Ashlar finds wrong with an image (R462, R463), with the result that shows it (DEDUCED, log entry 184); none if it accepts it. -/
def imageBad (s : State) (m : ImageIn) : Option Nat :=
  if m.st != .ok then some 0x16
  else if !headerOk m then some 0x11
  else if !m.sigOk then some 0x12
  else if m.svn.toNat < s.fw.fuse then some 0x13
  else if 1 < m.keyId || bitAt s.fw.revoked m.keyId || !m.tagOk then some 0x14
  else none

/-- An image as the model keeps it. -/
def imageOf (m : ImageIn) : Image := ⟨m.version.toNat, m.svn.toNat, m.digest⟩

/-- STAGE (R464): the image is verified and written to the inactive slot; one that does not lie in the size given is a BAD_FIELD (DEDUCED,
log entry 184). -/
def stage (s : State) (i : Nat) (m : ImageIn) : State :=
  let kib := s.r (cpiR i 0x58)
  if s.fw.staged.isSome then updEnd s 0x10
  else if kib = 0 || 1537 < kib then updEnd s 0x11
  else
    let s := cpLine s i 5
    match imageBad s m with
    | some r => updEnd s r
    | none => if 1024 * kib < 256 + m.body then updEnd s 0x11 else if s.nv.present then nvQueue s (.image (otherSlot s) (imageOf m)) else updEnd s 0x17

/-- STAGE (R464). -/
def execStage (i : Inst) (a : Acc) (m : ImageIn) (s : State) : Host.Outcome State Fault Refusal := updCmd s i a (.stage i a m) 1 fun s => stage s i.val m

/-- ACTIVATE (R464): HANDOVER of IGX1, then of IGX0, then the ACTIVE record; refused with another major version. -/
def activate (s : State) (i : Nat) : State :=
  match s.fw.staged with
  | none => updEnd s 0x10
  | some m =>
    if !protected_ s i || s.flt.bist.isSome then updEnd s 0x10
    else if m.version / 2 ^ 24 != majorOf s i then updEnd s 0x15
    else if handoverOk s 1 then handoverBegin (s.updFw fun w => { w with phase := 1 }) 1 4
    else updEnd s 0x10

/-- ACTIVATE (R464). -/
def execActivate (i : Inst) (a : Acc) (s : State) : Host.Outcome State Fault Refusal := updCmd s i a (.activate i a) 2 fun s => activate s i.val

/-- DISCARD (R464): the inactive slot is marked empty. -/
def discard (s : State) : State :=
  if s.fw.staged.isNone then updEnd s 0x10 else if s.nv.present then nvQueue s (.empty (otherSlot s)) else updEnd s 0x17

/-- DISCARD (R464). -/
def execDiscard (i : Inst) (a : Acc) (s : State) : Host.Outcome State Fault Refusal := updCmd s i a (.discard i a) 3 fun s => discard s

/-- Whether both control processors run the active slot; a disabled instance runs none. -/
def runActive (s : State) : Bool :=
  [0, 1].all fun i => (s.mir.get i).inst == .disabled || (match Tbl.find s.fw.run i with
    | some (_, slot) => slot == s.fw.active
    | none => false)

/-- COMMIT_SVN (R467): fuses are burnt up to the running svn. -/
def commitSvn (s : State) (i : Nat) : State :=
  if !runActive s || s.fw.staged.isSome then updEnd s 0x10
  else match Tbl.find s.fw.run i with
    | some (m, _) => updEnd ((cpLine s i 5).updFw fun w => { w with fuse := max w.fuse m.svn }) 1
    | none => updEnd s 0x10

/-- COMMIT_SVN (R467). -/
def execCommitSvn (i : Inst) (a : Acc) (s : State) : Host.Outcome State Fault Refusal := updCmd s i a (.commitSvn i a) 4 fun s => commitSvn s i.val

end Sys2Proof.Machine
end

