-- ==== Sys2Proof/Machine/Trust.lean ====
section
/-! DEFINITION. Trust: SPDM requests (R468-R470), IDE keys (R471, R472), the lifecycle (R473). Message codes are those of the SPDM and
IDE_KM specifications (PRESUMED). -/
namespace Sys2Proof.Machine

/-- SEC page registers. -/
def secR (i off : Nat) : Nat := reg .sec i 0 off

/-- The state with the trust services changed. -/
def State.updTrust (s : State) (f : Trust → Trust) : State := { s with trust := f s.trust }

/-! ### SPDM (R468-R470) -/

/-- An SPDM error response, counted on both SEC pages (R480). Codes: 1 invalid request, 2 invalid session, 4 unexpected request,
5 unspecified, 6 decrypt error, 0xA session limit, 0x41 version mismatch (PRESUMED, log entry 60). -/
def spdmError (s : State) (p code : Nat) : State :=
  bothInst (s.emit (.spdm p 0x7F [code, 0])) fun s i => s.bump (secR i 0x78) 1

/-- An SPDM request on a port's mailbox, answered by the responder, the power master's control processor (R468); without one it waits (DESIGN CHOICE, log entry 105). -/
def spdmReq (s : State) (f : State → Nat → State) : State :=
  let s := cpBoth s 6
  match powerMaster s with
  | some r => f s r
  | none => s

/-- How far the negotiation of a mailbox is. -/
def boxOf (s : State) (p : Nat) : Nat := Tbl.getD s.trust.boxes p 0

/-- The state with a mailbox's negotiation at a step. -/
def setBox (s : State) (p n : Nat) : State := s.updTrust fun t => { t with boxes := Tbl.put t.boxes p n }

/-- A request that needs the negotiation of its mailbox to be complete. -/
def spdmNeg (s : State) (p : Nat) (f : State → Nat → State) : State :=
  spdmReq s fun s r => if boxOf s p = 3 then f s r else spdmError s p 4

/-- A request inside a secure session of the mailbox that has been set up (R468). -/
def spdmIn (s : State) (p sid : Nat) (f : State → Nat → State) : State :=
  spdmReq s fun s r => match Tbl.find s.trust.sessions sid with
    | some x => if x.port = p && x.ready then f s r else spdmError s p 2
    | none => spdmError s p 2

/-- A signature, or another value that Ashlar's keys give. -/
def secretValue (s : State) : Nat × State := let x := s.draw; (x.1.toNat, x.2)

/-- GET_VERSION (R468): versions 1.2 and 1.3; the negotiation of the mailbox begins anew. -/
def execGetVersion (p : Port) (s : State) : Host.Outcome State Fault Refusal :=
  live s fun s => spdmReq s fun s _ => (setBox s p.val 1).emit (.spdm p.val 0x04 [0x12, 0x13])

/-- GET_CAPABILITIES (R468): CTExponent 20, the capability flags. -/
def execGetCapabilities (p : Port) (ver : Byte) (s : State) : Host.Outcome State Fault Refusal :=
  live s fun s => spdmReq s fun s _ =>
    let v := ver.toNat
    if boxOf s p.val = 0 then spdmError s p.val 4
    else if v != 0x12 && v != 0x13 then spdmError s p.val 0x41
    else
      let s := bothInst s fun s i => s.setFld (secR i 0x4C) 16 8 v
      (setBox s p.val 2).emit (.spdm p.val 0x61 [v, 20, 0x62D6])

/-- NEGOTIATE_ALGORITHMS (R468): ECDSA P-384, SHA-384, secp384r1, AES-256-GCM; `common` tells that the request offers them. -/
def execNegotiateAlgorithms (p : Port) (common : Bool) (s : State) : Host.Outcome State Fault Refusal :=
  live s fun s => spdmReq s fun s _ =>
    if boxOf s p.val < 2 then spdmError s p.val 4
    else if !common then spdmError s p.val 1
    else (setBox s p.val 3).emit (.spdm p.val 0x63 [0x80, 2, 0x10, 2])

/-- GET_DIGESTS (R468): slot 0 alone. -/
def execGetDigests (p : Port) (s : State) : Host.Outcome State Fault Refusal :=
  live s fun s => spdmNeg s p.val fun s _ => let x := secretValue s; x.2.emit (.spdm p.val 0x01 [1, x.1])

/-- GET_CERTIFICATE (R468): a portion of the chain in slot 0. -/
def execGetCertificate (p : Port) (slot : BitVec 4) (off len : BitVec 16) (s : State) : Host.Outcome State Fault Refusal :=
  live s fun s => spdmNeg s p.val fun s _ =>
    if slot.toNat != 0 then spdmError s p.val 1 else let x := secretValue s; x.2.emit (.spdm p.val 0x02 [0, off.toNat, len.toNat, x.1])

/-- Whether the package has been decommissioned (R473). -/
def decommissioned (s : State) : Bool := s.fw.lifecycle == 2

/-- CHALLENGE (R468, R473). -/
def execChallenge (p : Port) (slot : BitVec 4) (nonce : Nat) (s : State) : Host.Outcome State Fault Refusal :=
  live s fun s => spdmNeg s p.val fun s r =>
    if decommissioned s then spdmError s p.val 5
    else if slot.toNat != 0 then spdmError s p.val 1
    else let x := secretValue (cpLine s r 5); x.2.emit (.spdm p.val 0x03 [0, nonce, x.1])

/-- The manifest's byte for an instance (R469): 0 RUNNING, 2 RESETTING, 3 ABSENT. -/
def instStatus (s : State) (i : Nat) : Nat :=
  match (s.mir.get i).inst with
  | .active | .serving => 0
  | .resetting => 2
  | .disabled => 3

/-- The value of a measurement index (R469); none for an index that is not present. -/
def measurement (s : State) (n : Nat) : Option (List Nat) :=
  let digest (i : Nat) : List Nat := match Tbl.find s.fw.run i with
    | some (m, _) => if (s.mir.get i).inst == .disabled then [] else [m.digest, m.version]
    | none => []
  match n with
  | 1 => some [Config.romDigest]
  | 2 => some (digest 0)
  | 3 => some (digest 1)
  | 4 => some [s.fw.lifecycle, s.r (dbgR 0 0x40)]
  | 5 => some [s.fw.fuse, s.fw.revoked]
  | 6 => s.fw.staged.map fun m => [m.digest, m.version]
  | 0xFD => some [0, instStatus s 0, instStatus s 1, 0, 0, if s.fw.staged.isSome then 1 else 3]
  | _ => none

/-- The measurement indices in order (R469). -/
def measured (s : State) : List Nat := [1, 2, 3, 4, 5, 6, 0xFD].filter fun n => (measurement s n).isSome

/-- GET_MEASUREMENTS (R469, R473): index 0 asks how many there are, 0xFF for all. -/
def execGetMeasurements (p : Port) (idx : Byte) (sign : Bool) (slot : BitVec 4) (nonce : Nat) (s : State) : Host.Outcome State Fault Refusal :=
  live s fun s => spdmNeg s p.val fun s r =>
    let n := idx.toNat
    let ms := if n = 0xFF then measured s else if n = 0 then [] else (measured s).filter (· == n)
    if sign && decommissioned s then spdmError s p.val 5
    else if (sign && slot.toNat != 0) || (n != 0 && ms.isEmpty) then spdmError s p.val 1
    else
      let body := (measured s).length :: ms.flatMap fun m => let v := (measurement s m).getD []; m :: v.length :: v
      if sign then let x := secretValue (cpLine s r 5); x.2.emit (.spdm p.val 0x60 (body ++ [nonce, x.1]))
      else s.emit (.spdm p.val 0x60 body)

/-- KEY_EXCHANGE (R468, R473): a session of the mailbox, at most 8 per hub. Its number joins the requester's half and the lowest free
number as the responder's. -/
def execKeyExchange (p : Port) (slot : BitVec 4) (req : BitVec 16) (s : State) : Host.Outcome State Fault Refusal :=
  live s fun s => spdmNeg s p.val fun s r =>
    let taken := s.trust.sessions.map fun e => e.1 / 2 ^ 16
    if decommissioned s then spdmError s p.val 5
    else if slot.toNat != 0 then spdmError s p.val 1
    else match (List.range 8).find? fun n => !taken.contains n with
      | none => spdmError s p.val 0x0A
      | some n =>
        let x := secretValue (cpLine s r 5)
        let sid := req.toNat + 2 ^ 16 * n
        (x.2.updTrust fun t => { t with sessions := Tbl.put t.sessions sid { port := p.val } }).emit (.spdm p.val 0x64 [sid, x.1])

/-- A session ends. -/
def endSession (s : State) (sid : Nat) : State := s.updTrust fun t => { t with sessions := Tbl.del t.sessions sid }

/-- FINISH (R468): the set-up of a session of the mailbox ends; where its proof fails (`ok`), so does the session. -/
def execFinish (p : Port) (sid : W32) (ok : Bool) (s : State) : Host.Outcome State Fault Refusal :=
  live s fun s => spdmReq s fun s _ => match Tbl.find s.trust.sessions sid.toNat with
    | some x =>
      if x.port != p.val || x.ready then spdmError s p.val 4
      else if ok then
        (s.updTrust fun t => { t with sessions := Tbl.put t.sessions sid.toNat { x with ready := true } }).emit (.spdm p.val 0x65 [sid.toNat])
      else spdmError (endSession s sid.toNat) p.val 6
    | none => spdmError s p.val 2

/-- HEARTBEAT (R468). -/
def execHeartbeat (p : Port) (sid : W32) (s : State) : Host.Outcome State Fault Refusal :=
  live s fun s => spdmIn s p.val sid.toNat fun s _ => s.emit (.spdm p.val 0x68 [sid.toNat])

/-- KEY_UPDATE (R468): operations 1-3. -/
def execKeyUpdate (p : Port) (sid : W32) (op : Byte) (s : State) : Host.Outcome State Fault Refusal :=
  live s fun s => spdmIn s p.val sid.toNat fun s _ =>
    if op.toNat = 0 || 3 < op.toNat then spdmError s p.val 1 else s.emit (.spdm p.val 0x69 [sid.toNat, op.toNat])

/-- END_SESSION (R468). -/
def execEndSession (p : Port) (sid : W32) (s : State) : Host.Outcome State Fault Refusal :=
  live s fun s => spdmIn s p.val sid.toNat fun s _ => (endSession s sid.toNat).emit (.spdm p.val 0x6C [sid.toNat])

/-- The sessions of a port's mailbox end with PERST (R478). -/
def endPortSessions (s : State) (p : Nat) : State :=
  s.updTrust fun t => { t with sessions := t.sessions.filter fun e => e.2.port != p, boxes := Tbl.del t.boxes p }

/-! ### IDE (R471, R472) -/

/-- A stream of a port. -/
def ideOf (s : State) (p stream : Nat) : IdeSt := Tbl.getD s.trust.ide (16 * p + stream) {}

/-- A stream changed: ide_change on both SEC pages. -/
def setIde (s : State) (p stream : Nat) (x : IdeSt) : State :=
  bothInst (s.updTrust fun t => { t with ide := Tbl.put t.ide (16 * p + stream) x }) fun s i => s.irq ⟨.sec, i, 0⟩ 16

/-- The number of a sub-stream's key: key set, receive, posted, non-posted or completion. -/
def keyNo (kset rx : Bool) (sub : Fin 3) : Nat := 6 * b2n kset + 3 * b2n rx + sub.val

/-- Whether a stream is Secure: it has not failed and every sub-stream has a key set in use (DEDUCED, log entry 106). -/
def IdeSt.secure (x : IdeSt) : Bool := !x.insecure && (List.range 6).all fun n => x.use.any fun k => k % 6 == n

/-- The key set that a stream's posted transmit sub-stream uses. -/
def IdeSt.kset (x : IdeSt) : Nat := b2n (x.use.contains 6)

/-- SEC.IDE_PORTn (R480). -/
def idePort (s : State) (p : Nat) : Nat :=
  let sel (f : IdeSt → Nat) : Nat := maskOf ((List.range 8).filter fun n => f (ideOf s p (n + 1)) = 1)
  fields [(0, b2n (ideOf s p 0).secure), (1, (ideOf s p 0).kset), (8, sel fun x => b2n x.secure), (16, sel IdeSt.kset)]

/-- SEC.SPDM_STATUS (R480) with the last negotiated version that its register holds. -/
def spdmStatus (s : State) (i : Nat) : Nat :=
  fields [(0, min s.trust.sessions.length 15), (8, (powerMaster s).getD 0), (16, s.fld (secR i 0x4C) 16 8)]

/-- QUERY (R471): the stream information of the mailbox's own port. -/
def execQuery (p : Port) (sid : W32) (port : Byte) (s : State) : Host.Outcome State Fault Refusal :=
  live s fun s => spdmIn s p.val sid.toNat fun s _ =>
    if port.toNat != 0 then spdmError s p.val 1 else s.emit (.spdm p.val 0x101 [p.val, idePort s p.val])

/-- KEY_PROG (R471, R472): Ashlar stores the key; while it has lost service the answer is an error. -/
def execKeyProg (p : Port) (sid : W32) (stream : Fin 9) (kset rx : Bool) (sub : Fin 3) (s : State) : Host.Outcome State Fault Refusal :=
  live s fun s => spdmIn s p.val sid.toNat fun s r =>
    let k := keyNo kset rx sub
    if s.trust.lost then s.emit (.spdm p.val 0x103 [stream.val, k, 4])
    else
      let x := ideOf s p.val stream.val
      (setIde (cpLine s r 5) p.val stream.val { x with keys := k :: x.keys.filter (· != k) }).emit (.spdm p.val 0x103 [stream.val, k, 0])

/-- K_SET_GO (R472): the sub-stream switches to a key set that is programmed. -/
def execKSetGo (p : Port) (sid : W32) (stream : Fin 9) (kset rx : Bool) (sub : Fin 3) (s : State) : Host.Outcome State Fault Refusal :=
  live s fun s => spdmIn s p.val sid.toNat fun s _ =>
    let k := keyNo kset rx sub
    let x := ideOf s p.val stream.val
    if !x.keys.contains k then spdmError s p.val 1
    else
      (setIde s p.val stream.val { x with use := k :: x.use.filter (fun n => n % 6 != k % 6), insecure := false }).emit
        (.spdm p.val 0x106 [stream.val, k])

/-- K_SET_STOP (R471): the sub-stream uses that key set no more. -/
def execKSetStop (p : Port) (sid : W32) (stream : Fin 9) (kset rx : Bool) (sub : Fin 3) (s : State) : Host.Outcome State Fault Refusal :=
  live s fun s => spdmIn s p.val sid.toNat fun s _ =>
    let k := keyNo kset rx sub
    let x := ideOf s p.val stream.val
    (setIde s p.val stream.val { x with use := x.use.filter (· != k) }).emit (.spdm p.val 0x106 [stream.val, k])

/-! ### Lifecycle (R473) -/

/-- A write of SEC.LC_CMD: two writes from one port within 1 ms decommission a package in PRODUCTION; any other write cancels. -/
def lcCmd (s : State) (a : Acc) (v : Nat) : State :=
  let port := portCode a
  let armed := match s.fw.lcArm with
    | some (t, q) => q = port && s.hubTime ≤ t + 1000000
    | none => false
  let s := s.updFw fun w => { w with lcArm := none }
  if s.fw.lifecycle != 1 then s
  else if v = 0x5EC00001 then s.updFw fun w => { w with lcArm := some (s.hubTime, port) }
  else if v = 0x5EC00002 && armed then s.updFw fun w => { w with lifecycle := 2, revoked := 3 }
  else s

/-- LC_CMD (R473). -/
def execLcCmd (i : Inst) (a : Acc) (v : W32) (s : State) : Host.Outcome State Fault Refusal :=
  cmdI s i a ⟨.sec, i.val, 0⟩ (.lcCmd i a v) fun s => if alive s i.val then lcCmd s a v.toNat else s

end Sys2Proof.Machine
end

