-- ==== Sys2Proof/Machine/Boot.lean ====
section
/-! DEFINITION. Power-up, resets and boot (R485, R487, R488, R492-R496), the sideband's address (R490). -/
namespace Sys2Proof.Machine

/-- The state with the boot side changed. -/
def State.updBoot (s : State) (f : BootSt → BootSt) : State := { s with boot := f s.boot }

/-- The boot phase of an instance (DBG.BOOT.phase). -/
def phaseOf (s : State) (i : Nat) : Nat := s.fld (dbgR i 0x44) 0 4

/-- A boot phase set. -/
def setPhase (s : State) (i n : Nat) : State := s.setFld (dbgR i 0x44) 0 4 n

/-- What HBM keeps of queue contexts and the vector table over a reset (R492): every context, with its queue DISABLED. -/
def hbmKept (m : Qm) : Qm := { ctxs := Tbl.mapV m.ctxs fun x => { ctx := x.ctx }, vt := m.vt }

/-- HUB_POR_ASSERT (R43, R492): every island and register resets; fuses, flash and HBM keep their contents (DEDUCED, log entry 107). -/
def porAssert (s : State) : State :=
  { State.reset with
    pending := s.pending, free := s.free, out := s.out, warm := s.warm, brakeLow := s.brakeLow,
    ports := (List.range 4).map fun p => (p, { link := if (s.port p).perst then .reset else .training, perst := (s.port p).perst }),
    qm := ⟨hbmKept s.qm.a, hbmKept s.qm.b⟩,
    fw := { slots := s.fw.slots, active := s.fw.active, fuse := s.fw.fuse, revoked := s.fw.revoked, lifecycle := s.fw.lifecycle },
    nv := { recs := s.nv.recs, repair := s.nv.repair, log := s.nv.log, seq := s.nv.seq } }

/-- HUB_POR_ASSERT (R492). -/
def execHubPorAssert (s : State) : Host.Outcome State Fault Refusal := done s (porAssert s)

/-- Boot begins at an instance: it stays RESETTING, or DISABLED by strap (R445, R493). -/
def bootBegin (s : State) (i : Nat) (on : Bool) (cause : Nat) : State :=
  let s := s.updMir i fun _ => { inst := if on then .resetting else .disabled }
  if on then (setPhase s i 1).setR (dbgR i 0x48) cause else s

/-- HUB_POR_RELEASE (R44, R485, R493): the straps are sampled, enable 0b00 acting as 0b01; the outputs are driven; boot starts. -/
def porRelease (s : State) (boot en : Nat) (pair : Bool) : State :=
  let eff := if en = 0 then 1 else en
  let straps := fields [(0, boot), (4, en), (8, b2n pair), (12, eff)]
  let s := { s with por := false }.updBoot fun b => { b with start := s.hubTime }
  let s := bothInst s fun s i => s.setR (dbgR i 0x40) straps
  let s := bothInst s fun s i => bootBegin s i (bitAt eff i) 0
  sampleBrake (showLog s)

/-- HUB_POR_RELEASE (R493): without effect while power-on reset is not asserted. -/
def execHubPorRelease (boot en : BitVec 2) (pair : Bool) (s : State) : Host.Outcome State Fault Refusal :=
  done s (if s.por then porRelease s boot.toNat en.toNat pair else s)

/-! ### Warm reset (R487, R488, R492) -/

/-- Registers over a warm reset: the fields marked ST, and those of AON that hold the incident and its record (R431, R492); of
THR.ALERT the thermal trip (R487); the straps. -/
def warmRegs (regs : Tbl W64) : Tbl W64 :=
  regs.filterMap fun e =>
    let aon := (fltR 0x40 ≤ e.1 && e.1 ≤ fltR 0x50) || (fltR 0x6C ≤ e.1 && e.1 ≤ fltR 0xB0) || e.1 == dbgR 0 0x40 || e.1 == dbgR 1 0x40
    let m := if aon then 2 ^ 64 - 1 else if e.1 == thrR 0x44 then 2 ^ 6 else stMaskOf e.1
    let v := (e.2.toNat &&& m) + (resetOf e.1 - (resetOf e.1 &&& m))
    if v = resetOf e.1 then none else some (e.1, BitVec.ofNat 64 v)

/-- Levels over a warm reset: what AON holds and runs by itself (R396). -/
def warmLevels (l : Levels) : Levels :=
  { site := l.site, hub := l.hub, fast := l.fast, storm := l.storm, droop := l.droop, droopOn := l.droopOn, events := l.events, crit := l.crit,
    brake := l.brake, pmiLost := l.pmiLost, sensorBad := l.sensorBad }

/-- A port over a warm reset: its link drops and trains again unless PERST holds it. -/
def warmPort (x : PortSt) : PortSt := { link := if x.perst then .reset else .training, perst := x.perst }

/-- WARM_RESET_ASSERT (R492): every island but AON and SBD resets, every field not marked ST; partitions, queues, VDs, pools, transactions,
group state, tokens and journal go (DEDUCED, log entry 108). -/
def warmAssert (s : State) : State :=
  let z := State.reset
  let flt := s.flt
  let nv := s.nv
  let fw := s.fw
  let boot := s.boot
  let fresh (m : MirSt) : MirSt := { inst := if m.inst == .disabled then .disabled else .resetting }
  let s' : State :=
    { z with
      pending := s.pending, free := s.free, out := s.out, por := s.por, warm := true, brakeLow := s.brakeLow, thermTrip := s.thermTrip,
      pinFault := s.pinFault, pinAlert := s.pinAlert, pinTherm := s.pinTherm, regs := warmRegs s.regs,
      ports := (List.range 4).map fun p => (p, warmPort (s.port p)),
      flt := { flt with bist := none, hubFatal := false, pipeAt := [] },
      mir := ⟨fresh s.mir.a, fresh s.mir.b⟩,
      qm := ⟨hbmKept s.qm.a, hbmKept s.qm.b⟩, lev := warmLevels s.lev,
      fw := { fw with upd := none, phase := 0, lcArm := none }, nv := { nv with cmd := none, confirm := none },
      boot := { boot with warm := true, hbm := false, tried := [] } }
  bothInst s' fun s i => s.satFld (dbgR i 0x50) 0 16 1

/-- WARM_RESET_ASSERT (R492): during power-on reset it only asserts the line. -/
def execWarmResetAssert (s : State) : Host.Outcome State Fault Refusal :=
  done s (if s.por then { s with warm := true } else if s.warm then s else warmAssert s)

/-- WARM_RESET_RELEASE (R488, R493): AON drives its outputs from their sources; boot starts again at step 3. -/
def warmRelease (s : State) : State :=
  let s := { s with warm := false }
  if s.por then s
  else
    let cause := if s.boot.asked then 2 else 1
    let s := s.updBoot fun b => { b with start := s.hubTime, asked := false }
    let s := s.setFld (nvsR 0x44) 16 2 (b2n s.nv.inhibit + 2 * b2n s.nv.present)
    sampleBrake (showLog (bothInst s fun s i => bootBegin s i ((s.mir.get i).inst != .disabled) cause))

/-- WARM_RESET_RELEASE (R488). -/
def execWarmResetRelease (s : State) : Host.Outcome State Fault Refusal := done s (if s.warm then warmRelease s else s)

/-! ### Boot (R493-R496) -/

/-- HBM_READY (R493): step 5 may begin. -/
def execHbmReady (s : State) : Host.Outcome State Fault Refusal := live s fun s => s.updBoot fun b => { b with hbm := true }

/-- The slot that boot reads first (R464): the one of a staged image that only a warm reset may activate, else the active one (DEDUCED, log entry 103). -/
def bootSlot (s : State) (i : Nat) : Nat :=
  match s.fw.staged with
  | some m => if s.boot.warm && m.version / 2 ^ 24 != majorOf s i then otherSlot s else s.fw.active
  | none => s.fw.active

/-- Sideband recovery (R485, R493): with IGX_BOOT_SEL = 0 the instance stays RESETTING with FW_STATE FAILED instead. -/
def bootFails (s : State) (i : Nat) : State := setPhase s i (if s.fld (dbgR i 0x40) 0 2 = 0 then 7 else 6)

/-- BOOT_SELFTEST_DONE (R450, R493): the records are read and the repair map applied; a failed logic self-test is FATAL, and the other
instance goes on with its pair OFF. `flash` tells that the flash answered (R481). -/
def bootTested (s : State) (i : Nat) (ok flash : Bool) : State :=
  if phaseOf s i != 1 then s
  else
    let s := (s.updNv fun n => { n with present := flash }).setFld (nvsR 0x44) 17 1 (b2n flash)
    let bs := if flash then banksJoined s.nv.repair s.flt.banks else s.flt.banks
    let s := showBanks { s with flt := { s.flt with banks := bs } } i
    if !ok && !s.boot.warm then
      let s := setPair (s.setFld (dbgR i 0x44) 11 1 1) (partner i) .off
      faultEvent s (16 * i + 5) 2 { kind := 0, idx := 16 * i + 5 } (some i)
    else if s.fld (dbgR i 0x40) 0 2 = 2 then setPhase s i 6
    else (setPhase s i 2).setFld (dbgR i 0x44) 8 1 (bootSlot s i)

/-- BOOT_SELFTEST_DONE (R493). -/
def execBootSelftestDone (i : Inst) (ok flash : Bool) (s : State) : Host.Outcome State Fault Refusal :=
  live s fun s => bootTested s i.val ok flash

/-- The instance runs an image of a slot next. -/
def bootImage (s : State) (i : Nat) (m : Image) (slot : Nat) : State := setPhase (s.updFw fun w => { w with run := Tbl.put w.run i (m, slot) }) i 4

/-- IMAGE_VERIFY_DONE (R463, R493): the image of the slot is accepted; or the other slot follows, or recovery. An image with another major
version that boots becomes active (R464). -/
def imageVerified (s : State) (i : Nat) (m : ImageIn) : State :=
  if phaseOf s i != 2 then s
  else
    let slot := s.fld (dbgR i 0x44) 8 1
    match imageBad s m with
    | none =>
      let img := (Tbl.find s.fw.slots slot).getD (imageOf m)
      let change := s.fw.staged.isSome && slot != s.fw.active && s.fld (dbgR i 0x44) 9 1 = 0
      let s := if change then nvQueue (s.updFw fun w => { w with staged := none, active := slot }) (.active slot) else s
      bootImage (s.updFw fun w => { w with slots := Tbl.put w.slots slot img }) i img slot
    | some _ =>
      if s.boot.tried.contains i then bootFails s i
      else ((s.updBoot fun b => { b with tried := i :: b.tried }).setFld (dbgR i 0x44) 9 1 1).setFld (dbgR i 0x44) 8 1 (1 - slot)

/-- IMAGE_VERIFY_DONE (R463). -/
def execImageVerifyDone (i : Inst) (m : ImageIn) (s : State) : Host.Outcome State Fault Refusal := live s fun s => imageVerified s i.val m

/-- RECOVERY_IMAGE (R485): an image from the sideband is written to FW_A and booted by every instance that waits for it, or refused with the
status of the failure. -/
def recoveryImage (s : State) (m : ImageIn) : State :=
  let is := [0, 1].filter fun i => phaseOf s i == 6
  if is.isEmpty then s
  else match imageBad s m with
    | some r => s.emit (.pldmValue r)
    | none =>
      let s := (if s.nv.present then nvQueue s (.image 0 (imageOf m)) else s).emit (.pldmValue 0)
      is.foldl (fun s i => ((bootImage s i (imageOf m) 0).setFld (dbgR i 0x44) 10 1 1).setFld (dbgR i 0x44) 8 1 0) s

/-- RECOVERY_IMAGE (R485). -/
def execRecoveryImage (m : ImageIn) (s : State) : Host.Outcome State Fault Refusal := live s fun s => bmc s fun s => recoveryImage s m

/-- The range-table entry of an instance's carve-out (R494). -/
def fwRange (s : State) (i : Nat) : State :=
  let b := 6080 + 32 * i
  let e := (0xF, fields [(0, b), (16, b + 31)])
  { s with rt := Tbl.put s.rt (128 * i) e }.emit (.rangeWrite (128 * i) e.1 e.2)

/-- FW_INIT_DONE (R493, R494): the firmware has set its registers up; FW_STATE is RUNNING and boot_done is raised. `fixed` is the
fixed-level table, `cal` the calibration, of the user or the factory (DESIGN CHOICE, log entry 121). -/
def fwInit (s : State) (i : Nat) (fixed : List (Nat × Nat)) (cal : List Nat) : State :=
  if phaseOf s i != 4 || !s.boot.hbm then s
  else
    let c := 0x5F00000000 + 0x80000000 * i
    let s := (s.setR (xbarR (0x100 + 0x40 * i)) c).setR (xbarR (0x108 + 0x40 * i)) 1024
    let s := fwRange (fwSetup s i) i
    let s := (cal.take 8).zipIdx.foldl (fun s e => s.setR (pwrR (0x180 + 8 * e.2)) (e.1 % 2 ^ 48)) s
    let s := s.updLev fun l => { l with fixed := fixed.take 21 }
    let s := (setPhase s i 5).setR (dbgR i 0x4C) (min ((s.tsu.get i - s.boot.start) / 1000) (2 ^ 24 - 1))
    let alone := s.fld (dbgR (partner i) 0x44) 11 1 = 1
    let s := s.updMir i fun _ => { inst := .active, pair := if pairMode s && !alone then .linkLost else .off }
    settleLevels ((holdLimit s |>.updCp i fun _ => { restart := s.time i }).irq ⟨.dbg, i, 0⟩ 16)

/-- FW_INIT_DONE (R494). -/
def execFwInitDone (i : Inst) (fixed : List (BitVec 2 × BitVec 4)) (cal : List W64) (s : State) : Host.Outcome State Fault Refusal :=
  live s fun s => fwInit s i.val (fixed.map fun e => (e.1.toNat, e.2.toNat)) (cal.map BitVec.toNat)

/-! ### The sideband (R490) -/

/-- SMBUS_ARP (R490): SBD takes its address while it is an SMBus target. -/
def execSmbusArp (addr : BitVec 7) (s : State) : Host.Outcome State Fault Refusal :=
  aon s fun s => s.updBoot fun b => if b.i3c then b else { b with addr := some addr.toNat }

/-- ENTDAA (R490): SBD takes a dynamic address once it is an I3C target. -/
def execEntdaa (addr : BitVec 7) (s : State) : Host.Outcome State Fault Refusal :=
  aon s fun s => s.updBoot fun b => if b.i3c then { b with addr := some addr.toNat } else b

/-- I3C_BROADCAST (R490): SBD is an I3C target until the next power-on reset. -/
def execI3cBroadcast (s : State) : Host.Outcome State Fault Refusal :=
  aon s fun s => s.updBoot fun b => if b.i3c then b else { b with i3c := true, addr := none }

end Sys2Proof.Machine
end

