-- ==== Sys2Proof/Machine/Views.lean ====
section
/-! DEFINITION. Register reads (R47-R61): where an access lands, which pages a range presents (R48, R441, R446), the status registers
that show the state of an engine, the read latch (R58). -/
namespace Sys2Proof.Machine

/-! ### Where an access lands (R47, R48, R50, R441, R446) -/

/-- The pages of an instance that its partner presents while it serves them (R441) (DEDUCED, log entry 21). -/
def servedPage : Pg → Bool
  | .gen | .txn | .cb | .qm | .atu | .prq | .acc | .hlc | .stp | .sch | .ens | .kva | .vdm => true
  | _ => false

/-- Whether a page reads as present: shared pages always; of a disabled instance, and of one that nobody serves, GEN alone (R48, R446); a
VD page while its VD exists. -/
def present (s : State) (p : PageId) : Bool :=
  if p.ty.shared then true
  else if p.ty == .vd then (server s p.inst).isSome && (s.vd p.inst p.idx).st != .free
  else if (s.mir.get p.inst).inst == .disabled then p.ty == .gen
  else match server s p.inst with
    | some j => j == p.inst || servedPage p.ty
    | none => p.ty == .gen

/-- Whether a page drops every write without an error: GEN of a disabled instance, or of one that nobody serves (R48, R446). -/
def dropsWrites (s : State) (p : PageId) : Bool :=
  !p.ty.shared && p.ty != .vd && ((s.mir.get p.inst).inst == .disabled || (server s p.inst).isNone)

/-- The page that an access to a BAR lands on; none where none is present. -/
def locate (s : State) (bar4 : Bool) (off : Nat) : Option PageId :=
  (if bar4 then bar4Page off else if off < 0x2000000 then bar0Page off else none).filter (present s)

/-- The page whose registers a page shows: the host-line cache of a served instance is its partner's (R441). -/
def homePage (s : State) (p : PageId) : PageId := if p.ty == .hlc then { p with inst := carrier s p.inst } else p

/-! ### The page header (R54) -/

/-- PAGE_CTL.txn_tag and the slot of the transaction that binds a page. -/
def tagOf (s : State) (p : PageId) : Nat := match binder s p with
  | some (t, _) => t
  | none => 0

/-- The state code of a channel (R133). -/
def ChSt.code : ChSt → Nat
  | .off => 0 | .idle => 1 | .running => 2 | .pausing => 3 | .paused => 4 | .halting => 5 | .halted => 6

/-- PAGE_STATUS (R54). A page other than a DMA page is always enabled (DEDUCED, log entry 16). -/
def pageStatus (s : State) (p : PageId) : Nat :=
  let ch := s.chan (chanId p.inst p.idx)
  let dma := p.ty == .dma
  fields [(0, b2n (!dma || ch.st != .off)), (1, b2n (tagOf s p != 0)), (2, b2n (commitHeld s p)), (3, b2n (Tbl.find s.wlatch p.key).isSome),
    (16, if dma then ch.st.code else 0), (19, b2n (dma && ch.queue.isSome))]

/-- Entries of a transaction that target a page. -/
def stagedFor (s : State) (p : PageId) : List TxnEntry := match binder s p with
  | some (_, t) => t.log.filter fun e => e.key / 0x1000 == p.key / 0x1000
  | none => []

/-- PAGE_TXN (R54). -/
def pageTxn (s : State) (p : PageId) : Nat :=
  let n := (stagedFor s p).length
  s.r (p.key + 0x20) + fields [(0, tagOf s p), (4, b2n (n != 0)), (8, n)]

/-! ### Status registers -/

/-- The state code of a transaction slot (R62). -/
def TxnPhase.code : TxnPhase → Nat
  | .free => 0 | .opened => 1 | .committing => 2 | .done => 3

/-- TXN.SLOTn (R62). -/
def slotReg (t : TxnSlot) : Nat :=
  fields [(0, t.st.code), (3, b2n t.failed), (4, t.count), (16, t.result), (24, t.opener.port.val), (26, b2n t.opener.cp), (32, t.failOff)]

/-- TXN.OPEN_MASK (R62). -/
def openMask (s : State) (i : Nat) : Nat :=
  maskOf (((s.txn.get i).slots.filter fun e => e.2.st == .opened || e.2.st == .committing).map fun e => e.1 - 1)

/-- GEN.INSTANCE_STATE (R61). -/
def InstSt.code : InstSt → Nat
  | .active => 0 | .serving => 1 | .disabled => 2 | .resetting => 3

/-- MIR.STATUS.state: the states in the order in which R435 lists them (DEDUCED, log entry 12). -/
def PairSt.code : PairSt → Nat
  | .off => 0 | .syncing => 1 | .prot => 2 | .linkLost => 3 | .serving => 4 | .standby => 5

/-- The state code of a group (R81). -/
def GroupPhase.code : GroupPhase → Nat
  | .detached => 0 | .attached => 1 | .absent => 2 | .reattaching => 3

/-- The state code of a link (R82). -/
def LinkSt.code : LinkSt → Nat
  | .down => 0 | .training => 1 | .up => 2 | .retrain => 3 | .reset => 4 | .flr => 5

/-- The state code of a site link (R314). -/
def SiteSt.code : SiteSt → Nat
  | .absent => 0 | .down => 1 | .training => 2 | .cap => 3 | .up => 4 | .retrain => 5 | .mismatch => 6

/-- HPC.LINK_STATUS (R82). -/
def linkStatus (x : PortSt) : Nat :=
  fields [(0, x.link.code), (4, x.rate), (8, x.width), (16, b2n x.configOnly), (17, b2n x.cxl)]

/-- STP.LINK_STATUS (R314). -/
def siteStatus (s : State) (k : Nat) : Nat :=
  let x := s.site k
  fields [(0, x.st.code), (4, x.width), (6, x.rate), (8, min 8 ((x.lanes.map (min 2)).sum)), (12, b2n (x.width == 1 || x.width == 2)), (13, owner s k)]

/-- STP.USE (R314). -/
def siteUse (s : State) (k : Nat) : Nat :=
  fields [(0, ((cmdsOn s k).filter fun e => e.2.2.inSlot).length), (8, ((s.site k).wins.filter fun w => w.2.granted).length)]

/-- SCH.SITE_USEs (R348). -/
def schSiteUse (s : State) (k : Nat) : Nat :=
  let p := partAt s k
  fields [(0, busyEngines s k), (16, ((cmdsOn s k).filter fun e => e.2.2.inSlot).length), (24, (p.map Prod.snd).getD 0), (31, b2n p.isSome)]

/-- XBAR.GROUP_STATE (R81). -/
def groupStates (s : State) : Nat :=
  fields ((List.range 4).map fun g => (4 * g, (s.group g).st.code + 8 * b2n (s.group g).locked))

/-- XBAR.TOKENg, to a read that arrives on a port of the group while it is ATTACHED (R92). -/
def tokenReg (s : State) (a : Acc) (g : Nat) : Nat :=
  if !a.cp && (s.group g).st == .attached && groupOf s a.port.val == g then (s.group g).token.toNat else 0

/-- The status registers of a DMA page (R134). -/
def dmaView (s : State) (cid off : Nat) : Nat :=
  let ch := s.chan cid
  let d := curDesc s ch
  let raw := match d with
    | some d => d.raw
    | none => []
  let ent := match ch.units with
    | u :: _ => u.ent
    | [] => nextEnt raw ch
  if off = 0x4C then fields [(0, min 4095 (chanReads s cid)), (16, min 4095 (chanWrites s cid))]
  else if off = 0x50 then (match ch.queue with | some q => 2 ^ 31 + hubQ ch.home q | none => 0)
  else if off = 0x54 then ch.pos
  else if off = 0x58 then ch.desc + (if d.isSome then opcodeOf raw * 2 ^ 16 else 0)
  else if off = 0x60 then progIter ch
  else if d.isNone then 0
  else if off = 0x68 then progSrc raw (progIter ch) ent % 2 ^ 64
  else progDst raw (progIter ch) ent % 2 ^ 64

/-- ATU.INV_ACTIVE (R218). -/
def invActive (s : State) (i : Nat) : Nat :=
  let vs := (s.atu.get i).invs
  fields [(0, min 127 vs.length), (16, min 511 ((vs.flatMap fun v => (drainChans s i v).map Prod.fst).eraseDups.length))]

/-- ENS registers of the selected ensemble (R372). -/
def ensView (s : State) (i off : Nat) : Nat :=
  let p := s.fld (ensR i 0x40) 0 4
  let e : EnsRec := Tbl.getD (s.en i).recs p {}
  let n (f : SeqRec → Bool) : Nat := ((s.en i).seqs.filter fun x => x.2.part == p && f x.2).length
  if off = 0x48 then s.fld (ensR i 0x48) 0 16 + e.st * 2 ^ 16
  else if off = 0x68 then fields [(0, n fun q => q.st != .waiting), (32, n fun q => q.st == .waiting)]
  else if off = 0x70 then e.steps % 2 ^ 64
  else if off = 0x78 then e.decodes % 2 ^ 64
  else if off = 0x80 then e.prefills % 2 ^ 64
  else if off = 0x88 then e.recomputes % 2 ^ 64
  else e.fails % 2 ^ 64

/-- KVA registers of the selected pool (R373). -/
def kvaView (s : State) (i off : Nat) : Nat :=
  match pool? s i (s.fld (kvaR i 0x40) 0 4) with
  | none => if off = 0x48 then s.fld (kvaR i 0x48) 0 16 else 0
  | some k =>
    if off = 0x48 then s.fld (kvaR i 0x48) 0 16 + 2 ^ 16
    else if off = 0x70 then k.free
    else if off = 0x74 then k.tablesFree
    else if off = 0x78 then k.low
    else if off = 0x88 then k.allocs % 2 ^ 64
    else k.frees % 2 ^ 64

/-- VDM registers of the selected VD (R392): the request shows from its send until its response (R381); VDM.STATUS shows no state for VD 0,
which has no record (DEDUCED, log entry 178). -/
def vdmView (s : State) (i off : Nat) : Nat :=
  let v := s.fld (vdmR i 0x40) 0 12
  let r := s.vd i v
  if off = 0x48 then s.fld (vdmR i 0x48) 0 16 + (if v = 0 then 0 else r.st.code * 2 ^ 16)
  else if off = 0x88 then (if r.st == .down then r.need else 0)
  else if off = 0x94 then (match ((s.vdm.get i).filter fun e => e.2.mbox).map Prod.fst with
    | [] => 0
    | x :: l => 2 ^ 31 + l.foldl min x)
  else if r.mbox then s.r (reg .vd i v off) else 0

/-- Registers of a VD page (R391). -/
def vdView (s : State) (i v off : Nat) : Nat :=
  let r := s.vd i v
  if off = 0x48 then fields [(0, v), (12, r.part), (16, r.group)]
  else if off = 0x4C then r.qcount
  else if off = 0x50 then fields [(0, r.vcount), (17, r.ecount)]
  else if off = 0x5C then (match evtOf s i v (s.fld (reg .vd i v 0x58) 0 12) with
    | some n => (evtCtr s i n).val
    | none => 0)
  else 2 ^ 8 * b2n r.mbox

/-- QM registers that show a selected counter or client (R124, R126), the halt log (R114). -/
def qmView (s : State) (i n off : Nat) : Nat :=
  let m := s.qm.get i
  let c := s.fld (qmR i 1 0x40) 0 12
  let j : JobCount := Tbl.getD m.jobs (s.fld (qmR i 2 0x40) 0 12) {}
  if n = 0 then m.halts.headD 0
  else if n = 1 then
    (if off = 0x44 then (evtCtr s i c).val
     else if off = 0x4C then (evtCtr s i c).owner
     else (m.ctxs.filter fun e => match e.2.evt with | some (k, _) => k == c | none => false).length)
  else if off = 0x48 then j.submitted
  else if off = 0x50 then j.completed
  else j.failed

/-- FLT.CF_LOG0 and FLT.CF_LOG1 (R432, R454). -/
def cfView (s : State) (off : Nat) : Nat :=
  match s.flt.cf with
  | [] => 0
  | e :: _ =>
    if off = 0xB0 then e.time
    else fields [(0, e.id), (40, e.status), (58, b2n s.flt.cfOver), (59, e.kind), (62, e.inst), (63, 1)]

/-- CPI registers of the firmware and the interrupt controller (R460, R479). -/
def cpiView (s : State) (i off : Nat) : Nat :=
  let run := Tbl.find s.fw.run i
  let m : Image := (run.map Prod.fst).getD ⟨0, 0, 0⟩
  let c := s.cp.get i
  let ph := phaseOf s i
  if off = 0x40 then
    let st := if ph = 7 then 4 else if ph != 5 then 0
      else if s.fw.upd.any fun u => u.2 == 1 || u.2 == 2 then 2 else if s.fw.staged.isSome then 3 else 1
    fields [(0, st), (8, s.fw.active)]
  else if off = 0x44 then m.version
  else if off = 0x48 then fields [(0, m.svn), (8, s.fw.fuse), (16, ((s.fw.staged.map Image.svn).getD 0))]
  else fields [(0, c.rp), (8, min 31 c.stack.length), (16, b2n c.asleep)]

/-- PWR registers behind a selector (R400, R404, R422). -/
def pwrView (s : State) (off : Nat) : Nat :=
  if off = 0x78 then (match s.lev.fixed[s.fld (pwrR 0x74) 0 5]? with
    | some e => fields [(0, e.1), (4, e.2), (31, 1)]
    | none => 0)
  else
    let c := Tbl.getD s.lev.coef (s.fld (pwrR 0x1C8) 0 4) (0, 0)
    if off = 0x1D0 then c.1 else c.2

/-- PRQ.STATUS: the page-request groups outstanding and quarantined (R232). -/
def prqStatus (s : State) (i : Nat) : Nat :=
  let g := (s.prq.get i).groups
  let quar := (g.filter fun e => e.2.quarantined).length
  fields [(0, g.length - quar), (16, quar)]

/-- PRQ.WAITERS: the descriptors that wait for a page-request group (R232). -/
def prqWaiters (s : State) (i : Nat) : Nat := (((s.atu.get i).misses.filter fun m => m.prg.isSome).map fun m => m.who).eraseDups.length % 2 ^ 14

/-- What a register holds, as its page shows it to an access: a stored register as it is, a status register from the engine it shows (DESIGN CHOICE, log entry 11, DESIGN CHOICE, log entry 17). -/
def regView (s : State) (a : Acc) (p : PageId) (off : Nat) : Nat :=
  let i := p.inst
  let k := p.key + off
  let some' (b : Bool) (v : Nat) : Option Nat := if b then some v else none
  let v : Option Nat :=
    if off = 0 then some (pageIdWord p)
    else if off = 4 then some (pageCapWord p)
    else if off = 8 then some (s.fld k 0 1 + 16 * tagOf s p)
    else if off = 0xC then some (pageStatus s p)
    else if off = 0x18 then some (irqStatus s p)
    else if off = 0x20 then some (pageTxn s p)
    else if off < 0x40 then none
    else match p.ty with
      | .gen => if off = 0x44 then some (s.mir.get i).inst.code else if off = 0x50 then some (if (s.mir.get i).inst == .disabled then 0 else irqSummary s i) else none
      | .txn =>
        if off = 0x4C then some (openMask s i)
        else if 0xC0 ≤ off then (let t := slotOf s i ((off - 0xC0) / 4 + 1); some (fields [(0, t.opener.rid.toNat), (16, t.cookie)]))
        else if 0x80 ≤ off then some (slotReg (slotOf s i ((off - 0x80) / 8 + 1))) else none
      | .qm => some' ((p.idx == 0 && off == 0x108) || (p.idx == 1 && (off == 0x44 || off == 0x4C || off == 0x50)) || (p.idx == 2 && (off == 0x48 || off == 0x50 || off == 0x58))) (qmView s i p.idx off)
      | .dma => some' (0x4C ≤ off && off < 0x78) (dmaView s (chanId i p.idx) off)
      | .atu => if p.idx = 2 then some' (0x60 ≤ off && off < 0x90) (Tbl.getD s.spt ((off - 0x60) / 4) []).length
                else some' (p.idx == 0 && off == 0x58) (invActive s i)
      | .acc => if off = 0x10C then (let h := holdOf s i (s.fld (accR i 0x100) 0 3); some (fields [(0, h.st), (8, min 65535 (heldCount s i h))])) else none
      | .hlc =>
        if off = 0x48 then some (cachePortReg s i)
        else if off = 0x54 then some (s.hl i).lines.length
        else if off = 0x58 then some ((s.hl i).lines.filter fun e => e.2.st == .m).length else none
      | .stp => if off = 0x40 then some (siteStatus s (6 * i + p.idx)) else if off = 0x4C then some (siteUse s (6 * i + p.idx)) else none
      | .sch =>
        if p.idx = 0 then some' (0x140 ≤ off && off < 0x170) (schSiteUse s ((off - 0x140) / 4))
        else some' (off == 0x74) (s.sc i).dir.length
      | .ens => some' (off == 0x48 || (0x68 ≤ off && off ≤ 0x90)) (ensView s i off)
      | .kva => some' (off == 0x48 || off == 0x70 || off == 0x74 || off == 0x78 || off == 0x88 || off == 0x90) (kvaView s i off)
      | .vdm => some' (off == 0x48 || off == 0x88 || off == 0x94 || (0xC0 ≤ off && off < 0x100)) (vdmView s i off)
      | .vd => some' (off == 0x48 || off == 0x4C || off == 0x50 || off == 0x5C || off == 0x140) (vdView s i p.idx off)
      | .mir => if off = 0x40 then some (fields [(0, (s.mir.get i).pair.code), (4, (s.mir.get (partner i)).inst.code)]) else none
      | .cpi => some' (off == 0x40 || off == 0x44 || off == 0x48 || off == 0x4C) (cpiView s i off)
      | .sec =>
        if off = 0x40 then some s.fw.lifecycle
        else if off = 0x48 then some (fields [(0, s.fw.fuse), (8, s.fw.revoked)])
        else if off = 0x4C then some (spdmStatus s i)
        else if 0x50 ≤ off && off < 0x70 then some (idePort s ((off - 0x50) / 8)) else none
      | .hpc => if off = 0x40 then some (linkStatus (s.port p.idx)) else none
      | .xbar =>
        if off = 0x50 then some (groupStates s)
        else if off = 0x54 then some (fields ((List.range 4).map fun g => (4 * g, (s.group g).cause)))
        else if 0x60 ≤ off && off < 0x80 then some (tokenReg s a ((off - 0x60) / 8))
        else if off = 0x8C then (let x := s.r k; some (x + 2 ^ 16 * min 15 (s.group (bits x 4 2)).badTries)) else none
      | .flt => if off = 0xA8 || off = 0xB0 then some (cfView s off) else if off = 0xD8 then some (b2n (s.fw.lifecycle == 0)) else none
      | .pwr => some' (off == 0x78 || off == 0x1D0 || off == 0x1D8) (pwrView s off)
      | .prq => if off = 0x48 then some (prqStatus s i) else if off = 0x4C then some (prqWaiters s i) else none
      | .red => if off = 0x44 then some (s.r k / 2 ^ 16 * 2 ^ 16 + fields ((busyPipes s i).map fun p => (p, 1))) else none
      | .cb | .tsu | .dbg | .thr | .nvs => none
  v.getD (s.r k)

/-- What a read of a register returns: a WO register reads as zero (R59); of a bound page whose read_shadow is 1, the opener reads the
latest staged value of a staged register (R54). -/
def readReg (s : State) (a : Acc) (p : PageId) (r : RegRow) (off : Nat) : Nat :=
  let v := regView s a p off
  let v := v - (v &&& r.wo)
  match binder s p with
  | some (_, t) =>
    if t.openedBy a && s.fld (p.key + 0x20) 31 1 = 1 then
      match ((t.log.filter fun e => e.key == p.key + off).reverse).head? with
      | some e => (v - (v &&& e.mask)) + e.val
      | none => v
    else v
  | none => v

/-- The completion of a read, on the port it came in (R247, R249); a control processor's comes on none. -/
def answer (s : State) (a : Acc) (n v : Nat) : State := s.emit (.regData (if a.cp then none else some a.port.val) n v {})

/-- An access to the NVS page takes back a confirmation given before it (R477) (DEDUCED, log entry 27). -/
def unconfirm (s : State) (p : PageId) : State := if p.ty == .nvs then s.updNv fun n => { n with confirm := none } else s

/-- Whether IGX accepts an access of this offset and length (R56) (DEDUCED, log entry 14). -/
def goodAccess (off n : Nat) (be : Bool) : Bool :=
  be && ((n == 4 && aligned off 4) || (n == 8 && aligned off 8) ||
    (16 ≤ n && n ≤ 64 && n % 8 == 0 && aligned off 8 && off % 64 + n ≤ 64))

/-- A 4-byte read of an accepted access (R56, R58, R59): the low half of a 64-bit register captures its high half in the read latch; the next
access, if it is the read of that high half, returns what was captured; any other access empties the latch. `q` is the page addressed,
`p` the one whose registers it shows. What was captured is returned of XBAR.TOKENg too, whatever has become of its group (R92) (DEDUCED, log entry 170). -/
def read4 (s : State) (a : Acc) (q p : PageId) (off : Nat) : Nat × State :=
  let latch := Tbl.find s.rlatch p.key
  let s := { s with rlatch := Tbl.del s.rlatch p.key }
  match regAt p off with
  | none => (0, s.perr p 1)
  | some (r, o) =>
    if r.w = 4 then (if off = 0 then pageIdWord q else readReg s a p r o, s)
    else if o = off then
      let v := readReg s a p r o
      (v % 2 ^ 32, { s with rlatch := Tbl.put s.rlatch p.key (off, v / 2 ^ 32) })
    else match latch with
      | some (l, h) => (if l = o then h else readReg s a p r o / 2 ^ 32, s)
      | none => (readReg s a p r o / 2 ^ 32, s)

/-- An 8-byte read (R56, R59): a 64-bit register at once, else two 4-byte reads, the lower offset first. -/
def read8 (s : State) (a : Acc) (q p : PageId) (off : Nat) : Nat × State :=
  let two : Nat × State :=
    let lo := read4 s a q p off
    let hi := read4 lo.2 a q p (off + 4)
    (lo.1 + 2 ^ 32 * hi.1, hi.2)
  match regAt p off with
  | some (r, o) => if r.w = 8 && o = off then (readReg s a p r o, { s with rlatch := Tbl.del s.rlatch p.key }) else two
  | none => two

/-- The 8-byte reads of an access, in ascending offset order (R56): the bytes as one number, the first lowest. -/
def readAll (a : Acc) (q p : PageId) (off : Nat) : Nat → State → Nat × State
  | 0, s => (0, s)
  | n + 1, s =>
    let x := read8 s a q p off
    let y := readAll a q p (off + 8) n x.2
    (x.1 + 2 ^ 64 * y.1, y.2)

/-- What 4 bytes of a page that nobody serves read as: GEN of an instance disabled by strap its header and registers, else
GEN.INSTANCE_STATE RESETTING alone (R48, R446) (DEDUCED, log entry 26). -/
def bareRead4 (s : State) (a : Acc) (q : PageId) (off : Nat) : Nat :=
  if (s.mir.get q.inst).inst == .disabled then
    match regAt q off with
    | some (r, o) => if o = off then readReg s a q r off else 0
    | none => 0
  else if off = 0x44 then 3 else 0

/-- A read of `n` bytes of a page (R48, R56-R60): of a wrong size or alignment, zero and bad_access; behind an earlier write of the same
port to the page that waits, it waits too, as command `c`. -/
def readPage (s : State) (c : Instr) (a : Acc) (q : PageId) (off n : Nat) (be : Bool) : State :=
  if dropsWrites s q then
    answer s a n (if goodAccess off n be then (List.range (n / 4)).foldr (fun k x => bareRead4 s a q (off + 4 * k) + 2 ^ 32 * x) 0 else 0)
  else
    let p := homePage s q
    if readWaits s a p then holdW s a p c
    else
      let s := unconfirm s p
      if !goodAccess off n be then answer (({ s with rlatch := Tbl.del s.rlatch p.key } : State).perr p 0) a n 0
      else
        let r := if n = 4 then read4 s a q p off else readAll a q p off (n / 8) s
        answer r.2 a n r.1

/-- A read of `n` bytes at an offset of a BAR (R46, R56, R100): a callboard page, and an offset that holds no page, read as zero (R52). -/
def barRead (a : Acc) (bar : Bar) (off n : Nat) (be : Bool) (s : State) : State :=
  match (if bar == .bar2 then none else locate s (bar == .bar4) off) with
  | some p => readPage s (.splitReadLow a bar ⟨BitVec.ofNat 32 off, n, be⟩) a p (off % 0x1000) n be
  | none => answer s a n 0

/-- SPLIT_READ_LOW (R56, R58): a read of a BAR, of any size. -/
def execSplitReadLow (a : Acc) (bar : Bar) (r : ReadAt) (s : State) : Host.Outcome State Fault Refusal :=
  live s fun s => barRead a bar r.off.toNat r.n r.be s

end Sys2Proof.Machine
end

