-- ==== Sys2Proof/Machine/Pages.lean ====
section
/-! DEFINITION. Register writes (R56, R57, R59, R66): accesses cut into registers, split writes, the registers without a row of their own,
and the command registers, whose commands run as their rows state. -/
namespace Sys2Proof.Machine

/-! ### Writes to command registers -/

/-- What the outcome of one command leads on to. -/
def thenDo (o : Host.Outcome State Fault Refusal) (f : State → Host.Outcome State Fault Refusal) : Host.Outcome State Fault Refusal :=
  match o with
  | .next t => f t
  | .fault x => .fault x
  | .refused x => .refused x

/-- One of a list of commands by a code; none past its end. -/
def pick (l : List (Option Instr)) (n : Nat) : List Instr := ((l[n]?).bind id).toList

/-- Whether a page is bound and an access comes from the opener of its transaction. -/
def opens (s : State) (a : Acc) (p : PageId) : Bool := match binder s p with
  | some (_, t) => t.openedBy a
  | none => false

/-- The commands of a write to a register that has rows of its own, `none` for any other register. An op that takes what memory or a walk
answers as an operand is left to its row: no command stands for it here, but for the opener's write of ATU.PEER_IN to a bound page, which only
joins the log (DESIGN CHOICE, log entry 2). Of one write of STP.CMD, cap_read acts before link_reset (DESIGN CHOICE, log entry 174). -/
def rowCmds (s : State) (a : Acc) (p : PageId) (off v : Nat) : Option (List Instr) :=
  let i : Inst := Fin.ofNat 2 p.inst
  let w : W32 := BitVec.ofNat 32 v
  let x : W64 := BitVec.ofNat 64 v
  let spt (k : Fin 16) (q : Part) (op : Nat) : List Instr :=
    if op = 2 then [.sptUnload i a k q] else if op = 1 && 12 ≤ k.val then [.sptLoad i a k q []] else []
  match p.ty with
  | .txn =>
    if off = 0x40 then some [.txnBegin i a w] else if off = 0x44 then some [.txnCommit i a w]
    else if off = 0x48 then some [.txnRollback i a w] else if off = 0x58 then some [.txnBind i a w] else none
  | .cb => if off = 0x40 then some [.cbIndexedWrite i a (.full x)] else none
  | .qm =>
    if p.idx = 0 then
      if off = 0x44 then some (pick [none, some (.ctxRead i a), none, some (.ctxEnable i a.cp a.port a.rid), some (.ctxDisable i a), some (.ctxResume i a), some (.ctxReset i a),
        some (.ctxPin i a), some (.ctxUnpin i a)] (bits v 0 4))
      else if off = 0xE4 then some (pick [none, some (.vtRead i a), some (.vtWrite i a)] (bits v 0 2))
      else if off = 0xD0 then some [.vtBaseWrite i false a x] else if off = 0xD8 then some [.vtBaseWrite i true a x]
      else if off = 0x110 then some (if bitAt v 0 then [.haltPop i a] else []) else none
    else if p.idx = 1 then
      if off = 0x44 then some [.evtValueWrite i a w] else if off = 0x48 then some [.evtAdd i none a w] else none
    else none
  | .dma =>
    let c : Chan := Fin.ofNat 256 p.idx
    if off = 0x08 then some [.dmaEnableWrite i c a (bitAt v 0)] else if off = 0x40 then some [.chanCfgWrite i c a w]
    else if off = 0x44 then some [if bitAt v 0 then .channelPause i c a else .channelUnpause i c a]
    else if off = 0x48 then some ((if bitAt v 0 then [.clearHalt i c a] else []) ++ if bitAt v 1 then [.abort i c a] else []) else none
  | .atu =>
    if p.idx = 0 then
      if off = 0x44 then
        let lg : BitVec 6 := BitVec.ofNat 6 (bits v 8 6)
        some (pick [none, some (.daRange i a lg), some (.daPartition i a), some (.hostRange i a lg), some (.hostSpace i a), some (.hostGroup i a)] (bits v 0 3))
      else if 0x80 ≤ off && off < 0x100 then some [.ptRootWrite i (Fin.ofNat 16 ((off - 0x80) / 8)) a x] else none
    else if p.idx = 1 then
      if 0x800 ≤ off then some [.winWrite i (Fin.ofNat 16 ((off - 0x800) / 0x80)) (Fin.ofNat 16 ((off - 0x800) / 8)) a x] else none
    else if p.idx = 2 then
      if off = 0x44 then some (spt (Fin.ofNat 16 (bits v 8 4)) (Fin.ofNat 16 (bits v 12 4)) (bits v 0 2))
      else if 0x100 ≤ off && off < 0x140 then some (if bits v 0 8 = 0 || opens s a p then [.peerInWrite i (Fin.ofNat 16 ((off - 0x100) / 4)) a w []] else [])
      else if 0x400 ≤ off then some [.peerWindowWrite i (Fin.ofNat 16 ((off - 0x400) / 0x40)) (Fin.ofNat 8 ((off - 0x400) / 8)) a x] else none
    else if off = 0x44 then some (pick [none, some (.rtRead i a), some (.rtWrite i a)] (bits v 0 2))
    else if off = 0x88 then some [.convCtlWrite i a w] else none
  | .acc => if off = 0x104 then some (if bits v 0 2 = 1 then [.hold i a] else []) else none
  | .hlc =>
    let g : Group := Fin.ofNat 4 (bits v 4 2)
    if off = 0x40 then some [.groupCfgWrite i a w]
    else if off = 0x4C then some (pick [none, some (.clean i a g), some (.drop i a g)] (bits v 0 2))
    else if off = 0x5C then some ((onesOf v 12).map fun k => .deadSiteReadmit i a (Fin.ofNat 12 k)) else none
  | .stp =>
    let k : Site := Fin.ofNat 12 (6 * p.inst + p.idx)
    if off = 0x48 then some ((if bitAt v 1 then [.stpCapRead k a] else []) ++ if bitAt v 0 then [.linkReset k a] else []) else none
  | .sch =>
    if p.idx = 0 then
      if off = 0x44 then some (pick [none, some (.create i a), some (.destroy i a), some (.partRead i a)] (bits v 0 2))
      else if off = 0xC0 then some [.didtCfgWrite (some i) a w] else none
    else if off = 0x4C then some (pick [none, some (.define i a), some (.delete i a), some (.dirRead i a), some (.evict i a), some (.toHost i a),
      some (.clearDamage i a)] (bits v 0 3)) else none
  | .ens =>
    if off = 0x44 then some (pick [none, some (.enable i a), some (.disable i a)] (bits v 0 2))
    else if off = 0x58 then some [.ensCancel i a (.full x)] else none
  | .kva => if off = 0x44 then some (pick [none, some (.poolCreate i a), some (.poolDestroy i a), some (.poolRead i a)] (bits v 0 2)) else none
  | .vdm =>
    if off = 0x44 then some (pick [none, some (.vdCreate i a), some (.vdDestroy i a), some (.vdRead i a), some (.curtainDown i a), some (.curtainUp i a)] (bits v 0 3))
    else if off = 0x140 then some (if bitAt v 0 then [.mboxRespond i a] else []) else none
  | .vd =>
    let n : BitVec 12 := BitVec.ofNat 12 p.idx
    if off = 0x40 then some [.vdIndexedWrite i n a (.full x)] else if off = 0x60 then some [.evtAdd i (some n) a w]
    else if off = 0x140 then some (if bitAt v 0 then [.mboxSend i n a] else []) else none
  | .mir => if off = 0x44 then some (pick [none, some (.handover i a), some (.rejoin i a)] (bits v 0 2)) else none
  | .cpi => if off = 0x60 then some (pick [none, none, some (.activate i a), some (.discard i a), some (.commitSvn i a)] (bits v 0 3)) else none
  | .sec => if off = 0x44 then some [.lcCmd i a w] else none
  | .xbar =>
    let g : Group := Fin.ofNat 4 (bits v 4 2)
    if 0x40 ≤ off && off < 0x50 then some [.portCfgWrite (Fin.ofNat 4 ((off - 0x40) / 4)) a w]
    else if off = 0x88 then some (pick [none, some (.attach a g), some (.reattach a g), some (.force a g), some (.depart a g), some (.detach a g)] (bits v 0 3))
    else if off = 0x100 || off = 0x140 then some [.jrnlCfgWrite (Fin.ofNat 2 ((off - 0x100) / 0x40)) false a x]
    else if off = 0x108 || off = 0x148 then some [.jrnlCfgWrite (Fin.ofNat 2 ((off - 0x108) / 0x40)) true a x] else none
  | .pwr =>
    if off = 0x44 then some [.pkgBudgetWrite a w] else if off = 0x6C then some [.didtCfgWrite none a w]
    else if off = 0x200 then some [.poolConfiguration (some a) w] else if off = 0x204 then some [.poolTotal (some a) w] else none
  | .flt =>
    if off = 0x40 then some [.fltWordClear a x] else if off = 0x70 then some [.fltAck a w] else if off = 0xB8 then some (if bitAt v 0 then [.cfPop a] else [])
    else if off = 0xC0 then
      let k : Inst := Fin.ofNat 2 (bits v 4 1)
      some (pick [none, some (.sweep a k), some (.full a k)] (bits v 0 2))
    else if off = 0xD0 then some [.fltInject a (.full x)] else none
  | .nvs => if off = 0x40 then some (pick [none, none, none, some (.clearLog a), some (.restoreFactory a)] (bits v 0 3)) else none
  | .gen | .prq | .red | .tsu | .dbg | .hpc | .thr => none

/-- The commands of a half of a 64-bit WO register that has a row (R57, R99). -/
def halfCmds (a : Acc) (p : PageId) (off : Nat) (h : Half) : Option Instr :=
  let i : Inst := Fin.ofNat 2 p.inst
  match p.ty with
  | .cb => if off = 0x40 then some (.cbIndexedWrite i a h) else none
  | .vd => if off = 0x40 then some (.vdIndexedWrite i (BitVec.ofNat 12 p.idx) a h) else none
  | .ens => if off = 0x58 then some (.ensCancel i a h) else none
  | .flt => if off = 0xD0 then some (.fltInject a h) else none
  | _ => none

/-- FLT_INJECT (R452): a write of FLT.INJECT, whole or by halves. -/
def execFltInject (_a : Acc) (h : Half) (s : State) : Host.Outcome State Fault Refusal :=
  live s fun s => match takeHalf s fltPage 0xD0 h with
    | (s, some (some v)) => fltInject s v
    | (s, _) => s

/-- A register command carried out, as a write that waited or a part of a wider write leads to it. -/
def actCmd (c : Instr) (s : State) : Host.Outcome State Fault Refusal :=
  match c with
  | .txnBegin i a v => execTxnBegin i a v s | .txnCommit i a v => execTxnCommit i a v s | .txnRollback i a v => execTxnRollback i a v s
  | .txnBind i a v => execTxnBind i a v s | .cbIndexedWrite i a h => execCbIndexedWrite i a h s
  | .ctxRead i a => execCtxRead i a s | .ctxWrite i a vt => execCtxWrite i a vt s | .ctxEnable i cp port rid => execCtxEnable i cp port rid s
  | .ctxDisable i a => execCtxDisable i a s | .ctxResume i a => execCtxResume i a s | .ctxReset i a => execCtxReset i a s
  | .ctxPin i a => execCtxPin i a s | .ctxUnpin i a => execCtxUnpin i a s | .vtRead i a => execVtRead i a s | .vtWrite i a => execVtWrite i a s
  | .vtBaseWrite i b a v => execVtBaseWrite i b a v s | .regIrqRearm i a => execRegIrqRearm i a s | .haltPop i a => execHaltPop i a s
  | .evtValueWrite i a v => execEvtValueWrite i a v s | .evtAdd i d a v => execEvtAdd i d a v s
  | .dmaEnableWrite i c a b => execDmaEnableWrite i c a b s | .chanCfgWrite i c a v => execChanCfgWrite i c a v s
  | .channelPause i c a => execChannelPause i c a s | .channelUnpause i c a => execChannelUnpause i c a s
  | .abort i c a => execAbort i c a s | .clearHalt i c a => execClearHalt i c a s
  | .daRange i a l => execDaRange i a l s | .daPartition i a => execDaPartition i a s | .hostRange i a l => execHostRange i a l s
  | .hostSpace i a => execHostSpace i a s | .hostGroup i a => execHostGroup i a s | .ptRootWrite i p a v => execPtRootWrite i p a v s
  | .winWrite i p w a v => execWinWrite i p w a v s | .peerWindowWrite i p w a v => execPeerWindowWrite i p w a v s
  | .peerInWrite i p a v l => execPeerInWrite i p a v l s | .sptLoad i a k p l => execSptLoad i a k p l s
  | .sptUnload i a k p => execSptUnload i a k p s | .rtRead i a => execRtRead i a s | .rtWrite i a => execRtWrite i a s
  | .convCtlWrite i a v => execConvCtlWrite i a v s | .hold i a => execHold i a s | .release i a l => execRelease i a l s
  | .groupCfgWrite i a v => execGroupCfgWrite i a v s | .clean i a g => execClean i a g s | .drop i a g => execDrop i a g s
  | .deadSiteReadmit i a k => execDeadSiteReadmit i a k s | .linkReset k a => execLinkReset k a s | .stpCapRead k a => execStpCapRead k a s
  | .create i a => execCreate i a s | .destroy i a => execDestroy i a s | .partRead i a => execPartRead i a s
  | .define i a => execDefine i a s | .delete i a => execDelete i a s | .dirRead i a => execDirRead i a s | .evict i a => execEvict i a s
  | .toHost i a => execToHost i a s | .clearDamage i a => execClearDamage i a s | .enable i a => execEnable i a s
  | .disable i a => execDisable i a s | .ensCancel i a h => execEnsCancel i a h s | .poolCreate i a => execPoolCreate i a s
  | .poolDestroy i a => execPoolDestroy i a s | .poolRead i a => execPoolRead i a s
  | .vdCreate i a => execVdCreate i a s | .vdDestroy i a => execVdDestroy i a s | .vdRead i a => execVdRead i a s
  | .curtainDown i a => execCurtainDown i a s | .curtainUp i a => execCurtainUp i a s | .saveState i a d st => execSaveState i a d st s
  | .vdRestore i a d st => execVdRestore i a d st s | .mboxRespond i a => execMboxRespond i a s | .mboxSend i v a => execMboxSend i v a s
  | .vdIndexedWrite i v a h => execVdIndexedWrite i v a h s | .didtCfgWrite w a v => execDidtCfgWrite w a v s
  | .handover i a => execHandover i a s | .rejoin i a => execRejoin i a s | .stage i a m => execStage i a m s | .activate i a => execActivate i a s
  | .discard i a => execDiscard i a s | .commitSvn i a => execCommitSvn i a s | .lcCmd i a v => execLcCmd i a v s
  | .portCfgWrite n a v => execPortCfgWrite n a v s | .jrnlCfgWrite i b a v => execJrnlCfgWrite i b a v s
  | .attach a g => execAttach a g s | .reattach a g => execReattach a g s | .force a g => execForce a g s | .depart a g => execDepart a g s
  | .detach a g => execDetach a g s | .pkgBudgetWrite a v => execPkgBudgetWrite a v s | .poolConfiguration a v => execPoolConfiguration a v s
  | .poolTotal a v => execPoolTotal a v s | .fltWordClear a v => execFltWordClear a v s | .fltAck a v => execFltAck a v s
  | .cfPop a => execCfPop a s | .sweep a i => execSweep a i s | .full a i => execFull a i s | .fltInject a h => execFltInject a h s
  | .clearLog a => execClearLog a s | .restoreFactory a => execRestoreFactory a s | .fltIrqRearm a => execFltIrqRearm a s
  | _ => .next s

/-- Commands carried out in order. -/
def actCmds (l : List Instr) (s : State) : Host.Outcome State Fault Refusal := l.foldl (fun o c => thenDo o (actCmd c)) (.next s)

/-- A command register written with an op that its table does not list, by command `c`: BAD_OP where the register's results hold it,
cmd_refused while busy or for MIG_CMD, else without effect. `none` for a listed op and any other register (DEDUCED, log entry 18). -/
def badOp (s : State) (c : Instr) (a : Acc) (p : PageId) (off v : Nat) : Option (Host.Outcome State Fault Refusal) :=
  let i : Inst := Fin.ofNat 2 p.inst
  let n := bits v 0 3
  match p.ty with
  | .qm =>
    if p.idx != 0 then none
    else if off = 0x44 && (bits v 0 4 = 0 || 8 < bits v 0 4) then some (ctxCmd s i a c fun s q => ctxEnd s i q 0x14 false)
    else if off = 0xE4 && (bits v 0 2 = 0 || bits v 0 2 = 3) then some (vtCmd s i a c fun s _ => s.setR (qmR i 0 0xE8) 0x1400) else none
  | .atu =>
    if p.idx = 0 && off = 0x44 && (n = 0 || 5 < n) then some (cmdD s i a p c (fun s => s.fld (atuR i 0 0x4C) 0 1 = 1) fun s =>
      if s.fld (atuR i 0 0x4C) 0 1 = 1 then s.perr p 16 else s.setR (atuR i 0 0x4C) 0x1400)
    else if p.idx = 2 && off = 0x44 && (bits v 0 2 = 0 || bits v 0 2 = 3) then some (sptCmd s i a c id)
    else if p.idx = 3 && off = 0x44 && (bits v 0 2 = 0 || bits v 0 2 = 3) then some (cmdD s i a p c (fun s => s.fld (atuR i 3 0x48) 0 1 = 1) fun s =>
      if s.fld (atuR i 3 0x48) 0 1 = 1 then s else s.setR (atuR i 3 0x48) 0x1400) else none
  | .acc => if off = 0x104 && (bits v 0 2 = 0 || bits v 0 2 = 3) then some (cmdD s i a p c (fun _ => true) fun s => s.perr p 16) else none
  | .hlc => if off = 0x4C && (bits v 0 2 = 0 || bits v 0 2 = 3) then some (cmdD s i a p c (fun s => hlcBusy s i) fun s => hlcFlush s i (bits v 0 2) (bits v 4 2)) else none
  | .sch =>
    if p.idx = 0 && off = 0x44 && bits v 0 2 = 0 then some (partCmd s i a c fun s _ => partEnd s i 0x14 false)
    else if p.idx = 1 && off = 0x4C && (n = 0 || n = 7) then some (dirCmd s i a c fun s _ => dirEnd s i 0x14 false) else none
  | .ens => if off = 0x44 && (bits v 0 2 = 0 || bits v 0 2 = 3) then some (ensCmd s i a c fun s _ => ensEnd s i 0x14 false) else none
  | .kva => if off = 0x44 && bits v 0 2 = 0 then some (poolCmd s i a c fun s _ => poolEnd s i 0x14 false) else none
  | .vdm => if off = 0x44 && n = 0 then some (vdCmd s i a c fun s _ => vdEnd s i 0x14 false) else none
  | .stp =>
    let k := 6 * i.val + p.idx
    if off = 0x48 && v % 4 = 0 then some (cmdD s i a p c (fun s => linkBusy s k) fun s => if linkBusy s k then s.perr p 16 else s) else none
  | .mir => if off = 0x44 && (bits v 0 2 = 0 || bits v 0 2 = 3) then some (cmdD s i a p c (fun _ => true) fun s => if s.fld (mirR i 0x48) 0 1 = 1 then s.perr p 16 else s) else none
  | .cpi => if off = 0x60 && (n = 0 || 4 < n) then some (updCmd s i a c 0 fun s => updEnd s 0x1A) else none
  | .flt => if off = 0xC0 && (bits v 0 2 = 0 || bits v 0 2 = 3) then some (live s fun s => if s.flt.bist.isSome then ({ s with rlatch := Tbl.del s.rlatch p.key } : State).perr p 17 else clearLatches s p) else none
  | .nvs => if off = 0x40 && (n = 0 || 4 < n) then some (live s fun s => nvCmd s fun s => nvEnd s 0x14) else none
  | _ => none

/-! ### Registers without a row -/

/-- Whether a register is ignored while its engine is busy: context and vector registers (R114), VD registers (R392), a mailbox (R381). -/
def busyReg (s : State) (p : PageId) (off : Nat) : Bool :=
  match p.ty with
  | .qm => p.idx == 0 &&
      (((off == 0x40 || (0x80 ≤ off && off < 0xC0)) && s.fld (qmR p.inst 0 0x48) 0 1 == 1) ||
       ((off == 0xE0 || off == 0xF0 || off == 0xF8) && s.fld (qmR p.inst 0 0xE8) 0 1 == 1))
  | .vdm => (off == 0x40 || (0x50 ≤ off && off < 0x78)) && s.fld (vdmR p.inst 0x48) 0 1 == 1
  | .vd => 0xC0 ≤ off && off < 0x100 && (s.vd p.inst p.idx).mbox
  | _ => false

/-- Whether a value of an ENS register changes pool, lanes or BATCH_DA of an ensemble that is not OFF (R372) (DEDUCED, log entry 19). -/
def ensFrozen (s : State) (i off v : Nat) : Bool :=
  let p := (off - 0x400) / 0x40
  let o := (off - 0x400) % 0x40
  0x400 ≤ off && off < 0x800 && (o == 0 || o == 0x30) && (Tbl.getD (s.en i).recs p ({} : EnsRec)).st != 0 && s.r (ensR i off) != v

/-- The PAGE_ERR bit of a write that a register's rule refuses (R240, R349, R372, R373, R422); none where it is accepted. `v` is the value
the register would take. -/
def refusedW (s : State) (p : PageId) (off v : Nat) : Option Nat :=
  let i := p.inst
  let when' (b : Bool) (n : Nat) : Option Nat := if b then some n else none
  match p.ty with
  | .acc =>
    let on := s.fld (accR i 0x40) 0 2 != 0
    if off = 0x50 then when' on 17 else if off = 0x58 then when' (on || v < 6 || 16 < v) 17 else none
  | .sch => when' (p.idx == 1 && off == 0x40 && !(s.sc i).parts.isEmpty) 17
  | .ens => when' (ensFrozen s i off v || (off == 0x50 && (s.en i).recs.any fun e => e.2.st != 0)) 17
  | .kva => when' (off == 0x80 && !(s.en i).pools.isEmpty) 17
  | .pwr => when' (off == 0x74 && 20 < v) 16
  | _ => none

/-- The bits of a W1C register whose condition still holds (R423) (DEDUCED, log entry 20). -/
def stuckBits (s : State) (p : PageId) (off : Nat) : Nat :=
  if p.ty == .thr && off == 0x44 then
    fields [(0, b2n s.lev.warn), (1, b2n s.lev.crit), (2, b2n s.lev.brake), (4, b2n ((budgetTerm s).1 < 800))]
  else 0

/-- What else a register write does: engines that keep the value themselves, budgets that change levels, NVS.CONFIRM, re-arming,
MSI-X messages that were held. -/
def afterW (s : State) (a : Acc) (p : PageId) (off v : Nat) : State :=
  let i := p.inst
  match p.ty with
  | .qm =>
    if p.idx = 0 && off = 0x100 && bitAt v 8 then (if irqSummary s i != 0 then sendMsix s (s.fld (qmR i 0 0x100) 0 4) i else s)
    else if p.idx = 1 && off = 0x4C then (let n := s.fld (qmR i 1 0x40) 0 12; setEvt s i n { evtCtr s i n with owner := v &&& 0x8001FFFF })
    else s
  | .kva => if off = 0x6C then updPoolRec s i (s.fld (kvaR i 0x40) 0 4) fun k => { k with reserve := bits v 0 23 } else s
  | .pwr =>
    let k := s.fld (pwrR 0x1C8) 0 4
    let c := Tbl.getD s.lev.coef k (0, 0)
    if off = 0x40 || off = 0x4C then settleLevels (holdLimit s)
    else if off = 0x1D0 then s.updLev fun l => { l with coef := Tbl.put l.coef k (v, c.2) }
    else if off = 0x1D8 then s.updLev fun l => { l with coef := Tbl.put l.coef k (c.1, bits v 0 12) }
    else s
  | .hpc => if 0x800 ≤ off && off < 0xA00 && off % 16 = 12 then sendPending s p.idx else s
  | .flt => if off = 0x60 && bitAt v 8 then fltRearm s else s
  | .nvs => if off = 0x5C then s.updNv fun n => { n with confirm := if v = 0xFAC7 then some (portCode a) else none } else s
  | _ => s

/-- Whether the value of a register is kept by its engine and not under its own address. -/
def enginesOwn (p : PageId) (off : Nat) : Bool :=
  (p.ty == .qm && p.idx == 1 && off == 0x4C) || (p.ty == .pwr && (off == 0x1D0 || off == 0x1D8))

/-- Whether a register's own rule drops a write: its engine is busy, or the value is refused. -/
def storeRefused (s : State) (p : PageId) (r : RegRow) (off v : Nat) : Bool :=
  let m := r.rw ||| r.ns ||| (if p.ty == .xbar && off == 0x80 then r.wo else 0)
  let old := s.r (p.key + off)
  busyReg s p off || (refusedW s p off (old - (old &&& m) + (v &&& m))).isSome

/-- A register takes a value, as on an unbound page: its RW bits (R15), its W1C bits, a WO value that is kept; or the write is refused (DEDUCED, log entry 122). -/
def storeReg (s : State) (a : Acc) (p : PageId) (r : RegRow) (off v : Nat) : State :=
  let k := p.key + off
  let m := r.rw ||| r.ns ||| (if p.ty == .xbar && off == 0x80 then r.wo else 0)
  let old := s.r k
  let new := old - (old &&& m) + (v &&& m)
  if busyReg s p off then s
  else match refusedW s p off new with
    | some b => s.perr p b
    | none =>
      let c := v &&& r.w1c
      let c := c - (c &&& stuckBits s p off)
      afterW (if enginesOwn p off then s else s.setR k (new - (new &&& c))) a p off v

/-- Whether every field of a register is RO (R59). PAGE_CTL, PAGE_ERR, their masks and PAGE_TXN have a writable field on every page. -/
def allRo (r : RegRow) (off : Nat) : Bool :=
  r.rw ||| r.ns ||| r.w1c ||| r.wo == 0 && !(off == 0x08 || (0x10 ≤ off && off < 0x24))

/-- A write of a whole register by command `c` (R59, R66). -/
def writeReg (s : State) (c : Instr) (a : Acc) (p : PageId) (r : RegRow) (off v : Nat) : Host.Outcome State Fault Refusal :=
  match badOp s c a p off v with
  | some o => o
  | none => match rowCmds s a p off v with
    | some [] => done s (clearLatches s p)
    | some l => actCmds l s
    | none =>
      if allRo r off then done s (({ s with rlatch := Tbl.del s.rlatch p.key } : State).perr p 2)
      else
        let m := if p.stageable then r.rw else 0
        let rest := r.ns ||| r.w1c ||| r.wo
        done s (dropIf (stageDrops s a p m rest (storeRefused s p r off v)) s (stageW (clearLatches s p) a p off r.w m rest v fun s v => storeReg s a p r off v))

/-- A 32-bit write of half a 64-bit register (R57): the low half waits in the split latch; the high half takes it, or the live low half. A
WO register has no live low half: its high half alone is dropped; W1C bits of the low half are not written. A half that a busy engine ignores
leaves the latch alone. -/
def writeHalf (s : State) (c : Instr) (a : Acc) (p : PageId) (r : RegRow) (off : Nat) (high : Bool) (v : Nat) : Host.Outcome State Fault Refusal :=
  let w : W32 := BitVec.ofNat 32 v
  match halfCmds a p off (if high then .high w else .low w) with
  | some k => actCmd k s
  | none =>
    if allRo r off then done s (({ s with rlatch := Tbl.del s.rlatch p.key } : State).perr p 2)
    else if !high then
      done s (if busyReg s p off then { s with rlatch := Tbl.del s.rlatch p.key } else { clearLatches s p with wlatch := Tbl.put s.wlatch p.key (off, v) })
    else
      let latched := match Tbl.find s.wlatch p.key with
        | some (o, l) => if o = off then some l else none
        | none => none
      match latched with
      | some l => writeReg s c a p r off (l + 2 ^ 32 * v)
      | none =>
        if r.wo != 0 then done s { s with rlatch := Tbl.del s.rlatch p.key }
        else
          let low := regView s a p off % 2 ^ 32
          writeReg s c a p r off (low - (low &&& r.w1c) + 2 ^ 32 * v)

/-- An aligned 4-byte write (R56, R59) (DEDUCED, log entry 15). -/
def write4 (s : State) (c : Instr) (a : Acc) (p : PageId) (off v : Nat) : Host.Outcome State Fault Refusal :=
  match regAt p off with
  | none => done s (({ s with rlatch := Tbl.del s.rlatch p.key } : State).perr p 1)
  | some (r, o) => if r.w = 4 then writeReg s c a p r o v else writeHalf s c a p r o (off != o) v

/-- An aligned 8-byte write (R59): a 64-bit register at once, else two 4-byte writes, the lower offset first. -/
def write8 (s : State) (c : Instr) (a : Acc) (p : PageId) (off v : Nat) : Host.Outcome State Fault Refusal :=
  let two : Host.Outcome State Fault Refusal := thenDo (write4 s c a p off (v % 2 ^ 32)) fun s => write4 s c a p (off + 4) (v / 2 ^ 32)
  match regAt p off with
  | some (r, o) => if r.w = 8 && o = off then writeReg s c a p r o v else two
  | none => two

/-- The 8-byte writes of an access, in ascending order (R56). -/
def writeAll (c : Instr) (a : Acc) (p : PageId) (off : Nat) : Nat → List Byte → State → Host.Outcome State Fault Refusal
  | 0, _, s => .next s
  | n + 1, bs, s => thenDo (write8 s c a p off (leNat (bs.take 8))) (writeAll c a p (off + 8) n (bs.drop 8))

/-- A register write by command `c` (R56-R59, R66): absent pages drop it (R52), a page that nobody serves too (R446); a wrong size or
alignment sets bad_access, a foreign one on a bound page too (DESIGN CHOICE, log entry 156); on a bound page a foreign host write is dropped
whole, a write to a held function waits. -/
def registerWrite (c : Instr) (a : Acc) (bar4 : Bool) (off : Nat) (data : List Byte) (be : Bool) (s : State) : Host.Outcome State Fault Refusal :=
  if s.held then .next s
  else match locate s bar4 off with
  | none => .next s
  | some q =>
    if dropsWrites s q then .next s
    else
      let p := homePage s q
      let t := unconfirm s p
      let o := off % 0x1000
      if !goodAccess o data.length be then done s (({ t with rlatch := Tbl.del t.rlatch p.key } : State).perr p 0)
      else match meets s a p with
        | .foreign => done s (foreignWrite t p)
        | .waits => done s (holdW t a p c)
        | .acts =>
          let t := if p.ty == .nvs && o = 0x40 then s else t
          if data.length = 4 then write4 t c a p o (leNat data) else writeAll c a p o (data.length / 8) data t

/-- REGISTER_WRITE (R56). -/
def execRegisterWrite (a : Acc) (bar4 : Bool) (off : BitVec 32) (data : List Byte) (be : Bool) (s : State) : Host.Outcome State Fault Refusal :=
  registerWrite (.registerWrite a bar4 off data be) a bar4 off.toNat data be s

/-! ### Held accesses (R60, R69) -/

/-- An access that waited for a function, now that it is released; a doorbell keeps the owner of its page when it arrived (R97). -/
def runHeld (h : HeldAcc) (s : State) : Host.Outcome State Fault Refusal :=
  match h.cmd with
  | .registerWrite a bar4 off data be => registerWrite h.cmd a bar4 off.toNat data be s
  | .splitReadLow a bar r => execSplitReadLow a bar r s
  | .doorbell p bar4 off data be => live s fun s => doorbells s p.val bar4 off.toNat data be h.owner
  | _ => actCmd h.cmd s

/-- The accesses that waited at an instance, after its functions are released (R60, R69): in order. -/
def replayHeld (i : Nat) (s : State) : Host.Outcome State Fault Refusal :=
  let l := (s.txn.get i).held
  if l.isEmpty then .next s
  else thenDo (l.foldl (fun o h => thenDo o (runHeld h)) (.next { s with txn := s.txn.upd i fun x => { x with held := [], late := true } })) fun s =>
    .next { s with txn := s.txn.upd i fun x => { x with late := false } }

/-- An outcome followed by the accesses that waited at either instance. -/
def withHeld (o : Host.Outcome State Fault Refusal) : Host.Outcome State Fault Refusal := thenDo (thenDo o (replayHeld 0)) (replayHeld 1)

end Sys2Proof.Machine
end

