-- ==== Sys2Proof/Machine/Links.lean ====
section
/-! DEFINITION. What ends a commit or releases held functions: the commit itself (R68, R69), port events (R82-R88), faults and lost
clocks (R41, R424-R430), the mirror channel and takeover (R435-R447). Each lets the writes that waited act (R69). -/
namespace Sys2Proof.Machine

/-! ### The commit (R68, R69) -/

/-- The first pass (R68): a staged register whose compared bits changed since its first entry. -/
def changed (s : State) (e : TxnEntry) : Bool := (s.r e.key &&& e.mask) != e.base

/-- The validity checks of the owning chapters (R135, R219, R220, R372 and the registers that refuse a value). -/
def entryOk (s : State) (e : TxnEntry) : Bool :=
  match entryAt s e with
  | none => true
  | some (p, off, v) =>
    match p.ty with
    | .dma => off != 0x40 || bits v 16 12 != 0
    | .atu =>
      if p.idx = 1 && 0x800 ≤ off then winOk v
      else if p.idx = 2 && 0x400 ≤ off then peerOk s p.inst v else true
    | _ => (refusedW s p off v).isNone

/-- A commit that a check stops: nothing is applied; the result, and the register of the entry as fail_offset (DEDUCED, log entry 23). -/
def commitFails (s : State) (i tag result : Nat) (e : TxnEntry) : State :=
  updSlot (txnEnd s i tag result false) i tag fun t => { t with failOff := e.key }

/-- A commit applied: every entry in log order; the pages unbound; COMMITTED once the partner holds it, until when the log is kept (R68, R72)
(DEDUCED, log entry 24). -/
def commitApply (s : State) (i tag : Nat) (peer : List (Part × Leaf)) : State :=
  let log := (slotOf s i tag).log
  let s := log.foldl (applyEntry peer) s
  let s := updSlot (txnUnbind s i tag) i tag fun t => { t with applied := true, log }
  s.report i [.txn tag]

/-- The pages of a tag. -/
def TxnSlot.pageIds (t : TxnSlot) : List PageId := t.pages.filterMap pageOfKey

/-- The commit at the front of its instance's queue handled (R68). A bound function that is not at its safe point keeps it waiting. -/
def commitProcess (s : State) (i : Nat) (peer : List (Part × Leaf)) : State :=
  match (s.txn.get i).queue with
  | [] => s
  | tag :: _ =>
    let t := slotOf s i tag
    if t.failed then txnEnd s i tag t.result false
    else if !(t.pageIds.all (safePoint s)) then s
    else match t.log.find? (changed s) with
      | some e => commitFails s i tag 0x15 e
      | none => match t.log.find? fun e => !entryOk s e with
        | some e => commitFails s i tag 0x16 e
        | none => commitApply s i tag peer

/-- TXN_COMMIT_PROCESS (R68). `peer` are the peer pages of the partitions whose ATU.PEER_INp the log holds (R197). -/
def execTxnCommitProcess (i : Inst) (peer : List (Part × Leaf)) (s : State) : Host.Outcome State Fault Refusal :=
  withHeld (liveI s i.val fun s => commitProcess s i.val peer)

/-- The wait for a safe point ends (R68): NO_SAFE_POINT, and every held function is released. -/
def safeWaitEnds (s : State) (i : Nat) : State :=
  match (s.txn.get i).queue with
  | [] => s
  | tag :: _ =>
    let t := slotOf s i tag
    if t.failed || t.pageIds.all (safePoint s) then s else txnEnd s i tag 0x14 false

/-- TXN_SAFE_WAIT_EXPIRY (R68). -/
def execTxnSafeWaitExpiry (i : Inst) (s : State) : Host.Outcome State Fault Refusal := withHeld (liveI s i.val fun s => safeWaitEnds s i.val)

/-! ### Port events (R82-R86) -/

/-- RETRAIN_LIMIT_EXPIRY (R84): a retrain takes too long. -/
def execRetrainLimitExpiry (p : Port) (un : BitVec 8) (s : State) : Host.Outcome State Fault Refusal :=
  withHeld (live s fun s => if (s.port p.val).link == .retrain then portLinkDown s p.val un.toNat else s)

/-- LINK_DOWN (R84, R86). -/
def execLinkDown (p : Port) (un : BitVec 8) (s : State) : Host.Outcome State Fault Refusal := withHeld (live s fun s => portLinkDown s p.val un.toNat)

/-- PERST on a port (R84, R472, R478, R492): its group is ABSENT whatever its other ports do (DEDUCED, log entry 115). -/
def perstAssert (s : State) (p un : Nat) : State :=
  if (s.port p).perst then s
  else
    let s := portFalls (groupAbsent (endPortSessions s p) (groupOf s p) 2) p un .reset
    let s := s.updPort p fun x => { x with perst := true, rate := 0, width := 0, cxl := false, configOnly := false }
    (linkEvent (fnReset (hpcReset s p) p) p 5 20).satFld (hpcR p 0x48) 24 8 1

/-- PERST_ASSERT (R84); while reset is held only the HPC acts on the pin (R43). -/
def execPerstAssert (p : Port) (un : BitVec 8) (s : State) : Host.Outcome State Fault Refusal :=
  if s.held then .next (perstHeld s p.val true) else withHeld (live s fun s => perstAssert s p.val un.toNat)

/-- A port's function reset by FLR or on entering D3hot (R84, R492): the link stays trained, in state FLR (R82). -/
def functionReset (s : State) (p code : Nat) : State :=
  if (s.port p).link == .up || (s.port p).link == .retrain || (s.port p).link == .flr then
    linkEvent (setLink (fnReset (portGone (groupAbsent s (groupOf s p) 3) p) p) p .flr) p code 21
  else s

/-- FLR (R84). -/
def execFlr (p : Port) (s : State) : Host.Outcome State Fault Refusal := withHeld (live s fun s => functionReset s p.val 7)

/-- D3HOT_ENTRY (R84). -/
def execD3hotEntry (p : Port) (s : State) : Host.Outcome State Fault Refusal := withHeld (live s fun s => functionReset s p.val 8)

/-- An IDE check fails on a stream in use (R472, R480): the stream is Insecure, and the port goes down. -/
def ideFails (s : State) (p stream un : Nat) : State :=
  let x := ideOf s p stream
  if !x.secure then s
  else
    let s := bothInst (setIde s p stream { x with insecure := true }) fun s i => s.bump (secR i 0x70) 1
    portLinkDown (faultEvent s (32 + p) 1 { kind := 3, idx := p } none) p un

/-- IDE_CHECK_FAILURE (R472). -/
def execIdeCheckFailure (p : Port) (stream : Fin 9) (un : BitVec 8) (s : State) : Host.Outcome State Fault Refusal :=
  withHeld (live s fun s => ideFails s p.val stream.val un.toNat)

/-! ### Faults (R41, R424-R430) -/

/-- FAULT_EVENT (R427): an event of any source with its report. An island in reset holds its error pin inactive (R45). -/
def execFaultEvent (src : Fin 64) (r : ErrReport) (s : State) : Host.Outcome State Fault Refusal :=
  withHeld (aon s fun s => if src.val < 40 && islandHeld s src.val then s else errorEvent s src.val r.cls.val (reportOf r) r.hit)

/-- ISLAND_ERROR_PIN (R425): AON reads an island's error report; the pin of an island in reset is inactive (R45). -/
def execIslandErrorPin (k : Island) (r : ErrReport) (s : State) : Host.Outcome State Fault Refusal :=
  withHeld (aon s fun s => if islandHeld s k.val then s else errorEvent s k.val r.cls.val (reportOf r) r.hit)

/-- ISLAND_REPORT_TIMEOUT (R425): a silent pin is FATAL for the island's instance, or for the hub where the island is shared, as the STP islands
are (R37) (DEDUCED, log entry 155). -/
def execIslandReportTimeout (k : Island) (s : State) : Host.Outcome State Fault Refusal :=
  withHeld (aon s fun s => if islandHeld s k.val then s else faultEvent s k.val 2 { idx := k.val } (if sharedIsland k.val then none else srcInst k.val))

/-- CLOCK_LOST (R41). -/
def execClockLost (k : Island) (s : State) : Host.Outcome State Fault Refusal := withHeld (live s fun s => clockLost s k.val)

/-! ### The pair (R435-R446) -/

/-- The oldest change that an instance sent is held by the partner (R437): what waited for it becomes visible. -/
def changeHeld (s : State) (i : Nat) : State :=
  let m := s.mir.get i
  match m.pair, m.wait with
  | .prot, r :: rest => applyReport i (s.updMir i fun m => { m with wait := rest }) r
  | _, _ => s

/-- MIRROR_CHANGE_HELD (R437). -/
def execMirrorChangeHeld (i : Inst) (s : State) : Host.Outcome State Fault Refusal :=
  live s fun s => if alive s i.val then changeHeld s i.val else s

/-- TAKEOVER (R440, R447). -/
def execTakeover (i : Inst) (s : State) : Host.Outcome State Fault Refusal := withHeld (live s fun s => takeover s i.val)

/-- MIRROR_SYNCED (R435): also the switch back of a REJOIN. -/
def execMirrorSynced (s : State) : Host.Outcome State Fault Refusal := withHeld (live s mirrorSynced)

/-- INSTANCE_RESET_END (R445, R446, R451). -/
def execInstanceResetEnd (i : Inst) (ok : Bool) (s : State) : Host.Outcome State Fault Refusal :=
  withHeld (live s fun s => instanceResetEnd s i.val ok)

end Sys2Proof.Machine
end

