-- ==== Sys2Proof/Machine/Dispatch.lean ====
section
/-! DEFINITION. The effect of each command on everything but the queue: one arm per row of the opcode table. -/
namespace Sys2Proof.Machine

def exec (i : Instr) (s : State) : Host.Outcome State Fault Refusal :=
  match i with
  | .registerWrite a bar4 off data be => Sys2Proof.Machine.execRegisterWrite a bar4 off data be s
  | .splitReadLow a bar r => Sys2Proof.Machine.execSplitReadLow a bar r s
  | .txnBegin i0 a v => Sys2Proof.Machine.execTxnBegin i0 a v s
  | .txnBind i0 a v => Sys2Proof.Machine.execTxnBind i0 a v s
  | .txnCommit i0 a v => Sys2Proof.Machine.execTxnCommit i0 a v s
  | .txnRollback i0 a v => Sys2Proof.Machine.execTxnRollback i0 a v s
  | .portCfgWrite n a v => Sys2Proof.Machine.execPortCfgWrite n a v s
  | .jrnlCfgWrite i0 isSize a v => Sys2Proof.Machine.execJrnlCfgWrite i0 isSize a v s
  | .attach a g => Sys2Proof.Machine.execAttach a g s
  | .reattach a g => Sys2Proof.Machine.execReattach a g s
  | .force a g => Sys2Proof.Machine.execForce a g s
  | .depart a g => Sys2Proof.Machine.execDepart a g s
  | .detach a g => Sys2Proof.Machine.execDetach a g s
  | .cbIndexedWrite i0 a h => Sys2Proof.Machine.execCbIndexedWrite i0 a h s
  | .vdIndexedWrite i0 vd a h => Sys2Proof.Machine.execVdIndexedWrite i0 vd a h s
  | .ctxRead i0 a => Sys2Proof.Machine.execCtxRead i0 a s
  | .ctxWrite i0 a vt => Sys2Proof.Machine.execCtxWrite i0 a vt s
  | .ctxEnable i0 cp port rid => Sys2Proof.Machine.execCtxEnable i0 cp port rid s
  | .ctxDisable i0 a => Sys2Proof.Machine.execCtxDisable i0 a s
  | .ctxResume i0 a => Sys2Proof.Machine.execCtxResume i0 a s
  | .ctxReset i0 a => Sys2Proof.Machine.execCtxReset i0 a s
  | .ctxPin i0 a => Sys2Proof.Machine.execCtxPin i0 a s
  | .ctxUnpin i0 a => Sys2Proof.Machine.execCtxUnpin i0 a s
  | .vtRead i0 a => Sys2Proof.Machine.execVtRead i0 a s
  | .vtWrite i0 a => Sys2Proof.Machine.execVtWrite i0 a s
  | .vtBaseWrite i0 isVt a v => Sys2Proof.Machine.execVtBaseWrite i0 isVt a v s
  | .regIrqRearm i0 a => Sys2Proof.Machine.execRegIrqRearm i0 a s
  | .haltPop i0 a => Sys2Proof.Machine.execHaltPop i0 a s
  | .evtValueWrite i0 a v => Sys2Proof.Machine.execEvtValueWrite i0 a v s
  | .evtAdd i0 vd a v => Sys2Proof.Machine.execEvtAdd i0 vd a v s
  | .dmaEnableWrite i0 c a en => Sys2Proof.Machine.execDmaEnableWrite i0 c a en s
  | .chanCfgWrite i0 c a v => Sys2Proof.Machine.execChanCfgWrite i0 c a v s
  | .channelPause i0 c a => Sys2Proof.Machine.execChannelPause i0 c a s
  | .channelUnpause i0 c a => Sys2Proof.Machine.execChannelUnpause i0 c a s
  | .abort i0 c a => Sys2Proof.Machine.execAbort i0 c a s
  | .clearHalt i0 c a => Sys2Proof.Machine.execClearHalt i0 c a s
  | .daRange i0 a lg => Sys2Proof.Machine.execDaRange i0 a lg s
  | .daPartition i0 a => Sys2Proof.Machine.execDaPartition i0 a s
  | .hostRange i0 a lg => Sys2Proof.Machine.execHostRange i0 a lg s
  | .hostSpace i0 a => Sys2Proof.Machine.execHostSpace i0 a s
  | .hostGroup i0 a => Sys2Proof.Machine.execHostGroup i0 a s
  | .ptRootWrite i0 part a v => Sys2Proof.Machine.execPtRootWrite i0 part a v s
  | .winWrite i0 part w a v => Sys2Proof.Machine.execWinWrite i0 part w a v s
  | .peerWindowWrite i0 part w a v => Sys2Proof.Machine.execPeerWindowWrite i0 part w a v s
  | .peerInWrite i0 part a v leaves => Sys2Proof.Machine.execPeerInWrite i0 part a v leaves s
  | .sptLoad i0 a site part leaves => Sys2Proof.Machine.execSptLoad i0 a site part leaves s
  | .sptUnload i0 a site part => Sys2Proof.Machine.execSptUnload i0 a site part s
  | .rtRead i0 a => Sys2Proof.Machine.execRtRead i0 a s
  | .rtWrite i0 a => Sys2Proof.Machine.execRtWrite i0 a s
  | .convCtlWrite i0 a v => Sys2Proof.Machine.execConvCtlWrite i0 a v s
  | .hold i0 a => Sys2Proof.Machine.execHold i0 a s
  | .release i0 a leaves => Sys2Proof.Machine.execRelease i0 a leaves s
  | .clean i0 a g => Sys2Proof.Machine.execClean i0 a g s
  | .drop i0 a g => Sys2Proof.Machine.execDrop i0 a g s
  | .deadSiteReadmit i0 a k => Sys2Proof.Machine.execDeadSiteReadmit i0 a k s
  | .groupCfgWrite i0 a v => Sys2Proof.Machine.execGroupCfgWrite i0 a v s
  | .linkReset k a => Sys2Proof.Machine.execLinkReset k a s
  | .stpCapRead k a => Sys2Proof.Machine.execStpCapRead k a s
  | .create i0 a => Sys2Proof.Machine.execCreate i0 a s
  | .destroy i0 a => Sys2Proof.Machine.execDestroy i0 a s
  | .partRead i0 a => Sys2Proof.Machine.execPartRead i0 a s
  | .define i0 a => Sys2Proof.Machine.execDefine i0 a s
  | .delete i0 a => Sys2Proof.Machine.execDelete i0 a s
  | .dirRead i0 a => Sys2Proof.Machine.execDirRead i0 a s
  | .evict i0 a => Sys2Proof.Machine.execEvict i0 a s
  | .toHost i0 a => Sys2Proof.Machine.execToHost i0 a s
  | .clearDamage i0 a => Sys2Proof.Machine.execClearDamage i0 a s
  | .enable i0 a => Sys2Proof.Machine.execEnable i0 a s
  | .disable i0 a => Sys2Proof.Machine.execDisable i0 a s
  | .ensCancel i0 a h => Sys2Proof.Machine.execEnsCancel i0 a h s
  | .poolCreate i0 a => Sys2Proof.Machine.execPoolCreate i0 a s
  | .poolDestroy i0 a => Sys2Proof.Machine.execPoolDestroy i0 a s
  | .poolRead i0 a => Sys2Proof.Machine.execPoolRead i0 a s
  | .vdCreate i0 a => Sys2Proof.Machine.execVdCreate i0 a s
  | .vdDestroy i0 a => Sys2Proof.Machine.execVdDestroy i0 a s
  | .vdRead i0 a => Sys2Proof.Machine.execVdRead i0 a s
  | .curtainDown i0 a => Sys2Proof.Machine.execCurtainDown i0 a s
  | .curtainUp i0 a => Sys2Proof.Machine.execCurtainUp i0 a s
  | .saveState i0 a data st => Sys2Proof.Machine.execSaveState i0 a data st s
  | .vdRestore i0 a img st => Sys2Proof.Machine.execVdRestore i0 a img st s
  | .mboxSend i0 v a => Sys2Proof.Machine.execMboxSend i0 v a s
  | .mboxRespond i0 a => Sys2Proof.Machine.execMboxRespond i0 a s
  | .pkgBudgetWrite a v => Sys2Proof.Machine.execPkgBudgetWrite a v s
  | .didtCfgWrite wave a v => Sys2Proof.Machine.execDidtCfgWrite wave a v s
  | .fltAck a v => Sys2Proof.Machine.execFltAck a v s
  | .fltWordClear a v => Sys2Proof.Machine.execFltWordClear a v s
  | .fltIrqRearm a => Sys2Proof.Machine.execFltIrqRearm a s
  | .cfPop a => Sys2Proof.Machine.execCfPop a s
  | .sweep a i0 => Sys2Proof.Machine.execSweep a i0 s
  | .full a i0 => Sys2Proof.Machine.execFull a i0 s
  | .fltInject a h => Sys2Proof.Machine.execFltInject a h s
  | .handover i0 a => Sys2Proof.Machine.execHandover i0 a s
  | .rejoin i0 a => Sys2Proof.Machine.execRejoin i0 a s
  | .stage i0 a m => Sys2Proof.Machine.execStage i0 a m s
  | .activate i0 a => Sys2Proof.Machine.execActivate i0 a s
  | .discard i0 a => Sys2Proof.Machine.execDiscard i0 a s
  | .commitSvn i0 a => Sys2Proof.Machine.execCommitSvn i0 a s
  | .lcCmd i0 a v => Sys2Proof.Machine.execLcCmd i0 a v s
  | .read a region st => Sys2Proof.Machine.execRead a region st s
  | .writeRecord a region body st => Sys2Proof.Machine.execWriteRecord a region body st s
  | .clearLog a => Sys2Proof.Machine.execClearLog a s
  | .restoreFactory a => Sys2Proof.Machine.execRestoreFactory a s
  | .txnCommitProcess i0 peer => Sys2Proof.Machine.execTxnCommitProcess i0 peer s
  | .txnSafeWaitExpiry i0 => Sys2Proof.Machine.execTxnSafeWaitExpiry i0 s
  | .txnTimeout i0 tag => Sys2Proof.Machine.execTxnTimeout i0 tag s
  | .mirrorChangeHeld i0 => Sys2Proof.Machine.execMirrorChangeHeld i0 s
  | .siteOwnerChange k => Sys2Proof.Machine.execSiteOwnerChange k s
  | .clockLost k => Sys2Proof.Machine.execClockLost k s
  | .islandErrorPin k r => Sys2Proof.Machine.execIslandErrorPin k r s
  | .islandReportTimeout k => Sys2Proof.Machine.execIslandReportTimeout k s
  | .linkRetrainStart p => Sys2Proof.Machine.execLinkRetrainStart p s
  | .linkRetrainEnd p => Sys2Proof.Machine.execLinkRetrainEnd p s
  | .retrainLimitExpiry p un => Sys2Proof.Machine.execRetrainLimitExpiry p un s
  | .linkDown p un => Sys2Proof.Machine.execLinkDown p un s
  | .linkUp p rate width cxl => Sys2Proof.Machine.execLinkUp p rate width cxl s
  | .perstAssert p un => Sys2Proof.Machine.execPerstAssert p un s
  | .perstRelease p => Sys2Proof.Machine.execPerstRelease p s
  | .flr p => Sys2Proof.Machine.execFlr p s
  | .d3hotEntry p => Sys2Proof.Machine.execD3hotEntry p s
  | .completionTimeout p th tl => Sys2Proof.Machine.execCompletionTimeout p th tl s
  | .reattachCopyDone => Sys2Proof.Machine.execReattachCopyDone s
  | .reattachCopyFault endOfBuf => Sys2Proof.Machine.execReattachCopyFault endOfBuf s
  | .absenceLimitExpiry g => Sys2Proof.Machine.execAbsenceLimitExpiry g s
  | .doorbell p bar4 off data be => Sys2Proof.Machine.execDoorbell p bar4 off data be s
  | .contextFillDone i0 r => Sys2Proof.Machine.execContextFillDone i0 r s
  | .descriptorFetch i0 => Sys2Proof.Machine.execDescriptorFetch i0 s
  | .descriptorReadReturn i0 q data r => Sys2Proof.Machine.execDescriptorReadReturn i0 q data r s
  | .aheadRetryTimer i0 q => Sys2Proof.Machine.execAheadRetryTimer i0 q s
  | .aheadLimitExpiry i0 q => Sys2Proof.Machine.execAheadLimitExpiry i0 q s
  | .aheadPollTimer i0 q => Sys2Proof.Machine.execAheadPollTimer i0 q s
  | .aheadTimeout i0 q => Sys2Proof.Machine.execAheadTimeout i0 q s
  | .queueDrainEnd i0 q => Sys2Proof.Machine.execQueueDrainEnd i0 q s
  | .positionStart i0 q => Sys2Proof.Machine.execPositionStart i0 q s
  | .descriptorStart i0 c => Sys2Proof.Machine.execDescriptorStart i0 c s
  | .dmaRequestIssue i0 c write => Sys2Proof.Machine.execDmaRequestIssue i0 c write s
  | .nocReadResponse i0 tag data st press => Sys2Proof.Machine.execNocReadResponse i0 tag data st press s
  | .nocWriteResponse i0 slot st press => Sys2Proof.Machine.execNocWriteResponse i0 slot st press s
  | .hostCompletion p th tl data st => Sys2Proof.Machine.execHostCompletion p th tl data st s
  | .hostWriteAck i0 slot => Sys2Proof.Machine.execHostWriteAck i0 slot s
  | .keystoneIssue i0 c => Sys2Proof.Machine.execKeystoneIssue i0 c s
  | .jobEnd i0 c => Sys2Proof.Machine.execJobEnd i0 c s
  | .completionRecordWrite i0 q vt => Sys2Proof.Machine.execCompletionRecordWrite i0 q vt s
  | .irqTimerExpiry i0 q vt => Sys2Proof.Machine.execIrqTimerExpiry i0 q vt s
  | .vectorReadRetry i0 vec r => Sys2Proof.Machine.execVectorReadRetry i0 vec r s
  | .eventSignalApply i0 q => Sys2Proof.Machine.execEventSignalApply i0 q s
  | .eventWake i0 n => Sys2Proof.Machine.execEventWake i0 n s
  | .channelDrained i0 c => Sys2Proof.Machine.execChannelDrained i0 c s
  | .channelPaused i0 c => Sys2Proof.Machine.execChannelPaused i0 c s
  | .channelHalted i0 c => Sys2Proof.Machine.execChannelHalted i0 c s
  | .pressureDecay i0 nif cls => Sys2Proof.Machine.execPressureDecay i0 nif cls s
  | .interlockGrant i0 c => Sys2Proof.Machine.execInterlockGrant i0 c s
  | .stagedPhaseB i0 c => Sys2Proof.Machine.execStagedPhaseB i0 c s
  | .arrivePoll i0 c k => Sys2Proof.Machine.execArrivePoll i0 c k s
  | .arriveTimeout i0 c => Sys2Proof.Machine.execArriveTimeout i0 c s
  | .pretranslate i0 q => Sys2Proof.Machine.execPretranslate i0 q s
  | .walkStart i0 => Sys2Proof.Machine.execWalkStart i0 s
  | .walkReadResponse i0 part addr ent r => Sys2Proof.Machine.execWalkReadResponse i0 part addr ent r s
  | .translationRequest i0 => Sys2Proof.Machine.execTranslationRequest i0 s
  | .translationCompletion i0 g pasid chunk t st => Sys2Proof.Machine.execTranslationCompletion i0 g pasid chunk t st s
  | .atsInvalidateRequest p itag pasid glob addr log2 => Sys2Proof.Machine.execAtsInvalidateRequest p itag pasid glob addr log2 s
  | .invalidationAccept i0 => Sys2Proof.Machine.execInvalidationAccept i0 s
  | .drainTimeout i0 e => Sys2Proof.Machine.execDrainTimeout i0 e s
  | .invalidationComplete i0 e leaves => Sys2Proof.Machine.execInvalidationComplete i0 e leaves s
  | .siteInvAck k leaves => Sys2Proof.Machine.execSiteInvAck k leaves s
  | .siteInvTimeout k leaves => Sys2Proof.Machine.execSiteInvTimeout k leaves s
  | .rtWriteDone i0 => Sys2Proof.Machine.execRtWriteDone i0 s
  | .pageRequestSend i0 => Sys2Proof.Machine.execPageRequestSend i0 s
  | .prgResponse p pasid idx code => Sys2Proof.Machine.execPrgResponse p pasid idx code s
  | .prqTimeout i0 n => Sys2Proof.Machine.execPrqTimeout i0 n s
  | .accInterval i0 => Sys2Proof.Machine.execAccInterval i0 s
  | .quiet i0 h => Sys2Proof.Machine.execQuiet i0 h s
  | .migLimitExpiry i0 h => Sys2Proof.Machine.execMigLimitExpiry i0 h s
  | .hlcAccess i0 st => Sys2Proof.Machine.execHlcAccess i0 st s
  | .stationRead k slot tag ctag addr so => Sys2Proof.Machine.execStationRead k slot tag ctag addr so s
  | .stationOwn k slot tag ctag addr so => Sys2Proof.Machine.execStationOwn k slot tag ctag addr so s
  | .wbDirty k g l data => Sys2Proof.Machine.execWbDirty k g l data s
  | .evictClean k g l => Sys2Proof.Machine.execEvictClean k g l s
  | .cxlGo g hpa shared data poison => Sys2Proof.Machine.execCxlGo g hpa shared data poison s
  | .cxlGoTimeout g hpa => Sys2Proof.Machine.execCxlGoTimeout g hpa s
  | .snpInv p hpa => Sys2Proof.Machine.execSnpInv p hpa s
  | .snpData p hpa => Sys2Proof.Machine.execSnpData p hpa s
  | .snpCur p hpa => Sys2Proof.Machine.execSnpCur p hpa s
  | .snpRsp k tag op g hpa data => Sys2Proof.Machine.execSnpRsp k tag op g hpa data s
  | .homeTimeout k tag => Sys2Proof.Machine.execHomeTimeout k tag s
  | .hlcFlushDone i0 => Sys2Proof.Machine.execHlcFlushDone i0 s
  | .hostFlush k slot job => Sys2Proof.Machine.execHostFlush k slot job s
  | .hostFlushed k slot => Sys2Proof.Machine.execHostFlushed k slot s
  | .siteLinkUp k rate width => Sys2Proof.Machine.execSiteLinkUp k rate width s
  | .capData k block => Sys2Proof.Machine.execCapData k block s
  | .flitCrcError k bytes => Sys2Proof.Machine.execFlitCrcError k bytes s
  | .nak k n => Sys2Proof.Machine.execNak k n s
  | .laneFailure k dir half => Sys2Proof.Machine.execLaneFailure k dir half s
  | .siteRetrainEnd k => Sys2Proof.Machine.execSiteRetrainEnd k s
  | .siteRetrainLimit k => Sys2Proof.Machine.execSiteRetrainLimit k s
  | .siteLinkDown k => Sys2Proof.Machine.execSiteLinkDown k s
  | .unknownFrame k => Sys2Proof.Machine.execUnknownFrame k s
  | .accept k slot job => Sys2Proof.Machine.execAccept k slot job s
  | .commitBegin k slot job => Sys2Proof.Machine.execCommitBegin k slot job s
  | .commitEnd k slot job arg marks st => Sys2Proof.Machine.execCommitEnd k slot job arg marks st s
  | .preemptRsp k slot job result arg => Sys2Proof.Machine.execPreemptRsp k slot job result arg s
  | .opDone k job result code win => Sys2Proof.Machine.execOpDone k job result code win s
  | .cmdError k slot job code engine addr => Sys2Proof.Machine.execCmdError k slot job code engine addr s
  | .stateRsp k codes => Sys2Proof.Machine.execStateRsp k codes s
  | .activity k counts => Sys2Proof.Machine.execActivity k counts s
  | .stationFault k cls code detail => Sys2Proof.Machine.execStationFault k cls code detail s
  | .siteErr k => Sys2Proof.Machine.execSiteErr k s
  | .siteDroop k => Sys2Proof.Machine.execSiteDroop k s
  | .stationAllowanceExpiry k slot => Sys2Proof.Machine.execStationAllowanceExpiry k slot s
  | .killAllowanceExpiry k slot => Sys2Proof.Machine.execKillAllowanceExpiry k slot s
  | .purgeTimeout k => Sys2Proof.Machine.execPurgeTimeout k s
  | .stationDispatch i0 => Sys2Proof.Machine.execStationDispatch i0 s
  | .sliceEnd i0 j => Sys2Proof.Machine.execSliceEnd i0 j s
  | .lcPreempt i0 => Sys2Proof.Machine.execLcPreempt i0 s
  | .preemptedResume i0 j => Sys2Proof.Machine.execPreemptedResume i0 j s
  | .barrierWave i0 part id => Sys2Proof.Machine.execBarrierWave i0 part id s
  | .barrierTimeout i0 part id => Sys2Proof.Machine.execBarrierTimeout i0 part id s
  | .didtInterval i0 => Sys2Proof.Machine.execDidtInterval i0 s
  | .sequenceIntake i0 q => Sys2Proof.Machine.execSequenceIntake i0 q s
  | .stepCompose i0 p lane st => Sys2Proof.Machine.execStepCompose i0 p lane st s
  | .curtainClosed i0 v => Sys2Proof.Machine.execCurtainClosed i0 v s
  | .curtainLate i0 v => Sys2Proof.Machine.execCurtainLate i0 v s
  | .vdSnapshot => Sys2Proof.Machine.execVdSnapshot s
  | .powerPolicyStep r => Sys2Proof.Machine.execPowerPolicyStep r s
  | .imonSample raws => Sys2Proof.Machine.execImonSample raws s
  | .ioutWarning rail on => Sys2Proof.Machine.execIoutWarning rail on s
  | .calCheck => Sys2Proof.Machine.execCalCheck s
  | .levelRampStep d => Sys2Proof.Machine.execLevelRampStep d s
  | .hubDroop => Sys2Proof.Machine.execHubDroop s
  | .droopHoldExpiry d => Sys2Proof.Machine.execDroopHoldExpiry d s
  | .droopStormExpiry d => Sys2Proof.Machine.execDroopStormExpiry d s
  | .tempUpdate zones => Sys2Proof.Machine.execTempUpdate zones s
  | .thermtrip => Sys2Proof.Machine.execThermtrip s
  | .brake => Sys2Proof.Machine.execBrake s
  | .brakeRelease => Sys2Proof.Machine.execBrakeRelease s
  | .packageBudget v => Sys2Proof.Machine.execPackageBudget v s
  | .budgetSource inBand => Sys2Proof.Machine.execBudgetSource inBand s
  | .poolTotal a v => Sys2Proof.Machine.execPoolTotal a v s
  | .poolConfiguration a v => Sys2Proof.Machine.execPoolConfiguration a v s
  | .pldmSensorRead id => Sys2Proof.Machine.execPldmSensorRead id s
  | .poolEpochEnd => Sys2Proof.Machine.execPoolEpochEnd s
  | .poolDecision rs => Sys2Proof.Machine.execPoolDecision rs s
  | .poolRecordTimeout => Sys2Proof.Machine.execPoolRecordTimeout s
  | .poolMailboxTick ns => Sys2Proof.Machine.execPoolMailboxTick ns s
  | .faultEvent src r => Sys2Proof.Machine.execFaultEvent src r s
  | .graceExpiry => Sys2Proof.Machine.execGraceExpiry s
  | .sweepDone passed => Sys2Proof.Machine.execSweepDone passed s
  | .patrolScrub i0 isl addr fixed => Sys2Proof.Machine.execPatrolScrub i0 isl addr fixed s
  | .bankFailure i0 what n => Sys2Proof.Machine.execBankFailure i0 what n s
  | .heartbeatLoss i0 sch => Sys2Proof.Machine.execHeartbeatLoss i0 sch s
  | .takeover i0 => Sys2Proof.Machine.execTakeover i0 s
  | .instanceResetEnd i0 ok => Sys2Proof.Machine.execInstanceResetEnd i0 ok s
  | .mirrorLinkLost => Sys2Proof.Machine.execMirrorLinkLost s
  | .mirrorSynced => Sys2Proof.Machine.execMirrorSynced s
  | .handoverTimeout i0 => Sys2Proof.Machine.execHandoverTimeout i0 s
  | .watchdogRestart i0 => Sys2Proof.Machine.execWatchdogRestart i0 s
  | .watchdogWarning i0 => Sys2Proof.Machine.execWatchdogWarning i0 s
  | .watchdogExpiry i0 => Sys2Proof.Machine.execWatchdogExpiry i0 s
  | .interruptTake i0 c => Sys2Proof.Machine.execInterruptTake i0 c s
  | .endOfInterrupt i0 => Sys2Proof.Machine.execEndOfInterrupt i0 s
  | .wait i0 c => Sys2Proof.Machine.execWait i0 c s
  | .cpWake i0 c => Sys2Proof.Machine.execCpWake i0 c s
  | .housekeepingTick i0 => Sys2Proof.Machine.execHousekeepingTick i0 s
  | .getVersion p => Sys2Proof.Machine.execGetVersion p s
  | .getCapabilities p ver => Sys2Proof.Machine.execGetCapabilities p ver s
  | .negotiateAlgorithms p common => Sys2Proof.Machine.execNegotiateAlgorithms p common s
  | .getDigests p => Sys2Proof.Machine.execGetDigests p s
  | .getCertificate p slot off len => Sys2Proof.Machine.execGetCertificate p slot off len s
  | .challenge p slot nonce => Sys2Proof.Machine.execChallenge p slot nonce s
  | .getMeasurements p idx sign slot nonce => Sys2Proof.Machine.execGetMeasurements p idx sign slot nonce s
  | .keyExchange p slot req => Sys2Proof.Machine.execKeyExchange p slot req s
  | .finish p sid ok => Sys2Proof.Machine.execFinish p sid ok s
  | .heartbeat p sid => Sys2Proof.Machine.execHeartbeat p sid s
  | .keyUpdate p sid op => Sys2Proof.Machine.execKeyUpdate p sid op s
  | .endSession p sid => Sys2Proof.Machine.execEndSession p sid s
  | .query p sid port => Sys2Proof.Machine.execQuery p sid port s
  | .keyProg p sid stream kset rx sub => Sys2Proof.Machine.execKeyProg p sid stream kset rx sub s
  | .kSetGo p sid stream kset rx sub => Sys2Proof.Machine.execKSetGo p sid stream kset rx sub s
  | .kSetStop p sid stream kset rx sub => Sys2Proof.Machine.execKSetStop p sid stream kset rx sub s
  | .ideCheckFailure p stream un => Sys2Proof.Machine.execIdeCheckFailure p stream un s
  | .flashOpDone ok => Sys2Proof.Machine.execFlashOpDone ok s
  | .nvInhibitLift => Sys2Proof.Machine.execNvInhibitLift s
  | .nvInhibitTimeout => Sys2Proof.Machine.execNvInhibitTimeout s
  | .recoveryImage m => Sys2Proof.Machine.execRecoveryImage m s
  | .hubPorAssert => Sys2Proof.Machine.execHubPorAssert s
  | .hubPorRelease boot en pair => Sys2Proof.Machine.execHubPorRelease boot en pair s
  | .warmResetAssert => Sys2Proof.Machine.execWarmResetAssert s
  | .warmResetRelease => Sys2Proof.Machine.execWarmResetRelease s
  | .hbmReady => Sys2Proof.Machine.execHbmReady s
  | .bootSelftestDone i0 ok flash => Sys2Proof.Machine.execBootSelftestDone i0 ok flash s
  | .imageVerifyDone i0 m => Sys2Proof.Machine.execImageVerifyDone i0 m s
  | .fwInitDone i0 fixed cal => Sys2Proof.Machine.execFwInitDone i0 fixed cal s
  | .smbusArp addr => Sys2Proof.Machine.execSmbusArp addr s
  | .entdaa addr => Sys2Proof.Machine.execEntdaa addr s
  | .i3cBroadcast => Sys2Proof.Machine.execI3cBroadcast s
  | .configurationWrite p c => Sys2Proof.Machine.execConfigurationWrite p c s
  | .mirrorLinkUp => Sys2Proof.Machine.execMirrorLinkUp s
  | .clockReturn k => Sys2Proof.Machine.execClockReturn k s
  | .droopEnd d => Sys2Proof.Machine.execDroopEnd d s
  | .idleFlit k ack cmd snp => Sys2Proof.Machine.execIdleFlit k ack cmd snp s
  | .ptmInterval p t => Sys2Proof.Machine.execPtmInterval p t s
  | .sensorRecovery => Sys2Proof.Machine.execSensorRecovery s
  | .partnerTagEvict i0 => Sys2Proof.Machine.execPartnerTagEvict i0 s

end Sys2Proof.Machine
end

