-- ==== Sys2Proof/Machine/Step.lean ====
section
/-! DEFINITION. One step: the command at the front of the queue runs; on an empty queue the block idles. -/
namespace Sys2Proof.Machine

/-- The TSUs one nanosecond later; that of an instance disabled by strap has no power (R37). -/
def tsuTick (s : State) : Two Nat :=
  let tick (i : Nat) : Nat := if (s.mir.get i).inst == .disabled then s.tsu.get i else (s.tsu.get i + 1) % 2 ^ 64
  ⟨tick 0, tick 1⟩

/-- The block idles (DESIGN CHOICE, log entry 1): where no reset is held its clocks go on by one nanosecond, and at each microsecond
the durations of the throttle reasons in force go on by one (R423). -/
def idle (s : State) : State :=
  if s.held then s
  else
    let s := { s with tsu := tsuTick s }
    if s.hubTime % 1000 = 0 then durTick s else s

/-- One step of the machine (DESIGN CHOICE, log entries 7, 120 and 123) (DESIGN CHOICE, log entry 7, DESIGN CHOICE, log entry 120, DESIGN CHOICE, log entry 123). -/
def step (s : State) : Host.Outcome State Fault Refusal :=
  match s.pending with
  | [] => .next (idle s)
  | c :: rest => exec c { s with pending := rest }

/-- The state with the command that a word spells at the front of its queue; unchanged where the word spells none. -/
def State.withFetchWord (s : State) (nbits w : Nat) : State :=
  match decodeTableWord nbits w with
  | some c => { s with pending := c :: s.pending }
  | none => s

end Sys2Proof.Machine
end

