-- ==== Sys2Proof/WellFormed.lean ====
section
/-! DEFINITION. Which commands the outside world can send: accesses within their BAR, requesters of the control processor without a
port, payloads of the length that their frame or message has. A command that is not well formed meets the same meanings; only
claims are restricted by it. -/
namespace Sys2Proof

/-- The control processor has no port and no requester ID (R62, R63). -/
def Acc.wf (a : Acc) : Bool := !a.cp || (a.port == 0 && a.rid == 0)

/-- Whether a byte offset lies in BAR0 (32 MiB) or BAR4 (512 MiB; R46). -/
def barOk (bar4 : Bool) (off : Nat) : Bool := if bar4 then off < 2 ^ 29 else off < 2 ^ 25

/-- Whether a byte offset lies in a BAR, BAR2 having 16 MiB (R46). -/
def Bar.ok (b : Bar) (off : Nat) : Bool := if b == .bar2 then off < 2 ^ 24 else barOk (b == .bar4) off

/-- A leaf of the device page tables covers an aligned page (R198). -/
def Leaf.wf (l : Leaf) : Bool := l.base.toNat % 2 ^ l.log2 == 0

/-- A Translation Completion covers an aligned range of at least 4 KiB (R201). -/
def HostLeaf.wf (t : HostLeaf) : Bool := 12 ≤ t.log2 && t.log2 ≤ 64 && t.taddr.toNat % 2 ^ t.log2 == 0

/-- A host request of a station moves at least one byte (R302). -/
def StReq.wf (r : StReq) : Bool :=
  match r.op with
  | .rd n => 0 < n
  | .wr bs => !bs.isEmpty
  | .atomic .. | .invalid _ => true

/-- Well-formed commands. -/
def Instr.wf (c : Instr) : Bool :=
  match c with
  | .registerWrite a bar4 off data _ => a.wf && 0 < data.length && data.length ≤ 512 && barOk bar4 off.toNat
  | .splitReadLow a bar r => a.wf && 0 < r.n && r.n ≤ 4096 && bar.ok r.off.toNat
  | .txnBegin _ a _ => a.wf
  | .txnBind _ a _ => a.wf
  | .txnCommit _ a _ => a.wf
  | .txnRollback _ a _ => a.wf
  | .portCfgWrite _ a _ => a.wf
  | .jrnlCfgWrite _ _ a _ => a.wf
  | .attach a _ => a.wf
  | .reattach a _ => a.wf
  | .force a _ => a.wf
  | .depart a _ => a.wf
  | .detach a _ => a.wf
  | .cbIndexedWrite _ a _ => a.wf
  | .vdIndexedWrite _ _ a _ => a.wf
  | .ctxRead _ a => a.wf
  | .ctxWrite _ a _ => a.wf
  | .ctxEnable _ cp port rid => Acc.wf ⟨cp, port, rid⟩
  | .ctxDisable _ a => a.wf
  | .ctxResume _ a => a.wf
  | .ctxReset _ a => a.wf
  | .ctxPin _ a => a.wf
  | .ctxUnpin _ a => a.wf
  | .vtRead _ a => a.wf
  | .vtWrite _ a => a.wf
  | .vtBaseWrite _ _ a _ => a.wf
  | .regIrqRearm _ a => a.wf
  | .haltPop _ a => a.wf
  | .evtValueWrite _ a _ => a.wf
  | .evtAdd _ _ a _ => a.wf
  | .dmaEnableWrite _ _ a _ => a.wf
  | .chanCfgWrite _ _ a _ => a.wf
  | .channelPause _ _ a => a.wf
  | .channelUnpause _ _ a => a.wf
  | .abort _ _ a => a.wf
  | .clearHalt _ _ a => a.wf
  | .daRange _ a _ => a.wf
  | .daPartition _ a => a.wf
  | .hostRange _ a _ => a.wf
  | .hostSpace _ a => a.wf
  | .hostGroup _ a => a.wf
  | .ptRootWrite _ _ a _ => a.wf
  | .winWrite _ _ _ a _ => a.wf
  | .peerWindowWrite _ _ _ a _ => a.wf
  | .peerInWrite _ _ a _ leaves => a.wf && leaves.all Leaf.wf
  | .sptLoad _ a _ _ leaves => a.wf && leaves.all Leaf.wf
  | .sptUnload _ a _ _ => a.wf
  | .rtRead _ a => a.wf
  | .rtWrite _ a => a.wf
  | .convCtlWrite _ a _ => a.wf
  | .hold _ a => a.wf
  | .release _ a leaves => a.wf && leaves.all Leaf.wf
  | .clean _ a _ => a.wf
  | .drop _ a _ => a.wf
  | .deadSiteReadmit _ a _ => a.wf
  | .groupCfgWrite _ a _ => a.wf
  | .linkReset _ a => a.wf
  | .stpCapRead _ a => a.wf
  | .create _ a => a.wf
  | .destroy _ a => a.wf
  | .partRead _ a => a.wf
  | .define _ a => a.wf
  | .delete _ a => a.wf
  | .dirRead _ a => a.wf
  | .evict _ a => a.wf
  | .toHost _ a => a.wf
  | .clearDamage _ a => a.wf
  | .enable _ a => a.wf
  | .disable _ a => a.wf
  | .ensCancel _ a _ => a.wf
  | .poolCreate _ a => a.wf
  | .poolDestroy _ a => a.wf
  | .poolRead _ a => a.wf
  | .vdCreate _ a => a.wf
  | .vdDestroy _ a => a.wf
  | .vdRead _ a => a.wf
  | .curtainDown _ a => a.wf
  | .curtainUp _ a => a.wf
  | .saveState _ a _ _ => a.wf
  | .vdRestore _ a _ _ => a.wf
  | .mboxSend _ _ a => a.wf
  | .mboxRespond _ a => a.wf
  | .pkgBudgetWrite a _ => a.wf
  | .didtCfgWrite _ a _ => a.wf
  | .fltAck a _ => a.wf
  | .fltWordClear a _ => a.wf
  | .fltIrqRearm a => a.wf
  | .cfPop a => a.wf
  | .sweep a _ => a.wf
  | .full a _ => a.wf
  | .fltInject a _ => a.wf
  | .handover _ a => a.wf
  | .rejoin _ a => a.wf
  | .stage _ a _ => a.wf
  | .activate _ a => a.wf
  | .discard _ a => a.wf
  | .commitSvn _ a => a.wf
  | .lcCmd _ a _ => a.wf
  | .read a _ _ => a.wf
  | .writeRecord a _ _ _ => a.wf
  | .clearLog a => a.wf
  | .restoreFactory a => a.wf
  | .txnCommitProcess _ peer => peer.all fun e => e.2.wf
  | .txnSafeWaitExpiry _ => true
  | .txnTimeout _ tag => 1 ≤ tag.toNat && tag.toNat ≤ 8
  | .mirrorChangeHeld _ => true
  | .siteOwnerChange _ => true
  | .clockLost _ => true
  | .islandErrorPin _ _ => true
  | .islandReportTimeout _ => true
  | .linkRetrainStart _ => true
  | .linkRetrainEnd _ => true
  | .retrainLimitExpiry _ _ => true
  | .linkDown _ _ => true
  | .linkUp _ rate width _ => 0 < rate.val && [1, 2, 4, 8, 16].contains width.val
  | .perstAssert _ _ => true
  | .perstRelease _ => true
  | .flr _ => true
  | .d3hotEntry _ => true
  | .completionTimeout _ _ _ => true
  | .reattachCopyDone => true
  | .reattachCopyFault _ => true
  | .absenceLimitExpiry _ => true
  | .doorbell _ bar4 off data _ => (0 < data.length && data.length ≤ 512 && (bar4 || off.toNat < 2 ^ 24))
  | .contextFillDone _ _ => true
  | .descriptorFetch _ => true
  | .descriptorReadReturn _ _ data r => (r.st != .ok || data.length == 64)
  | .aheadRetryTimer _ _ => true
  | .aheadLimitExpiry _ _ => true
  | .aheadPollTimer _ _ => true
  | .aheadTimeout _ _ => true
  | .queueDrainEnd _ _ => true
  | .positionStart _ _ => true
  | .descriptorStart _ _ => true
  | .dmaRequestIssue _ _ _ => true
  | .nocReadResponse _ _ _ _ _ => true
  | .nocWriteResponse _ _ _ _ => true
  | .hostCompletion _ _ _ _ _ => true
  | .hostWriteAck _ _ => true
  | .keystoneIssue _ _ => true
  | .jobEnd _ _ => true
  | .completionRecordWrite _ _ _ => true
  | .irqTimerExpiry _ _ _ => true
  | .vectorReadRetry _ _ _ => true
  | .eventSignalApply _ _ => true
  | .eventWake _ _ => true
  | .channelDrained _ _ => true
  | .channelPaused _ _ => true
  | .channelHalted _ _ => true
  | .pressureDecay _ _ _ => true
  | .interlockGrant _ _ => true
  | .stagedPhaseB _ _ => true
  | .arrivePoll _ _ _ => true
  | .arriveTimeout _ _ => true
  | .pretranslate _ _ => true
  | .walkStart _ => true
  | .walkReadResponse _ _ _ _ _ => true
  | .translationRequest _ => true
  | .translationCompletion _ _ _ _ t _ => t.wf
  | .atsInvalidateRequest _ _ _ _ _ log2 => 12 ≤ log2.val
  | .invalidationAccept _ => true
  | .drainTimeout _ _ => true
  | .invalidationComplete _ _ leaves => leaves.all Leaf.wf
  | .siteInvAck _ leaves => leaves.all Leaf.wf
  | .siteInvTimeout _ leaves => leaves.all Leaf.wf
  | .rtWriteDone _ => true
  | .pageRequestSend _ => true
  | .prgResponse _ _ _ _ => true
  | .prqTimeout _ _ => true
  | .accInterval _ => true
  | .quiet _ _ => true
  | .migLimitExpiry _ _ => true
  | .hlcAccess _ st => st.all StReq.wf
  | .stationRead _ _ _ _ _ _ => true
  | .stationOwn _ _ _ _ _ _ => true
  | .wbDirty _ _ _ data => data.length == 64
  | .evictClean _ _ _ => true
  | .cxlGo _ _ _ data _ => data.length == 64
  | .cxlGoTimeout _ _ => true
  | .snpInv _ _ => true
  | .snpData _ _ => true
  | .snpCur _ _ => true
  | .snpRsp _ _ _ _ _ data => (data.isEmpty || data.length == 64)
  | .homeTimeout _ _ => true
  | .hlcFlushDone _ => true
  | .hostFlush _ _ _ => true
  | .hostFlushed _ _ => true
  | .siteLinkUp _ _ _ => true
  | .capData _ block => block.length == 64
  | .flitCrcError _ bytes => bytes.length == 256
  | .nak _ _ => true
  | .laneFailure _ _ _ => true
  | .siteRetrainEnd _ => true
  | .siteRetrainLimit _ => true
  | .siteLinkDown _ => true
  | .unknownFrame _ => true
  | .accept _ _ _ => true
  | .commitBegin _ _ _ => true
  | .commitEnd _ _ _ _ _ _ => true
  | .preemptRsp _ _ _ _ _ => true
  | .opDone _ _ _ _ _ => true
  | .cmdError _ _ _ _ _ _ => true
  | .stateRsp _ codes => codes.length == 64
  | .activity _ counts => counts.length == 8
  | .stationFault _ _ _ _ => true
  | .siteErr _ => true
  | .siteDroop _ => true
  | .stationAllowanceExpiry _ _ => true
  | .killAllowanceExpiry _ _ => true
  | .purgeTimeout _ => true
  | .stationDispatch _ => true
  | .sliceEnd _ _ => true
  | .lcPreempt _ => true
  | .preemptedResume _ _ => true
  | .barrierWave _ _ _ => true
  | .barrierTimeout _ _ _ => true
  | .didtInterval _ => true
  | .sequenceIntake _ _ => true
  | .stepCompose _ _ _ _ => true
  | .curtainClosed _ _ => true
  | .curtainLate _ _ => true
  | .vdSnapshot => true
  | .powerPolicyStep r => r.rails.length ≤ 16
  | .imonSample raws => raws.length ≤ 16
  | .ioutWarning _ _ => true
  | .calCheck => true
  | .levelRampStep _ => true
  | .hubDroop => true
  | .droopHoldExpiry _ => true
  | .droopStormExpiry _ => true
  | .tempUpdate zones => zones.length == 8
  | .thermtrip => true
  | .brake => true
  | .brakeRelease => true
  | .packageBudget _ => true
  | .budgetSource _ => true
  | .poolTotal a _ => a.all Acc.wf
  | .poolConfiguration a _ => a.all Acc.wf
  | .pldmSensorRead _ => true
  | .poolEpochEnd => true
  | .poolDecision _ => true
  | .poolRecordTimeout => true
  | .poolMailboxTick _ => true
  | .faultEvent _ _ => true
  | .graceExpiry => true
  | .sweepDone _ => true
  | .patrolScrub _ _ _ _ => true
  | .bankFailure _ _ _ => true
  | .heartbeatLoss _ _ => true
  | .takeover _ => true
  | .instanceResetEnd _ _ => true
  | .mirrorLinkLost => true
  | .mirrorSynced => true
  | .handoverTimeout _ => true
  | .watchdogRestart _ => true
  | .watchdogWarning _ => true
  | .watchdogExpiry _ => true
  | .interruptTake _ _ => true
  | .endOfInterrupt _ => true
  | .wait _ _ => true
  | .cpWake _ _ => true
  | .housekeepingTick _ => true
  | .getVersion _ => true
  | .getCapabilities _ _ => true
  | .negotiateAlgorithms _ _ => true
  | .getDigests _ => true
  | .getCertificate _ _ _ _ => true
  | .challenge _ _ _ => true
  | .getMeasurements _ _ _ _ _ => true
  | .keyExchange _ _ _ => true
  | .finish _ _ _ => true
  | .heartbeat _ _ => true
  | .keyUpdate _ _ _ => true
  | .endSession _ _ => true
  | .query _ _ _ => true
  | .keyProg _ _ _ _ _ _ => true
  | .kSetGo _ _ _ _ _ _ => true
  | .kSetStop _ _ _ _ _ _ => true
  | .ideCheckFailure _ _ _ => true
  | .flashOpDone _ => true
  | .nvInhibitLift => true
  | .nvInhibitTimeout => true
  | .recoveryImage _ => true
  | .hubPorAssert => true
  | .hubPorRelease _ _ _ => true
  | .warmResetAssert => true
  | .warmResetRelease => true
  | .hbmReady => true
  | .bootSelftestDone _ _ _ => true
  | .imageVerifyDone _ _ => true
  | .fwInitDone _ fixed _ => fixed.length ≤ 21
  | .smbusArp _ => true
  | .entdaa _ => true
  | .i3cBroadcast => true
  | .configurationWrite _ _ => true
  | .mirrorLinkUp => true
  | .clockReturn _ => true
  | .droopEnd _ => true
  | .idleFlit _ _ _ _ => true
  | .ptmInterval _ _ => true
  | .sensorRecovery => true
  | .partnerTagEvict _ => true

end Sys2Proof
end

