-- ==== Sys2Proof/Safety.lean ====
section
/-! DEFINITION. The words claims use: when a machine serves, what a command answers, and pins that show their registers. -/
namespace Sys2Proof.Machine

/-- The output pins carry the levels of R43, R411, R413 and R431: released while a reset is held, else driven from FLT.WORD and
FLT.PIN_MASK, from THR.ALERT and THR.ALERT_MASK, from the thermal trip, and from the flash operations; the flash clock is driven, the sideband pins are
never driven high (log entry 126). -/
abbrev State.PinsOk (s : State) : Prop :=
  s.pinFault = (if s.held then none else some (faultLevel s)) ∧
  s.pinAlert = (if s.held then none else some (alertLevel s)) ∧
  s.pinTherm = (if s.held then none else some (thermLevel s)) ∧
  s.pinSpiCs = (if s.held then none else some (spiLevel s)) ∧
  s.pinSpiClk = (if s.held then none else some (drivenLevel s 0)) ∧
  s.pinSpiIo = (if s.held then [none, none, none, none] else spiIoLevels s) ∧
  s.pinScl = (if s.held then none else openDrain s 1) ∧
  s.pinSda = (if s.held then none else openDrain s 2)

/-- No reset is held. -/
abbrev State.Up (s : State) : Prop := s.por = false ∧ s.warm = false

/-- No reset is held, and the pages and resources of instance `i` are served, by itself or by its partner (R441). -/
abbrev State.Serves (s : State) (i : Nat) : Prop := s.Up ∧ (server s i).isSome

/-- No transaction binds the page. -/
abbrev State.Free (s : State) (p : PageId) : Prop := binder s p = none

/-- No write that waited for a function is being carried out: so between any two steps. -/
abbrev State.NoLate (s : State) : Prop := s.txn.a.late = false ∧ s.txn.b.late = false

/-- The command completes: exec answers a state `u` that follows, by messages and pins (`finish`) and then by the writes that waited for a
released function (`withHeld`, R69), from a state `t` of which `P` holds. -/
def Answers (c : Instr) (s : State) (P : State → Prop) : Prop :=
  ∃ t u, exec c s = .next u ∧ (u = finish s t ∨ withHeld (.next (finish s t)) = .next u) ∧ P t

end Sys2Proof.Machine
end

