-- ==== Sys2Proof/Certificates/Slice0/Obligations.lean ====
section
/-! DEFINITION. The statements for the provers. `Answers c s P` says that command `c` completes in state `s` (Safety.lean). -/
open Sys2Proof Sys2Proof.Machine

/-- REGISTER_WRITE. A 4-byte write of HPC.LINK_CTL of any port gives the writable bits of the register those of the value, leaving its other
bits, and changes nothing else but the page's latches. On any page that accepts writes: an access of a wrong size, alignment or byte
enable changes no register but sets PAGE_ERR.bad_access (the page's read latch is emptied); a good access of a host that is not the opener
of the tag that binds the page sets PAGE_ERR.foreign_write and changes nothing else but the read latch. (R15, R56, R59, R66, R82) -/
def Obligations.RegisterWriteTakesEffect : Prop :=
  (∀ (a : Acc) (n : Port) (v : W32) (s : State), s.Up →
    Answers (.registerWrite a false (BitVec.ofNat 32 (0x1000000 + 0x1000 * n.val + 0x44)) (leBytes 4 v.toNat) true) s fun t =>
      t = (clearLatches s ⟨.hpc, 0, n.val⟩).setMask (reg .hpc 0 n.val 0x44) 0xF07 v.toNat) ∧
  (∀ (a : Acc) (bar4 be : Bool) (off : BitVec 32) (data : List Byte) (p : PageId) (s : State), s.Up →
    locate s bar4 off.toNat = some p → dropsWrites s p = false → p.ty ≠ .nvs → goodAccess (off.toNat % 0x1000) data.length be = false →
    Answers (.registerWrite a bar4 off data be) s fun t =>
      t = ({ s with rlatch := Tbl.del s.rlatch (homePage s p).key } : State).perr (homePage s p) 0) ∧
  (∀ (a : Acc) (bar4 be : Bool) (off : BitVec 32) (data : List Byte) (p : PageId) (tag : Nat) (x : TxnSlot) (s : State), s.Up →
    locate s bar4 off.toNat = some p → dropsWrites s p = false → goodAccess (off.toNat % 0x1000) data.length be = true →
    binder s (homePage s p) = some (tag, x) → a.cp = false → x.openedBy a = false →
    Answers (.registerWrite a bar4 off data be) s fun t =>
      t = ({ s with rlatch := Tbl.del s.rlatch (homePage s p).key } : State).perr (homePage s p) 3)

/-- SPLIT_READ_LOW. The answer goes to the port of the read (none for a control processor). Of a page that accepts writes and has no waiting
write of the same port: a 4-byte read of the low half of a 64-bit register answers the low 32 bits of what the register reads as and puts
the high 32 bits into the page's read latch; a latched high half is what the 4-byte read of the high half then answers, emptying the
latch; an 8-byte read of a 64-bit register answers it whole and empties the latch; a read of a wrong size, alignment or byte enable
answers zero and sets PAGE_ERR.bad_access. A read behind a waiting write of its port to the page waits too. A read where no page lies, and
any read of BAR2, answers zero. Nothing else changes. (R46, R52, R56, R57, R58, R59, R60, R100, R249) -/
def Obligations.RegisterReadAnswers : Prop :=
  (∀ (a : Acc) (bar : Bar) (off : BitVec 32) (p : PageId) (r : RegRow) (s : State), s.Up → bar ≠ .bar2 → locate s (bar == .bar4) off.toNat = some p →
    dropsWrites s p = false → p.ty ≠ .nvs → readWaits s a (homePage s p) = false → off.toNat % 4 = 0 →
    regAt (homePage s p) (off.toNat % 0x1000) = some (r, off.toNat % 0x1000) → r.w ≠ 4 →
    Answers (.splitReadLow a bar ⟨off, 4, true⟩) s fun t =>
      let v := readReg { s with rlatch := Tbl.del s.rlatch (homePage s p).key } a (homePage s p) r (off.toNat % 0x1000)
      t = ({ s with rlatch := Tbl.put (Tbl.del s.rlatch (homePage s p).key) (homePage s p).key (off.toNat % 0x1000, v / 2 ^ 32) } : State).emit
        (.regData (if a.cp then none else some a.port.val) 4 (v % 2 ^ 32) ⟨false, false, false⟩)) ∧
  (∀ (a : Acc) (bar : Bar) (off : BitVec 32) (p : PageId) (r : RegRow) (o h : Nat) (s : State), s.Up → bar ≠ .bar2 → locate s (bar == .bar4) off.toNat = some p →
    dropsWrites s p = false → p.ty ≠ .nvs → readWaits s a (homePage s p) = false → off.toNat % 4 = 0 →
    regAt (homePage s p) (off.toNat % 0x1000) = some (r, o) → r.w ≠ 4 → o ≠ off.toNat % 0x1000 → Tbl.find s.rlatch (homePage s p).key = some (o, h) →
    Answers (.splitReadLow a bar ⟨off, 4, true⟩) s fun t =>
      t = ({ s with rlatch := Tbl.del s.rlatch (homePage s p).key } : State).emit (.regData (if a.cp then none else some a.port.val) 4 h ⟨false, false, false⟩)) ∧
  (∀ (a : Acc) (bar : Bar) (off : BitVec 32) (p : PageId) (r : RegRow) (s : State), s.Up → bar ≠ .bar2 → locate s (bar == .bar4) off.toNat = some p →
    dropsWrites s p = false → p.ty ≠ .nvs → readWaits s a (homePage s p) = false → off.toNat % 8 = 0 →
    regAt (homePage s p) (off.toNat % 0x1000) = some (r, off.toNat % 0x1000) → r.w = 8 →
    Answers (.splitReadLow a bar ⟨off, 8, true⟩) s fun t =>
      t = ({ s with rlatch := Tbl.del s.rlatch (homePage s p).key } : State).emit
        (.regData (if a.cp then none else some a.port.val) 8 (readReg s a (homePage s p) r (off.toNat % 0x1000)) ⟨false, false, false⟩)) ∧
  (∀ (a : Acc) (bar : Bar) (off : BitVec 32) (n : Nat) (be : Bool) (p : PageId) (s : State), s.Up → bar ≠ .bar2 → locate s (bar == .bar4) off.toNat = some p →
    dropsWrites s p = false → p.ty ≠ .nvs → readWaits s a (homePage s p) = false → goodAccess (off.toNat % 0x1000) n be = false →
    Answers (.splitReadLow a bar ⟨off, n, be⟩) s fun t =>
      t = (({ s with rlatch := Tbl.del s.rlatch (homePage s p).key } : State).perr (homePage s p) 0).emit
        (.regData (if a.cp then none else some a.port.val) n 0 ⟨false, false, false⟩)) ∧
  (∀ (a : Acc) (bar : Bar) (off : BitVec 32) (n : Nat) (be : Bool) (p : PageId) (s : State), s.Up → bar ≠ .bar2 → locate s (bar == .bar4) off.toNat = some p →
    dropsWrites s p = false → readWaits s a (homePage s p) = true →
    Answers (.splitReadLow a bar ⟨off, n, be⟩) s fun t =>
      t = holdAcc s (homePage s p).inst (portCode a) (some (homePage s p).key) (.splitReadLow a bar ⟨off, n, be⟩)) ∧
  (∀ (a : Acc) (bar : Bar) (off : BitVec 32) (n : Nat) (be : Bool) (s : State), s.Up → bar = .bar2 ∨ locate s (bar == .bar4) off.toNat = none →
    Answers (.splitReadLow a bar ⟨off, n, be⟩) s fun t => t = s.emit (.regData (if a.cp then none else some a.port.val) n 0 ⟨false, false, false⟩))

/-- On an instance that serves its own pages: TXN_BEGIN of a tag 1-8 that is FREE or DONE opens it for the writer with the cookie and the
deadline armed unless TXN.TIMEOUT is 0; TXN_BIND by the opener of an OPEN tag that has not failed adds a bindable page that no tag binds
to a tag with fewer than 64 pages; TXN_COMMIT by the opener of an OPEN tag makes it COMMITTING, disarms the deadline and appends it to the
commits of the instance. Nothing else changes but the latches of the TXN page. (R62, R63, R65, R68, R441) -/
def Obligations.TransactionsOpenAndBind : Prop :=
  (∀ (i : Inst) (a : Acc) (v : W32) (s : State), s.Up → server s i.val = some i.val →
    1 ≤ bits v.toNat 0 4 → bits v.toNat 0 4 ≤ 8 →
    (slotOf s i.val (bits v.toNat 0 4)).st = .free ∨ (slotOf s i.val (bits v.toNat 0 4)).st = .done →
    Answers (.txnBegin i a v) s fun t =>
      t = updSlot (clearLatches s (txnPage i.val)) i.val (bits v.toNat 0 4) fun _ =>
        { st := .opened, opener := if a.cp then ⟨true, 0, 0⟩ else a, cookie := bits v.toNat 16 16,
          armed := s.fld (txnR i.val 0x50) 0 24 != 0 }) ∧
  (∀ (i : Inst) (a : Acc) (v : W32) (ty : Pg) (k : Nat) (s : State), s.Up → server s i.val = some i.val →
    1 ≤ bits v.toNat 0 4 → bits v.toNat 0 4 ≤ 8 →
    (slotOf s i.val (bits v.toNat 0 4)).st = .opened → (slotOf s i.val (bits v.toNat 0 4)).openedBy a = true →
    (slotOf s i.val (bits v.toNat 0 4)).failed = false → (slotOf s i.val (bits v.toNat 0 4)).pages.length < 64 →
    instPageAt (bits v.toNat 4 11) = some (ty, k) → ty ≠ .txn → s.Free ⟨ty, i.val, k⟩ →
    Answers (.txnBind i a v) s fun t =>
      t = updSlot (clearLatches s (txnPage i.val)) i.val (bits v.toNat 0 4) fun x =>
        { x with pages := x.pages ++ [PageId.key ⟨ty, i.val, k⟩] }) ∧
  (∀ (i : Inst) (a : Acc) (v : W32) (s : State), s.Up → server s i.val = some i.val →
    1 ≤ bits v.toNat 0 4 → bits v.toNat 0 4 ≤ 8 →
    (slotOf s i.val (bits v.toNat 0 4)).st = .opened → (slotOf s i.val (bits v.toNat 0 4)).openedBy a = true →
    Answers (.txnCommit i a v) s fun t =>
      t = { updSlot (clearLatches s (txnPage i.val)) i.val (bits v.toNat 0 4) (fun x => { x with st := .committing, armed := false }) with
        txn := (updSlot s i.val (bits v.toNat 0 4) fun x => { x with st := .committing, armed := false }).txn.upd i.val fun x =>
          { x with queue := x.queue ++ [bits v.toNat 0 4] } })

/-- TXN_ROLLBACK by the opener of an OPEN tag, TXN_TIMEOUT of an OPEN tag whose deadline is armed, and TXN_SAFE_WAIT_EXPIRY while a bound page
of the commit at the front, not failed, is off its safe point, end the tag: the slot is DONE, its pages are unbound, its log is discarded,
and its result is ROLLED_BACK (2), TIMEOUT (0x17) or NO_SAFE_POINT (0x14), unless it had failed before (then the first result stays); a
timeout sets failed. Every register but TXN.PAGE_IRQ_STATUS and PAGE_TXN of the pages that were bound holds what it held. (R67, R68, R69,
R70, R71) -/
def Obligations.TransactionsEndUnapplied : Prop :=
  (∀ (i : Inst) (a : Acc) (v : W32) (tag : Nat) (s : State), s.Up → server s i.val = some i.val → tag = bits v.toNat 0 4 → 1 ≤ tag → tag ≤ 8 →
    (slotOf s i.val tag).st = .opened → (slotOf s i.val tag).openedBy a = true →
    Answers (.txnRollback i a v) s fun t =>
      slotOf t i.val tag = { slotOf s i.val tag with
        st := .done, pages := [], log := [], armed := false, result := if (slotOf s i.val tag).failed then (slotOf s i.val tag).result else 2 } ∧
      ∀ q, (∀ k ∈ (slotOf s i.val tag).pages, q ≠ k + 0x20) → q ≠ (txnPage i.val).key + 0x18 → t.r q = s.r q) ∧
  (∀ (i : Inst) (tag : BitVec 4) (s : State), s.Serves i.val → (slotOf s i.val tag.toNat).st = .opened → (slotOf s i.val tag.toNat).armed = true →
    Answers (.txnTimeout i tag) s fun t =>
      slotOf t i.val tag.toNat = { slotOf s i.val tag.toNat with
        st := .done, pages := [], log := [], armed := false, failed := true,
        result := if (slotOf s i.val tag.toNat).failed then (slotOf s i.val tag.toNat).result else 0x17 } ∧
      ∀ q, (∀ k ∈ (slotOf s i.val tag.toNat).pages, q ≠ k + 0x20) → q ≠ (txnPage i.val).key + 0x18 → t.r q = s.r q) ∧
  (∀ (i : Inst) (tag : Nat) (r : List Nat) (s : State), s.Serves i.val → (s.txn.get i.val).queue = tag :: r →
    (slotOf s i.val tag).failed = false → (slotOf s i.val tag).pageIds.all (safePoint s) = false →
    Answers (.txnSafeWaitExpiry i) s fun t =>
      slotOf t i.val tag = { slotOf s i.val tag with st := .done, pages := [], log := [], armed := false, result := 0x14 } ∧
      ∀ q, (∀ k ∈ (slotOf s i.val tag).pages, q ≠ k + 0x20) → q ≠ (txnPage i.val).key + 0x18 → t.r q = s.r q)

/-- TXN_COMMIT_PROCESS, for the commit at the front of an instance, every bound page at its safe point. A failed tag goes to DONE with its
result. A staged register whose compared bits changed gives CONFLICT (0x15) with the first such register in fail_offset; else the first
entry that its chapter refuses gives INVALID_VALUE (0x16) with its register in fail_offset; in these three cases every register but
TXN.PAGE_IRQ_STATUS and PAGE_TXN of the bound pages holds what it held. Else the entries are applied in log order, the pages unbound, and
DONE with COMMITTED is reported, at once where no partner mirrors the instance; the log is kept until the report. (R68, R69, R72) -/
def Obligations.CommitChecksThenApplies : Prop :=
  (∀ (i : Inst) (peer : List (Part × Leaf)) (tag : Nat) (r : List Nat) (s : State), s.Serves i.val → (s.txn.get i.val).queue = tag :: r →
    (slotOf s i.val tag).failed = true →
    Answers (.txnCommitProcess i peer) s fun t =>
      slotOf t i.val tag = { slotOf s i.val tag with st := .done, pages := [], log := [], armed := false } ∧
      ∀ q, (∀ k ∈ (slotOf s i.val tag).pages, q ≠ k + 0x20) → q ≠ (txnPage i.val).key + 0x18 → t.r q = s.r q) ∧
  (∀ (i : Inst) (peer : List (Part × Leaf)) (tag : Nat) (r : List Nat) (e : TxnEntry) (s : State), s.Serves i.val →
    (s.txn.get i.val).queue = tag :: r → (slotOf s i.val tag).failed = false → (slotOf s i.val tag).pageIds.all (safePoint s) = true →
    (slotOf s i.val tag).log.find? (changed s) = some e →
    Answers (.txnCommitProcess i peer) s fun t =>
      slotOf t i.val tag = { slotOf s i.val tag with st := .done, pages := [], log := [], armed := false, result := 0x15, failOff := e.key } ∧
      ∀ q, (∀ k ∈ (slotOf s i.val tag).pages, q ≠ k + 0x20) → q ≠ (txnPage i.val).key + 0x18 → t.r q = s.r q) ∧
  (∀ (i : Inst) (peer : List (Part × Leaf)) (tag : Nat) (r : List Nat) (e : TxnEntry) (s : State), s.Serves i.val →
    (s.txn.get i.val).queue = tag :: r → (slotOf s i.val tag).failed = false → (slotOf s i.val tag).pageIds.all (safePoint s) = true →
    (slotOf s i.val tag).log.find? (changed s) = none → ((slotOf s i.val tag).log.find? fun e => !entryOk s e) = some e →
    Answers (.txnCommitProcess i peer) s fun t =>
      slotOf t i.val tag = { slotOf s i.val tag with st := .done, pages := [], log := [], armed := false, result := 0x16, failOff := e.key } ∧
      ∀ q, (∀ k ∈ (slotOf s i.val tag).pages, q ≠ k + 0x20) → q ≠ (txnPage i.val).key + 0x18 → t.r q = s.r q) ∧
  (∀ (i : Inst) (peer : List (Part × Leaf)) (tag : Nat) (r : List Nat) (s : State), s.Serves i.val →
    (s.txn.get i.val).queue = tag :: r → (slotOf s i.val tag).failed = false → (slotOf s i.val tag).pageIds.all (safePoint s) = true →
    (∀ e ∈ (slotOf s i.val tag).log, (s.r e.key &&& e.mask) = e.base) → (∀ e ∈ (slotOf s i.val tag).log, entryOk s e = true) →
    Answers (.txnCommitProcess i peer) s fun t =>
      let x := (slotOf s i.val tag).log.foldl (applyEntry peer) s
      t = (updSlot (txnUnbind x i.val tag) i.val tag fun y => { y with applied := true, log := (slotOf s i.val tag).log }).report i.val [.txn tag])

/-- LINK_RETRAIN_START of a port that is UP or in FLR, LINK_RETRAIN_END of a retraining one, LINK_UP of a port that is DOWN or TRAINING with
PERST released, and PERST_RELEASE give the port its new link state, record the event code with its TSU time and raise the page interrupt
the manual names; a retrain start counts in EVENT_COUNT; LINK_UP caps the rate by LINK_CTL and 64 GT/s under CXL and sets config_only
below 32 GT/s or x4. CONFIGURATION_WRITE of a trained port that is not its group's cache port takes the capability bits. PTM_INTERVAL of
the port that aligns the time base sets the TSU of each working instance to the host's time. A port that comes UP, and one whose
configuration is written, then sends the MSI-X messages it holds as PBA bits and may send (R24), the messages that waited for a port are
tried again, and the end of a retrain lets the CXL.cache traffic that waited leave. A configuration write ends the state FLR. Nothing else
changes. (R24, R74, R75, R76, R82, R84, R85, R264, R492, R496) -/
def Obligations.PortLinkEvents : Prop :=
  (∀ (p : Port) (s : State),
    s.Up → (s.port p.val).link = .up ∨ (s.port p.val).link = .flr →
    Answers (.linkRetrainStart p) s fun t =>
      t = (linkEvent (s.updPort p.val fun x => { x with link := .retrain }) p.val 1 18).satFld (hpcR p.val 0x48) 0 16 1) ∧
  (∀ (p : Port) (s : State),
    s.Up → (s.port p.val).link = .retrain →
    Answers (.linkRetrainEnd p) s fun t =>
      t = bothInst (wakeMsgs (sendPending (linkEvent (s.updPort p.val fun x => { x with link := .up }) p.val 2 19) p.val)) fun s i => cxlResume s i p.val) ∧
  (∀ (p : Port) (rate : Fin 8) (width : Fin 17) (cxl : Bool) (s : State),
    s.Up → (s.port p.val).link = .down ∨ (s.port p.val).link = .training → (s.port p.val).perst = false → rate ≠ 0 → width ∈ [1, 2, 4, 8, 16] →
    Answers (.linkUp p rate width cxl) s fun t =>
      let c := cxl && s.fld (hpcR p.val 0x44) 2 1 == 1
      let r := min rate.val (rateCap s p.val c)
      t = wakeMsgs (sendPending (linkEvent (s.updPort p.val fun x => { x with link := .up, rate := r, width := width.val, cxl := c, configOnly := decide (r < 5) || decide (width.val < 4) }) p.val 4 17) p.val)) ∧
  (∀ (p : Port) (s : State),
    s.Up → (s.port p.val).perst = true →
    Answers (.perstRelease p) s fun t =>
      t = ((s.updPort p.val fun x => { x with perst := false, link := .training }).setR (hpcR p.val 0x58) 6).setR (hpcR p.val 0x50) s.hubTime) ∧
  (∀ (p : Port) (c : PortFn) (s : State),
    s.Up → (s.port p.val).link = .up ∨ (s.port p.val).link = .retrain ∨ (s.port p.val).link = .flr → cachePort s (groupOf s p.val) ≠ some p.val →
    Answers (.configurationWrite p c) s fun t =>
      t = wakeMsgs (sendPending (s.updPort p.val fun x =>
        { x with link := if x.link == .flr then .up else x.link, ats := c.ats, pri := c.pri, respFail := c.respFail, uprgi := c.uprgi, msix := c.msix, cacheEn := c.cacheEn, relaxed := c.relaxed,
                 idoReq := c.idoReq, idoCpl := c.idoCpl, ctoOff := c.ctoOff, ctoRange := c.ctoRange, busMaster := c.busMaster,
                 mps := c.mps, mrrs := c.mrrs, alloc := c.alloc }) p.val)) ∧
  (∀ (p : Port) (v : W64) (s : State),
    s.Up → ptmPort s = some p.val →
    Answers (.ptmInterval p v) s fun t =>
      t = ({ s with tsu := ⟨if alive s 0 then v.toNat else s.tsu.a, if alive s 1 then v.toNat else s.tsu.b⟩ } : State).emit (.ptm p.val))

/-- RETRAIN_LIMIT_EXPIRY of a retraining port and LINK_DOWN of a port that is UP, retraining or in FLR take it DOWN (portFalls), count it in
EVENT_COUNT.down_count and record event 3. PERST_ASSERT on a port without PERST ends its SPDM sessions, makes its group ABSENT with cause
2 (groupAbsent), takes the port down into reset with no rate, width, CXL or config_only left, resets its HPC page and function, counts
perst_count and records event 5. FLR and D3HOT_ENTRY of a trained port make its group ABSENT with cause 3, end the port's transactions,
reset its function, show the link as FLR and record event 7 or 8. (R71, R82, R84, R86, R87, R472, R478, R492) -/
def Obligations.PortsLeaveUp : Prop :=
  (∀ (p : Port) (un : BitVec 8) (s : State),
    s.Up → (s.port p.val).link = .retrain →
    Answers (.retrainLimitExpiry p un) s fun t =>
      t = (linkEvent (portFalls s p.val un.toNat .down) p.val 3 16).satFld (hpcR p.val 0x48) 16 8 1) ∧
  (∀ (p : Port) (un : BitVec 8) (s : State),
    s.Up → (s.port p.val).link = .up ∨ (s.port p.val).link = .retrain ∨ (s.port p.val).link = .flr →
    Answers (.linkDown p un) s fun t =>
      t = (linkEvent (portFalls s p.val un.toNat .down) p.val 3 16).satFld (hpcR p.val 0x48) 16 8 1) ∧
  (∀ (p : Port) (un : BitVec 8) (s : State),
    s.Up → (s.port p.val).perst = false →
    Answers (.perstAssert p un) s fun t =>
      let x := portFalls (groupAbsent (endPortSessions s p.val) (groupOf (endPortSessions s p.val) p.val) 2) p.val un.toNat .reset
      t = (linkEvent (fnReset (hpcReset (x.updPort p.val fun y => { y with perst := true, rate := 0, width := 0, cxl := false, configOnly := false }) p.val) p.val) p.val 5 20).satFld (hpcR p.val 0x48) 24 8 1) ∧
  (∀ (p : Port) (s : State),
    s.Up → (s.port p.val).link = .up ∨ (s.port p.val).link = .retrain ∨ (s.port p.val).link = .flr →
    Answers (.flr p) s fun t =>
      t = linkEvent ((fnReset (portGone (groupAbsent s (groupOf s p.val) 3) p.val) p.val).updPort p.val fun x => { x with link := .flr }) p.val 7 21) ∧
  (∀ (p : Port) (s : State),
    s.Up → (s.port p.val).link = .up ∨ (s.port p.val).link = .retrain ∨ (s.port p.val).link = .flr →
    Answers (.d3hotEntry p) s fun t =>
      t = linkEvent ((fnReset (portGone (groupAbsent s (groupOf s p.val) 3) p.val) p.val).updPort p.val fun x => { x with link := .flr }) p.val 8 21)

/-- ATTACH of a DETACHED group gives it a token and ATTACHED; REATTACH of an ABSENT, unlocked group with its token and a large enough buffer
makes it REATTACHING, starts the copy and shows busy, and a wrong token counts a bad try, locking at the fourth, with result 0x11; FORCE
of an ABSENT group discards its journal records, tears its queues down and attaches it; DEPART of an ATTACHED group makes it ABSENT with
cause 5; DETACH of an ATTACHED group without queues makes it DETACHED with token 0. Each ends with its result in ATTACH_STATUS and
attach_done. ABSENCE_LIMIT_EXPIRY of an ABSENT group under a limit tears down its queues, discards its records and leaves it DETACHED with
token 0. (R90, R91, R92, R93, R94) -/
def Obligations.PresenceCommandsAct : Prop :=
  (∀ (a : Acc) (g : Group) (s : State),
    s.Up → s.fld (xbarR 0x8C) 0 1 = 0 → a.cp = false → groupOf s a.port.val = g.val → portUp s a.port.val = true → (s.group g.val).st = .detached →
    Answers (.attach a g) s fun t =>
      t = attachEnd (attached (clearLatches s xbarPage) g.val) g.val 1) ∧
  (∀ (a : Acc) (g : Group) (s : State),
    s.Up → s.fld (xbarR 0x8C) 0 1 = 0 → a.cp = false → groupOf s a.port.val = g.val → portUp s a.port.val = true → (s.group g.val).st = .absent → (s.group g.val).locked = false → s.r (xbarR 0x80) = (s.group g.val).token.toNat → jrnlFill s 0 + jrnlFill s 1 + 2 ^ 20 ≤ s.r (xbarR 0x98) * 1024 →
    Answers (.reattach a g) s fun t =>
      t = ({ clearLatches s xbarPage with copy := some { group := g.val } }.updGroup g.val fun x => { x with st := .reattaching }).setR (xbarR 0x8C) (fields [(0, 1), (4, g.val)])) ∧
  (∀ (a : Acc) (g : Group) (s : State),
    s.Up → s.fld (xbarR 0x8C) 0 1 = 0 → a.cp = false → groupOf s a.port.val = g.val → portUp s a.port.val = true → (s.group g.val).st = .absent → (s.group g.val).locked = false → s.r (xbarR 0x80) ≠ (s.group g.val).token.toNat →
    Answers (.reattach a g) s fun t =>
      t = attachEnd ((clearLatches s xbarPage).updGroup g.val fun x => { x with badTries := x.badTries + 1, locked := decide (4 ≤ x.badTries + 1) }) g.val 0x11) ∧
  (∀ (a : Acc) (g : Group) (s : State),
    s.Up → s.fld (xbarR 0x8C) 0 1 = 0 → a.cp = false → groupOf s a.port.val = g.val → portUp s a.port.val = true → (s.group g.val).st = .absent →
    Answers (.force a g) s fun t =>
      t = attachEnd (attached (tearGroup (discardRecs (clearLatches s xbarPage) g.val) g.val) g.val) g.val 1) ∧
  (∀ (a : Acc) (g : Group) (s : State),
    s.Up → s.fld (xbarR 0x8C) 0 1 = 0 → a.cp = false → groupOf s a.port.val = g.val → portUp s a.port.val = true → (s.group g.val).st = .attached →
    Answers (.depart a g) s fun t =>
      t = attachEnd (groupAbsent (clearLatches s xbarPage) g.val 5) g.val 1) ∧
  (∀ (a : Acc) (g : Group) (s : State),
    s.Up → s.fld (xbarR 0x8C) 0 1 = 0 → a.cp = false → groupOf s a.port.val = g.val → portUp s a.port.val = true → (s.group g.val).st = .attached → queuesOfGroup s 0 g.val = [] → queuesOfGroup s 1 g.val = [] →
    Answers (.detach a g) s fun t =>
      t = attachEnd ((clearLatches s xbarPage).updGroup g.val fun x => { x with st := .detached, token := 0 }) g.val 1) ∧
  (∀ (g : Group) (s : State),
    s.Up → s.r (xbarR 0x5C) ≠ 0 → (s.group g.val).st = .absent →
    Answers (.absenceLimitExpiry g) s fun t =>
      t = (leaveAbsent (discardRecs (tearGroup s g.val) g.val) g.val).updGroup g.val fun x => { x with st := .detached, token := 0 })

/-- PORT_CFG_WRITE that keeps the enables moves a port between DETACHED groups, else refuses with cfg_refused. JRNL_CFG_WRITE with an empty
journal takes a 64 MiB-aligned base, or a size of 64-2048 MiB in steps of 64. REATTACH_COPY_DONE with no record left and no port to flush
releases the copied records and attaches the group with result 1. REATTACH_COPY_FAULT of a failed write ends the copy with result 0x13 and
the group ABSENT, with group_absent. COMPLETION_TIMEOUT of the read that has the tag on the port's link, where the function does not
disable the timeout, counts in CPL_TIMEOUTS, raises cpl_timeout and counts toward cto_threshold; a channel's read that outlives this ends
with a timeout. CXL_GO_TIMEOUT of an eviction on a port that does not disable it fails the line's transaction with a poison note and
counts toward cto_threshold. (R81, R84, R94, R276) -/
def Obligations.PortAndJournalConfiguration : Prop :=
  (∀ (n : Port) (a : Acc) (v : W32) (s : State),
    s.Up → bits (s.r (xbarR (0x40 + 4 * n.val))) 4 2 = bits v.toNat 4 2 → bits (s.r (xbarR (0x40 + 4 * n.val))) 0 2 ≠ bits v.toNat 0 2 → (s.group (bits (s.r (xbarR (0x40 + 4 * n.val))) 0 2)).st = .detached → (s.group (bits v.toNat 0 2)).st = .detached →
    Answers (.portCfgWrite n a v) s fun t =>
      t = (clearLatches s xbarPage).setFld (xbarR (0x40 + 4 * n.val)) 0 2 (bits v.toNat 0 2)) ∧
  (∀ (i : Inst) (a : Acc) (v : W64) (s : State),
    s.Up → (s.jrnl.get i.val).recs = [] → (s.jrnl.get i.val).waiting = [] →
    Answers (.jrnlCfgWrite i false a v) s fun t =>
      t = (clearLatches s xbarPage).setR (xbarR (0x100 + 0x40 * i.val)) (alignDown v.toNat (2 ^ 26))) ∧
  (∀ (i : Inst) (a : Acc) (v : W64) (s : State),
    s.Up → (s.jrnl.get i.val).recs = [] → (s.jrnl.get i.val).waiting = [] → bits v.toNat 0 16 % 64 = 0 → 64 ≤ bits v.toNat 0 16 → bits v.toNat 0 16 ≤ 2048 →
    Answers (.jrnlCfgWrite i true a v) s fun t =>
      t = (clearLatches s xbarPage).setR (xbarR (0x108 + 0x40 * i.val)) (bits v.toNat 0 16)) ∧
  (∀ (c : CopySt) (s : State),
    s.Up → s.copy = some c → copyLeft s c = [] → c.ports = [] → (s.jrnl.get 0).waiting = [] → (s.jrnl.get 1).waiting = [] →
    Answers (.reattachCopyDone) s fun t =>
      let x := bothInst s fun s i => releaseRecs s i (fun r => r.group != c.group) (fun _ => true)
      t = attachEnd ((attached { x with copy := none } c.group).setR (xbarR 0x9C) c.units) c.group 1) ∧
  (∀ (c : CopySt) (s : State),
    s.Up → s.copy = some c →
    Answers (.reattachCopyFault false) s fun t =>
      t = attachEnd (({ s with copy := none }.updGroup c.group fun x => { x with st := .absent }).irq xbarPage 16) c.group 0x13) ∧
  (∀ (p : Port) (th : BitVec 4) (tl : BitVec 10) (i n : Nat) (u v : RUse) (c : Nat) (s : State),
    s.Up → readByTag s p.val (th ++ tl).toNat = some (i, n, u) → (s.port p.val).ctoOff = false → u.owner = .chan c → Tbl.find ((groupTimeout ((s.setR (hpcR p.val 0x4C) (satAdd 32 (s.r (hpcR p.val 0x4C)) 1)).irq (hpcPage p.val) 22) (groupOf s p.val)).pool i).reads n = some v →
    Answers (.completionTimeout p th tl) s fun t =>
      let x := groupTimeout ((s.setR (hpcR p.val 0x4C) (satAdd 32 (s.r (hpcR p.val 0x4C)) 1)).irq (hpcPage p.val) 22) (groupOf s p.val)
      t = readEnd x i n u [] .timeout) ∧
  (∀ (g : Group) (hpa : W64) (i : Nat) (x : HTxn) (s : State),
    s.Up → goTxn s (lineKey g.val hpa.toNat) = some (i, x) → (x.cxl.any fun c => (s.port c.1).ctoOff) = false → x.work = .evict →
    Answers (.cxlGoTimeout g hpa) s fun t =>
      t = groupTimeout (hlcFree (notePoison (s.updHlc i fun h => { h with txns := h.txns.filter (· != x) }) i (lineKey g.val hpa.toNat) 2) i (lineKey g.val hpa.toNat)) g.val)

/-- DOORBELL with an accepted size on a port that is not config-only and whose group is not ABSENT delivers each of its 8-byte doorbells in
rising address order to the callboard slot of its address; while a commit holds the queue manager that the doorbell reaches, it waits with
the owner of its page. CB_INDEXED_WRITE and VD_INDEXED_WRITE of a whole value deliver the doorbell to the queue (VD-relative in a VD page)
that bits [63:44] name. CONTEXT_FILL_DONE of a miss under way, none waiting, leaves the response's CONTROL level at its NIF port, caches
the context and lets the doorbells that wait for it take effect in order. (R75, R88, R96, R98, R99, R100, R104, R112, R391) -/
def Obligations.DoorbellsReachTheirQueue : Prop :=
  (∀ (p : Port) (bar4 : Bool) (off : BitVec 29) (data : List Byte) (s : State),
    s.Up → (s.port p.val).configOnly = false → (s.group (groupOf s p.val)).st ≠ .absent → fnHeld s (dbTarget s bar4 off.toNat (cbOwner s off.toNat)) .qm = false → dbSizeOk off.toNat data.length true = true →
    Answers (.doorbell p bar4 off data true) s fun t =>
      let o := cbOwner s off.toNat
      t = ((chunks8 (data.length / 8) data).zipIdx).foldl (fun s e => oneDb s p.val bar4 (off.toNat + 8 * e.2) e.1 true o) s) ∧
  (∀ (p : Port) (bar4 be : Bool) (off : BitVec 29) (data : List Byte) (s : State),
    s.Up → (s.port p.val).configOnly = false → (s.group (groupOf s p.val)).st ≠ .absent → fnHeld s (dbTarget s bar4 off.toNat (cbOwner s off.toNat)) .qm = true →
    Answers (.doorbell p bar4 off data be) s fun t =>
      let o := cbOwner s off.toNat
      t = holdDb s (dbTarget s bar4 off.toNat o) p.val o (.doorbell p bar4 off data be)) ∧
  (∀ (i : Inst) (a : Acc) (v : W64) (s : State),
    s.Serves i.val → s.Free ⟨.cb, i.val, 0⟩ → fnHeld s i.val .qm = false →
    Answers (.cbIndexedWrite i a (.full v)) s fun t =>
      t = takeDb (clearLatches s ⟨.cb, i.val, 0⟩) i.val (bits v.toNat 44 20) ⟨v, a.port.val, true, none⟩) ∧
  (∀ (i : Inst) (n : BitVec 12) (a : Acc) (v : W64) (s : State),
    s.Serves i.val → (s.vd i.val n.toNat).st ≠ .free → fnHeld s i.val .qm = false →
    Answers (.vdIndexedWrite i n a (.full v)) s fun t =>
      t = takeVdDb (clearLatches s (vdPage i.val n.toNat)) i.val n.toNat (bits v.toNat 44 20) ⟨v, a.port.val, true, some n.toNat⟩) ∧
  (∀ (i : Inst) (q : Qidx) (press : NifPress) (s : State),
    s.Serves i.val → (s.qm.get i.val).missFly.contains q.toNat = true → (s.qm.get i.val).missWait = [] →
    Answers (.contextFillDone i ⟨q, press⟩) s fun t =>
      let y := setPressure s (carrier s i.val) press.nif.val 2 press.level.toNat
      let x := touchCtx { y with qm := y.qm.set i.val { s.qm.get i.val with missFly := (s.qm.get i.val).missFly.filter (· != q.toNat) } } i.val q.toNat
      t = wakeDbs x i.val q.toNat)

/-- A doorbell at an ENABLED queue with the right generation: with bit 31 clear and a new tail not beyond the ring nor the completed positions
it sets the tail, counts the new positions as submitted jobs of the queue's VD and itself as accepted; with bit 31 set and a value between
cq_head and cq_seq it sets cq_head. A queue that is not ENABLED drops it with reason 2, a wrong generation with reason 3. A dropped
doorbell changes no queue. (R101, R102, R106, R126) -/
def Obligations.DoorbellTakesEffect : Prop :=
  (∀ (s : State) (i q : Nat) (d : DbWait), (s.q i q).mode = .enabled → bits d.payload.toNat 32 8 = (s.q i q).ctx.gen → bitAt d.payload.toNat 31 = false →
    sub24 (bits d.payload.toNat 0 24) (s.q i q).ctx.tail ≠ 0 → sub24 (bits d.payload.toNat 0 24) (s.q i q).ctx.tail ≤ 2 ^ (s.q i q).ctx.ringLog2 →
    sub24 (bits d.payload.toNat 0 24) (s.q i q).ctx.done ≤ 2 ^ (s.q i q).ctx.ringLog2 → qmR i 0 0xD0 ≠ qmR i 2 0x60 →
    let t := applyDb s i q d
    (t.q i q).ctx.tail = bits d.payload.toNat 0 24 ∧ (t.q i q).ctx.cqHead = (s.q i q).ctx.cqHead ∧ (t.q i q).ctx.done = (s.q i q).ctx.done ∧
    t.r (qmR i 2 0x60) = (s.r (qmR i 2 0x60) + 1) % 2 ^ 64) ∧
  (∀ (s : State) (i q : Nat) (d : DbWait), (s.q i q).mode = .enabled → bits d.payload.toNat 32 8 = (s.q i q).ctx.gen → bitAt d.payload.toNat 31 = true →
    sub24 (bits d.payload.toNat 0 24) (s.q i q).ctx.cqHead ≤ sub24 ((s.q i q).ctx.cqSeq % 2 ^ 24) (s.q i q).ctx.cqHead → qmR i 0 0xD0 ≠ qmR i 2 0x60 →
    let t := applyDb s i q d
    (t.q i q).ctx.cqHead = bits d.payload.toNat 0 24 ∧ (t.q i q).ctx.tail = (s.q i q).ctx.tail) ∧
  (∀ (s : State) (i q q' : Nat) (d : DbWait), (s.q i q).mode ≠ .enabled ∨ bits d.payload.toNat 32 8 ≠ (s.q i q).ctx.gen →
    qmR i 0 0xD0 ≠ qmR i 2 0x68 → qmR i 0 0xD0 ≠ qmR i 2 0x70 →
    applyDb s i q d = dropDb s i (if (s.q i q).mode ≠ .enabled then 2 else 3) (hubQ i q) d ∧ (applyDb s i q d).q i q' = s.q i q')

/-- The queue q is the one QM.CTX_SEL selects; each command ends with its result and the queue's state in CTX_STATUS (ctxEnd). READ puts the
context image into CTX_DATA0-7. WRITE loads a DISABLED queue's driver fields from them. ENABLE of a DISABLED queue whose fields and home
are good and whose rings each lie in one translation makes it ENABLED with them (behind the curtain of a VD that is CLOSING or DOWN); one
whose ring misses the translation caches waits for it with the command in progress. DISABLE of an ENABLED queue lets it drain. RESUME
clears the condition shown: ERROR (7), HOST_WAIT (4) with the group ATTACHED, AHEAD (3). RESET of a queue that is not DISABLED tears it
down. PIN with room pins and caches the context; UNPIN frees it. A queue not in the state a command needs gets BAD_STATE (0x10). (R104,
R112, R113, R114, R115, R116) -/
def Obligations.ContextCommandsAct : Prop :=
  (∀ (i : Inst) (a : Acc) (s : State),
    s.Serves i.val → s.Free (qmPage i.val 0) → s.fld (qmR i.val 0 0x48) 0 1 = 0 →
    Answers (.ctxRead i a) s fun t =>
      let x := clearLatches s (qmPage i.val 0)
      let q := s.fld (qmR i.val 0 0x40) 0 20
      t = ctxEnd ((List.range 8).foldl (fun y k => y.setR (qmR i.val 0 (0x80 + 8 * k)) (bits (ctxImage (s.q i.val q)) (64 * k) 64)) x) i.val q 0x01 false) ∧
  (∀ (i : Inst) (a : Acc) (vt : NocEnd) (s : State),
    s.Serves i.val → s.Free (qmPage i.val 0) → s.fld (qmR i.val 0 0x48) 0 1 = 0 → (s.q i.val (s.fld (qmR i.val 0 0x40) 0 20)).mode = .disabled →
    Answers (.ctxWrite i a vt) s fun t =>
      let x := clearLatches s (qmPage i.val 0)
      let q := s.fld (qmR i.val 0 0x40) 0 20
      t = ctxEnd (x.updQ i.val q fun y => { y with ctx := y.ctx.load (ctxData s i.val) }) i.val q 0x01 true) ∧
  (∀ (i : Inst) (a : Acc) (vt : NocEnd) (s : State),
    s.Serves i.val → s.Free (qmPage i.val 0) → s.fld (qmR i.val 0 0x48) 0 1 = 0 → (s.q i.val (s.fld (qmR i.val 0 0x40) 0 20)).mode ≠ .disabled → (s.q i.val (s.fld (qmR i.val 0 0x40) 0 20)).ctx.differs (ctxData s i.val) = true →
    Answers (.ctxWrite i a vt) s fun t =>
      let x := clearLatches s (qmPage i.val 0)
      let q := s.fld (qmR i.val 0 0x40) 0 20
      t = ctxEnd x i.val q 0x10 false) ∧
  (∀ (i : Inst) (a : Acc) (y z : State) (r c : URec) (s : State),
    s.Serves i.val → s.Free (qmPage i.val 0) → s.fld (qmR i.val 0 0x48) 0 1 = 0 → (s.q i.val (s.fld (qmR i.val 0 0x40) 0 20)).mode = .disabled → ctxFieldsOk s i.val (s.q i.val (s.fld (qmR i.val 0 0x40) 0 20)) = true → homeOf s i.val (s.q i.val (s.fld (qmR i.val 0 0x40) 0 20)).part = true → vdQueueOk s i.val (s.fld (qmR i.val 0 0x40) 0 20) = true → ringUnit (clearLatches s (qmPage i.val 0)) i.val (s.fld (qmR i.val 0 0x40) 0 20) false = (y, .unit r) → ringUnit y i.val (s.fld (qmR i.val 0 0x40) 0 20) true = (z, .unit c) →
    Answers (.ctxEnable i a.cp a.port a.rid) s fun t =>
      let q := s.fld (qmR i.val 0 0x40) 0 20
      t = wakeDbs (ctxEnd ((keepOld (touchCtx z i.val q) i.val q).updQ i.val q fun x =>
        { ctx := { x.ctx with irqPending := 0, aheadTries := 0 }, mode := .enabled,
          conds := { curtain := (State.vd (keepOld (touchCtx z i.val q) i.val q) i.val x.vd).st == .closing || (State.vd (keepOld (touchCtx z i.val q) i.val q) i.val x.vd).st == .down },
          ring := some r, cq := some c, dbWait := x.dbWait, poss := x.poss, recFly := x.recFly, recPort := x.recPort, irqNow := x.irqNow.map (· + 2 ^ 24), jwait := x.jwait, stored := x.stored }) i.val q 0x01 true) i.val q) ∧
  (∀ (i : Inst) (a : Acc) (y : State) (m : Miss) (s : State),
    s.Serves i.val → s.Free (qmPage i.val 0) → s.fld (qmR i.val 0 0x48) 0 1 = 0 → (s.q i.val (s.fld (qmR i.val 0 0x40) 0 20)).mode = .disabled → ctxFieldsOk s i.val (s.q i.val (s.fld (qmR i.val 0 0x40) 0 20)) = true → homeOf s i.val (s.q i.val (s.fld (qmR i.val 0 0x40) 0 20)).part = true → vdQueueOk s i.val (s.fld (qmR i.val 0 0x40) 0 20) = true → ringUnit (clearLatches s (qmPage i.val 0)) i.val (s.fld (qmR i.val 0 0x40) 0 20) false = (y, .wait m) →
    Answers (.ctxEnable i a.cp a.port a.rid) s fun t =>
      t = (y.setR (qmR i.val 0 0x48) 1).updAtu i.val fun x => { x with misses := x.misses ++ [m] }) ∧
  (∀ (i : Inst) (a : Acc) (s : State),
    s.Serves i.val → s.Free (qmPage i.val 0) → s.fld (qmR i.val 0 0x48) 0 1 = 0 → (s.q i.val (s.fld (qmR i.val 0 0x40) 0 20)).mode = .enabled →
    Answers (.ctxDisable i a) s fun t =>
      let x := clearLatches s (qmPage i.val 0)
      let q := s.fld (qmR i.val 0 0x40) 0 20
      t = ctxEnd (drainQueue x i.val q) i.val q 0x01 true) ∧
  (∀ (i : Inst) (a : Acc) (s : State),
    s.Serves i.val → s.Free (qmPage i.val 0) → s.fld (qmR i.val 0 0x48) 0 1 = 0 → (s.q i.val (s.fld (qmR i.val 0 0x40) 0 20)).mode ≠ .enabled →
    Answers (.ctxDisable i a) s fun t =>
      let x := clearLatches s (qmPage i.val 0)
      let q := s.fld (qmR i.val 0 0x40) 0 20
      t = ctxEnd x i.val q 0x10 false) ∧
  (∀ (i : Inst) (a : Acc) (s : State),
    s.Serves i.val → s.Free (qmPage i.val 0) → s.fld (qmR i.val 0 0x48) 0 1 = 0 → (s.q i.val (s.fld (qmR i.val 0 0x40) 0 20)).state = 7 →
    Answers (.ctxResume i a) s fun t =>
      let x := clearLatches s (qmPage i.val 0)
      let q := s.fld (qmR i.val 0 0x40) 0 20
      t = ctxEnd (x.updQ i.val q fun y => { y with conds := { y.conds with error := false }, cqBad := false, poss := y.poss.map fun z => if z.fet == .parked then { z with fet := .due } else z }) i.val q 0x01 true) ∧
  (∀ (i : Inst) (a : Acc) (s : State),
    s.Serves i.val → s.Free (qmPage i.val 0) → s.fld (qmR i.val 0 0x48) 0 1 = 0 → (s.q i.val (s.fld (qmR i.val 0 0x40) 0 20)).state = 4 → (s.group (s.q i.val (s.fld (qmR i.val 0 0x40) 0 20)).ctx.group).st = .attached →
    Answers (.ctxResume i a) s fun t =>
      let x := clearLatches s (qmPage i.val 0)
      let q := s.fld (qmR i.val 0 0x40) 0 20
      t = ctxEnd (x.updQ i.val q fun y => { y with conds := { y.conds with hostWait := false } }) i.val q 0x01 true) ∧
  (∀ (i : Inst) (a : Acc) (s : State),
    s.Serves i.val → s.Free (qmPage i.val 0) → s.fld (qmR i.val 0 0x48) 0 1 = 0 → (s.q i.val (s.fld (qmR i.val 0 0x40) 0 20)).state = 3 →
    Answers (.ctxResume i a) s fun t =>
      let x := clearLatches s (qmPage i.val 0)
      let q := s.fld (qmR i.val 0 0x40) 0 20
      t = ctxEnd (x.updQ i.val q fun y => { y with conds := { y.conds with ahead := false }, poss := y.poss.map fun z => if z.fet == .parked then { z with fet := .due } else z }) i.val q 0x01 true) ∧
  (∀ (i : Inst) (a : Acc) (s : State),
    s.Serves i.val → s.Free (qmPage i.val 0) → s.fld (qmR i.val 0 0x48) 0 1 = 0 → (s.q i.val (s.fld (qmR i.val 0 0x40) 0 20)).mode ≠ .disabled →
    Answers (.ctxReset i a) s fun t =>
      let x := clearLatches s (qmPage i.val 0)
      let q := s.fld (qmR i.val 0 0x40) 0 20
      t = ctxEnd (tearQueue x i.val q) i.val q 0x01 true) ∧
  (∀ (i : Inst) (a : Acc) (s : State),
    s.Serves i.val → s.Free (qmPage i.val 0) → s.fld (qmR i.val 0 0x48) 0 1 = 0 → (s.q i.val (s.fld (qmR i.val 0 0x40) 0 20)).ctx.pinned = false → (pinnedOf s i.val).length < 4096 → ((pinnedOf s i.val).filter fun p => p % 1024 == (s.fld (qmR i.val 0 0x40) 0 20) % 1024).length < 12 →
    Answers (.ctxPin i a) s fun t =>
      let x := clearLatches s (qmPage i.val 0)
      let q := s.fld (qmR i.val 0 0x40) 0 20
      t = ctxEnd (showPinned (touchCtx (x.updQ i.val q fun y => { y with ctx := { y.ctx with pinned := true } }) i.val q) i.val) i.val q 0x01 true) ∧
  (∀ (i : Inst) (a : Acc) (s : State),
    s.Serves i.val → s.Free (qmPage i.val 0) → s.fld (qmR i.val 0 0x48) 0 1 = 0 →
    Answers (.ctxUnpin i a) s fun t =>
      let x := clearLatches s (qmPage i.val 0)
      let q := s.fld (qmR i.val 0 0x40) 0 20
      t = ctxEnd (showPinned (x.updQ i.val q fun y => { y with ctx := { y.ctx with pinned := false } }) i.val) i.val q 0x01 true)

/-- On an unbound QM page 0: VT_READ while none is busy puts the selected entry, read from the table where it is not cached, into VT_DATA0-1
with DONE; VT_WRITE while none is busy of an entry that need not send a message writes it to the table with its pending bit kept while
valid and reports DONE; a valid one with a misaligned address gets BAD_FIELD. VT_BASE_WRITE while every queue is DISABLED takes the
aligned base and empties the cache that it feeds. REG_IRQ_REARM while GEN.IRQ_SUMMARY is not 0 sends the register interrupt again.
HALT_POP discards the oldest halt entry. IRQ_TIMER_EXPIRY with records pending and a time bound sends the queue's message.
VECTOR_READ_RETRY that succeeds sends the message that waited; one that fails again is reported, and the message goes on waiting; either
leaves its CONTROL level at its port. (R114, R121, R122, R123, R429, R505) -/
def Obligations.VectorTableAndInterrupts : Prop :=
  (∀ (i : Inst) (a : Acc) (s : State),
    s.Serves i.val → s.Free (qmPage i.val 0) → s.fld (qmR i.val 0 0xE8) 0 1 = 0 →
    Answers (.vtRead i a) s fun t =>
      let x := clearLatches s (qmPage i.val 0)
      let v := s.fld (qmR i.val 0 0xE0) 0 16
      let e := vtEntry s i.val v
      let y := if (s.qm.get i.val).vtCache.contains v then x else vtFetch x i.val v noQ
      t = ((y.setR (qmR i.val 0 0xF0) e.addr.toNat).setR (qmR i.val 0 0xF8) (fields [(0, e.data), (32, b2n e.mask), (33, b2n e.pending), (34, e.group), (36, b2n e.valid)])).setR (qmR i.val 0 0xE8) 0x100) ∧
  (∀ (i : Inst) (a : Acc) (s : State),
    s.Serves i.val → s.Free (qmPage i.val 0) → s.fld (qmR i.val 0 0xE8) 0 1 = 0 → bitAt (s.r (qmR i.val 0 0xF8)) 36 = false ∨ s.r (qmR i.val 0 0xF0) % 4 = 0 → (vtEntry s i.val (s.fld (qmR i.val 0 0xE0) 0 16)).mask = false →
    Answers (.vtWrite i a) s fun t =>
      let x := clearLatches s (qmPage i.val 0)
      let v := s.fld (qmR i.val 0 0xE0) 0 16
      let d := s.r (qmR i.val 0 0xF8)
      t = vtDone (vtStore x i.val v { addr := BitVec.ofNat 64 (s.r (qmR i.val 0 0xF0)), data := bits d 0 32, mask := bitAt d 32, group := bits d 34 2, valid := bitAt d 36, pending := (vtEntry s i.val v).pending && bitAt d 36 }) i.val) ∧
  (∀ (i : Inst) (a : Acc) (s : State),
    s.Serves i.val → s.Free (qmPage i.val 0) → s.fld (qmR i.val 0 0xE8) 0 1 = 0 → bitAt (s.r (qmR i.val 0 0xF8)) 36 = true → s.r (qmR i.val 0 0xF0) % 4 ≠ 0 →
    Answers (.vtWrite i a) s fun t =>
      let x := clearLatches s (qmPage i.val 0)
      t = x.setR (qmR i.val 0 0xE8) 0x1100) ∧
  (∀ (i : Inst) (a : Acc) (v : W64) (s : State),
    s.Serves i.val → s.Free (qmPage i.val 0) → (queuesOf s i.val).any (fun e => !e.2.disabled) = false →
    Answers (.vtBaseWrite i true a v) s fun t =>
      t = { (clearLatches s (qmPage i.val 0)).setR (qmR i.val 0 0xD8) (alignDown v.toNat (2 ^ 20)) with qm := s.qm.upd i.val fun m => { m with vtCache := [] } }) ∧
  (∀ (i : Inst) (a : Acc) (v : W64) (s : State),
    s.Serves i.val → s.Free (qmPage i.val 0) → (queuesOf s i.val).any (fun e => !e.2.disabled) = false →
    Answers (.vtBaseWrite i false a v) s fun t =>
      t = { (clearLatches s (qmPage i.val 0)).setR (qmR i.val 0 0xD0) (alignDown v.toNat (2 ^ 26)) with qm := s.qm.upd i.val fun m => { m with cache := [] } }) ∧
  (∀ (i : Inst) (a : Acc) (s : State),
    s.Serves i.val → s.Free (qmPage i.val 0) → irqSummary s i.val ≠ 0 →
    Answers (.regIrqRearm i a) s fun t =>
      t = sendMsix (clearLatches s (qmPage i.val 0)) (s.fld (qmR i.val 0 0x100) 0 4) i.val) ∧
  (∀ (i : Inst) (a : Acc) (s : State),
    s.Serves i.val → s.Free (qmPage i.val 0) →
    Answers (.haltPop i a) s fun t =>
      t = { clearLatches s (qmPage i.val 0) with qm := s.qm.upd i.val fun m => { m with halts := m.halts.tail } }) ∧
  (∀ (i : Inst) (q : Qidx) (vt : NocEnd) (s : State),
    s.Serves i.val → (s.q i.val q.toNat).ctx.irqPending ≠ 0 → (s.q i.val q.toNat).ctx.irqTimeUs ≠ 0 →
    Answers (.irqTimerExpiry i q vt) s fun t =>
      t = sendIrq s i.val q.toNat vt) ∧
  (∀ (i : Inst) (vec : BitVec 16) (r : NocEnd) (n q : Nat) (s : State),
    s.Serves i.val → r.st ≠ .ok → (s.qm.get i.val).vtRetry.find? (fun e => e.1 == vec.toNat) = some (n, q) →
    Answers (.vectorReadRetry i vec r) s fun t =>
      t = vtFault (setPressure (vtFetch s i.val vec.toNat q) (carrier s i.val) r.press.nif.val 2 r.press.level.toNat) i.val vec.toNat r.st) ∧
  (∀ (i : Inst) (vec : BitVec 16) (press : NifPress) (n q : Nat) (s : State),
    s.Serves i.val → (s.qm.get i.val).vtRetry.find? (fun e => e.1 == vec.toNat) = some (n, q) →
    Answers (.vectorReadRetry i vec ⟨.ok, press⟩) s fun t =>
      let y := setPressure (vtFetch s i.val vec.toNat q) (carrier s i.val) press.nif.val 2 press.level.toNat
      let x : State := { y with qm := y.qm.upd i.val fun m => { m with vtRetry := m.vtRetry.filter fun e => !(e.1 == vec.toNat && e.2 == q) } }
      t = fireVector x i.val vec.toNat q)

/-- DESCRIPTOR_FETCH with room in the descriptor cache reads the next new position of the queue whose turn it is, through its ring's
translation. DESCRIPTOR_READ_RETURN of 64 good bytes whose gen bit is the position's adds the descriptor (fetch goes on past the position;
a chained one is read next), with the tries at 0 and AHEAD over; any other gen bit starts the back-off and, from the second try on,
counts. A return from the NoC leaves its pressure level at its port. AHEAD_RETRY_TIMER and AHEAD_POLL_TIMER let backed-off or parked
positions be read again. AHEAD_LIMIT_EXPIRY after a failed read puts an ENABLED queue into AHEAD. AHEAD_TIMEOUT in AHEAD writes a record
with status 7 for the position, ends AHEAD in ERROR and reports a contained fault of the queue. PRETRANSLATE of a STATION queue's pending
descriptor checks it as a RUN. (R105, R106, R107, R108, R109, R113, R203) -/
def Obligations.DescriptorFetchActs : Prop :=
  (∀ (i : Inst) (q pos : Nat) (u : URec) (y : State) (s : State),
    s.Serves i.val → fnHeld s i.val .qm = false → (cacheUse s i.val).1 < 8192 → (cacheUse s i.val).2 < 32768 → fetchPick s i.val = some q → nextRead { s with qm := s.qm.upd i.val fun m => { m with rr := Tbl.put m.rr (fetchRank (s.q i.val q)) q } } (State.q { s with qm := s.qm.upd i.val fun m => { m with rr := Tbl.put m.rr (fetchRank (s.q i.val q)) q } } i.val q) = some (.head pos true) → useRing { s with qm := s.qm.upd i.val fun m => { m with rr := Tbl.put m.rr (fetchRank (s.q i.val q)) q } } i.val q false = (y, some u) →
    Answers (.descriptorFetch i) s fun t =>
      let x := State.q { s with qm := s.qm.upd i.val fun m => { m with rr := Tbl.put m.rr (fetchRank (s.q i.val q)) q } } i.val q
      t = sendDescRead (y.updQ i.val q fun x => x.takePos { pos }) i.val q pos u (x.ctx.ringBase + 64 * (pos % 2 ^ x.ctx.ringLog2))) ∧
  (∀ (i : Inst) (q : Qidx) (data : List Byte) (press : NifPress) (pos : Nat) (u : URec) (p : Pos) (s : State),
    s.Serves i.val → (s.q i.val q.toNat).ringRead = some (pos, u) → data.length = 64 → (s.q i.val q.toNat).pos? pos = some p → genOf data = (s.q i.val q.toNat).gen pos →
    Answers (.descriptorReadReturn i q data ⟨.ok, press⟩) s fun t =>
      let y := if u.hostBound then s else setPressure s (carrier s i.val) press.nif.val 2 press.level.toNat
      let w := (y.updQ i.val q.toNat fun x => { x with ringRead := none }).updPool (carrier s i.val) fun x =>
        { x with reads := x.reads.filter fun e => match e.2.owner with | .desc h k _ => !(h == i.val && k == q.toNat) | _ => true }
      let z := if u.hostBound then w.updGroup u.hostGroup fun g => { g with cto := 0 } else w
      t = z.updQ i.val q.toNat fun x =>
        let y := x.updPos pos fun y => { y with fet := if (s.q i.val q.toNat).ctx.kind == 0 && chainOf data then .due else .whole, descs := y.descs ++ [{ raw := data }] }
        { y with ahead1 := false, ctx := { y.ctx with aheadTries := 0, fetch := if p.descs.isEmpty && sub24 pos y.ctx.fetch < 2 ^ 23 then (pos + 1) % 2 ^ 24 else y.ctx.fetch },
                 conds := { y.conds with ahead := false } }) ∧
  (∀ (i : Inst) (q : Qidx) (data : List Byte) (press : NifPress) (pos : Nat) (u : URec) (p : Pos) (s : State),
    s.Serves i.val → (s.q i.val q.toNat).ringRead = some (pos, u) → data.length = 64 → (s.q i.val q.toNat).pos? pos = some p → genOf data ≠ (s.q i.val q.toNat).gen pos →
    Answers (.descriptorReadReturn i q data ⟨.ok, press⟩) s fun t =>
      let y := if u.hostBound then s else setPressure s (carrier s i.val) press.nif.val 2 press.level.toNat
      let w := (y.updQ i.val q.toNat fun x => { x with ringRead := none }).updPool (carrier s i.val) fun x =>
        { x with reads := x.reads.filter fun e => match e.2.owner with | .desc h k _ => !(h == i.val && k == q.toNat) | _ => true }
      let z := if u.hostBound then w.updGroup u.hostGroup fun g => { g with cto := 0 } else w
      t = z.updQ i.val q.toNat fun x =>
        let y := x.updPos pos fun y => { y with fet := if x.conds.ahead then .parked else .backoff }
        { y with ahead1 := true, ctx := { y.ctx with aheadTries := if y.ahead1 then satAdd 8 y.ctx.aheadTries 1 else y.ctx.aheadTries } }) ∧
  (∀ (i : Inst) (q : Qidx) (s : State),
    s.Serves i.val →
    Answers (.aheadRetryTimer i q) s fun t =>
      t = s.updQ i.val q.toNat fun x => { x with poss := x.poss.map fun y => if y.fet = .backoff then { y with fet := .due } else y }) ∧
  (∀ (i : Inst) (q : Qidx) (s : State),
    s.Serves i.val →
    Answers (.aheadPollTimer i q) s fun t =>
      t = s.updQ i.val q.toNat fun x => { x with poss := x.poss.map fun y => if y.fet = .parked then { y with fet := .due } else y }) ∧
  (∀ (i : Inst) (q : Qidx) (s : State),
    s.Serves i.val → (s.q i.val q.toNat).ahead1 = true → (s.q i.val q.toNat).mode = .enabled → (s.q i.val q.toNat).poss.any (fun p => p.fet == .backoff || p.fet == .due || p.fet == .inFlight) = true →
    Answers (.aheadLimitExpiry i q) s fun t =>
      t = (moveFetch s i.val q.toNat .backoff .parked).updQ i.val q.toNat fun x => { x with conds := { x.conds with ahead := true } }) ∧
  (∀ (i : Inst) (q : Qidx) (p : Pos) (s : State),
    s.Serves i.val → (s.q i.val q.toNat).conds.ahead = true → (s.q i.val q.toNat).poss.find? (fun p => p.fet == .parked || p.fet == .due || p.fet == .inFlight) = some p →
    Answers (.aheadTimeout i q) s fun t =>
      let x := (addRec s i.val q.toNat p.pos 7 0).updQ i.val q.toNat fun x =>
        { x with conds := { x.conds with ahead := false }, ctx := { x.ctx with aheadTries := 0 }, ahead1 := false, ringRead := none,
                 poss := x.poss.map fun y => if y.pos = p.pos then { y with fet := .parked } else y }
      t = contained (haltQueue x i.val q.toNat 7) (carrier x i.val) 1 7 (hubQ i.val q.toNat)) ∧
  (∀ (i : Inst) (q : Qidx) (pos idx : Nat) (d : DescSt) (s : State),
    s.Serves i.val → fnHeld s i.val .atu = false → firstPending (s.q i.val q.toNat) = some (pos, idx, d) → (s.q i.val q.toNat).ctx.kind = 1 →
    Answers (.pretranslate i q) s fun t =>
      t = pretransRun s i.val q.toNat pos d.raw) ∧
  (∀ (i : Inst) (q : Qidx) (pos idx : Nat) (d : DescSt) (r : Nat) (s : State),
    s.Serves i.val → fnHeld s i.val .atu = false → firstPending (s.q i.val q.toNat) = some (pos, idx, d) → (s.q i.val q.toNat).ctx.kind = 0 → checkDesc d.raw idx = some r →
    Answers (.pretranslate i q) s fun t =>
      t = failDesc s i.val q.toNat pos idx 8 (fields [(0, r), (8, idx % 4096)]))

/-- COMPLETION_RECORD_WRITE with a record ready, the completion ring good and with room, and the VD not DOWN: a record for an ABSENT group's
host ring goes to the journal with its 32 bytes and address, and its interrupt condition is judged, where the journal's reserve has room.
QUEUE_DRAIN_END of a DRAINING queue without an unfinished position makes it DISABLED without conditions, unpinned. EVT_VALUE_WRITE sets,
EVT_ADD increases modulo 2^32, the selected counter of QM page 1 or of the VD's range. EVENT_SIGNAL_APPLY, once earlier positions have
ended and nothing is left to flush, outside HOST_WAIT, adds the increment and ends the position with the new value. EVENT_WAKE ends the
waiters that the counter satisfies. (R88, R89, R115, R113, R117, R118, R119, R123, R124, R125, R248, R391) -/
def Obligations.RecordsAndEvents : Prop :=
  (∀ (i : Inst) (q : Qidx) (vt : NocEnd) (p : Pos) (r : Rec) (s : State),
    s.Serves i.val → fnHeld s i.val .qm = false → (s.q i.val q.toNat).headRec = some (p, r) → p.held = false → (s.q i.val q.toNat).cqFull = false → (s.q i.val q.toNat).cqBad = false → (s.q i.val q.toNat).jwait = false → (s.vd i.val (s.q i.val q.toNat).vd).st ≠ .down → (s.q i.val q.toNat).ctx.cqLoc = 0 → absent s (s.q i.val q.toNat).ctx.group = true → jrnlFull s i.val { typ := 1, group := (s.q i.val q.toNat).ctx.group, seq := 0, time := 0, queue := hubQ i.val q.toNat, iova := (s.q i.val q.toNat).ctx.cqBase + 32 * ((s.q i.val q.toNat).ctx.cqSeq % 2 ^ (s.q i.val q.toNat).ctx.cqLog2), payload := recBytes i.val q.toNat (s.q i.val q.toNat).ctx p.pos r } = false →
    Answers (.completionRecordWrite i q vt) s fun t =>
      let c := (s.q i.val q.toNat).ctx
      let x := jrnlAppend s i.val q.toNat { typ := 1, group := c.group, seq := 0, time := 0, queue := hubQ i.val q.toNat, iova := c.cqBase + 32 * (c.cqSeq % 2 ^ c.cqLog2), payload := recBytes i.val q.toNat c p.pos r }
      t = recGone x i.val q.toNat p r vt) ∧
  (∀ (i : Inst) (q : Qidx) (s : State),
    s.Serves i.val → (s.q i.val q.toNat).mode = .draining → (s.q i.val q.toNat).poss.all (fun p => p.ph == .ended) = true →
    Answers (.queueDrainEnd i q) s fun t =>
      t = showPinned (s.updQ i.val q.toNat fun x => { x with mode := .disabled, conds := {}, evt := none, cqBad := false, ctx := { x.ctx with pinned := false } }) i.val) ∧
  (∀ (i : Inst) (a : Acc) (v : W32) (s : State),
    s.Serves i.val → s.Free (qmPage i.val 1) →
    Answers (.evtValueWrite i a v) s fun t =>
      let n := s.fld (qmR i.val 1 0x40) 0 12
      t = setEvt (clearLatches s (qmPage i.val 1)) i.val n { evtCtr s i.val n with val := v.toNat }) ∧
  (∀ (i : Inst) (a : Acc) (v : W32) (s : State),
    s.Serves i.val → s.Free (qmPage i.val 1) →
    Answers (.evtAdd i none a v) s fun t =>
      let n := s.fld (qmR i.val 1 0x40) 0 12
      t = setEvt (clearLatches s (qmPage i.val 1)) i.val n { evtCtr s i.val n with val := ((evtCtr s i.val n).val + v.toNat) % 2 ^ 32 }) ∧
  (∀ (i : Inst) (w : BitVec 12) (a : Acc) (v : W32) (k : Nat) (s : State),
    s.Serves i.val → (s.vd i.val w.toNat).st ≠ .free → evtOf s i.val w.toNat (s.fld (reg .vd i.val w.toNat 0x58) 0 12) = some k →
    Answers (.evtAdd i (some w) a v) s fun t =>
      t = setEvt (clearLatches s (vdPage i.val w.toNat)) i.val k { evtCtr s i.val k with val := ((evtCtr s i.val k).val + v.toNat) % 2 ^ 32 }) ∧
  (∀ (i : Inst) (q : Qidx) (p : Pos) (d : DescSt) (s : State),
    s.Serves i.val → (s.q i.val q.toNat).poss.find? (fun p => p.ph == .started && (p.descs.head?.map fun d => opcodeOf d.raw) == some 0xF) = some p → ((s.q i.val q.toNat).poss.takeWhile fun y => y.pos != p.pos).any (fun y => y.ph != .ended) = false → (s.q i.val q.toNat).conds.hostWait = false → (s.q i.val q.toNat).unflushed = [] → p.descs.head? = some d →
    Answers (.eventSignalApply i q) s fun t =>
      let n := (evtOf s i.val (s.q i.val q.toNat).vd (df d.raw 0x18 0 12)).getD 0
      let x := addEvt s i.val n (df d.raw 0x18 32 16)
      t = endPos x i.val q.toNat p.pos 0 (evtCtr x i.val n).val true) ∧
  (∀ (i : Inst) (n : BitVec 12) (s : State),
    s.Serves i.val →
    Answers (.eventWake i n) s fun t =>
      t = eventWake s i.val n.toNat)

/-- A write of PAGE_CTL.enable takes effect at once: 1 makes an OFF channel IDLE. CHAN_CFG takes its writable bits unless max_reads is 0,
which only sets cfg_refused (bit 17). CHANNEL_PAUSE sets CHAN_CTL.pause; a channel without a job enters PAUSED and raises paused (17), a
RUNNING one becomes PAUSING and gives back the unit that it has not begun. CHANNEL_PAUSED: with no read in flight, every write landed and
every unit formed, PAUSING becomes PAUSED and raises paused. CHANNEL_UNPAUSE clears pause; a PAUSED channel with a job runs on, its arrive
words polled again while one is unmatched; one without goes to its rest state. ABORT of a PAUSED job ends it with TORN_DOWN (6) and a
count of jobs, else sets cmd_refused (16) and leaves the split latch (R57). CLEAR_HALT of a HALTED channel clears ERR_INFO.valid and
returns it to its rest state without a job, else sets cmd_refused. CHANNEL_DRAINED: an IDLE channel not enabled goes OFF and raises
drained (18). (R132, R133, R134, R135, R157, R158, R159, R162) -/
def Obligations.ChannelControls : Prop :=
  (∀ (i : Inst) (c : Chan) (a : Acc) (s : State),
    s.Serves i.val → s.Free (dmaPage (chanId i.val c.val)) → s.NoLate → (s.chan (chanId i.val c.val)).st = .off →
    Answers (.dmaEnableWrite i c a true) s fun t =>
      let cid := chanId i.val c.val
      let x := clearLatches s (dmaPage cid)
      t = (x.setMask (dmaR cid 8) 1 1).updChan cid fun ch => { ch with st := .idle }) ∧
  (∀ (i : Inst) (c : Chan) (a : Acc) (s : State),
    s.Serves i.val → s.Free (dmaPage (chanId i.val c.val)) → s.NoLate →
    Answers (.dmaEnableWrite i c a false) s fun t =>
      let cid := chanId i.val c.val
      let x := clearLatches s (dmaPage cid)
      t = x.setMask (dmaR cid 8) 1 0) ∧
  (∀ (i : Inst) (c : Chan) (a : Acc) (v : W32) (s : State),
    s.Serves i.val → s.Free (dmaPage (chanId i.val c.val)) → s.NoLate → bits v.toNat 16 12 ≠ 0 →
    Answers (.chanCfgWrite i c a v) s fun t =>
      let cid := chanId i.val c.val
      let x := clearLatches s (dmaPage cid)
      t = x.setMask (dmaR cid 0x40) 0xFFFF1FF v.toNat) ∧
  (∀ (i : Inst) (c : Chan) (a : Acc) (v : W32) (s : State),
    s.Serves i.val → s.Free (dmaPage (chanId i.val c.val)) → s.NoLate → bits v.toNat 16 12 = 0 →
    Answers (.chanCfgWrite i c a v) s fun t =>
      let cid := chanId i.val c.val
      let x := clearLatches s (dmaPage cid)
      t = { x.perr (dmaPage cid) 17 with wlatch := s.wlatch }) ∧
  (∀ (i : Inst) (c : Chan) (a : Acc) (s : State),
    s.Serves i.val → s.Free (dmaPage (chanId i.val c.val)) → (s.chan (chanId i.val c.val)).st = .idle ∨ (s.chan (chanId i.val c.val)).st = .off →
    Answers (.channelPause i c a) s fun t =>
      let cid := chanId i.val c.val
      let x := clearLatches s (dmaPage cid)
      t = ((x.setMask (dmaR cid 0x44) 1 1).updChan cid fun ch => { ch with st := .paused }).irq (dmaPage cid) 17) ∧
  (∀ (i : Inst) (c : Chan) (a : Acc) (s : State),
    s.Serves i.val → s.Free (dmaPage (chanId i.val c.val)) → (s.chan (chanId i.val c.val)).st = .running →
    Answers (.channelPause i c a) s fun t =>
      let cid := chanId i.val c.val
      let x := clearLatches s (dmaPage cid)
      t = dropUnbegun ((x.setMask (dmaR cid 0x44) 1 1).updChan cid fun ch => { ch with st := .pausing }) cid) ∧
  (∀ (i : Inst) (c : Chan) (s : State),
    s.Serves i.val → (s.chan (chanId i.val c.val)).st = .pausing → chanReads s (chanId i.val c.val) = 0 → (s.chan (chanId i.val c.val)).wrs = [] → (s.chan (chanId i.val c.val)).units = [] →
    Answers (.channelPaused i c) s fun t =>
      t = (s.updChan (chanId i.val c.val) fun ch => { ch with st := .paused, idxRd := none }).irq (dmaPage (chanId i.val c.val)) 17) ∧
  (∀ (i : Inst) (c : Chan) (a : Acc) (s : State),
    s.Serves i.val → s.Free (dmaPage (chanId i.val c.val)) → (s.chan (chanId i.val c.val)).st = .paused → (s.chan (chanId i.val c.val)).queue.isSome = true →
    Answers (.channelUnpause i c a) s fun t =>
      let cid := chanId i.val c.val
      let x := clearLatches s (dmaPage cid)
      t = (x.setMask (dmaR cid 0x44) 1 0).updChan cid fun ch => { ch with st := .running, arrive := if ch.arrive.any (fun a => a.hit.isNone) then ch.arrive.map (fun a => { k := a.k }) else ch.arrive }) ∧
  (∀ (i : Inst) (c : Chan) (a : Acc) (s : State),
    s.Serves i.val → s.Free (dmaPage (chanId i.val c.val)) → (s.chan (chanId i.val c.val)).st = .paused → (s.chan (chanId i.val c.val)).queue = none →
    Answers (.channelUnpause i c a) s fun t =>
      let cid := chanId i.val c.val
      let x := clearLatches s (dmaPage cid)
      t = toRest (x.setMask (dmaR cid 0x44) 1 0) cid) ∧
  (∀ (i : Inst) (c : Chan) (a : Acc) (q : Nat) (s : State),
    s.Serves i.val → s.Free (dmaPage (chanId i.val c.val)) → (s.chan (chanId i.val c.val)).st = .paused → (s.chan (chanId i.val c.val)).queue = some q →
    Answers (.abort i c a) s fun t =>
      let cid := chanId i.val c.val
      let x := clearLatches s (dmaPage cid)
      t = leaveJob ((loneGroups (dropPosWaits (endPos x (s.chan cid).home q (s.chan cid).pos 6 0 true) (s.chan cid).home q (s.chan cid).pos) (s.chan cid).home).bump (dmaR cid 0xD0) 1) cid) ∧
  (∀ (i : Inst) (c : Chan) (a : Acc) (s : State),
    s.Serves i.val → s.Free (dmaPage (chanId i.val c.val)) → (s.chan (chanId i.val c.val)).st ≠ .paused →
    Answers (.abort i c a) s fun t =>
      let cid := chanId i.val c.val
      let x := clearLatches s (dmaPage cid)
      t = { x.perr (dmaPage cid) 16 with wlatch := s.wlatch }) ∧
  (∀ (i : Inst) (c : Chan) (a : Acc) (s : State),
    s.Serves i.val → s.Free (dmaPage (chanId i.val c.val)) → (s.chan (chanId i.val c.val)).st = .halted →
    Answers (.clearHalt i c a) s fun t =>
      let cid := chanId i.val c.val
      let x := clearLatches s (dmaPage cid)
      t = toRest ((x.setMask (dmaR cid 0x88) (2 ^ 31) 0).updChan cid fun ch => { nif := ch.nif }) cid) ∧
  (∀ (i : Inst) (c : Chan) (a : Acc) (s : State),
    s.Serves i.val → s.Free (dmaPage (chanId i.val c.val)) → (s.chan (chanId i.val c.val)).st ≠ .halted →
    Answers (.clearHalt i c a) s fun t =>
      let cid := chanId i.val c.val
      let x := clearLatches s (dmaPage cid)
      t = { x.perr (dmaPage cid) 16 with wlatch := s.wlatch }) ∧
  (∀ (i : Inst) (c : Chan) (s : State),
    s.Serves i.val → (s.chan (chanId i.val c.val)).st = .idle → chanEnabled s (chanId i.val c.val) = false →
    Answers (.channelDrained i c) s fun t =>
      t = (s.updChan (chanId i.val c.val) fun ch => { ch with st := .off }).irq (dmaPage (chanId i.val c.val)) 18)

/-- POSITION_START of a position that may start: a NOP becomes started and ends with status 0; a descriptor of a DMA queue goes to the channel
that may take it with the fewest NIF reads, which becomes RUNNING with that job and begins the descriptor. DESCRIPTOR_START at a boundary:
a descriptor that may start begins; one that failed ends the job with its status once no write is left. JOB_END: a formed last descriptor
with every arrive word matched, no write, no held write and no read left ends the job with status 0, its result and a count.
CHANNEL_HALTED with nothing outstanding: the position ends with the halt's status and ERR_ADDR as result, the channel is HALTED and raises
halt (16). ARRIVE_TIMEOUT halts the channel with source 11 at the first unmatched word. (R88, R101, R130, R131, R133, R138, R153, R161,
R187, R188, R189) -/
def Obligations.JobsStartAndEnd : Prop :=
  (∀ (i : Inst) (q : Qidx) (p : Pos) (d : DescSt) (y z : State) (s : State),
    s.Serves i.val → fnHeld s i.val .qm = false → startGate s i.val q.toNat = (y, some (p, d)) → opcodeOf d.raw = 0xC → chainOf d.raw = false → mayStart y i.val q.toNat p.pos 0 d = (z, true) →
    Answers (.positionStart i q) s fun t =>
      t = endPos (z.updQ i.val q.toNat fun x => x.updPos p.pos fun y => { y with ph := .started, port := pickPort z x.ctx.group (carrier z i.val) }) i.val q.toNat p.pos 0 0 true) ∧
  (∀ (i : Inst) (q : Qidx) (p : Pos) (d : DescSt) (cid : Nat) (y z : State) (s : State),
    s.Serves i.val → fnHeld s i.val .qm = false → startGate s i.val q.toNat = (y, some (p, d)) → opcodeOf d.raw ∉ [0xC, 0xE, 0xF] → (s.q i.val q.toNat).ctx.kind = 0 → mayStart y i.val q.toNat p.pos 0 d = (z, true) → leastBy (nifReads z) (chansFor z (carrier z i.val) (s.q i.val q.toNat)) = some cid →
    Answers (.positionStart i q) s fun t =>
      t = startDesc ((z.updChan cid fun _ => { st := .running, home := i.val, queue := some q.toNat, pos := p.pos, nif := (z.chan cid).nif }).updQ i.val q.toNat
        fun x => x.updPos p.pos fun y => { y with ph := .started, chan := some cid, port := none }) cid d.raw) ∧
  (∀ (i : Inst) (c : Chan) (q : Nat) (d : DescSt) (y : State) (s : State),
    s.Serves i.val → (s.chan (chanId i.val c.val)).queue = some q → curDesc s (s.chan (chanId i.val c.val)) = some d → (s.chan (chanId i.val c.val)).st = .running → (s.chan (chanId i.val c.val)).between = true → commitHeld s (dmaPage (chanId i.val c.val)) = false → d.ph = .ready → mayStart s (s.chan (chanId i.val c.val)).home q (s.chan (chanId i.val c.val)).pos (s.chan (chanId i.val c.val)).desc d = (y, true) →
    Answers (.descriptorStart i c) s fun t =>
      t = startDesc y (chanId i.val c.val) d.raw) ∧
  (∀ (i : Inst) (c : Chan) (q : Nat) (d : DescSt) (st r : Nat) (s : State),
    s.Serves i.val → (s.chan (chanId i.val c.val)).queue = some q → curDesc s (s.chan (chanId i.val c.val)) = some d → (s.chan (chanId i.val c.val)).st = .running → (s.chan (chanId i.val c.val)).between = true → commitHeld s (dmaPage (chanId i.val c.val)) = false → d.ph = .failed st r → (s.chan (chanId i.val c.val)).wrs = [] → (s.chan (chanId i.val c.val)).held = [] →
    Answers (.descriptorStart i c) s fun t =>
      t = leaveJob ((loneGroups (dropPosWaits (endPos s (s.chan (chanId i.val c.val)).home q (s.chan (chanId i.val c.val)).pos st r true) (s.chan (chanId i.val c.val)).home q (s.chan (chanId i.val c.val)).pos) (s.chan (chanId i.val c.val)).home).bump (dmaR (chanId i.val c.val) 0xD0) 1) (chanId i.val c.val)) ∧
  (∀ (i : Inst) (c : Chan) (x : Queue) (p : Pos) (d : DescSt) (q : Nat) (s : State),
    s.Serves i.val → (s.chan (chanId i.val c.val)).queue = some q → jobOf s (s.chan (chanId i.val c.val)) = some (x, p) → curDesc s (s.chan (chanId i.val c.val)) = some d → (s.chan (chanId i.val c.val)).st = .running ∨ (s.chan (chanId i.val c.val)).st = .pausing → (s.chan (chanId i.val c.val)).between = false → chainOf d.raw = false → descFormed d.raw (s.chan (chanId i.val c.val)) = true → (s.chan (chanId i.val c.val)).wrs = [] → (s.chan (chanId i.val c.val)).held = [] → (s.chan (chanId i.val c.val)).arrive.all (fun a => a.hit.isSome) = true → chanReads s (chanId i.val c.val) = 0 →
    Answers (.jobEnd i c) s fun t =>
      t = leaveJob ((loneGroups (dropPosWaits (endPos (countLate s (s.chan (chanId i.val c.val)) d.raw x.part) (s.chan (chanId i.val c.val)).home q (s.chan (chanId i.val c.val)).pos 0 (jobResult (s.chan (chanId i.val c.val)) d.raw (p.descs.any fun e => isArith e.raw)) true) (s.chan (chanId i.val c.val)).home q (s.chan (chanId i.val c.val)).pos) (s.chan (chanId i.val c.val)).home).bump (dmaR (chanId i.val c.val) 0xD0) 1) (chanId i.val c.val)) ∧
  (∀ (i : Inst) (c : Chan) (q : Nat) (s : State),
    s.Serves i.val → (s.chan (chanId i.val c.val)).st = .halting → chanReads s (chanId i.val c.val) = 0 → chanWrites s (chanId i.val c.val) = 0 → (s.chan (chanId i.val c.val)).torn = false → (s.chan (chanId i.val c.val)).errStatus ≠ 1 → (s.chan (chanId i.val c.val)).queue = some q →
    Answers (.channelHalted i c) s fun t =>
      let cid := chanId i.val c.val
      let ch := s.chan cid
      t = ((((endPos s ch.home q ch.pos ch.errStatus (s.r (dmaR cid 0x80)) true).bump (dmaR cid 0xD0) 1).updChan cid fun ch =>
        { st := .halted, home := ch.home, queue := ch.queue, pos := ch.pos, desc := ch.desc, iter := ch.iter, nif := ch.nif }).irq (dmaPage cid) 16)) ∧
  (∀ (i : Inst) (c : Chan) (a : Arrive) (d : DescSt) (s : State),
    s.Serves i.val → (s.chan (chanId i.val c.val)).arrive.find? (fun a => a.hit.isNone) = some a → curDesc s (s.chan (chanId i.val c.val)) = some d → (s.chan (chanId i.val c.val)).st = .running →
    Answers (.arriveTimeout i c) s fun t =>
      t = haltChan s (chanId i.val c.val) 11 (auxAddr d.raw + 64 * a.k) (srcSp d.raw) 0)

/-- DMA_REQUEST_ISSUE of a channel inside a descriptor that takes a slot (or tag), whose turn it is at its NIF port, the next turn then that
of the channels after it: the first write not issued, whole in one request, carries the slot; the next read of its units (no raw_wait)
carries the tag. NOC_READ_RESPONSE frees the tag and takes the pressure level; good data goes to a RUNNING channel, an error halts it with
the source of R161 at the read's address. NOC_WRITE_RESPONSE and HOST_WRITE_ACK of a good write land it. HOST_COMPLETION of the read's
length ends a run of timeouts and gives the channel its data. KEYSTONE_ISSUE with no other write, once the job forms no more or needs the
held write, and nothing to flush, issues the first held write. INTERLOCK_GRANT gives a waiting unit its free granules. STAGED_PHASE_B
after phase A sends the commit mark. ARRIVE_POLL makes an unmatched word due. PRESSURE_DECAY sets a level to 0. (R84, R151, R152, R153,
R154, R155, R156, R161, R182, R184, R188, R246) -/
def Obligations.RequestsAndResponses : Prop :=
  (∀ (i : Inst) (c : Chan) (d : DescSt) (w : Wr) (slot : Nat) (y : State) (s : State),
    s.Serves i.val → (s.chan (chanId i.val c.val)).st = .running → curDesc s (s.chan (chanId i.val c.val)) = some d → (s.chan (chanId i.val c.val)).between = false → (s.chan (chanId i.val c.val)).wrs.find? (fun w => w.slot.isNone) = some w → writeLen s (chanId i.val c.val) d w = w.bytes.length → w.bytes ≠ [] → issueWrite s (chanId i.val c.val) d.units w ((jobOf s (s.chan (chanId i.val c.val))).elim false fun e => relaxedDesc e.2 (s.chan (chanId i.val c.val)).desc) = (y, some slot) → hasTurn s (chanId i.val c.val) true = true →
    Answers (.dmaRequestIssue i c true) s fun t =>
      let x := advance (y.updChan (chanId i.val c.val) fun ch => { ch with wrs := ch.wrs.flatMap fun x => if x = w then [{ w with slot := some slot }] else [x] }) (chanId i.val c.val)
      t = if onNif s x then x.updPool ((chanId i.val c.val) / 256) fun z => { z with turn := Tbl.put z.turn (4 * (s.chan (chanId i.val c.val)).nif + 2 * b2n (chanLc s (s.chan (chanId i.val c.val))) + b2n true) (((chanId i.val c.val) + 1) % 256) } else x) ∧
  (∀ (i : Inst) (c : Chan) (d : DescSt) (u : UnitSt) (r : Rd) (tag : Nat) (y : State) (s : State),
    s.Serves i.val → (s.chan (chanId i.val c.val)).st = .running → curDesc s (s.chan (chanId i.val c.val)) = some d → (s.chan (chanId i.val c.val)).between = false → rawWaitOf d.raw = false → nextRd (s.chan (chanId i.val c.val)) = some (u, r) → issueRead s (chanId i.val c.val) r.sp r.addr r.len = (y, some tag) → hasTurn s (chanId i.val c.val) false = true →
    Answers (.dmaRequestIssue i c false) s fun t =>
      let x := y.updChan (chanId i.val c.val) fun ch => { ch with units := ch.units.map fun v => if v.iter = u.iter then { v with rds := v.rds.map fun x => if x = r then { x with tag := some tag } else x } else v }
      t = if onNif s x then x.updPool ((chanId i.val c.val) / 256) fun z => { z with turn := Tbl.put z.turn (4 * (s.chan (chanId i.val c.val)).nif + 2 * b2n (chanLc s (s.chan (chanId i.val c.val))) + b2n false) (((chanId i.val c.val) + 1) % 256) } else x) ∧
  (∀ (i : Inst) (tag : BitVec 14) (data : List Byte) (press : BitVec 2) (u : RUse) (cid : Nat) (s : State),
    s.Up → alive s i.val = true → Tbl.find (s.pool i.val).reads tag.toNat = some u → u.port = none → u.owner = .chan cid → data.length = u.len → (s.chan cid).st = .running →
    Answers (.nocReadResponse i tag data .ok press) s fun t =>
      t = chanData ((setPressure s i.val (s.chan cid).nif (dataClass s (s.chan cid)) press.toNat).updPool i.val fun p => { p with reads := Tbl.del p.reads tag.toNat }) cid tag.toNat u data) ∧
  (∀ (i : Inst) (tag : BitVec 14) (data : List Byte) (st : Rsp) (press : BitVec 2) (u : RUse) (cid : Nat) (s : State),
    s.Up → alive s i.val = true → Tbl.find (s.pool i.val).reads tag.toNat = some u → u.port = none → u.owner = .chan cid → st ≠ .ok → st ≠ .range →
    Answers (.nocReadResponse i tag data st press) s fun t =>
      t = haltChan ((setPressure s i.val (s.chan cid).nif (dataClass s (s.chan cid)) press.toNat).updPool i.val fun p => { p with reads := Tbl.del p.reads tag.toNat }) cid (errSource st) u.addr u.sp 0) ∧
  (∀ (i : Inst) (slot : BitVec 14) (press : NifPress) (w : WUse) (cid : Nat) (s : State),
    s.Up → alive s i.val = true → Tbl.find (s.pool i.val).writes slot.toNat = some w → w.port = none → w.owner = .chan cid →
    Answers (.nocWriteResponse i slot .ok press) s fun t =>
      t = landed (setPressure s i.val (s.chan cid).nif (dataClass s (s.chan cid)) press.level.toNat) i.val slot.toNat) ∧
  (∀ (p : Port) (th : BitVec 4) (tl : BitVec 10) (data : List Byte) (i n : Nat) (u : RUse) (cid : Nat) (s : State),
    s.Up → alive s i = true → readByTag s p.val (th ++ tl).toNat = some (i, n, u) → u.owner = .chan cid → data.length = u.len → (s.chan cid).st = .running →
    Answers (.hostCompletion p th tl data .ok) s fun t =>
      t = chanData ((s.updGroup (groupOf s p.val) fun g => { g with cto := 0 }).updPool i fun p => { p with reads := Tbl.del p.reads n }) cid n u data) ∧
  (∀ (i : Inst) (slot : BitVec 14) (press : NifPress) (st : Rsp) (s : State),
    s.Up → alive s i.val = false →
    Answers (.nocWriteResponse i slot st press) s fun t =>
      t = s) ∧
  (∀ (i : Inst) (slot : BitVec 14) (w : WUse) (cid : Nat) (s : State),
    s.Up → alive s i.val = true → Tbl.find (s.pool i.val).writes slot.toNat = some w → w.port ≠ none → w.owner = .chan cid →
    Answers (.hostWriteAck i slot) s fun t =>
      t = landed s i.val slot.toNat) ∧
  (∀ (i : Inst) (c : Chan) (w : Wr) (r : List Wr) (x : Queue) (p : Pos) (d : DescSt) (slot : Nat) (y : State) (s : State),
    s.Serves i.val → (s.chan (chanId i.val c.val)).held = w :: r → jobOf s (s.chan (chanId i.val c.val)) = some (x, p) → (s.chan (chanId i.val c.val)).st = .running → (s.chan (chanId i.val c.val)).wrs = [] → jobFormed s (s.chan (chanId i.val c.val)) = true ∨ needsHeld s (chanId i.val c.val) w = true → p.descs[w.desc]? = some d → p.ports = [] → issueWrite s (chanId i.val c.val) d.units w false = (y, some slot) →
    Answers (.keystoneIssue i c) s fun t =>
      t = y.updChan (chanId i.val c.val) fun ch => { ch with held := r, wrs := [{ w with slot := some slot }] }) ∧
  (∀ (i : Inst) (c : Chan) (u : UnitSt) (s : State),
    s.Serves i.val → (s.chan (chanId i.val c.val)).units.find? (fun u => !u.granted) = some u → locksFree s i.val u.granules = true →
    Answers (.interlockGrant i c) s fun t =>
      t = (takeLocks s i.val (chanId i.val c.val) (s.chan (chanId i.val c.val)).desc u.iter u.n u.granules).updChan (chanId i.val c.val) fun ch => { ch with units := ch.units.map fun v => if v.iter = u.iter then { v with granted := true } else v }) ∧
  (∀ (i : Inst) (c : Chan) (d : DescSt) (s : State),
    s.Serves i.val → curDesc s (s.chan (chanId i.val c.val)) = some d → opcodeOf d.raw = 0x12 → (s.chan (chanId i.val c.val)).st = .running → (s.chan (chanId i.val c.val)).between = false → stagedU d.raw ≤ (s.chan (chanId i.val c.val)).iter → (s.chan (chanId i.val c.val)).units = [] → (s.chan (chanId i.val c.val)).wrs.any (fun w => w.desc == (s.chan (chanId i.val c.val)).desc) = false → (s.chan (chanId i.val c.val)).phaseB = false → (s.chan (chanId i.val c.val)).markSent = false →
    Answers (.stagedPhaseB i c) s fun t =>
      let cid := chanId i.val c.val
      let ch := s.chan cid
      t = ((s.updChan cid fun ch => { ch with markSent := true }).report ch.home [.mark cid (ctxKey s ch.home (ch.queue.getD 0)) ch.pos ch.desc]).updChan cid
        fun ch => if ch.marked then { ch with phaseB := true } else ch) ∧
  (∀ (i : Inst) (c : Chan) (k : Fin 16) (s : State),
    s.Serves i.val →
    Answers (.arrivePoll i c k) s fun t =>
      t = s.updChan (chanId i.val c.val) fun ch => { ch with arrive := ch.arrive.map fun a => if a.k = k.val && a.hit.isNone && a.tag.isNone then { a with due := true } else a }) ∧
  (∀ (i : Inst) (n : Fin 8) (cls : BitVec 2) (s : State),
    s.Serves i.val →
    Answers (.pressureDecay i n cls) s fun t =>
      t = s.updPool i.val fun p => { p with pressure := Tbl.del p.pressure (4 * n.val + cls.toNat) })

/-- On an unbound ATU page 0 with no command in progress each command of INV_CMD sets INV_STATUS.busy and starts an invalidation (at once, or
in arrival order while 64 are in progress) of its scope: DA_RANGE of 2^26 to 2^50 bytes and HOST_RANGE of at least 2^21 bytes at INV_ADDR
rounded down to the size; DA_PARTITION, HOST_SPACE and HOST_GROUP of the space INV_KEY names. A DA_RANGE size out of range ends with
BAD_FIELD (0x11) alone. While a command is in progress another only sets cmd_refused (16), and leaves the split latch (R57). A write of a
root takes its valid bit and base and starts an invalidation of the partition without touching INV_STATUS. (R209, R212, R218) -/
def Obligations.InvalidationCommands : Prop :=
  (∀ (i : Inst) (a : Acc) (lg : BitVec 6) (s : State),
    s.Serves i.val → s.Free (atuPage i.val 0) → s.fld (atuR i.val 0 0x4C) 0 1 = 0 → 26 ≤ lg.toNat ∧ lg.toNat ≤ 50 →
    Answers (.daRange i a lg) s fun t =>
      let x := clearLatches s (atuPage i.val 0)
      t = invalidate (x.setR (atuR i.val 0 0x4C) 1) i.val .cmd ({ key := .da (bits (s.r (atuR i.val 0 0x48)) 0 4), base := alignDown (s.r (atuR i.val 0 0x50)) (2 ^ lg.toNat), size := 2 ^ lg.toNat })) ∧
  (∀ (i : Inst) (a : Acc) (lg : BitVec 6) (s : State),
    s.Serves i.val → s.Free (atuPage i.val 0) → s.fld (atuR i.val 0 0x4C) 0 1 = 0 → lg.toNat < 26 ∨ 50 < lg.toNat →
    Answers (.daRange i a lg) s fun t =>
      let x := clearLatches s (atuPage i.val 0)
      t = x.setR (atuR i.val 0 0x4C) 0x1100) ∧
  (∀ (i : Inst) (a : Acc) (lg : BitVec 6) (s : State),
    s.Serves i.val → s.Free (atuPage i.val 0) → s.fld (atuR i.val 0 0x4C) 0 1 = 1 →
    Answers (.daRange i a lg) s fun t =>
      let x := clearLatches s (atuPage i.val 0)
      t = { x.perr (atuPage i.val 0) 16 with wlatch := s.wlatch }) ∧
  (∀ (i : Inst) (a : Acc) (s : State),
    s.Serves i.val → s.Free (atuPage i.val 0) → s.fld (atuR i.val 0 0x4C) 0 1 = 0 →
    Answers (.daPartition i a) s fun t =>
      let x := clearLatches s (atuPage i.val 0)
      t = invalidate (x.setR (atuR i.val 0 0x4C) 1) i.val .cmd ({ key := .da (bits (s.r (atuR i.val 0 0x48)) 0 4), base := 0, size := 2 ^ 52 })) ∧
  (∀ (i : Inst) (a : Acc) (lg : BitVec 6) (s : State),
    s.Serves i.val → s.Free (atuPage i.val 0) → s.fld (atuR i.val 0 0x4C) 0 1 = 0 → 21 ≤ lg.toNat →
    Answers (.hostRange i a lg) s fun t =>
      let x := clearLatches s (atuPage i.val 0)
      t = invalidate (x.setR (atuR i.val 0 0x4C) 1) i.val .cmd ({ key := invHost (s.r (atuR i.val 0 0x48)), base := alignDown (s.r (atuR i.val 0 0x50)) (2 ^ lg.toNat), size := 2 ^ lg.toNat })) ∧
  (∀ (i : Inst) (a : Acc) (s : State),
    s.Serves i.val → s.Free (atuPage i.val 0) → s.fld (atuR i.val 0 0x4C) 0 1 = 0 →
    Answers (.hostSpace i a) s fun t =>
      let x := clearLatches s (atuPage i.val 0)
      t = invalidate (x.setR (atuR i.val 0 0x4C) 1) i.val .cmd ({ key := invHost (s.r (atuR i.val 0 0x48)), base := 0, size := 2 ^ 64 })) ∧
  (∀ (i : Inst) (a : Acc) (s : State),
    s.Serves i.val → s.Free (atuPage i.val 0) → s.fld (atuR i.val 0 0x4C) 0 1 = 0 →
    Answers (.hostGroup i a) s fun t =>
      let x := clearLatches s (atuPage i.val 0)
      t = invalidate (x.setR (atuR i.val 0 0x4C) 1) i.val .cmd ({ key := .host (bits (s.r (atuR i.val 0 0x48)) 4 2) none, base := 0, size := 2 ^ 64, allSpaces := true })) ∧
  (∀ (i : Inst) (p : Part) (a : Acc) (v : W64) (s : State),
    s.Serves i.val → s.Free (atuPage i.val 0) →
    Answers (.ptRootWrite i p a v) s fun t =>
      let x := clearLatches s (atuPage i.val 0)
      t = invalidate (x.setR (atuR i.val 0 (0x80 + 8 * p.val)) (v.toNat &&& 0xffffffffc0001)) i.val .other (daAll p.val))

/-- When an invalidation whose scope names no single site is accepted, the epoch becomes one more modulo 2^16 and ATU.EPOCH reads as it, the
last log entry is that epoch with the scope, the invalidation is in progress, and neither the device TLB, nor the ATC, nor the table of a
site in one of the instance's partitions holds an entry that the scope covers; entries of the TLB it does not cover stay. (R209, R210,
R213) -/
def Obligations.AcceptedInvalidationClears : Prop :=
  ∀ (s : State) (i : Nat) (src : InvSrc) (v : InvScope), v.site = none →
    let t := acceptNow s i src v
    let a := t.atu.get i
    a.epoch = ((s.atu.get i).epoch + 1) % 2 ^ 16 ∧ a.log.head? = some (a.epoch, v) ∧
    (a.invs.any fun w => w.epoch == a.epoch && w.scope == v && w.src == src) = true ∧
    (∀ st ∈ a.tlb, ∀ e ∈ st.2, v.hitsTlb e = false) ∧ (∀ st ∈ a.atc, ∀ e ∈ st.2, v.hitsAtc e = false) ∧
    (∀ st ∈ t.spt, (partAt s st.1).map Prod.fst = some i → ∀ e ∈ st.2, v.hitsSpt st.1 e = false) ∧
    (∀ st ∈ (s.atu.get i).tlb, ∀ e ∈ st.2, v.hitsTlb e = false → ∃ u ∈ a.tlb, u.1 = st.1 ∧ e ∈ u.2)

/-- ATS_INVALIDATE_REQUEST reaches both instances that are served, for the port's group and the 2^log2 range, in instance order.
INVALIDATION_ACCEPT with fewer than 64 in progress accepts the first that waits. INVALIDATION_COMPLETE of a drained one that every site
has acknowledged and with no port to flush is complete: for an INV_CMD command INV_STATUS shows DONE (bit 8), its epoch and no busy, and
inv_done (16) is raised. DRAIN_TIMEOUT marks it expired, halts the channels of its drain set, and abandons the accesses of stations that
it covers at both host-line caches. SITE_INV_ACK takes the site off the oldest invalidation that waits for it; SITE_INV_TIMEOUT raises
site_timeout (18), faults every job in the station's slots and does the same. (R160, R197, R209, R210, R211, R212, R214) -/
def Obligations.InvalidationsRun : Prop :=
  (∀ (p : Port) (tag : Fin 32) (pasid : Option (BitVec 20)) (g : Bool) (addr : W64) (lg : Fin 65) (s : State),
    s.Serves 0 → (server (invalidate s 0 (.ats p.val tag.val) { key := .host (groupOf s p.val) (pasid.map BitVec.toNat), base := alignDown addr.toNat (2 ^ lg.val), size := 2 ^ lg.val, glob := g }) 1).isSome = true → (server (invalidate (invalidate s 0 (.ats p.val tag.val) { key := .host (groupOf s p.val) (pasid.map BitVec.toNat), base := alignDown addr.toNat (2 ^ lg.val), size := 2 ^ lg.val, glob := g }) 1 (.ats p.val tag.val) { key := .host (groupOf s p.val) (pasid.map BitVec.toNat), base := alignDown addr.toNat (2 ^ lg.val), size := 2 ^ lg.val, glob := g }) 0).isSome = true →
    Answers (.atsInvalidateRequest p tag pasid g addr lg) s fun t =>
      let v : InvScope := { key := .host (groupOf s p.val) (pasid.map BitVec.toNat), base := alignDown addr.toNat (2 ^ lg.val), size := 2 ^ lg.val, glob := g }
      t = invalidate (invalidate s 0 (.ats p.val tag.val) v) 1 (.ats p.val tag.val) v) ∧
  (∀ (i : Inst) (src : InvSrc) (v : InvScope) (r : List (InvSrc × InvScope)) (s : State),
    s.Serves i.val → (s.atu.get i.val).invWait = (src, v) :: r → (s.atu.get i.val).invs.length < 64 →
    Answers (.invalidationAccept i) s fun t =>
      t = acceptNow (s.updAtu i.val fun a => { a with invWait := r }) i.val src v) ∧
  (∀ (i : Inst) (e : BitVec 16) (ls : List Leaf) (v : Inv) (s : State),
    s.Serves i.val → (s.atu.get i.val).invs.find? (fun v => v.epoch == e.toNat) = some v → drained s i.val v = true → v.sites = [] → dirtyPorts s i.val v.scope = [] → v.src = .cmd → v.scope.site = none → (∀ p, v.scope.key ≠ .da p) →
    Answers (.invalidationComplete i e ls) s fun t =>
      t = (((s.updAtu i.val fun a => { a with invs := a.invs.filter (· != v) }).setR (atuR i.val 0 0x4C) (fields [(8, 1), (16, v.epoch)])).irq (atuPage i.val 0) 16)) ∧
  (∀ (i : Inst) (e : BitVec 16) (v : Inv) (s : State),
    s.Serves i.val → (s.atu.get i.val).invs.find? (fun v => v.epoch == e.toNat && !v.expired) = some v → drainChans (s.updAtu i.val fun a => { a with invs := a.invs.map fun x => if x = v then { x with expired := true } else x }) i.val v = [] → drainRings (s.updAtu i.val fun a => { a with invs := a.invs.map fun x => if x = v then { x with expired := true } else x }) i.val v = [] →
    Answers (.drainTimeout i e) s fun t =>
      let x := s.updAtu i.val fun a => { a with invs := a.invs.map fun x => if x = v then { x with expired := true } else x }
      t = drainStations (drainStations x i.val v 0) i.val v 1) ∧
  (∀ (i : Inst) (e : BitVec 16) (v : Inv) (c : Nat) (u : URec) (s : State),
    s.Serves i.val → (s.atu.get i.val).invs.find? (fun v => v.epoch == e.toNat && !v.expired) = some v → drainChans (s.updAtu i.val fun a => { a with invs := a.invs.map fun x => if x = v then { x with expired := true } else x }) i.val v = [(c, u)] → (s.chan c).st = .running → drainRings (s.updAtu i.val fun a => { a with invs := a.invs.map fun x => if x = v then { x with expired := true } else x }) i.val v = [] →
    Answers (.drainTimeout i e) s fun t =>
      (t.chan c).st = .halting ∧ (t.chan c).errStatus = 4) ∧
  (∀ (k : Site) (ls : List Leaf) (i : Nat) (v : Inv) (s : State),
    s.Up → invAwaiting s k.val = some (i, v) →
    Answers (.siteInvAck k ls) s fun t =>
      t = siteAcked s i k.val v ls) ∧
  (∀ (k : Site) (ls : List Leaf) (i : Nat) (v : Inv) (s : State),
    s.Up → invAwaiting s k.val = some (i, v) →
    Answers (.siteInvTimeout k ls) s fun t =>
      t = siteAcked ((((cmdsOn s k.val).filter fun e => e.2.2.inSlot).foldl (fun s e => jobFault s e.1 e.2.1 (linkOk s k.val)) s).irq (atuPage i 0) 18) i k.val v ls)

/-- WIN_WRITE and PEER_WINDOW_WRITE of a good value take its defined bits, and where that changes the register start an invalidation of the
window's DA range; a bad value only sets the page error (16, 18). PEER_IN_WRITE takes pkg_mask and loads the table with the partition's
peer pages. RT_READ shows the selected entry with DONE and rt_done. RT_WRITE of an owned, ordered entry sends it to the controllers and
sets busy; RT_WRITE_DONE stores it and reports DONE. CONV_CTL_WRITE shows the converted address and the window used, or NO_WINDOW (3).
SPT_LOAD that passes its checks loads what the walk found and ends DONE, or with TABLE_FULL (0x13), with the pages skipped. SPT_UNLOAD
starts an invalidation of the site's entries in the range. (R149, R194, R195, R197, R214, R217, R219, R220, R221) -/
def Obligations.WindowsAndTables : Prop :=
  (∀ (i : Inst) (p : Part) (w : Fin 16) (a : Acc) (v : W64) (s : State),
    s.Serves i.val → s.Free (atuPage i.val 1) → s.NoLate → winOk v.toNat = true → s.r (atuR i.val 1 (0x800 + 0x80 * p.val + 8 * w.val)) ≠ v.toNat &&& 0xffffffffffe03f7f →
    Answers (.winWrite i p w a v) s fun t =>
      let x := clearLatches s (atuPage i.val 1)
      t = invalidate (x.setR (atuR i.val 1 (0x800 + 0x80 * p.val + 8 * w.val)) (v.toNat &&& 0xffffffffffe03f7f)) i.val .other { key := .da p.val, base := winBase w.val, size := 2 ^ 46 }) ∧
  (∀ (i : Inst) (p : Part) (w : Fin 16) (a : Acc) (v : W64) (s : State),
    s.Serves i.val → s.Free (atuPage i.val 1) → s.NoLate → winOk v.toNat = false →
    Answers (.winWrite i p w a v) s fun t =>
      let x := clearLatches s (atuPage i.val 1)
      t = { x.perr (atuPage i.val 1) 16 with wlatch := s.wlatch }) ∧
  (∀ (i : Inst) (p : Part) (w : Fin 8) (a : Acc) (v : W64) (s : State),
    s.Serves i.val → s.Free (atuPage i.val 2) → s.NoLate → peerOk s i.val v.toNat = true → s.r (atuR i.val 2 (0x400 + 0x40 * p.val + 8 * w.val)) ≠ v.toNat &&& 0x3f0f77 →
    Answers (.peerWindowWrite i p w a v) s fun t =>
      let x := clearLatches s (atuPage i.val 2)
      t = invalidate (x.setR (atuR i.val 2 (0x400 + 0x40 * p.val + 8 * w.val)) (v.toNat &&& 0x3f0f77)) i.val .other { key := .da p.val, base := 2 ^ 51 + w.val * 2 ^ 47, size := 2 ^ 47 }) ∧
  (∀ (i : Inst) (p : Part) (a : Acc) (v : W32) (ls : List Leaf) (s : State),
    s.Serves i.val → s.Free (atuPage i.val 2) → s.NoLate →
    Answers (.peerInWrite i p a v ls) s fun t =>
      let x := clearLatches s (atuPage i.val 2)
      t = setPeerIn x i.val p.val v.toNat ls) ∧
  (∀ (i : Inst) (a : Acc) (s : State),
    s.Serves i.val → s.Free (atuPage i.val 3) → s.fld (atuR i.val 3 0x48) 0 1 = 0 →
    Answers (.rtRead i a) s fun t =>
      let x := clearLatches s (atuPage i.val 3)
      let e := Tbl.getD s.rt (s.fld (atuR i.val 3 0x40) 0 8) (0, 0)
      t = ((((x.setR (atuR i.val 3 0x50) e.1).setR (atuR i.val 3 0x58) e.2).setR (atuR i.val 3 0x48) 0x100).irq (atuPage i.val 3) 16)) ∧
  (∀ (i : Inst) (a : Acc) (s : State),
    s.Serves i.val → s.Free (atuPage i.val 3) → s.fld (atuR i.val 3 0x48) 0 1 = 0 → rtOwned s i.val (s.fld (atuR i.val 3 0x40) 0 8) = true → bits (s.r (atuR i.val 3 0x58)) 0 13 ≤ bits (s.r (atuR i.val 3 0x58)) 16 13 → bits (s.r (atuR i.val 3 0x58)) 16 13 ≤ 6143 →
    Answers (.rtWrite i a) s fun t =>
      let x := clearLatches s (atuPage i.val 3)
      let n := s.fld (atuR i.val 3 0x40) 0 8
      let d0 := s.r (atuR i.val 3 0x50)
      let d1 := s.r (atuR i.val 3 0x58)
      t = (({ x with rtWait := s.rtWait.set i.val (some (n, d0, d1)) } : State).setR (atuR i.val 3 0x48) 1).emit (.rangeWrite n d0 d1)) ∧
  (∀ (i : Inst) (n d0 d1 : Nat) (s : State),
    s.Serves i.val → s.rtWait.get i.val = some (n, d0, d1) →
    Answers (.rtWriteDone i) s fun t =>
      t = ({ s with rtWait := s.rtWait.set i.val none, rt := Tbl.put s.rt n (d0, d1) } : State).report i.val [.reg (atuR i.val 3 0x48) 0xFF01 0x0100, .irq (atuPage i.val 3) 16]) ∧
  (∀ (i : Inst) (a : Acc) (v : W32) (w r : Nat) (s : State),
    s.Serves i.val → s.Free (atuPage i.val 3) → convWin s i.val (bits v.toNat 8 4) (if bitAt v.toNat 0 then some (bits v.toNat 4 2) else none) (bitAt v.toNat 0) (s.r (atuR i.val 3 0x80)) = some (w, r) →
    Answers (.convCtlWrite i a v) s fun t =>
      let x := clearLatches s (atuPage i.val 3)
      t = (x.setR (atuR i.val 3 0x90) r).setR (atuR i.val 3 0x98) (fields [(0, 1), (8, w)])) ∧
  (∀ (i : Inst) (a : Acc) (v : W32) (s : State),
    s.Serves i.val → s.Free (atuPage i.val 3) → convWin s i.val (bits v.toNat 8 4) (if bitAt v.toNat 0 then some (bits v.toNat 4 2) else none) (bitAt v.toNat 0) (s.r (atuR i.val 3 0x80)) = none →
    Answers (.convCtlWrite i a v) s fun t =>
      let x := clearLatches s (atuPage i.val 3)
      t = x.setR (atuR i.val 3 0x98) (fields [(16, 3)])) ∧
  (∀ (i : Inst) (a : Acc) (k : Fin 16) (p : Part) (ls : List Leaf) (s : State),
    s.Serves i.val → s.Free (atuPage i.val 2) → s.fld (atuR i.val 2 0x48) 0 1 = 0 → sptCheck s i.val k.val p.val = none →
    Answers (.sptLoad i a k p ls) s fun t =>
      let x := clearLatches s (atuPage i.val 2)
      let w := walkRange x i.val p.val (s.r (atuR i.val 2 0x50)) (s.fld (atuR i.val 2 0x58) 0 24 * 2 ^ 26) ls
      let y := loadSpt k.val w.1 x
      t = sptEnd y.1 i.val (if y.2 then 0x01 else 0x13) w.2) ∧
  (∀ (i : Inst) (a : Acc) (k : Fin 16) (p : Part) (s : State),
    s.Serves i.val → s.Free (atuPage i.val 2) → s.fld (atuR i.val 2 0x48) 0 1 = 0 → sptCheck s i.val k.val p.val = none →
    Answers (.sptUnload i a k p) s fun t =>
      let x := clearLatches s (atuPage i.val 2)
      t = invalidate (x.setR (atuR i.val 2 0x48) 1) i.val .spt { key := .da p.val, base := s.r (atuR i.val 2 0x50), size := s.fld (atuR i.val 2 0x58) 0 24 * 2 ^ 26, site := some k.val })

/-- WALK_START of the oldest uncovered device miss of a partition with a valid root, with fewer than 32 walks in flight, adds a walk at level
1 of the root's table, whose read goes out; an invalid root ends it with DA_UNMAPPED (1). WALK_READ_RESPONSE leaves its pressure level at
its port: an invalid entry ends the walk with DA_UNMAPPED, a failed read with WALK_ERROR (5) and a count only of range rejections; a leaf
that is aligned to its size enters the TLB and its waiters go on. TRANSLATION_REQUEST of the oldest uncovered host miss, none being served
by an entry of now, with fewer than 256 in flight, sends one request for its chunk. TRANSLATION_COMPLETION that grants a right over at
least 2 MiB ends its request, enters the translation in the ATC, and lets the waiters of the chunk, and those that it covers beside them,
translate again; a waiter that is no data access and lacks a right faults. One that fails ends every waiter of the chunk with reason 8.
(R198, R199, R200, R201, R202, R204, R213) -/
def Obligations.WalksAndRequests : Prop :=
  (∀ (i : Inst) (m : Miss) (p : Nat) (s : State),
    s.Serves i.val → fnHeld s i.val .atu = false → (s.atu.get i.val).misses.find? (fun m => !m.sent && (match m.key with | .da _ => true | _ => false)) = some m → m.key = .da p → ((s.atu.get i.val).walks.any fun w => w.part == p && w.addr / 2 ^ 26 == m.iova / 2 ^ 26) = false → bitAt (ptRoot s i.val p) 0 = true → (s.atu.get i.val).walks.length < 32 →
    Answers (.walkStart i) s fun t =>
      let w : Walk := { part := p, addr := m.iova, level := 1, table := bits (ptRoot s i.val p) 18 34 * 2 ^ 18 }
      t = sendWalk ((s.updAtu i.val fun a => { a with misses := a.misses.map fun x => if x = m then { x with sent := true } else x }).updAtu i.val fun a => { a with walks := a.walks ++ [w] }) i.val w) ∧
  (∀ (i : Inst) (m : Miss) (p : Nat) (s : State),
    s.Serves i.val → fnHeld s i.val .atu = false → (s.atu.get i.val).misses.find? (fun m => !m.sent && (match m.key with | .da _ => true | _ => false)) = some m → m.key = .da p → ((s.atu.get i.val).walks.any fun w => w.part == p && w.addr / 2 ^ 26 == m.iova / 2 ^ 26) = false → bitAt (ptRoot s i.val p) 0 = false →
    Answers (.walkStart i) s fun t =>
      t = walkFails s i.val p m.iova 1) ∧
  (∀ (i : Inst) (p : Part) (addr ent : W64) (press : NifPress) (w : Walk) (s : State),
    s.Serves i.val → (s.atu.get i.val).walks.find? (fun w => w.part == p.val && w.addr == addr.toNat) = some w → w.redo = false → bitAt ent.toNat 0 = false →
    Answers (.walkReadResponse i p addr ent ⟨.ok, press⟩) s fun t =>
      t = walkFails (setPressure s (carrier s i.val) press.nif.val 3 press.level.toNat) i.val p.val addr.toNat 1) ∧
  (∀ (i : Inst) (p : Part) (addr ent : W64) (st : Rsp) (press : NifPress) (w : Walk) (s : State),
    s.Serves i.val → (s.atu.get i.val).walks.find? (fun w => w.part == p.val && w.addr == addr.toNat) = some w → w.redo = false → st ≠ .ok → st ≠ .range →
    Answers (.walkReadResponse i p addr ent ⟨st, press⟩) s fun t =>
      t = walkFails (setPressure s (carrier s i.val) press.nif.val 3 press.level.toNat) i.val p.val addr.toNat 5) ∧
  (∀ (i : Inst) (p : Part) (addr ent : W64) (press : NifPress) (w : Walk) (s : State),
    s.Serves i.val → (s.atu.get i.val).walks.find? (fun w => w.part == p.val && w.addr == addr.toNat) = some w → w.redo = false → w.level = 3 → bitAt ent.toNat 0 = true → bitAt ent.toNat 1 = true → aligned (bits ent.toNat 12 40 * 4096) (2 ^ 26) = true →
    Answers (.walkReadResponse i p addr ent ⟨.ok, press⟩) s fun t =>
      let e : TlbEnt := { part := p.val, base := alignDown addr.toNat (2 ^ 26), log2 := 26, hbm := bits ent.toNat 12 40 * 4096, rd := bitAt ent.toNat 2, wr := bitAt ent.toNat 3, peer := bitAt ent.toNat 5, count := bitAt ent.toNat 6 }
      let y := tlbPut ((setPressure s (carrier s i.val) press.nif.val 3 press.level.toNat).updAtu i.val fun a => { a with walks := a.walks.filter (· != w) }) i.val e
      t = (walkWaits y i.val p.val addr.toNat).foldl (fun s m => wake s i.val m) y) ∧
  (∀ (i : Inst) (m : Miss) (g port : Nat) (pasid : Option Nat) (s : State),
    s.Serves i.val → fnHeld s i.val .atu = false → (s.atu.get i.val).misses.find? (fun m => (missEntry s i.val m).any fun e => m.served e.rd e.wr) = none → (s.atu.get i.val).misses.find? (fun m => !m.sent && m.prg.isNone && (match m.key with | .host g p => (atcFind s i.val g p m.iova).isNone && (anyPort s g).isSome | _ => false)) = some m → m.key = .host g pasid → (s.atu.get i.val).treqs = [] → anyPort s g = some port →
    Answers (.translationRequest i) s fun t =>
      let chunk := alignDown m.iova (2 ^ 21)
      let w := (treqWaits s i.val g pasid chunk).any fun x => x.needW
      let y := (s.updAtu i.val fun a => { a with misses := a.misses.map fun x => if x = m then { x with sent := true } else x }).updAtu i.val fun a => { a with treqs := a.treqs ++ [{ group := g, pasid, chunk, needW := w, port }] }
      t = (y.bump (atuR i.val 0 0x120) 1).emit (.transReq (carrier s i.val) port pasid chunk w)) ∧
  (∀ (i : Inst) (g : Group) (pasid : Option (BitVec 20)) (chunk : W64) (l : HostLeaf) (st : Rsp) (r : Treq) (s : State),
    s.Serves i.val → (s.atu.get i.val).treqs.find? (fun x => x.group == g.val && x.pasid == pasid.map BitVec.toNat && x.chunk == chunk.toNat) = some r → r.redo = false → st ≠ .ok →
    Answers (.translationCompletion i g pasid chunk l st) s fun t =>
      t = (treqWaits s i.val g.val (pasid.map BitVec.toNat) chunk.toNat).foldl (fun s m => failWho s i.val m.who 8 m.sp m.addr) (s.updAtu i.val fun a => { a with treqs := a.treqs.filter (· != r) })) ∧
  (∀ (i : Inst) (g : Group) (pasid : Option (BitVec 20)) (chunk : W64) (l : HostLeaf) (r : Treq) (s : State),
    s.Serves i.val → (s.atu.get i.val).treqs.find? (fun x => x.group == g.val && x.pasid == pasid.map BitVec.toNat && x.chunk == chunk.toNat) = some r → r.redo = false → (l.rd || l.wr) = true → 21 ≤ l.log2 →
    Answers (.translationCompletion i g pasid chunk l .ok) s fun t =>
      let x := s.updAtu i.val fun a => { a with treqs := a.treqs.filter (· != r) }
      let lg := min l.log2 39
      let base := alignDown chunk.toNat (2 ^ lg)
      let e : AtcEnt := { group := g.val, pasid := pasid.map BitVec.toNat, base, log2 := lg, tbase := l.taddr.toNat + (base - alignDown chunk.toNat (2 ^ l.log2)), rd := l.rd, wr := l.wr, global := l.glob }
      let ws := treqWaits s i.val g.val (pasid.map BitVec.toNat) chunk.toNat
      let also := (nowCovered x i.val e).filter fun m => !ws.contains m
      t = (ws ++ also).foldl (fun y m => if m.served l.rd l.wr || m.data then wake y i.val m else faultOn y i.val m) (atcPut x i.val chunk.toNat e))

/-- PAGE_REQUEST_SEND takes the waiting groups in formation order: each is sent, or, where its host group can send no request any more, fails
its waiters with the reason. PRG_RESPONSE: Success of a group drops the ATC entries over its chunk and lets its waiters translate again; a
response that matches no group sets the port's UPRGI bit and unexpected_response (16). PRQ_TIMEOUT of a sent group fails its waiters with
reason 19, quarantines it, counts it, and raises prq_timeout (17). ACC_INTERVAL halves every total and write count and frees the entries
that reach 0. HOLD with good fields puts the FREE selected slot into QUIETING; a slot in use only sets cmd_refused (16). QUIET: a QUIETING
hold that nothing started uses becomes QUIET and raises hold_quiet (17). MIG_LIMIT_EXPIRY of an active hold without waiters makes it
EXPIRED (3) and raises hold_expired (18). RELEASE of a host hold frees it, its waiters first among what may start, in arrival order; of a
FREE slot it sets cmd_refused. (R226, R227, R230, R234, R236, R237, R238, R240) -/
def Obligations.PageRequestsAndHolds : Prop :=
  (∀ (i : Inst) (s : State),
    s.Serves i.val → fnHeld s i.val .prq = false →
    Answers (.pageRequestSend i) s fun t =>
      t = (s.prq.get i.val).groups.foldl (fun y e =>
        if e.2.port.isSome || e.2.quarantined then y
        else match priStop y e.2.group with
          | none => sendPrg y i.val e.1
          | some r => prqFail (((prgWaits y i.val e.1).foldl (fun s m => failWho s i.val m.who r m.sp m.addr) y).updPrq i.val fun x => { x with groups := Tbl.del x.groups e.1 }) i.val e.2 r) s) ∧
  (∀ (p : Port) (pasid : Option (BitVec 20)) (idx : BitVec 9) (i n : Nat) (g : Prg) (s : State),
    s.Up → prgMatch s p.val (pasid.map BitVec.toNat) idx.toNat = some (i, n, g) → g.quarantined = false →
    Answers (.prgResponse p pasid idx 0) s fun t =>
      let ws := prgWaits s i n
      t = freePrg (ws.foldl (fun s m => wake (noteSuccess s i m g.chunk (ws.any Miss.needR) (ws.any Miss.needW)) i m) (dropChunk s i g.group g.pasid g.chunk)) i n) ∧
  (∀ (p : Port) (pasid : Option (BitVec 20)) (idx : BitVec 9) (s : State),
    s.Up → prgMatch s p.val (pasid.map BitVec.toNat) idx.toNat = none →
    Answers (.prgResponse p pasid idx 0) s fun t =>
      t = (s.updPort p.val fun x => { x with uprgi := true }).perr (prqPage (idx.toNat / 256)) 16) ∧
  (∀ (i : Inst) (n : Nat) (g : Prg) (s : State),
    s.Serves i.val → Tbl.find (s.prq.get i.val).groups n = some g → g.quarantined = false → g.port.isSome = true → g.timeout ≠ 0 →
    Answers (.prqTimeout i n) s fun t =>
      let x := (prgWaits s i.val n).foldl (fun s m => failWho s i.val m.who 19 m.sp m.addr) s
      let x := x.updPrq i.val fun q => { q with groups := Tbl.put q.groups n { g with quarantined := true } }
      t = (prqFail (x.bump (prqR i.val 0x68) 1) i.val g 19).irq (prqPage i.val) 17) ∧
  (∀ (i : Inst) (s : State),
    s.Serves i.val → fnHeld s i.val .acc = false →
    Answers (.accInterval i) s fun t =>
      (∀ st ∈ (t.acc.get i.val).sets, ∀ e ∈ st.2, e.total ≠ 0 ∧ ∃ su ∈ (s.acc.get i.val).sets, su.1 = st.1 ∧ ∃ o ∈ su.2, o.key = e.key ∧ o.page = e.page ∧ e.total = o.total / 2 ∧ e.writes = o.writes / 2) ∧
      (∀ su ∈ (s.acc.get i.val).sets, ∀ o ∈ su.2, 2 ≤ o.total → ∃ st ∈ (t.acc.get i.val).sets, st.1 = su.1 ∧ ∃ e ∈ st.2, e.key = o.key ∧ e.page = o.page)) ∧
  (∀ (i : Inst) (a : Acc) (s : State),
    s.Serves i.val → s.Free (accPage i.val) → (holdOf s i.val (s.fld (accR i.val 0x100) 0 3)).st = 0 → bitAt (s.r (accR i.val 0x108)) 0 = false → 26 ≤ s.fld (accR i.val 0x118) 0 6 ∧ s.fld (accR i.val 0x118) 0 6 ≤ 50 → bitAt (s.r (accR i.val 0x118)) 31 = false →
    Answers (.hold i a) s fun t =>
      let x := clearLatches s (accPage i.val)
      let n := s.fld (accR i.val 0x100) 0 3
      t = setHold x i.val n { st := 1, key := .da (s.fld (accR i.val 0x108) 4 4), base := alignDown (s.r (accR i.val 0x110)) (2 ^ s.fld (accR i.val 0x118) 0 6), log2 := s.fld (accR i.val 0x118) 0 6 }) ∧
  (∀ (i : Inst) (a : Acc) (s : State),
    s.Serves i.val → s.Free (accPage i.val) → (holdOf s i.val (s.fld (accR i.val 0x100) 0 3)).st ≠ 0 →
    Answers (.hold i a) s fun t =>
      t = { (clearLatches s (accPage i.val)).perr (accPage i.val) 16 with wlatch := s.wlatch }) ∧
  (∀ (i : Inst) (h : Fin 8) (s : State),
    s.Serves i.val → (holdOf s i.val h.val).st = 1 → holdQuiet s i.val (holdOf s i.val h.val) = true →
    Answers (.quiet i h) s fun t =>
      t = (setHold s i.val h.val { holdOf s i.val h.val with st := 2 }).irq (accPage i.val) 17) ∧
  (∀ (i : Inst) (h : Fin 8) (s : State),
    s.Serves i.val → (holdOf s i.val h.val).active = true → (holdOf s i.val h.val).waiters = [] →
    Answers (.migLimitExpiry i h) s fun t =>
      t = (setHold s i.val h.val { holdOf s i.val h.val with st := 3, waiters := [] }).irq (accPage i.val) 18) ∧
  (∀ (i : Inst) (a : Acc) (ls : List Leaf) (g : Nat) (p : Option Nat) (s : State),
    s.Serves i.val → s.Free (accPage i.val) → (holdOf s i.val (s.fld (accR i.val 0x100) 0 3)).st ≠ 0 → (holdOf s i.val (s.fld (accR i.val 0x100) 0 3)).key = .host g p →
    Answers (.release i a ls) s fun t =>
      let x := clearLatches s (accPage i.val)
      let n := s.fld (accR i.val 0x100) 0 3
      let h := holdOf s i.val n
      t = setHold { x with acc := s.acc.upd i.val fun a => { a with released := a.released.filter (!h.waiters.contains ·) ++ h.waiters } } i.val n {}) ∧
  (∀ (i : Inst) (a : Acc) (ls : List Leaf) (s : State),
    s.Serves i.val → s.Free (accPage i.val) → (holdOf s i.val (s.fld (accR i.val 0x100) 0 3)).st = 0 →
    Answers (.release i a ls) s fun t =>
      t = { (clearLatches s (accPage i.val)).perr (accPage i.val) 16 with wlatch := s.wlatch })

/-- A host snoop that reaches the instance which serves the group, on the group's cache port (UP), of a held line that is not busy. Without a
ring snoop needed: SNP_INV of a line in S or E without station copies drops it and answers 1; SNP_DATA of a line without an owner leaves
it in S and answers 4 with its data if it was M, else 3; SNP_CUR of a line without an owner leaves it and answers 6 with its data if it is
M, else 5; poisoned data goes out poisoned. With one needed and sites on the ring, fewer than 64 ring snoops in flight: SNP_INV of a line
in M, with an owner or with station copies, and SNP_DATA and SNP_CUR of an owned line, send the ring snoop to each site and make the line
busy with the host snoop. Each answer counts one host snoop of the instance; the other instance, if it is alive, answers RspIHitI and
counts it too. A snoop of a line that neither the cache nor the tag store holds answers RspIHitI (0); so does one on a port that is not
the cache port, counted by each live instance, with no other effect. (R34, R268, R269, R270, R271, R275, R279) -/
def Obligations.HostSnoopsOfALine : Prop :=
  (∀ (p : Port) (hpa : W64) (i : Nat) (l : Line) (s : State),
    s.Up → lineServer s (groupOf s p.val) = some i → cachePort s (groupOf s p.val) = some p.val → (s.port p.val).link = .up → (s.hl i).txns = [] → s.line? i (lineKey (groupOf s p.val) hpa.toNat) = some l → l.ring = false → l.owner = none → l.st ≠ .m →
    Answers (.snpInv p hpa) s fun t =>
      let y := if alive s (partner i) then s.bump (hlcR (partner i) 0x70) 1 else s
      t = (State.bump (dropLine y i (lineKey (groupOf s p.val) hpa.toNat)) (hlcR i 0x70) 1).emit (.snpRsp p.val 1 (keyAddr (lineKey (groupOf s p.val) hpa.toNat)) [] false)) ∧
  (∀ (p : Port) (hpa : W64) (i : Nat) (l : Line) (s : State),
    s.Up → lineServer s (groupOf s p.val) = some i → cachePort s (groupOf s p.val) = some p.val → (s.port p.val).link = .up → (s.hl i).txns = [] → s.line? i (lineKey (groupOf s p.val) hpa.toNat) = some l → l.owner = none →
    Answers (.snpData p hpa) s fun t =>
      let y := if alive s (partner i) then s.bump (hlcR (partner i) 0x70) 1 else s
      t = (State.bump (putLine y i (lineKey (groupOf s p.val) hpa.toNat) { l with st := .s }) (hlcR i 0x70) 1).emit (.snpRsp p.val (if l.st = .m then 4 else 3) (keyAddr (lineKey (groupOf s p.val) hpa.toNat)) (if l.st = .m then l.data else []) (l.st == .m && l.poison))) ∧
  (∀ (p : Port) (hpa : W64) (i : Nat) (l : Line) (s : State),
    s.Up → lineServer s (groupOf s p.val) = some i → cachePort s (groupOf s p.val) = some p.val → (s.port p.val).link = .up → (s.hl i).txns = [] → s.line? i (lineKey (groupOf s p.val) hpa.toNat) = some l → l.owner = none →
    Answers (.snpCur p hpa) s fun t =>
      let y := if alive s (partner i) then s.bump (hlcR (partner i) 0x70) 1 else s
      t = (State.bump (y) (hlcR i 0x70) 1).emit (.snpRsp p.val (if l.st = .m then 6 else 5) (keyAddr (lineKey (groupOf s p.val) hpa.toNat)) (if l.st = .m then l.data else []) (l.st == .m && l.poison))) ∧
  (∀ (p : Port) (hpa : W64) (i : Nat) (l : Line) (s : State),
    s.Up → lineServer s (groupOf s p.val) = some i → cachePort s (groupOf s p.val) = some p.val → (s.port p.val).link = .up → (s.hl i).txns = [] → s.line? i (lineKey (groupOf s p.val) hpa.toNat) = some l → l.st = .m ∨ l.ring = true ∨ l.owner.isSome = true → ringSites s i ≠ [] → ringsUp s i < 64 →
    Answers (.snpInv p hpa) s fun t =>
      let y := if alive s (partner i) then s.bump (hlcR (partner i) 0x70) 1 else s
      let x := sendRing y i 0 (lineKey (groupOf s p.val) hpa.toNat)
      t = x.1.updHlc i fun h => { h with txns := h.txns ++ [{ key := (lineKey (groupOf s p.val) hpa.toNat), work := .snoop p.val 0, ring := some x.2 }] }) ∧
  (∀ (p : Port) (hpa : W64) (i : Nat) (l : Line) (s : State),
    s.Up → lineServer s (groupOf s p.val) = some i → cachePort s (groupOf s p.val) = some p.val → (s.port p.val).link = .up → (s.hl i).txns = [] → s.line? i (lineKey (groupOf s p.val) hpa.toNat) = some l → l.owner.isSome = true → ringSites s i ≠ [] → ringsUp s i < 64 →
    Answers (.snpData p hpa) s fun t =>
      let y := if alive s (partner i) then s.bump (hlcR (partner i) 0x70) 1 else s
      let x := sendRing y i 1 (lineKey (groupOf s p.val) hpa.toNat)
      t = x.1.updHlc i fun h => { h with txns := h.txns ++ [{ key := (lineKey (groupOf s p.val) hpa.toNat), work := .snoop p.val 1, ring := some x.2 }] }) ∧
  (∀ (p : Port) (hpa : W64) (i : Nat) (l : Line) (s : State),
    s.Up → lineServer s (groupOf s p.val) = some i → cachePort s (groupOf s p.val) = some p.val → (s.port p.val).link = .up → (s.hl i).txns = [] → s.line? i (lineKey (groupOf s p.val) hpa.toNat) = some l → l.owner.isSome = true → ringSites s i ≠ [] → ringsUp s i < 64 →
    Answers (.snpCur p hpa) s fun t =>
      let y := if alive s (partner i) then s.bump (hlcR (partner i) 0x70) 1 else s
      let x := sendRing y i 2 (lineKey (groupOf s p.val) hpa.toNat)
      t = x.1.updHlc i fun h => { h with txns := h.txns ++ [{ key := (lineKey (groupOf s p.val) hpa.toNat), work := .snoop p.val 2, ring := some x.2 }] }) ∧
  (∀ (p : Port) (hpa : W64) (i : Nat) (s : State),
    s.Up → lineServer s (groupOf s p.val) = some i → cachePort s (groupOf s p.val) = some p.val → (s.port p.val).link = .up → (s.hl i).txns = [] → s.line? i (lineKey (groupOf s p.val) hpa.toNat) = none → Tbl.find (s.hl i).ptags (lineKey (groupOf s p.val) hpa.toNat) = none →
    Answers (.snpInv p hpa) s fun t =>
      let y := if alive s (partner i) then s.bump (hlcR (partner i) 0x70) 1 else s
      t = (State.bump (y) (hlcR i 0x70) 1).emit (.snpRsp p.val 0 (keyAddr (lineKey (groupOf s p.val) hpa.toNat)) [] false)) ∧
  (∀ (p : Port) (hpa : W64) (i : Nat) (s : State),
    s.Up → lineServer s (groupOf s p.val) = some i → cachePort s (groupOf s p.val) = some p.val → (s.port p.val).link = .up → (s.hl i).txns = [] → s.line? i (lineKey (groupOf s p.val) hpa.toNat) = none → Tbl.find (s.hl i).ptags (lineKey (groupOf s p.val) hpa.toNat) = none →
    Answers (.snpData p hpa) s fun t =>
      let y := if alive s (partner i) then s.bump (hlcR (partner i) 0x70) 1 else s
      t = (State.bump (y) (hlcR i 0x70) 1).emit (.snpRsp p.val 0 (keyAddr (lineKey (groupOf s p.val) hpa.toNat)) [] false)) ∧
  (∀ (p : Port) (hpa : W64) (i : Nat) (s : State),
    s.Up → lineServer s (groupOf s p.val) = some i → cachePort s (groupOf s p.val) = some p.val → (s.port p.val).link = .up → (s.hl i).txns = [] → s.line? i (lineKey (groupOf s p.val) hpa.toNat) = none → Tbl.find (s.hl i).ptags (lineKey (groupOf s p.val) hpa.toNat) = none →
    Answers (.snpCur p hpa) s fun t =>
      let y := if alive s (partner i) then s.bump (hlcR (partner i) 0x70) 1 else s
      t = (State.bump (y) (hlcR i 0x70) 1).emit (.snpRsp p.val 0 (keyAddr (lineKey (groupOf s p.val) hpa.toNat)) [] false)) ∧
  (∀ (p : Port) (hpa : W64) (s : State),
    s.Up → cachePort s (groupOf s p.val) ≠ some p.val →
    Answers (.snpInv p hpa) s fun t =>
      let x := if alive s 0 then s.bump (hlcR 0 0x70) 1 else s
      let y := if alive s 1 then x.bump (hlcR 1 0x70) 1 else x
      t = y.emit (.snpRsp p.val 0 (keyAddr (lineKey (groupOf s p.val) hpa.toNat)) [] false)) ∧
  (∀ (p : Port) (hpa : W64) (s : State),
    s.Up → cachePort s (groupOf s p.val) ≠ some p.val →
    Answers (.snpData p hpa) s fun t =>
      let x := if alive s 0 then s.bump (hlcR 0 0x70) 1 else s
      let y := if alive s 1 then x.bump (hlcR 1 0x70) 1 else x
      t = y.emit (.snpRsp p.val 0 (keyAddr (lineKey (groupOf s p.val) hpa.toNat)) [] false)) ∧
  (∀ (p : Port) (hpa : W64) (s : State),
    s.Up → cachePort s (groupOf s p.val) ≠ some p.val →
    Answers (.snpCur p hpa) s fun t =>
      let x := if alive s 0 then s.bump (hlcR 0 0x70) 1 else s
      let y := if alive s 1 then x.bump (hlcR 1 0x70) 1 else x
      t = y.emit (.snpRsp p.val 0 (keyAddr (lineKey (groupOf s p.val) hpa.toNat)) [] false))

/-- GROUP_CFG_WRITE takes coh_en, for every value, where no bit it sets is one the partner has set and no bit it clears is of a group with a
held line; a value that would do either only sets cfg_refused (16). CLEAN (op 1) and DROP (op 2) of a coherent group while no flush runs
set FLUSH_STATUS.busy and begin the flush with the ring snoops of the owners; of a group that is not coherent they end with BAD_STATE
(0x10); while one runs they only set cmd_refused (17). HLC_FLUSH_DONE without a flush does nothing; while a line of the group has an owner
it sends the snoops due; a CLEAN or DROP whose group has nothing left to do (no owner, no snoop, no M line; for DROP no line) ends with
DONE and raises flush_done (18). DEAD_SITE_READMIT clears the site's bit. PARTNER_TAG_EVICT does nothing without a tag or while a site
taken over has not moved or an SNP_INV_ALL of a takeover runs; else it evicts the next tag: M as a poisoned DirtyEvict (8) that counts as
poisoned, with cause 3, and as a lost line; E as CleanEvict (7); S as CleanEvictNoData (6). (R263, R269, R274, R278, R279) -/
def Obligations.CacheCommandsAct : Prop :=
  (∀ (i : Inst) (a : Acc) (v : W32) (s : State),
    s.Serves i.val → s.Free (hlcPage i.val) → (∀ g : Fin 4, bitAt (v.toNat % 16) g.val = true → bitAt (s.r (hlcR (carrier s i.val) 0x40)) g.val = true ∨ cohEn s (partner (carrier s i.val)) g.val = false) → (∀ g : Fin 4, bitAt (v.toNat % 16) g.val = false → bitAt (s.r (hlcR (carrier s i.val) 0x40)) g.val = false ∨ (s.hl (carrier s i.val)).lines.any (fun e => keyGroup e.1 == g.val) = false) →
    Answers (.groupCfgWrite i a v) s fun t =>
      let x := clearLatches s (hlcPage i.val)
      let c := carrier s i.val
      t = x.setR (hlcR c 0x40) (v.toNat % 16)) ∧
  (∀ (i : Inst) (a : Acc) (v : W32) (g : Fin 4) (s : State),
    s.Serves i.val → s.Free (hlcPage i.val) → bitAt (v.toNat % 16) g.val = true → bitAt (s.r (hlcR (carrier s i.val) 0x40)) g.val = false → cohEn s (partner (carrier s i.val)) g.val = true →
    Answers (.groupCfgWrite i a v) s fun t =>
      t = { (clearLatches s (hlcPage i.val)).perr (hlcPage (carrier s i.val)) 16 with wlatch := s.wlatch }) ∧
  (∀ (i : Inst) (a : Acc) (v : W32) (g : Fin 4) (s : State),
    s.Serves i.val → s.Free (hlcPage i.val) → bitAt (v.toNat % 16) g.val = false → bitAt (s.r (hlcR (carrier s i.val) 0x40)) g.val = true → (s.hl (carrier s i.val)).lines.any (fun e => keyGroup e.1 == g.val) = true →
    Answers (.groupCfgWrite i a v) s fun t =>
      t = { (clearLatches s (hlcPage i.val)).perr (hlcPage (carrier s i.val)) 16 with wlatch := s.wlatch }) ∧
  (∀ (i : Inst) (a : Acc) (g : Group) (s : State),
    s.Serves i.val → s.Free (hlcPage i.val) → s.fld (hlcR (carrier s i.val) 0x50) 0 1 = 0 → cohEn s (carrier s i.val) g.val = true →
    Answers (.clean i a g) s fun t =>
      let x := clearLatches s (hlcPage i.val)
      let c := carrier s i.val
      t = flushRing ((x.setR (hlcR c 0x50) 1).updHlc c fun h => { h with flush := some (1, g.val) }) c g.val 1 .flush) ∧
  (∀ (i : Inst) (a : Acc) (g : Group) (s : State),
    s.Serves i.val → s.Free (hlcPage i.val) → s.fld (hlcR (carrier s i.val) 0x50) 0 1 = 0 → cohEn s (carrier s i.val) g.val = false →
    Answers (.clean i a g) s fun t =>
      let x := clearLatches s (hlcPage i.val)
      let c := carrier s i.val
      t = x.setR (hlcR c 0x50) 0x1000) ∧
  (∀ (i : Inst) (a : Acc) (g : Group) (s : State),
    s.Serves i.val → s.Free (hlcPage i.val) → s.fld (hlcR (carrier s i.val) 0x50) 0 1 = 1 →
    Answers (.clean i a g) s fun t =>
      t = { (clearLatches s (hlcPage i.val)).perr (hlcPage (carrier s i.val)) 17 with wlatch := s.wlatch }) ∧
  (∀ (i : Inst) (a : Acc) (g : Group) (s : State),
    s.Serves i.val → s.Free (hlcPage i.val) → s.fld (hlcR (carrier s i.val) 0x50) 0 1 = 0 → cohEn s (carrier s i.val) g.val = true →
    Answers (.drop i a g) s fun t =>
      let x := clearLatches s (hlcPage i.val)
      let c := carrier s i.val
      t = flushRing ((x.setR (hlcR c 0x50) 1).updHlc c fun h => { h with flush := some (2, g.val) }) c g.val 1 .flush) ∧
  (∀ (i : Inst) (a : Acc) (g : Group) (s : State),
    s.Serves i.val → s.Free (hlcPage i.val) → s.fld (hlcR (carrier s i.val) 0x50) 0 1 = 0 → cohEn s (carrier s i.val) g.val = false →
    Answers (.drop i a g) s fun t =>
      let x := clearLatches s (hlcPage i.val)
      let c := carrier s i.val
      t = x.setR (hlcR c 0x50) 0x1000) ∧
  (∀ (i : Inst) (a : Acc) (g : Group) (s : State),
    s.Serves i.val → s.Free (hlcPage i.val) → s.fld (hlcR (carrier s i.val) 0x50) 0 1 = 1 →
    Answers (.drop i a g) s fun t =>
      t = { (clearLatches s (hlcPage i.val)).perr (hlcPage (carrier s i.val)) 17 with wlatch := s.wlatch }) ∧
  (∀ (i : Inst) (s : State),
    s.Up → alive s i.val = true → (s.hl i.val).flush = none →
    Answers (.hlcFlushDone i) s fun t =>
      t = s) ∧
  (∀ (i : Inst) (op g : Nat) (s : State),
    s.Up → alive s i.val = true → (s.hl i.val).flush = some (op, g) → (s.hl i.val).lines.any (fun e => keyGroup e.1 == g && e.2.owner.isSome) = true →
    Answers (.hlcFlushDone i) s fun t =>
      t = flushRing s i.val g 1 .flush) ∧
  (∀ (i : Inst) (op g : Nat) (s : State),
    s.Up → alive s i.val = true → (s.hl i.val).flush = some (op, g) → op = 1 ∨ op = 2 → (s.hl i.val).txns.any (fun t => keyGroup t.key == g && t.work == .flush) = false → (∀ e ∈ (s.hl i.val).lines, keyGroup e.1 = g → op = 1 ∧ e.2.owner = none ∧ e.2.st ≠ .m) →
    Answers (.hlcFlushDone i) s fun t =>
      t = (((s.updHlc i.val fun h => { h with flush := none }).setR (hlcR i.val 0x50) 0x100).irq (hlcPage i.val) 18)) ∧
  (∀ (i : Inst) (a : Acc) (k : Site) (s : State),
    s.Serves i.val → s.Free (hlcPage i.val) →
    Answers (.deadSiteReadmit i a k) s fun t =>
      let x := clearLatches s (hlcPage i.val)
      let c := carrier s i.val
      t = x.setFld (hlcR c 0x5C) k.val 1 0) ∧
  (∀ (i : Inst) (k : Nat) (r : Tbl LineSt) (s : State),
    s.Up → alive s i.val = true → (s.hl i.val).all = [] → (s.hl i.val).due = [] → (∀ k : Fin 12, (s.site k.val).taking ≠ some i.val) → (s.hl i.val).ptags = (k, .m) :: r →
    Answers (.partnerTagEvict i) s fun t =>
      t = (newPoison (sendCxl (s.updHlc i.val fun h => { h with ptags := r }) i.val 8 k (List.replicate 64 0) true) i.val k 3).bump (hlcR i.val 0x88) 1) ∧
  (∀ (i : Inst) (k : Nat) (r : Tbl LineSt) (s : State),
    s.Up → alive s i.val = true → (s.hl i.val).all = [] → (s.hl i.val).due = [] → (∀ k : Fin 12, (s.site k.val).taking ≠ some i.val) → (s.hl i.val).ptags = (k, .e) :: r →
    Answers (.partnerTagEvict i) s fun t =>
      t = sendCxl (s.updHlc i.val fun h => { h with ptags := r }) i.val 7 k [] false) ∧
  (∀ (i : Inst) (k : Nat) (r : Tbl LineSt) (s : State),
    s.Up → alive s i.val = true → (s.hl i.val).all = [] → (s.hl i.val).due = [] → (∀ k : Fin 12, (s.site k.val).taking ≠ some i.val) → (s.hl i.val).ptags = (k, .s) :: r →
    Answers (.partnerTagEvict i) s fun t =>
      t = sendCxl (s.updHlc i.val fun h => { h with ptags := r }) i.val 6 k [] false) ∧
  (∀ (i : Inst) (s : State),
    s.Up → alive s i.val = true → ((s.hl i.val).ptags = [] ∨ ((s.hl i.val).all ++ (s.hl i.val).due).any (fun r => r.op == 4) = true ∨ ∃ k : Fin 12, (s.site k.val).taking = some i.val) →
    Answers (.partnerTagEvict i) s fun t =>
      t = s)

/-- HLC_ACCESS without a station request, while no commit holds the cache and no station request that waited is ready, serves the front
request of the queue. STATION_READ (RD_S, with the read right) and STATION_OWN (RD_O, with the write right) of a host address that the
site's table maps: with its translation at hand the line is asked of the cache of the home's carrier as one 64 B request; a miss waits in
the ATU with the request kept; one outside the table is answered GLOBAL_UNMAPPED (3), one without the right WRITE_DENIED (9). WB_DIRTY of
the line's owner with 64 bytes makes the line M with that data and no owner; EVICT_CLEAN of its owner leaves no owner; neither acts for
another site. CXL_GO with 64 bytes of a line that a RdShared or RdAny waits for fills it in the state granted, poisoned where the host's
data is, and what waits for nothing more goes on. SNP_RSP of a site that holds nothing takes it off the ring snoop, whose end lets the
line go on. (R202, R214, R265, R266, R267, R268, R269, R270, R275, R304, R306, R313) -/
def Obligations.StationLinesAndGo : Prop :=
  (∀ (i : Inst) (r : HlcReq) (rest : List HlcReq) (s : State),
    s.Up → alive s i.val = true → fnHeld s i.val .hlc = false → (s.hl i.val).stWait.find? (stReady s) = none → (s.hl i.val).queue = r :: rest →
    Answers (.hlcAccess i none) s fun t =>
      t = hlcServe (s.updHlc i.val fun h => { h with queue := rest }) i.val r) ∧
  (∀ (k : Site) (slot : BitVec 6) (tag ctag : BitVec 16) (addr : W64) (so : BitVec 5) (h p : Nat) (e : SptEnt) (y : State) (u : URec) (s : State),
    s.Up → partAt s k.val = some (h, p) → (Tbl.getD s.spt k.val []).find? (fun e => e.part == p && e.base ≤ alignDown addr.toNat 64 && alignDown addr.toNat 64 + 64 ≤ e.base + e.size) = some e → e.kind = .hlc ∨ e.kind = .host → fnHeld s h .hlc = false → e.rd = true → xlateAt s ⟨h, p, 0, pasidOf s h (ctag.toNat % 4096)⟩ 0 (alignDown addr.toNat 64) true false = (y, .unit u) →
    Answers (.stationRead k slot tag ctag addr so) s fun t =>
      t = hlcServe y (carrier s h) { unit := some u, src := .station k.val slot.toNat tag.toNat, kind := .readS, group := u.hostGroup, addr := u.tbase + (alignDown addr.toNat 64 - u.base), left := 64, bytes := [], mode := u.mode, part := p }) ∧
  (∀ (k : Site) (slot : BitVec 6) (tag ctag : BitVec 16) (addr : W64) (so : BitVec 5) (h p : Nat) (e : SptEnt) (y : State) (u : URec) (s : State),
    s.Up → partAt s k.val = some (h, p) → (Tbl.getD s.spt k.val []).find? (fun e => e.part == p && e.base ≤ alignDown addr.toNat 64 && alignDown addr.toNat 64 + 64 ≤ e.base + e.size) = some e → e.kind = .hlc ∨ e.kind = .host → fnHeld s h .hlc = false → e.wr = true → xlateAt s ⟨h, p, 0, pasidOf s h (ctag.toNat % 4096)⟩ 0 (alignDown addr.toNat 64) false true = (y, .unit u) →
    Answers (.stationOwn k slot tag ctag addr so) s fun t =>
      t = hlcServe y (carrier s h) { unit := some u, src := .station k.val slot.toNat tag.toNat, kind := .readO, group := u.hostGroup, addr := u.tbase + (alignDown addr.toNat 64 - u.base), left := 64, bytes := [], mode := u.mode, part := p }) ∧
  (∀ (k : Site) (slot : BitVec 6) (tag ctag : BitVec 16) (addr : W64) (so : BitVec 5) (h p : Nat) (e : SptEnt) (y : State) (key : XKey) (iova : Nat) (s : State),
    s.Up → partAt s k.val = some (h, p) → (Tbl.getD s.spt k.val []).find? (fun e => e.part == p && e.base ≤ alignDown addr.toNat 64 && alignDown addr.toNat 64 + 64 ≤ e.base + e.size) = some e → e.kind = .hlc ∨ e.kind = .host → fnHeld s h .hlc = false → e.rd = true → xlateAt s ⟨h, p, 0, pasidOf s h (ctag.toNat % 4096)⟩ 0 (alignDown addr.toNat 64) true false = (y, .miss key iova) →
    Answers (.stationRead k slot tag ctag addr so) s fun t =>
      let q : StWait := { site := k.val, slot := slot.toNat, tag := tag.toNat, ctag := ctag.toNat, addr := alignDown addr.toNat 64, len := 64, kind := .readS }
      t = addMiss (stPark y (carrier s h) q) h { who := .station k.val tag.toNat, key, iova, sp := 0, addr := alignDown addr.toNat 64, needR := true, needW := false, data := false, part := p }) ∧
  (∀ (k : Site) (slot : BitVec 6) (tag ctag : BitVec 16) (addr : W64) (so : BitVec 5) (h p : Nat) (s : State),
    s.Up → partAt s k.val = some (h, p) → (Tbl.getD s.spt k.val []).find? (fun e => e.part == p && e.base ≤ alignDown addr.toNat 64 && alignDown addr.toNat 64 + 64 ≤ e.base + e.size) = none →
    Answers (.stationRead k slot tag ctag addr so) s fun t =>
      t = s.emit (.stationErr k.val tag.toNat 3)) ∧
  (∀ (k : Site) (slot : BitVec 6) (tag ctag : BitVec 16) (addr : W64) (so : BitVec 5) (h p : Nat) (e : SptEnt) (s : State),
    s.Up → partAt s k.val = some (h, p) → (Tbl.getD s.spt k.val []).find? (fun e => e.part == p && e.base ≤ alignDown addr.toNat 64 && alignDown addr.toNat 64 + 64 ≤ e.base + e.size) = some e → e.kind = .hlc ∨ e.kind = .host → e.wr = false →
    Answers (.stationOwn k slot tag ctag addr so) s fun t =>
      t = s.emit (.stationErr k.val tag.toNat 9)) ∧
  (∀ (k : Site) (g : Group) (hpa : W64) (attr : W32) (data : List Byte) (i : Nat) (l : Line) (s : State),
    s.Up → lineServer s g.val = some i → s.line? i (lineKey g.val hpa.toNat) = some l → l.owner = some k.val → data.length = 64 →
    Answers (.wbDirty k g ⟨hpa, attr⟩ data) s fun t =>
      t = putLine s i (lineKey g.val hpa.toNat) { l with st := .m, owner := none, data }) ∧
  (∀ (k : Site) (g : Group) (hpa : W64) (attr : W32) (data : List Byte) (i : Nat) (l : Line) (s : State),
    s.Up → lineServer s g.val = some i → s.line? i (lineKey g.val hpa.toNat) = some l → l.owner ≠ some k.val →
    Answers (.wbDirty k g ⟨hpa, attr⟩ data) s fun t =>
      t = s) ∧
  (∀ (k : Site) (g : Group) (hpa : W64) (attr : W32) (i : Nat) (l : Line) (s : State),
    s.Up → lineServer s g.val = some i → s.line? i (lineKey g.val hpa.toNat) = some l → l.owner = some k.val →
    Answers (.evictClean k g ⟨hpa, attr⟩) s fun t =>
      t = putLine s i (lineKey g.val hpa.toNat) { l with owner := none }) ∧
  (∀ (k : Site) (g : Group) (hpa : W64) (attr : W32) (i : Nat) (l : Line) (s : State),
    s.Up → lineServer s g.val = some i → s.line? i (lineKey g.val hpa.toNat) = some l → l.owner ≠ some k.val →
    Answers (.evictClean k g ⟨hpa, attr⟩) s fun t =>
      t = s) ∧
  (∀ (g : Group) (hpa : W64) (sh poison : Bool) (data : List Byte) (i port op : Nat) (x : HTxn) (s : State),
    s.Up → goTxn s (lineKey g.val hpa.toNat) = some (i, x) → x.cxl = some (port, op) → op < 2 → data.length = 64 → cohEn s i (keyGroup (lineKey g.val hpa.toNat)) = true →
    Answers (.cxlGo g hpa sh data poison) s fun t =>
      let y := putLine s i (lineKey g.val hpa.toNat) { ((s.line? i (lineKey g.val hpa.toNat)).getD { st := .e }) with st := if sh then .s else .e, data, poison }
      let z := if poison then newPoison y i (lineKey g.val hpa.toNat) 4 else y
      let w := hlcSettle (z.updHlc i fun h => { h with txns := h.txns.map fun v => if v == x then { v with cxl := none } else v }) i (lineKey g.val hpa.toNat)
      t = if cohEn w i (keyGroup (lineKey g.val hpa.toNat)) then w else evictLine w i (lineKey g.val hpa.toNat)) ∧
  (∀ (k : Site) (tag : W32) (g : Group) (hpa : W64) (x : HTxn) (r : Ring) (s : State),
    s.Up → flits s k.val = true → ownerWorks s k.val = true → (s.hl (owner s k.val)).all = [] → (s.hl (owner s k.val)).txns.findSome? (fun t => match t.ring with | some rg => if rg.tag == tag.toNat && rg.sites.contains k.val then some (t, rg) else none | none => none) = some (x, r) →
    Answers (.snpRsp k tag 0 g hpa []) s fun t =>
      let y := takeCredit (rxFlit s k.val) k.val (.snpRsp tag.toNat (4 * g.val + 16 * hpa.toNat) [])
      t = frameEnds (ringAnswered y (owner s k.val) k.val x r) k.val)

/-- A frame in a good flit of a site whose owner works takes the next seq of its link; then, for the command that the slot holds under that
job number (HOST_FLUSH: whatever tag it carries): COMMIT_BEGIN of a running class-0 command makes it COMMITTING; HOST_FLUSH notes that its
host writes are to be reported; COMMIT_END of a live RUN frees the slot and ends the position with status 0 and the frame's result;
CMD_ERROR records code, slot and engine in ERR_STATUS, raises cmd_error (17), frees the slot and ends the position with STATION_ERROR
(10); PREEMPT_RSP of an asked command: with result 0 (killed) its position returns to the head of its queue and the slot is free, a
preemption being counted, with result 5 it is a job fault, with another the command runs on, a victim that commits (2) staying one; of a
dead one, other than 2 and 3, it frees the slot; ACCEPT of a sent command without a barrier starts its slice and takes back its queue's
debt. OP_DONE with result 0 that answers an action of a task lets the task go on after the action's effect. A frame that names no command
of the slot changes no command. At the end any DESTROY that is now due ends, and the flit is acknowledged with the credit of the frame.
(R284, R285, R288, R292, R293, R294, R295, R297, R300, R305, R323, R335) -/
def Obligations.StationAnswersAboutCommands : Prop :=
  (∀ (k : Site) (slot : BitVec 6) (job : W32) (i j : Nat) (c : Cmd) (s : State),
    s.Up → flits s k.val = true → ownerWorks s k.val = true → frameCmd s k.val slot.toNat job.toNat = some (i, j, c) → c.st = .running → c.cls = 0 →
    Answers (.commitBegin k slot job) s fun t =>
      let x := takeCredit (rxFlit s k.val) k.val (.commitBegin slot.toNat job.toNat)
      t = frameEnds (x.updCmd i j fun c => { c with st := .committing, committed := true }) k.val) ∧
  (∀ (k : Site) (slot : BitVec 6) (job : W32) (s : State),
    s.Up → flits s k.val = true → ownerWorks s k.val = true → frameCmd s k.val slot.toNat job.toNat = none →
    Answers (.commitBegin k slot job) s fun t =>
      let x := takeCredit (rxFlit s k.val) k.val (.commitBegin slot.toNat job.toNat)
      t = frameEnds x k.val) ∧
  (∀ (k : Site) (slot : BitVec 6) (job : W32) (i j : Nat) (c : Cmd) (s : State),
    s.Up → flits s k.val = true → ownerWorks s k.val = true → cmdAt s k.val slot.toNat = some (i, j, c) →
    Answers (.hostFlush k slot job) s fun t =>
      let x := takeCredit (rxFlit s k.val) k.val (.hostFlush slot.toNat job.toNat)
      t = frameEnds (x.updCmd i j fun c => { c with flushing := true }) k.val) ∧
  (∀ (k : Site) (slot : BitVec 6) (job : W32) (arg : W64) (marks : List Byte) (st : Rsp) (i j q p : Nat) (c : Cmd) (s : State),
    s.Up → flits s k.val = true → ownerWorks s k.val = true → frameCmd s k.val slot.toNat job.toNat = some (i, j, c) → c.dead = false → c.src = .run q p →
    Answers (.commitEnd k slot job arg marks st) s fun t =>
      let x := takeCredit (rxFlit s k.val) k.val (.commitEnd slot.toNat job.toNat arg.toNat marks st)
      t = frameEnds (endPos (finishCmd x i j) i q p 0 arg.toNat true) k.val) ∧
  (∀ (k : Site) (slot : BitVec 6) (job : W32) (code engine : Byte) (addr : W64) (i j q p : Nat) (c : Cmd) (s : State),
    s.Up → flits s k.val = true → ownerWorks s k.val = true → frameCmd s k.val slot.toNat job.toNat = some (i, j, c) → c.dead = false → c.src = .run q p →
    Answers (.cmdError k slot job code engine addr) s fun t =>
      let x := takeCredit (rxFlit s k.val) k.val (.cmdError slot.toNat job.toNat code.toNat engine.toNat addr.toNat)
      let y := (((x.setR (stpR k.val 0x58) (fields [(0, code.toNat), (8, slot.toNat), (16, engine.toNat), (31, 1)])).setR (stpR k.val 0x60) addr.toNat).irq (stpPage k.val) 17)
      t = frameEnds (endPos (finishCmd y i j) i q p 10 (fields [(0, code.toNat), (8, k.val), (12, engine.toNat), (20, addr.toNat / 2 ^ 20)]) true) k.val) ∧
  (∀ (k : Site) (slot : BitVec 6) (job : W32) (arg : W64) (i j : Nat) (c : Cmd) (w : Ask) (s : State),
    s.Up → flits s k.val = true → ownerWorks s k.val = true → frameCmd s k.val slot.toNat job.toNat = some (i, j, c) → c.dead = false → c.ask = some w →
    Answers (.preemptRsp k slot job 0 arg) s fun t =>
      let x := takeCredit (rxFlit s k.val) k.val (.preempt slot.toNat job.toNat 0 arg.toNat)
      let y := if w = .preempt ∨ w = .slice then x.bump (schR i 0 0x108) 1 else x
      t = frameEnds (finishCmd (returnJob y i c) i j) k.val) ∧
  (∀ (k : Site) (slot : BitVec 6) (job : W32) (arg : W64) (i j : Nat) (c : Cmd) (w : Ask) (s : State),
    s.Up → flits s k.val = true → ownerWorks s k.val = true → frameCmd s k.val slot.toNat job.toNat = some (i, j, c) → c.dead = false → c.ask = some w →
    Answers (.preemptRsp k slot job 5 arg) s fun t =>
      let x := takeCredit (rxFlit s k.val) k.val (.preempt slot.toNat job.toNat 5 arg.toNat)
      t = frameEnds (jobFault (x.updCmd i j fun c => { c with ask := none }) i j true) k.val) ∧
  (∀ (k : Site) (slot : BitVec 6) (job : W32) (r : Byte) (arg : W64) (i j : Nat) (c : Cmd) (w : Ask) (s : State),
    s.Up → flits s k.val = true → ownerWorks s k.val = true → frameCmd s k.val slot.toNat job.toNat = some (i, j, c) → c.dead = false → c.ask = some w → r ≠ 0 → r ≠ 1 → r ≠ 5 →
    Answers (.preemptRsp k slot job r arg) s fun t =>
      let x := takeCredit (rxFlit s k.val) k.val (.preempt slot.toNat job.toNat r.toNat arg.toNat)
      t = frameEnds (x.updCmd i j fun c => { c with ask := none, victim := if r = 2 then c.victim else none, save := if c.isSave then none else c.save, stretch := if r = 2 ∧ w = .slice ∧ c.stretch = none then some (x.time i) else c.stretch }) k.val) ∧
  (∀ (k : Site) (slot : BitVec 6) (job : W32) (r : Byte) (arg : W64) (i j : Nat) (c : Cmd) (s : State),
    s.Up → flits s k.val = true → ownerWorks s k.val = true → frameCmd s k.val slot.toNat job.toNat = some (i, j, c) → c.dead = true → r ≠ 2 → r ≠ 3 →
    Answers (.preemptRsp k slot job r arg) s fun t =>
      let x := takeCredit (rxFlit s k.val) k.val (.preempt slot.toNat job.toNat r.toNat arg.toNat)
      t = frameEnds (finishCmd x i j) k.val) ∧
  (∀ (k : Site) (slot : BitVec 6) (job : W32) (i j q p : Nat) (c : Cmd) (s : State),
    s.Up → flits s k.val = true → ownerWorks s k.val = true → frameCmd s k.val slot.toNat job.toNat = some (i, j, c) → c.st = .sent → c.barrier = none → c.src = .run q p →
    Answers (.accept k slot job) s fun t =>
      let x := takeCredit (rxFlit s k.val) k.val (.accept slot.toNat job.toNat)
      let y := x.updSch i fun v => { v with clock := (x.sc i).clock + 1, debts := Tbl.del v.debts q }
      t = frameEnds (spillAfter (pumpGo (y.updCmd i j fun c => { c with st := if c.hold && c.goNext == 0 then .loaded else .running, accSeq := (x.sc i).clock, slice := max 1 (max 1 (x.fld (schR i 0 (0x80 + 4 * c.part)) 0 16) - Tbl.getD (x.sc i).debts q 0), save := if c.restore then none else c.save, restore := false }) i j) i k.val c.src) k.val) ∧
  (∀ (k : Site) (job : W32) (code : Byte) (win : BitVec 6) (i n : Nat) (a : Nat × Act) (s : State),
    s.Up → flits s k.val = true → ownerWorks s k.val = true → code ≠ 10 → [0, 1].findSome? (fun i => (taskFor s i k.val code.toNat win.toNat).map fun t => (i, t)) = some (i, n, a) →
    Answers (.opDone k job 0 code win) s fun t =>
      let x := takeCredit (rxFlit s k.val) k.val (.opDone job.toNat 0 code.toNat win.toNat)
      t = frameEnds (taskNext (actEffect x i a) i n) k.val)

/-- A frame of a site whose owner works: CAP_DATA of a block of protocol version 1 with every field in its range takes the site to UP, keeps
the block in STP.CAP0-7, raises link (16), and frames that waited go; one with a wrong protocol version leaves the site in MISMATCH and
raises link (16) and cap_mismatch (19), the block kept in STP.CAP0-7; one that does not have 64 bytes changes nothing. STATE_RSP that was
awaited fails the steps whose slot is FREE and kills with force every slot that is not FREE and holds no command. ACTIVITY adds its counts
to STP.ACT0-7. STATION_FAULT of class CE is recorded in STP.FAULT, raises fault (18) and is a CE of the site's source; of a higher class
it is a UCE-C and the station is torn down. A frame of an unknown code is a CE of the site's STP island. SITE_ERR_N low on a trained link
is a UCE-C of the site with its tear-down, and without one a UCE-C alone, in warm reset too (AON runs). (R45, R288, R290, R291, R309,
R312, R314, R424, R426, R443) -/
def Obligations.StationAnswersAboutTheSite : Prop :=
  (∀ (k : Site) (block : List Byte) (s : State),
    s.Up → flits s k.val = true → ownerWorks s k.val = true → block.length = 64 → (s.site k.val).st = .cap ∨ (s.site k.val).st = .up ∨ (s.site k.val).st = .mismatch → fieldAt block 0 8 / 2 ^ 8 % 2 ^ 8 ≠ 1 →
    Answers (.capData k block) s fun t =>
      let x := takeCredit (rxFlit s k.val) k.val (.capData block)
      let y := (List.range 8).foldl (fun z n => z.setR (stpR k.val (0x80 + 8 * n)) (fieldAt block (8 * n) 8)) x
      t = frameEnds (((y.updSite k.val fun v => { v with st := .mismatch }).irq (stpPage k.val) 16).irq (stpPage k.val) 19) k.val) ∧
  (∀ (k : Site) (block : List Byte) (s : State),
    s.Up → flits s k.val = true → ownerWorks s k.val = true → block.length = 64 → (s.site k.val).st = .cap ∨ (s.site k.val).st = .up ∨ (s.site k.val).st = .mismatch → bits (fieldAt block 0 8) 8 8 = 1 → 1 ≤ bits (fieldAt block 8 8) 0 9 ∧ bits (fieldAt block 8 8) 0 9 ≤ 256 → 1 ≤ bits (fieldAt block 8 8) 16 7 ∧ bits (fieldAt block 8 8) 16 7 ≤ 64 → 64 ≤ bits (fieldAt block 8 8) 32 16 → 8 ≤ bits (fieldAt block 8 8) 48 7 ∧ bits (fieldAt block 8 8) 48 7 ≤ 64 → 1 ≤ bits (fieldAt block 16 8) 0 16 ∧ bits (fieldAt block 16 8) 0 16 ≤ 100 → 1 ≤ bits (fieldAt block 16 8) 16 16 ∧ bits (fieldAt block 16 8) 16 16 ≤ 10000 → 400 ≤ bits (fieldAt block 24 8) 16 16 → bits (fieldAt block 24 8) 37 27 = 0 → (∀ n : Fin 4, fieldAt block (32 + 8 * n.val) 8 = 0) →
    Answers (.capData k block) s fun t =>
      let x := takeCredit (rxFlit s k.val) k.val (.capData block)
      let y := (List.range 8).foldl (fun z n => z.setR (stpR k.val (0x80 + 8 * n)) (fieldAt block (8 * n) 8)) x
      t = frameEnds (flushFrames ((y.updSite k.val fun v => { v with st := .up }).irq (stpPage k.val) 16) k.val) k.val) ∧
  (∀ (k : Site) (block : List Byte) (s : State),
    s.Up → flits s k.val = true → ownerWorks s k.val = true → block.length ≠ 64 →
    Answers (.capData k block) s fun t =>
      let x := takeCredit (rxFlit s k.val) k.val (.capData block)
      t = frameEnds x k.val) ∧
  (∀ (k : Site) (codes : List Byte) (s : State),
    s.Up → flits s k.val = true → ownerWorks s k.val = true → (s.site k.val).query = true →
    Answers (.stateRsp k codes) s fun t =>
      let x := takeCredit (rxFlit s k.val) k.val (.stateRsp (codes.map BitVec.toNat))
      let cs := (codes.map BitVec.toNat).zipIdx
      let y := (cs.filterMap fun e => if e.1 = 0 then (cmdAt s k.val e.2).map fun c => (c.1, c.2.1) else none).foldl (fun s e => stepGone s e.1 e.2) (x.updSite k.val fun x => { x with query := false })
      t = frameEnds (((cs.filter fun e => e.1 != 0 && (cmdAt s k.val e.2).isNone).map Prod.snd).foldl (fun s n => sendFrame s k.val 2 [n, 1, 0, 0, 0]) y) k.val) ∧
  (∀ (k : Site) (counts : List W32) (s : State),
    s.Up → flits s k.val = true → ownerWorks s k.val = true →
    Answers (.activity k counts) s fun t =>
      let x := takeCredit (rxFlit s k.val) k.val (.activity (counts.map BitVec.toNat))
      t = frameEnds ((((counts.map BitVec.toNat).take 8).zipIdx).foldl (fun s e => s.bump (stpR k.val (0xC0 + 8 * e.2)) (e.1 % 2 ^ 32)) x) k.val) ∧
  (∀ (k : Site) (code : Byte) (d : W64) (s : State),
    s.Up → flits s k.val = true → ownerWorks s k.val = true →
    Answers (.stationFault k 0 code d) s fun t =>
      let x := takeCredit (rxFlit s k.val) k.val (.fault 0 code.toNat d.toNat)
      t = frameEnds (faultEvent ((x.setR (stpR k.val 0x68) (fields [(0, 0), (8, code.toNat), (31, 1)])).irq (stpPage k.val) 18) (40 + k.val) 0 { kind := 2, idx := k.val, detail := fields [(16, d.toNat % 2 ^ 15)] } none) k.val) ∧
  (∀ (k : Site) (cls : Fin 3) (code : Byte) (d : W64) (s : State),
    s.Up → flits s k.val = true → ownerWorks s k.val = true → cls ≠ 0 →
    Answers (.stationFault k cls code d) s fun t =>
      let x := takeCredit (rxFlit s k.val) k.val (.fault cls.val code.toNat d.toNat)
      t = frameEnds (stationFailed (faultEvent ((x.setR (stpR k.val 0x68) (fields [(0, cls.val), (8, code.toNat), (31, 1)])).irq (stpPage k.val) 18) (40 + k.val) 1 { kind := 2, idx := k.val, detail := fields [(16, d.toNat % 2 ^ 15)] } none) k.val) k.val) ∧
  (∀ (k : Site) (s : State),
    s.Up → flits s k.val = true → ownerWorks s k.val = true →
    Answers (.unknownFrame k) s fun t =>
      let x := takeCredit (rxFlit s k.val) k.val (.unknown)
      t = frameEnds (faultEvent x (stpSrc k.val) 0 { kind := 2, idx := k.val } none) k.val) ∧
  (∀ (k : Site) (s : State),
    s.por = false → (s.site k.val).st = .absent ∨ (s.site k.val).st = .down ∨ (s.site k.val).st = .training →
    Answers (.siteErr k) s fun t =>
      t = faultEvent s (40 + k.val) 1 { kind := 2, idx := k.val } none) ∧
  (∀ (k : Site) (s : State),
    s.por = false → (s.site k.val).st ∉ [.absent, .down, .training] →
    Answers (.siteErr k) s fun t =>
      t = settleDestroy (stationFailed (faultEvent s (40 + k.val) 1 { kind := 2, idx := k.val } none) k.val))

/-- SITE_LINK_UP of an ABSENT, DOWN or TRAINING site enters CAP at the rate allowed with its lane repairs, grants the capacities of RSP, SRS
and EVT (128, 64, 32), with fresh activity counts, raises link (16) and sends CAP_READ. FLIT_CRC_ERROR of a flit whose CRC fails counts,
answers a NAK for the last good seq, and at the eighth for that seq starts a retrain. NAK takes its credits and what it acknowledges out
of the replay buffer, replays and counts the flits after it, and waiting frames go; at the eighth for that seq it starts a retrain.
IDLE_FLIT acknowledges and adds credits, and waiting frames go. A lane that fails with a redundant lane left is repaired as a CE, a link
in use retraining; without one an x64 link goes on at x32 on the other half, an x32 link whose half fails is lost, a half out of use needs
no action, and a link that has not trained is left without that half, as a CE. SITE_RETRAIN_END returns to the state before and frames go;
SITE_RETRAIN_LIMIT loses the site. SITE_LINK_DOWN in TRAINING is DOWN, of a trained link loses the site. LINK_RESET of a DOWN site resets
its STP registers and trains it again through the sideband, of an UP one loses it, of a training one sets cmd_refused (16), as does
CAP_READ; CAP_READ of an UP site sends the frame. (R280, R284, R285, R290, R310, R311, R314) -/
def Obligations.SiteLinkEvents : Prop :=
  (∀ (k : Site) (rate : Fin 3) (width : Fin 4) (s : State),
    s.Up → (s.site k.val).st = .absent ∨ (s.site k.val).st = .down ∨ (s.site k.val).st = .training → rate ≠ 0 → trainWidth (s.site k.val) width.val ≠ 0 →
    Answers (.siteLinkUp k rate width) s fun t =>
      let x := s.updSite k.val fun x => { swapped := x.swapped, moving := x.moving, taking := x.taking, after := x.after, held := x.held, st := .cap, rate := trainRate s k.val rate.val, width := trainWidth (s.site k.val) width.val, lanes := x.lanes, grant := (128, 64, 32) }
      t = sendFrame (settleAck (((List.range 8).foldl (fun s n => s.setR (stpR k.val (0xC0 + 8 * n)) 0) x).irq (stpPage k.val) 16) k.val) k.val 0x0B [0, 0, 0, 0, 0]) ∧
  (∀ (k : Site) (bytes : List Byte) (s : State),
    s.Up → flitBad bytes = true → flits s k.val = true → (nakCount (s.site k.val).sent (s.site k.val).rxSeq).2 = false →
    Answers (.flitCrcError k bytes) s fun t =>
      t = (sendFlit (s.bump (stpR k.val 0x70) 1) k.val 2 []).updSite k.val fun x => { x with sent := (nakCount (s.site k.val).sent (s.site k.val).rxSeq).1 }) ∧
  (∀ (k : Site) (bytes : List Byte) (s : State),
    s.Up → flitBad bytes = true → flits s k.val = true → (s.site k.val).sent = ((s.site k.val).rxSeq, 7) →
    Answers (.flitCrcError k bytes) s fun t =>
      t = siteRetrain ((sendFlit (s.bump (stpR k.val 0x70) 1) k.val 2 []).updSite k.val fun x => { x with sent := ((s.site k.val).rxSeq, 0) }) k.val) ∧
  (∀ (k : Site) (f : NakFlit) (y : SiteRec) (s : State),
    s.Up → flits s k.val = true → (addCredits (ackUpTo s k.val f.seq.toNat) k.val f.cmd.toNat f.snp.toNat).site k.val = y → y.replay ≠ [] → (nakCount y.naks f.seq.toNat).2 = false →
    Answers (.nak k f) s fun t =>
      let x := (addCredits (ackUpTo s k.val f.seq.toNat) k.val f.cmd.toNat f.snp.toNat).bump (stpR k.val 0x78) y.replay.length
      t = flushFrames ((y.replay.foldl (fun s e => s.emit (.flit k.val 0 e.1 y.rxSeq (0, 0, 0) [(e.2.1, e.2.2)])) x).updSite k.val fun z => { z with naks := (nakCount y.naks f.seq.toNat).1 }) k.val) ∧
  (∀ (k : Site) (f : NakFlit) (y : SiteRec) (s : State),
    s.Up → flits s k.val = true → (addCredits (ackUpTo s k.val f.seq.toNat) k.val f.cmd.toNat f.snp.toNat).site k.val = y → y.replay ≠ [] → (nakCount y.naks f.seq.toNat).2 = true →
    Answers (.nak k f) s fun t =>
      let x := (addCredits (ackUpTo s k.val f.seq.toNat) k.val f.cmd.toNat f.snp.toNat).bump (stpR k.val 0x78) y.replay.length
      t = siteRetrain ((y.replay.foldl (fun s e => s.emit (.flit k.val 0 e.1 y.rxSeq (0, 0, 0) [(e.2.1, e.2.2)])) x).updSite k.val fun z => { z with naks := (nakCount y.naks f.seq.toNat).1 }) k.val) ∧
  (∀ (k : Site) (ack : BitVec 12) (cmd snp : Byte) (s : State),
    s.Up → flits s k.val = true →
    Answers (.idleFlit k ack cmd snp) s fun t =>
      t = flushFrames ((ackUpTo s k.val ack.toNat).updSite k.val fun x => { x with cred := (x.cred.1 + cmd.toNat, x.cred.2 + snp.toNat) }) k.val) ∧
  (∀ (k : Site) (dir half : Bool) (s : State),
    s.Up → (s.site k.val).st = .up → (s.site k.val).width = 3 ∨ (s.site k.val).width = b2n half + 1 → (s.site k.val).lanes.getD (2 * b2n dir + b2n half) 0 < 2 →
    Answers (.laneFailure k dir half) s fun t =>
      let n := 2 * b2n dir + b2n half
      t = settleDestroy (siteRetrain (faultEvent ((s.updSite k.val fun x => { x with lanes := x.lanes.set n (x.lanes.getD n 0 + 1) }).satFld (stpR k.val 0x100) 16 8 1) (stpSrc k.val) 0 { kind := 2, idx := k.val } none) k.val)) ∧
  (∀ (k : Site) (dir half : Bool) (s : State),
    s.Up → (s.site k.val).st = .up → (s.site k.val).width = 3 → 2 ≤ (s.site k.val).lanes.getD (2 * b2n dir + b2n half) 0 →
    Answers (.laneFailure k dir half) s fun t =>
      t = settleDestroy (siteRetrain (faultEvent (s.updSite k.val fun x => { x with width := if half then 1 else 2 }) (stpSrc k.val) 0 { kind := 2, idx := k.val } none) k.val)) ∧
  (∀ (k : Site) (dir half : Bool) (s : State),
    s.Up → (s.site k.val).st = .up → (s.site k.val).width = b2n half + 1 → 2 ≤ (s.site k.val).lanes.getD (2 * b2n dir + b2n half) 0 →
    Answers (.laneFailure k dir half) s fun t =>
      t = settleDestroy (siteLost s k.val)) ∧
  (∀ (k : Site) (dir half : Bool) (s : State),
    s.Up → (s.site k.val).st = .absent ∨ (s.site k.val).st = .training → (s.site k.val).lanes.getD (2 * b2n dir + b2n half) 0 = 2 →
    Answers (.laneFailure k dir half) s fun t =>
      t = settleDestroy (faultEvent (s.updSite k.val fun x => { x with lanes := x.lanes.set (2 * b2n dir + b2n half) 3 }) (stpSrc k.val) 0 { kind := 2, idx := k.val } none)) ∧
  (∀ (k : Site) (dir half : Bool) (s : State),
    s.Up → (s.site k.val).st = .up → (s.site k.val).width ≠ 3 → (s.site k.val).width ≠ b2n half + 1 →
    Answers (.laneFailure k dir half) s fun t =>
      t = settleDestroy s) ∧
  (∀ (k : Site) (s : State),
    s.Up → (s.site k.val).st = .retrain →
    Answers (.siteRetrainEnd k) s fun t =>
      t = flushFrames ((s.updSite k.val fun x => { x with st := x.back }).irq (stpPage k.val) 16) k.val) ∧
  (∀ (k : Site) (s : State),
    s.Up → (s.site k.val).st = .retrain →
    Answers (.siteRetrainLimit k) s fun t =>
      t = settleDestroy (siteLost s k.val)) ∧
  (∀ (k : Site) (s : State),
    s.Up → (s.site k.val).st = .training →
    Answers (.siteLinkDown k) s fun t =>
      t = (s.updSite k.val fun x => { x with st := .down }).irq (stpPage k.val) 16) ∧
  (∀ (k : Site) (s : State),
    s.Up → (s.site k.val).st ∈ [.up, .cap, .retrain, .mismatch] →
    Answers (.siteLinkDown k) s fun t =>
      t = settleDestroy (siteLost s k.val)) ∧
  (∀ (k : Site) (a : Acc) (s : State),
    s.Serves (k.val / 6) → s.Free (stpPage k.val) → (s.site k.val).st = .down →
    Answers (.linkReset k a) s fun t =>
      t = ((stpReset ((clearLatches s (stpPage k.val)).updSite k.val fun x => { x with st := .training }) k.val).irq (stpPage k.val) 16).emit (.siteReset k.val)) ∧
  (∀ (k : Site) (a : Acc) (s : State),
    s.Serves (k.val / 6) → s.Free (stpPage k.val) → (s.site k.val).st = .up ∨ (s.site k.val).st = .retrain ∨ (s.site k.val).st = .mismatch →
    Answers (.linkReset k a) s fun t =>
      t = settleDestroy (siteLost (clearLatches s (stpPage k.val)) k.val)) ∧
  (∀ (k : Site) (a : Acc) (s : State),
    s.Serves (k.val / 6) → s.Free (stpPage k.val) → (s.site k.val).st = .cap ∨ (s.site k.val).st = .training →
    Answers (.linkReset k a) s fun t =>
      t = { (clearLatches s (stpPage k.val)).perr (stpPage k.val) 16 with wlatch := s.wlatch }) ∧
  (∀ (k : Site) (a : Acc) (s : State),
    s.Serves (k.val / 6) → s.Free (stpPage k.val) → (s.site k.val).st = .cap ∨ (s.site k.val).st = .training →
    Answers (.stpCapRead k a) s fun t =>
      t = { (clearLatches s (stpPage k.val)).perr (stpPage k.val) 16 with wlatch := s.wlatch }) ∧
  (∀ (k : Site) (a : Acc) (s : State),
    s.Serves (k.val / 6) → s.Free (stpPage k.val) → (s.site k.val).st = .up ∨ (s.site k.val).st = .retrain ∨ (s.site k.val).st = .mismatch →
    Answers (.stpCapRead k a) s fun t =>
      t = sendFrame (clearLatches s (stpPage k.val)) k.val 0x0B [0, 0, 0, 0, 0])

/-- STATION_ALLOWANCE_EXPIRY of a timed command on a link that works is a job fault with a forced KILL. KILL_ALLOWANCE_EXPIRY of a command
under a KILL with force, no PURGE being out, sends PURGE for its partition and notes it. PURGE_TIMEOUT loses the site. HOST_FLUSHED of a
command whose flush was asked: with host writes lost it is answered with op 1; with no host work and no port left to flush, with op 0.
HOME_TIMEOUT of a snoop the site still owes, the link not retraining, makes the site dead and tears down its jobs. (R267, R272, R274,
R295, R296, R311, R343) -/
def Obligations.CommandAllowances : Prop :=
  (∀ (k : Site) (slot : BitVec 6) (i j : Nat) (c : Cmd) (s : State),
    s.Up → cmdAt s k.val slot.toNat = some (i, j, c) → c.timed = true → c.dead = false → flits s k.val = true →
    Answers (.stationAllowanceExpiry k slot) s fun t =>
      t = jobFault s i j true) ∧
  (∀ (k : Site) (slot : BitVec 6) (i j : Nat) (c : Cmd) (s : State),
    s.Up → cmdAt s k.val slot.toNat = some (i, j, c) → c.ask = some .force → c.purged = false → flits s k.val = true → (s.site k.val).purge = none →
    Answers (.killAllowanceExpiry k slot) s fun t =>
      t = (sendFrame (s.updSite k.val fun x => { x with purge := some c.part }) k.val 0x0A [0, c.part, 0, 0, 0]).updCmd i j fun c => { c with purged := true }) ∧
  (∀ (k : Site) (p : Nat) (s : State),
    s.Up → (s.site k.val).purge = some p → flits s k.val = true →
    Answers (.purgeTimeout k) s fun t =>
      t = settleDestroy (siteLost s k.val)) ∧
  (∀ (k : Site) (slot : BitVec 6) (i j : Nat) (c : Cmd) (s : State),
    s.Up → cmdAt s k.val slot.toNat = some (i, j, c) → c.flushing = true → ownerWorks s k.val = true → c.lost = true →
    Answers (.hostFlushed k slot) s fun t =>
      t = (sendFrame s k.val 0x0D [slot.toNat, 1, 0, j, 0]).updCmd i j fun c => { c with flushing := false }) ∧
  (∀ (k : Site) (slot : BitVec 6) (i j : Nat) (c : Cmd) (s : State),
    s.Up → cmdAt s k.val slot.toNat = some (i, j, c) → c.flushing = true → ownerWorks s k.val = true → c.lost = false → hostWork s (carrier s i) k.val slot.toNat = false → c.wports = [] →
    Answers (.hostFlushed k slot) s fun t =>
      t = (sendFrame s k.val 0x0D [slot.toNat, 0, 0, j, 0]).updCmd i j fun c => { c with flushing := false }) ∧
  (∀ (k : Site) (tag : W32) (s : State),
    s.Up → (s.site k.val).st ≠ .retrain → ringWaits s (owner s k.val) k.val tag.toNat = true →
    Answers (.homeTimeout k tag) s fun t =>
      let x := siteDead s k.val
      t = (cmdsOn x k.val).foldl (fun s e => if e.2.2.inSlot then jobFault s e.1 e.2.1 true else unplace s e.1 e.2.1) x)

/-- SCH below acts while no commit holds it. STATION_DISPATCH, when one command is ready: one that can go, is not kept back, owes no debt and
has a best place is placed there; one whose checks end it has its job ended. SLICE_END acts only where the quota or a rival wants the
command gone: a class-0 or LOADED one is killed without force, a RUNNING class-1 one saved, a class-2 or COMMITTING one stretched from
now. LC_PREEMPT chooses the victim that comes before all others and kills or saves it; without a stuck LC command it changes nothing.
PREEMPTED_RESUME of a job that is not PREEMPTED changes nothing; a PREEMPTED one that may resume and has a best place is placed with
RESTORE. BARRIER_WAVE starts the next wave of a released group by GO frames to the engines it had at its close whose members are left,
within the budget of the interval and the quota of each site, and marks it due otherwise. BARRIER_TIMEOUT of an open group dissolves it,
kills its loaded members and raises barrier_timeout (19). DIDT_INTERVAL opens a new interval: due waves, starts for size and commands that
wait go on. (R319, R330, R331, R332, R334, R335, R336, R337, R340, R341, R342, R394) -/
def Obligations.SchedulerActs : Prop :=
  (∀ (i : Inst) (c : Cand) (ks : List Nat) (y : State) (plan : State × Cmd × List (Nat × Act)) (s : State),
    s.Serves i.val → fnHeld s i.val .sch = false → y = ((queuesOf (sendDue (copyDone s i.val) i.val) i.val).filter fun e => e.2.ctx.kind == 1 && e.1 < 2 ^ 20).foldl (fun s e => (startGate s i.val e.1).1) (sendDue (copyDone s i.val) i.val) → readyCmds y i.val = [c] → standing y i.val c = .goes ks → keptBack y i.val c.cmd = none → debtPass y i.val c [c] = none → placeBest y i.val (newJob y i.val) c.cmd ks = some plan →
    Answers (.stationDispatch i) s fun t =>
      t = takePlan i.val (newJob y i.val) (plan.1.updSch i.val fun x => { x with rr := Tbl.put x.rr c.rank c.idx, passed := x.passed.filter fun e => e.1 != c.idx }, plan.2)) ∧
  (∀ (i : Inst) (c : Cand) (st r : Nat) (y : State) (s : State),
    s.Serves i.val → fnHeld s i.val .sch = false → y = ((queuesOf (sendDue (copyDone s i.val) i.val) i.val).filter fun e => e.2.ctx.kind == 1 && e.1 < 2 ^ 20).foldl (fun s e => (startGate s i.val e.1).1) (sendDue (copyDone s i.val) i.val) → readyCmds y i.val = [c] → standing y i.val c = .ends st r →
    Answers (.stationDispatch i) s fun t =>
      t = endCmdJob y i.val c.cmd st r) ∧
  (∀ (i : Inst) (j : W32) (c : Cmd) (s : State),
    s.Serves i.val → fnHeld s i.val .sch = false → s.cmd? i.val j.toNat = some c → c.dead = false → c.ask = none → c.st = .running ∨ c.st = .loaded → overQuota s c = true ∨ rivalFits s i.val j.toNat c = true → c.cls ≠ 2 → c.cls = 0 ∨ c.st = .loaded →
    Answers (.sliceEnd i j) s fun t =>
      t = askKill s i.val j.toNat .slice) ∧
  (∀ (i : Inst) (j : W32) (c : Cmd) (s : State),
    s.Serves i.val → fnHeld s i.val .sch = false → s.cmd? i.val j.toNat = some c → c.dead = false → c.ask = none → (c.cls = 2 ∧ (c.st = .running ∨ c.st = .loaded)) ∨ c.st = .committing → overQuota s c = true ∨ rivalFits s i.val j.toNat c = true →
    Answers (.sliceEnd i j) s fun t =>
      t = s.updCmd i.val j.toNat fun c => { c with stretch := if c.stretch.isSome then c.stretch else some (s.time i.val) }) ∧
  (∀ (i : Inst) (j : W32) (c : Cmd) (s : State),
    s.Serves i.val → fnHeld s i.val .sch = false → s.cmd? i.val j.toNat = some c → c.dead = false → c.ask = none → c.st = .running → c.cls = 1 → overQuota s c = true ∨ rivalFits s i.val j.toNat c = true →
    Answers (.sliceEnd i j) s fun t =>
      t = (askSave s i.val j.toNat .slice).getD s) ∧
  (∀ (i : Inst) (j : W32) (c : Cmd) (s : State),
    s.Serves i.val → fnHeld s i.val .sch = false → s.cmd? i.val j.toNat = some c → overQuota s c = false → rivalFits s i.val j.toNat c = false →
    Answers (.sliceEnd i j) s fun t =>
      t = s) ∧
  (∀ (i : Inst) (s : State),
    s.Serves i.val → fnHeld s i.val .sch = false → stuckLc s i.val = [] →
    Answers (.lcPreempt i) s fun t =>
      t = s) ∧
  (∀ (i : Inst) (c : Cand) (ks : List Nat) (r : List (Cand × List Nat)) (v : Victim) (x : Cmd) (s : State),
    s.Serves i.val → fnHeld s i.val .sch = false → stuckLc s i.val = (c, ks) :: r → ((s.sc i.val).cmds.filterMap (victimOf s i.val c ks)).foldl (fun b v => match b with | none => some v | some w => if v.before w then some v else some w) (none : Option Victim) = some v → (s.updCmd i.val v.job fun x => { x with chosen := true, victim := some c.cmd.src }).cmd? i.val v.job = some x → x.cls ≠ 1 ∨ x.st ≠ .running →
    Answers (.lcPreempt i) s fun t =>
      t = askKill (s.updCmd i.val v.job fun x => { x with chosen := true, victim := some c.cmd.src }) i.val v.job .preempt) ∧
  (∀ (i : Inst) (j : W32) (c : Cmd) (s : State),
    s.Serves i.val → fnHeld s i.val .sch = false → s.cmd? i.val j.toNat = some c → c.st ≠ .preempted →
    Answers (.preemptedResume i j) s fun t =>
      t = s) ∧
  (∀ (i : Inst) (j : W32) (c : Cmd) (q p : Nat) (plan : State × Cmd × List (Nat × Act)) (s : State),
    s.Serves i.val → fnHeld s i.val .sch = false → s.cmd? i.val j.toNat = some c → c.src = .run q p → c.st = .preempted → (s.q i.val q).conds.curtain = false → spilling s i.val { c with privs := c.privs.map fun v => { v with win := none } } = false → homeOf s i.val c.part = true → c.lc = true ∨ (stuckLc s i.val).any (fun e => e.1.cmd.part == c.part) = false → keptBack s i.val c = none → placeBest s i.val j.toNat { c with restore := true, chosen := false, victim := none } ((sitesFor s i.val c.part (siteMask s i.val c (posRaw s i.val q p))).filter fun k => covers s k c) = some plan →
    Answers (.preemptedResume i j) s fun t =>
      t = takePlan i.val j.toNat plan) ∧
  (∀ (i : Inst) (p : Part) (id : BitVec 12) (b : Barrier) (es now : List (Nat × Nat)) (w : Nat) (on : List Nat) (s : State),
    s.Serves i.val → fnHeld s i.val .sch = false → (s.sc i.val).barriers.find? (fun b => b.part == p.val && b.id == id.toNat && b.left.isSome) = some b → b.left = some es → w = max 1 (min b.wave (didtBudget s i.val)) → now = (es.take w).filter (fun e => b.jobs.contains e.1) → on = now.filterMap (fun e => (s.cmd? i.val e.1).map Cmd.site) → (s.sc i.val).started + now.length ≤ didtBudget s i.val → on.any (fun k => startsStopped s k || quota s k < startedEngines s k + (on.filter (· == k)).length) = false →
    Answers (.barrierWave i p id) s fun t =>
      let x := s.updSch i.val fun x => { x with barriers := x.barriers.map fun y => if y == b then { y with left := some (es.drop w), due := false } else y }
      let x := x.updSch i.val fun x => { x with started := x.started + now.length, barriers := if (es.drop w).isEmpty then x.barriers.filter fun y => !(y.part == p.val && y.id == id.toNat && y.left == some []) else x.barriers }
      t = (goRuns now).foldl (fun s r => match s.cmd? i.val r.1 with
        | some c => (sendFrame s c.site 5 [c.slot, 0, 0, r.1, fields [(0, r.2.1), (8, r.2.2)]]).updCmd i.val r.1 fun c => { c with st := if c.st == .loaded then .running else c.st, goNext := c.goNext + r.2.2 }
        | none => s) x) ∧
  (∀ (i : Inst) (p : Part) (id : BitVec 12) (b : Barrier) (es now : List (Nat × Nat)) (w : Nat) (on : List Nat) (s : State),
    s.Serves i.val → fnHeld s i.val .sch = false → (s.sc i.val).barriers.find? (fun b => b.part == p.val && b.id == id.toNat && b.left.isSome) = some b → b.left = some es → w = max 1 (min b.wave (didtBudget s i.val)) → now = (es.take w).filter (fun e => b.jobs.contains e.1) → on = now.filterMap (fun e => (s.cmd? i.val e.1).map Cmd.site) → didtBudget s i.val < (s.sc i.val).started + now.length ∨ on.any (fun k => startsStopped s k || quota s k < startedEngines s k + (on.filter (· == k)).length) = true →
    Answers (.barrierWave i p id) s fun t =>
      t = s.updSch i.val fun x => { x with barriers := x.barriers.map fun y => if y == b then { y with due := true } else y }) ∧
  (∀ (i : Inst) (p : Part) (id : BitVec 12) (b : Barrier) (s : State),
    s.Serves i.val → (s.sc i.val).barriers.find? (fun b => b.part == p.val && b.id == id.toNat && b.left.isNone) = some b →
    Answers (.barrierTimeout i p id) s fun t =>
      t = (b.jobs.foldl (fun s j => killMember s i.val j) (s.updSch i.val fun x => { x with barriers := x.barriers.filter (· != b) })).irq (schPage i.val 0) 19) ∧
  (∀ (i : Inst) (s : State),
    s.Serves i.val →
    Answers (.didtInterval i) s fun t =>
      let x := s.updSch i.val fun x => { x with started := 0 }
      let x := ((x.sc i.val).barriers.filter fun b => b.due).foldl (fun s b => barrierWave s i.val b.part b.id) x
      t = sendDue ((x.sc i.val).cmds.foldl (fun s e => pumpGo s i.val e.1) x) i.val)

/-- READ shows the record, host address and slot of a defined handle, zeros of another, with DONE (0x01). CLEAR_DAMAGE clears its damage.
DEFINE of an undefined handle other than 0, of 1 to 4,096 MiB in a partition at home here, puts it in WINGS where the wings have room
(WINGS_FULL 0x12 else), or in HOST where it is host-backed in a valid host window; other fields give BAD_FIELD (0x11), a defined handle
BAD_STATE (0x10). DELETE removes one in WINGS or HOST that nothing names; of a RESIDENT one the window is first revoked; one in use gives
IN_USE (0x13). EVICT of a RESIDENT handle that no command is bound to spills it to its slot if dirty and revokes its window; not RESIDENT
BAD_STATE, bound IN_USE. TO_HOST of a host-backed handle in WINGS makes it HOST without a slot, after a copy where its wings copy has
changed; not allowed BAD_STATE or IN_USE. A handle that is not defined gives BAD_STATE but for READ and DEFINE. While a command is in
progress another only sets cmd_refused (16). (R324, R325, R328, R344, R349) -/
def Obligations.DirectoryCommandsAct : Prop :=
  (∀ (i : Inst) (a : Acc) (d : Hnd) (s : State),
    s.Serves i.val → s.Free (schPage i.val 1) → s.fld (schR i.val 1 0x50) 0 1 = 0 → hnd? s i.val (s.fld (schR i.val 1 0x48) 0 16) = some d →
    Answers (.dirRead i a) s fun t =>
      let x := clearLatches s (schPage i.val 1)
      t = dirEnd (((x.setR (schR i.val 1 0x58) d.word).setR (schR i.val 1 0x60) d.hostDa).setR (schR i.val 1 0x68) (d.slot.getD 0)) i.val 0x01 false) ∧
  (∀ (i : Inst) (a : Acc) (d : Hnd) (s : State),
    s.Serves i.val → s.Free (schPage i.val 1) → s.fld (schR i.val 1 0x50) 0 1 = 0 → hnd? s i.val (s.fld (schR i.val 1 0x48) 0 16) = some d →
    Answers (.clearDamage i a) s fun t =>
      let x := clearLatches s (schPage i.val 1)
      let h := s.fld (schR i.val 1 0x48) 0 16
      t = dirEnd (updHnd x i.val h fun x => { x with damaged := false }) i.val 0x01 true) ∧
  (∀ (i : Inst) (a : Acc) (s : State),
    s.Serves i.val → s.Free (schPage i.val 1) → s.fld (schR i.val 1 0x50) 0 1 = 0 → hnd? s i.val (s.fld (schR i.val 1 0x48) 0 16) = none →
    Answers (.dirRead i a) s fun t =>
      let x := clearLatches s (schPage i.val 1)
      t = dirEnd (((x.setR (schR i.val 1 0x58) 0).setR (schR i.val 1 0x60) 0).setR (schR i.val 1 0x68) 0) i.val 0x01 false) ∧
  (∀ (i : Inst) (a : Acc) (s : State),
    s.Serves i.val → s.Free (schPage i.val 1) → s.fld (schR i.val 1 0x50) 0 1 = 0 → hnd? s i.val (s.fld (schR i.val 1 0x48) 0 16) = none →
    Answers (.clearDamage i a) s fun t =>
      let x := clearLatches s (schPage i.val 1)
      t = dirEnd x i.val 0x10 false) ∧
  (∀ (i : Inst) (a : Acc) (d : Hnd) (s : State),
    s.Serves i.val → s.Free (schPage i.val 1) → s.fld (schR i.val 1 0x50) 0 1 = 0 → hnd? s i.val (s.fld (schR i.val 1 0x48) 0 16) = some d →
    Answers (.define i a) s fun t =>
      let x := clearLatches s (schPage i.val 1)
      t = dirEnd x i.val 0x10 false) ∧
  (∀ (i : Inst) (a : Acc) (w : Nat) (s : State),
    s.Serves i.val → s.Free (schPage i.val 1) → s.fld (schR i.val 1 0x50) 0 1 = 0 → hnd? s i.val (s.fld (schR i.val 1 0x48) 0 16) = none → (s.fld (schR i.val 1 0x48) 0 16) ≠ 0 → homeOf s i.val (s.fld (schR i.val 1 0x58) 0 4) = true → 1 ≤ s.fld (schR i.val 1 0x58) 8 13 ∧ s.fld (schR i.val 1 0x58) 8 13 ≤ 4096 → bitAt (s.r (schR i.val 1 0x58)) 24 = false → wingsFree s i.val (s.fld (schR i.val 1 0x58) 0 4) (s.fld (schR i.val 1 0x58) 8 13) [] = some w →
    Answers (.define i a) s fun t =>
      let x := clearLatches s (schPage i.val 1)
      let h := s.fld (schR i.val 1 0x48) 0 16
      t = dirEnd ((x.updSch i.val fun c => { c with dir := Tbl.put c.dir h { part := s.fld (schR i.val 1 0x58) 0 4, size := s.fld (schR i.val 1 0x58) 8 13, host := false, hostDa := 0, st := 1, slot := some w } }).setR (schR i.val 1 0x68) w) i.val 0x01 true) ∧
  (∀ (i : Inst) (a : Acc) (s : State),
    s.Serves i.val → s.Free (schPage i.val 1) → s.fld (schR i.val 1 0x50) 0 1 = 0 → hnd? s i.val (s.fld (schR i.val 1 0x48) 0 16) = none → (s.fld (schR i.val 1 0x48) 0 16) = 0 ∨ homeOf s i.val (s.fld (schR i.val 1 0x58) 0 4) = false ∨ (s.fld (schR i.val 1 0x58) 8 13) = 0 ∨ 4096 < (s.fld (schR i.val 1 0x58) 8 13) ∨ (bitAt (s.r (schR i.val 1 0x58)) 24 = true ∧ inHostWin s i.val (s.fld (schR i.val 1 0x58) 0 4) (bits (s.r (schR i.val 1 0x60)) 6 46 * 64) ((s.fld (schR i.val 1 0x58) 8 13) * 2 ^ 20) = false) →
    Answers (.define i a) s fun t =>
      let x := clearLatches s (schPage i.val 1)
      t = dirEnd x i.val 0x11 false) ∧
  (∀ (i : Inst) (a : Acc) (s : State),
    s.Serves i.val → s.Free (schPage i.val 1) → s.fld (schR i.val 1 0x50) 0 1 = 0 → hnd? s i.val (s.fld (schR i.val 1 0x48) 0 16) = none → (s.fld (schR i.val 1 0x48) 0 16) ≠ 0 → homeOf s i.val (s.fld (schR i.val 1 0x58) 0 4) = true → 1 ≤ (s.fld (schR i.val 1 0x58) 8 13) ∧ (s.fld (schR i.val 1 0x58) 8 13) ≤ 4096 → bitAt (s.r (schR i.val 1 0x58)) 24 = false → wingsFree s i.val (s.fld (schR i.val 1 0x58) 0 4) (s.fld (schR i.val 1 0x58) 8 13) [] = none →
    Answers (.define i a) s fun t =>
      let x := clearLatches s (schPage i.val 1)
      t = dirEnd x i.val 0x12 false) ∧
  (∀ (i : Inst) (a : Acc) (s : State),
    s.Serves i.val → s.Free (schPage i.val 1) → s.fld (schR i.val 1 0x50) 0 1 = 0 → hnd? s i.val (s.fld (schR i.val 1 0x48) 0 16) = none → (s.fld (schR i.val 1 0x48) 0 16) ≠ 0 → homeOf s i.val (s.fld (schR i.val 1 0x58) 0 4) = true → 1 ≤ (s.fld (schR i.val 1 0x58) 8 13) ∧ (s.fld (schR i.val 1 0x58) 8 13) ≤ 4096 → bitAt (s.r (schR i.val 1 0x58)) 24 = true → inHostWin s i.val (s.fld (schR i.val 1 0x58) 0 4) (bits (s.r (schR i.val 1 0x60)) 6 46 * 64) ((s.fld (schR i.val 1 0x58) 8 13) * 2 ^ 20) = true →
    Answers (.define i a) s fun t =>
      let x := clearLatches s (schPage i.val 1)
      let h := s.fld (schR i.val 1 0x48) 0 16
      t = dirEnd (x.updSch i.val fun c => { c with dir := Tbl.put c.dir h { part := (s.fld (schR i.val 1 0x58) 0 4), size := (s.fld (schR i.val 1 0x58) 8 13), host := true, hostDa := (bits (s.r (schR i.val 1 0x60)) 6 46 * 64), st := 2 } }) i.val 0x01 true) ∧
  (∀ (i : Inst) (a : Acc) (s : State),
    s.Serves i.val → s.Free (schPage i.val 1) → s.fld (schR i.val 1 0x50) 0 1 = 0 → hnd? s i.val (s.fld (schR i.val 1 0x48) 0 16) = none →
    Answers (.delete i a) s fun t =>
      let x := clearLatches s (schPage i.val 1)
      t = dirEnd x i.val 0x10 false) ∧
  (∀ (i : Inst) (a : Acc) (d : Hnd) (s : State),
    s.Serves i.val → s.Free (schPage i.val 1) → s.fld (schR i.val 1 0x50) 0 1 = 0 → hnd? s i.val (s.fld (schR i.val 1 0x48) 0 16) = some d → named s i.val (s.fld (schR i.val 1 0x48) 0 16) = false → d.st = 3 →
    Answers (.delete i a) s fun t =>
      let x := clearLatches s (schPage i.val 1)
      let h := s.fld (schR i.val 1 0x48) 0 16
      t = dirTask (leaveWin (updHnd x i.val h fun x => { x with st := 4 }) d.site d.win) i.val 2 h [(d.site, .revoke d.win h)]) ∧
  (∀ (i : Inst) (a : Acc) (d : Hnd) (s : State),
    s.Serves i.val → s.Free (schPage i.val 1) → s.fld (schR i.val 1 0x50) 0 1 = 0 → hnd? s i.val (s.fld (schR i.val 1 0x48) 0 16) = some d → named s i.val (s.fld (schR i.val 1 0x48) 0 16) = true ∨ d.st = 4 →
    Answers (.delete i a) s fun t =>
      let x := clearLatches s (schPage i.val 1)
      t = dirEnd x i.val 0x13 false) ∧
  (∀ (i : Inst) (a : Acc) (d : Hnd) (s : State),
    s.Serves i.val → s.Free (schPage i.val 1) → s.fld (schR i.val 1 0x50) 0 1 = 0 → hnd? s i.val (s.fld (schR i.val 1 0x48) 0 16) = some d → named s i.val (s.fld (schR i.val 1 0x48) 0 16) = false → d.st = 1 ∨ d.st = 2 →
    Answers (.delete i a) s fun t =>
      let x := clearLatches s (schPage i.val 1)
      let h := s.fld (schR i.val 1 0x48) 0 16
      t = dirEnd (x.updSch i.val fun x => { x with dir := Tbl.del x.dir h }) i.val 0x01 true) ∧
  (∀ (i : Inst) (a : Acc) (d : Hnd) (s : State),
    s.Serves i.val → s.Free (schPage i.val 1) → s.fld (schR i.val 1 0x50) 0 1 = 0 → hnd? s i.val (s.fld (schR i.val 1 0x48) 0 16) = some d → d.st ≠ 3 →
    Answers (.evict i a) s fun t =>
      let x := clearLatches s (schPage i.val 1)
      t = dirEnd x i.val 0x10 false) ∧
  (∀ (i : Inst) (a : Acc) (d : Hnd) (s : State),
    s.Serves i.val → s.Free (schPage i.val 1) → s.fld (schR i.val 1 0x50) 0 1 = 0 → hnd? s i.val (s.fld (schR i.val 1 0x48) 0 16) = some d → d.st = 3 → bound s i.val (s.fld (schR i.val 1 0x48) 0 16) = true →
    Answers (.evict i a) s fun t =>
      let x := clearLatches s (schPage i.val 1)
      t = dirEnd x i.val 0x13 false) ∧
  (∀ (i : Inst) (a : Acc) (d : Hnd) (w : Nat) (s : State),
    s.Serves i.val → s.Free (schPage i.val 1) → s.fld (schR i.val 1 0x50) 0 1 = 0 → hnd? s i.val (s.fld (schR i.val 1 0x48) 0 16) = some d → d.st = 3 → bound s i.val (s.fld (schR i.val 1 0x48) 0 16) = false → d.dirty = true → d.slot = some w →
    Answers (.evict i a) s fun t =>
      let x := clearLatches s (schPage i.val 1)
      let h := s.fld (schR i.val 1 0x48) 0 16
      t = dirTask (leaveWin (updHnd x i.val h fun x => { x with st := 4 }) d.site d.win) i.val 4 h [(d.site, .spill d.win w h d.size (4096 * d.part)), (d.site, .revoke d.win h)]) ∧
  (∀ (i : Inst) (a : Acc) (d : Hnd) (s : State),
    s.Serves i.val → s.Free (schPage i.val 1) → s.fld (schR i.val 1 0x50) 0 1 = 0 → hnd? s i.val (s.fld (schR i.val 1 0x48) 0 16) = some d → d.st = 3 → bound s i.val (s.fld (schR i.val 1 0x48) 0 16) = false → d.dirty = false →
    Answers (.evict i a) s fun t =>
      let x := clearLatches s (schPage i.val 1)
      let h := s.fld (schR i.val 1 0x48) 0 16
      t = dirTask (leaveWin (updHnd x i.val h fun x => { x with st := 4 }) d.site d.win) i.val 4 h [(d.site, .revoke d.win h)]) ∧
  (∀ (i : Inst) (a : Acc) (d : Hnd) (s : State),
    s.Serves i.val → s.Free (schPage i.val 1) → s.fld (schR i.val 1 0x50) 0 1 = 0 → hnd? s i.val (s.fld (schR i.val 1 0x48) 0 16) = some d → d.host = false ∨ spillOk s i.val = false →
    Answers (.toHost i a) s fun t =>
      let x := clearLatches s (schPage i.val 1)
      t = dirEnd x i.val 0x10 false) ∧
  (∀ (i : Inst) (a : Acc) (d : Hnd) (s : State),
    s.Serves i.val → s.Free (schPage i.val 1) → s.fld (schR i.val 1 0x50) 0 1 = 0 → hnd? s i.val (s.fld (schR i.val 1 0x48) 0 16) = some d → d.host = true → spillOk s i.val = true → bound s i.val (s.fld (schR i.val 1 0x48) 0 16) = true ∨ d.st = 4 →
    Answers (.toHost i a) s fun t =>
      let x := clearLatches s (schPage i.val 1)
      t = dirEnd x i.val 0x13 false) ∧
  (∀ (i : Inst) (a : Acc) (d : Hnd) (s : State),
    s.Serves i.val → s.Free (schPage i.val 1) → s.fld (schR i.val 1 0x50) 0 1 = 0 → hnd? s i.val (s.fld (schR i.val 1 0x48) 0 16) = some d → d.host = true → spillOk s i.val = true → bound s i.val (s.fld (schR i.val 1 0x48) 0 16) = false → d.st = 1 → d.changed = true →
    Answers (.toHost i a) s fun t =>
      let x := clearLatches s (schPage i.val 1)
      let h := s.fld (schR i.val 1 0x48) 0 16
      t = dirTask (updHnd x i.val h fun x => { x with st := 4 }) i.val 5 h [(0, .copy h (d.slot.getD 0) true)]) ∧
  (∀ (i : Inst) (a : Acc) (d : Hnd) (s : State),
    s.Serves i.val → s.Free (schPage i.val 1) → s.fld (schR i.val 1 0x50) 0 1 = 0 → hnd? s i.val (s.fld (schR i.val 1 0x48) 0 16) = some d → d.host = true → spillOk s i.val = true → bound s i.val (s.fld (schR i.val 1 0x48) 0 16) = false → d.st = 1 → d.changed = false →
    Answers (.toHost i a) s fun t =>
      let x := clearLatches s (schPage i.val 1)
      let h := s.fld (schR i.val 1 0x48) 0 16
      t = dirEnd (updHnd x i.val h fun x => { x with st := 2, slot := none }) i.val 0x01 true) ∧
  (∀ (i : Inst) (a : Acc) (s : State),
    s.Serves i.val → s.Free (schPage i.val 1) → s.fld (schR i.val 1 0x50) 0 1 = 1 →
    Answers (.evict i a) s fun t =>
      t = { (clearLatches s (schPage i.val 1)).perr (schPage i.val 1) 16 with wlatch := s.wlatch })

/-- CREATE of a partition that exists gives BAD_STATE (0x10); with no site, no size or a misaligned or too large range BAD_FIELD (0x11); with
a site in a partition or not UP SITE_BUSY (0x12); with sites of several kinds SITE_KIND (0x13); else the partition stands with its sites
and wings, every site of the other owner moves, and the command ends when none moves. READ shows the sites, home and existence of the
selected partition. DESTROY of one that does not exist gives BAD_STATE, of one of the other instance cmd_refused; of one of this instance
it sets busy, takes back the commands that have not started, sends PURGE to each of its sites whose link works, and goes on when all have
answered. While a command is in progress another only sets cmd_refused. SITE_OWNER_CHANGE takes effect once no frame waits toward the old
owner: the steering bit moves, a CREATE that waits for it goes on, and a site that the other instance takes is its own. (R30, R31, R316,
R317, R319, R348) -/
def Obligations.PartitionCommandsAct : Prop :=
  (∀ (i : Inst) (a : Acc) (s : State),
    s.Serves i.val → s.Free (schPage i.val 0) → s.fld (schR i.val 0 0x48) 0 1 = 0 → (partHome s (s.fld (schR i.val 0 0x40) 0 4)).isSome = true →
    Answers (.create i a) s fun t =>
      let x := clearLatches s (schPage i.val 0)
      t = partEnd x i.val 0x10 false) ∧
  (∀ (i : Inst) (a : Acc) (s : State),
    s.Serves i.val → s.Free (schPage i.val 0) → s.fld (schR i.val 0 0x48) 0 1 = 0 → partHome s (s.fld (schR i.val 0 0x40) 0 4) = none → s.fld (schR i.val 0 0x4C) 0 12 = 0 →
    Answers (.create i a) s fun t =>
      let x := clearLatches s (schPage i.val 0)
      t = partEnd x i.val 0x11 false) ∧
  (∀ (i : Inst) (a : Acc) (s : State),
    s.Serves i.val → s.Free (schPage i.val 0) → s.fld (schR i.val 0 0x48) 0 1 = 0 → partHome s (s.fld (schR i.val 0 0x40) 0 4) = none → s.fld (schR i.val 0 0x4C) 0 12 ≠ 0 → s.fld (schR i.val 0 0x58) 0 16 ≠ 0 → aligned (s.r (schR i.val 0 0x50)) (2 ^ 26) = true → s.r (schR i.val 0 0x50) + s.fld (schR i.val 0 0x58) 0 16 * 2 ^ 26 ≤ 2 ^ 50 → (onesOf (s.fld (schR i.val 0 0x4C) 0 12) 12).any (fun k => (partAt s k).isSome || (s.site k).st != .up) = false → ((onesOf (s.fld (schR i.val 0 0x4C) 0 12) 12).map (siteKind s)).eraseDups.length = 1 →
    Answers (.create i a) s fun t =>
      let x := clearLatches s (schPage i.val 0)
      let p := s.fld (schR i.val 0 0x40) 0 4
      let y := x.updSch i.val fun y => { y with parts := Tbl.put y.parts p { sites := s.fld (schR i.val 0 0x4C) 0 12, wbase := s.r (schR i.val 0 0x50), wsize := s.fld (schR i.val 0 0x58) 0 16 } }
      let z := (onesOf (s.fld (schR i.val 0 0x4C) 0 12) 12).foldl (fun s k => if owner s k != i.val then s.updSite k fun x => { x with moving := true } else s) y
      t = createEnd z i.val p) ∧
  (∀ (i : Inst) (a : Acc) (s : State),
    s.Serves i.val → s.Free (schPage i.val 0) → s.fld (schR i.val 0 0x48) 0 1 = 0 → partHome s (s.fld (schR i.val 0 0x40) 0 4) = none → s.fld (schR i.val 0 0x4C) 0 12 ≠ 0 → s.fld (schR i.val 0 0x58) 0 16 ≠ 0 → aligned (s.r (schR i.val 0 0x50)) (2 ^ 26) = true → s.r (schR i.val 0 0x50) + s.fld (schR i.val 0 0x58) 0 16 * 2 ^ 26 ≤ 2 ^ 50 → (onesOf (s.fld (schR i.val 0 0x4C) 0 12) 12).any (fun k => (partAt s k).isSome || (s.site k).st != .up) = true →
    Answers (.create i a) s fun t =>
      let x := clearLatches s (schPage i.val 0)
      t = partEnd x i.val 0x12 false) ∧
  (∀ (i : Inst) (a : Acc) (s : State),
    s.Serves i.val → s.Free (schPage i.val 0) → s.fld (schR i.val 0 0x48) 0 1 = 0 → partHome s (s.fld (schR i.val 0 0x40) 0 4) = none → s.fld (schR i.val 0 0x4C) 0 12 ≠ 0 → s.fld (schR i.val 0 0x58) 0 16 ≠ 0 → aligned (s.r (schR i.val 0 0x50)) (2 ^ 26) = true → s.r (schR i.val 0 0x50) + s.fld (schR i.val 0 0x58) 0 16 * 2 ^ 26 ≤ 2 ^ 50 → (onesOf (s.fld (schR i.val 0 0x4C) 0 12) 12).any (fun k => (partAt s k).isSome || (s.site k).st != .up) = false → ((onesOf (s.fld (schR i.val 0 0x4C) 0 12) 12).map (siteKind s)).eraseDups.length ≠ 1 →
    Answers (.create i a) s fun t =>
      let x := clearLatches s (schPage i.val 0)
      t = partEnd x i.val 0x13 false) ∧
  (∀ (i : Inst) (a : Acc) (s : State),
    s.Serves i.val → s.Free (schPage i.val 0) → s.fld (schR i.val 0 0x48) 0 1 = 0 → partHome s (s.fld (schR i.val 0 0x40) 0 4) = none →
    Answers (.partRead i a) s fun t =>
      let x := clearLatches s (schPage i.val 0)
      t = ((x.setR (schR i.val 0 0x4C) 0).setR (schR i.val 0 0x48) 0x100).irq (schPage i.val 0) 16) ∧
  (∀ (i : Inst) (a : Acc) (s : State),
    s.Serves i.val → s.Free (schPage i.val 0) → s.fld (schR i.val 0 0x48) 0 1 = 0 → part? s i.val (s.fld (schR i.val 0 0x40) 0 4) = none → (partHome s (s.fld (schR i.val 0 0x40) 0 4)).isSome = true →
    Answers (.destroy i a) s fun t =>
      let x := clearLatches s (schPage i.val 0)
      t = { x.perr (schPage i.val 0) 16 with wlatch := s.wlatch }) ∧
  (∀ (i : Inst) (a : Acc) (s : State),
    s.Serves i.val → s.Free (schPage i.val 0) → s.fld (schR i.val 0 0x48) 0 1 = 1 →
    Answers (.create i a) s fun t =>
      t = { (clearLatches s (schPage i.val 0)).perr (schPage i.val 0) 16 with wlatch := s.wlatch }) ∧
  (∀ (i : Inst) (a : Acc) (h : Nat) (r : PartRec) (s : State),
    s.Serves i.val → s.Free (schPage i.val 0) → s.fld (schR i.val 0 0x48) 0 1 = 0 → partHome s (s.fld (schR i.val 0 0x40) 0 4) = some h → part? s h (s.fld (schR i.val 0 0x40) 0 4) = some r →
    Answers (.partRead i a) s fun t =>
      let x := clearLatches s (schPage i.val 0)
      t = (((x.setR (schR i.val 0 0x4C) r.sites).setR (schR i.val 0 0x48) (fields [(8, 1), (16, h), (17, 1)])).irq (schPage i.val 0) 16)) ∧
  (∀ (i : Inst) (a : Acc) (s : State),
    s.Serves i.val → s.Free (schPage i.val 0) → s.fld (schR i.val 0 0x48) 0 1 = 0 → partHome s (s.fld (schR i.val 0 0x40) 0 4) = none →
    Answers (.destroy i a) s fun t =>
      let x := clearLatches s (schPage i.val 0)
      t = partEnd x i.val 0x10 false) ∧
  (∀ (i : Inst) (a : Acc) (r : PartRec) (s : State),
    s.Serves i.val → s.Free (schPage i.val 0) → s.fld (schR i.val 0 0x48) 0 1 = 0 → part? s i.val (s.fld (schR i.val 0 0x40) 0 4) = some r →
    Answers (.destroy i a) s fun t =>
      let x := clearLatches s (schPage i.val 0)
      let p := s.fld (schR i.val 0 0x40) 0 4
      let ks := (onesOf r.sites 12).filter (linkOk s)
      let y := x.updSch i.val fun z => { z with parts := Tbl.put z.parts p { r with dying := some ks } }
      let y := ((y.sc i.val).cmds.filter fun e => e.2.part == p && (e.2.st == .placing || e.2.st == .due)).foldl (fun s e => unplace s i.val e.1) y
      let y := ks.foldl (fun s k => if (s.site k).purge.isSome then s else (sendFrame s k 10 [0, p, 0, 0, 0]).updSite k fun x => { x with purge := some p }) y
      t = settleDestroy (y.setR (schR i.val 0 0x48) 1)) ∧
  (∀ (k : Site) (s : State),
    s.Up → (s.site k.val).txq = [] → (s.site k.val).taking = none → (s.site k.val).moving = true →
    Answers (.siteOwnerChange k) s fun t =>
      let x := s.updSite k.val fun x => { x with moving := false, swapped := !x.swapped }
      let x := x.emit (.steer k.val (owner x k.val))
      t = match partAt x k.val with
        | some (i, p) => if x.fld (schR i 0 0x48) 0 1 = 1 then createEnd x i p else x
        | none => x) ∧
  (∀ (k : Site) (u : Nat) (s : State),
    s.Up → (s.site k.val).txq = [] → (s.site k.val).taking = some u →
    Answers (.siteOwnerChange k) s fun t =>
      t = siteMoves s u k.val) ∧
  (∀ (k : Site) (s : State),
    s.Up → (s.site k.val).txq ≠ [] →
    Answers (.siteOwnerChange k) s fun t =>
      t = s)

/-- With the page unbound and no command in progress: ENABLE of an OFF ensemble at home here with good fields makes it ON with step number 0,
bad fields give BAD_FIELD (0x11), another state or home BAD_STATE (0x10); DISABLE of one that is ON or FAULTED makes it OFF when no step
is in flight and STOPPING otherwise, BAD_STATE else; while a command is in progress another sets cmd_refused. A cancel that names no
sequence of this instance gives NOT_FOUND (0x10), one that names a sequence in no step ends it with CANCELLED (16), one in a step marks
it. CREATE of a pool makes it from the KVA registers (exists or not at home BAD_STATE, bad fields BAD_FIELD), DESTROY of a pool that
nothing holds or names deletes it (IN_USE 0x13 else, none BAD_STATE), READ shows its parameters. The rest acts while no commit holds the
page. SEQUENCE_INTAKE takes the first unstarted position of a serving queue that no hold keeps back into the lowest free entry; without
one it only notes what the start gate does. STEP_COMPOSE for an idle lane of an ensemble that is ON: with no entry nothing is sent;
otherwise the next step number, its block-table entries and its batch written with the context tag and class of its command, and its
entries and command held in the lane; a failed batch or table write makes the ensemble FAULTED and reports a UCE-C. A lane that is in use,
or an ensemble not ON, composes nothing. (R351, R353, R354, R357, R358, R359, R364, R368, R370, R372, R373) -/
def Obligations.EnsembleCommandsAct : Prop :=
  (∀ (i : Inst) (a : Acc) (s : State),
    s.Serves i.val → s.Free (ensPage i.val) → s.fld (ensR i.val 0x48) 0 1 = 0 → homeOf s i.val (s.fld (ensR i.val 0x40) 0 4) = true → (s.ensemble i.val (s.fld (ensR i.val 0x40) 0 4)).st = 0 → enableBad s i.val (s.fld (ensR i.val 0x40) 0 4) = false →
    Answers (.enable i a) s fun t =>
      let x := clearLatches s (ensPage i.val)
      t = ensEnd (x.updEnsemble i.val (s.fld (ensR i.val 0x40) 0 4) fun e => { e with st := 1, num := 0 }) i.val 0x01 true) ∧
  (∀ (i : Inst) (a : Acc) (s : State),
    s.Serves i.val → s.Free (ensPage i.val) → s.fld (ensR i.val 0x48) 0 1 = 0 → homeOf s i.val (s.fld (ensR i.val 0x40) 0 4) = false ∨ (s.ensemble i.val (s.fld (ensR i.val 0x40) 0 4)).st ≠ 0 →
    Answers (.enable i a) s fun t =>
      let x := clearLatches s (ensPage i.val)
      t = ensEnd x i.val 0x10 false) ∧
  (∀ (i : Inst) (a : Acc) (s : State),
    s.Serves i.val → s.Free (ensPage i.val) → s.fld (ensR i.val 0x48) 0 1 = 0 → homeOf s i.val (s.fld (ensR i.val 0x40) 0 4) = true → (s.ensemble i.val (s.fld (ensR i.val 0x40) 0 4)).st = 0 → enableBad s i.val (s.fld (ensR i.val 0x40) 0 4) = true →
    Answers (.enable i a) s fun t =>
      let x := clearLatches s (ensPage i.val)
      t = ensEnd x i.val 0x11 false) ∧
  (∀ (i : Inst) (a : Acc) (s : State),
    s.Serves i.val → s.Free (ensPage i.val) → s.fld (ensR i.val 0x48) 0 1 = 0 → (s.ensemble i.val (s.fld (ensR i.val 0x40) 0 4)).st = 0 ∨ (s.ensemble i.val (s.fld (ensR i.val 0x40) 0 4)).st = 2 →
    Answers (.disable i a) s fun t =>
      let x := clearLatches s (ensPage i.val)
      t = ensEnd x i.val 0x10 false) ∧
  (∀ (i : Inst) (a : Acc) (s : State),
    s.Serves i.val → s.Free (ensPage i.val) → s.fld (ensR i.val 0x48) 0 1 = 1 →
    Answers (.disable i a) s fun t =>
      t = { (clearLatches s (ensPage i.val)).perr (ensPage i.val) 16 with wlatch := s.wlatch }) ∧
  (∀ (i : Inst) (a : Acc) (s : State),
    s.Serves i.val → s.Free (ensPage i.val) → s.fld (ensR i.val 0x48) 0 1 = 0 → (s.ensemble i.val (s.fld (ensR i.val 0x40) 0 4)).st = 1 ∨ (s.ensemble i.val (s.fld (ensR i.val 0x40) 0 4)).st = 3 → (s.ensemble i.val (s.fld (ensR i.val 0x40) 0 4)).lanes = [] →
    Answers (.disable i a) s fun t =>
      let x := clearLatches s (ensPage i.val)
      t = ensEnd (x.updEnsemble i.val (s.fld (ensR i.val 0x40) 0 4) fun e => { e with st := 0 }) i.val 0x01 true) ∧
  (∀ (i : Inst) (a : Acc) (s : State),
    s.Serves i.val → s.Free (ensPage i.val) → s.fld (ensR i.val 0x48) 0 1 = 0 → (s.ensemble i.val (s.fld (ensR i.val 0x40) 0 4)).st = 1 ∨ (s.ensemble i.val (s.fld (ensR i.val 0x40) 0 4)).st = 3 → (s.ensemble i.val (s.fld (ensR i.val 0x40) 0 4)).lanes ≠ [] →
    Answers (.disable i a) s fun t =>
      let x := clearLatches s (ensPage i.val)
      t = ((x.updEnsemble i.val (s.fld (ensR i.val 0x40) 0 4) fun e => { e with st := 2 }).updEns i.val fun e => { e with disabling := some (s.fld (ensR i.val 0x40) 0 4) }).setFld (ensR i.val 0x48) 0 16 1) ∧
  (∀ (i : Inst) (a : Acc) (h : Half) (v : Nat) (x s : State),
    s.Serves i.val → fnHeld s i.val .ens = false → s.Free (ensPage i.val) → takeHalf s (ensPage i.val) 0x58 h = (x, some (some v)) → (x.en i.val).seqs.find? (fun e => e.2.q == bits v 0 20 && e.2.pos == bits v 32 24 && e.2.late != some 6) = none ∨ bits v 20 1 ≠ i.val →
    Answers (.ensCancel i a h) s fun t =>
      t = x.setR (ensR i.val 0x60) 0x10) ∧
  (∀ (i : Inst) (a : Acc) (h : Half) (x s : State),
    s.Serves i.val → fnHeld s i.val .ens = false → s.Free (ensPage i.val) → takeHalf s (ensPage i.val) 0x58 h = (x, none) →
    Answers (.ensCancel i a h) s fun t =>
      t = x) ∧
  (∀ (i : Inst) (a : Acc) (h : Half) (v n : Nat) (e : SeqRec) (x s : State),
    s.Serves i.val → fnHeld s i.val .ens = false → s.Free (ensPage i.val) → takeHalf s (ensPage i.val) 0x58 h = (x, some (some v)) → (x.en i.val).seqs.find? (fun e => e.2.q == bits v 0 20 && e.2.pos == bits v 32 24 && e.2.late != some 6) = some (n, e) → bits v 20 1 = i.val → e.lane = none →
    Answers (.ensCancel i a h) s fun t =>
      t = seqEnd (x.setR (ensR i.val 0x60) 0x01) i.val n 16 (seqResult e false)) ∧
  (∀ (i : Inst) (a : Acc) (h : Half) (v n : Nat) (e : SeqRec) (x s : State),
    s.Serves i.val → fnHeld s i.val .ens = false → s.Free (ensPage i.val) → takeHalf s (ensPage i.val) 0x58 h = (x, some (some v)) → (x.en i.val).seqs.find? (fun e => e.2.q == bits v 0 20 && e.2.pos == bits v 32 24 && e.2.late != some 6) = some (n, e) → bits v 20 1 = i.val → e.lane.isSome = true →
    Answers (.ensCancel i a h) s fun t =>
      t = updSeq (x.setR (ensR i.val 0x60) 0x01) i.val n fun e => { e with late := some 16 }) ∧
  (∀ (i : Inst) (a : Acc) (s : State),
    s.Serves i.val → s.Free (kvaPage i.val) → s.fld (kvaR i.val 0x48) 0 1 = 0 → pool? s i.val (s.fld (kvaR i.val 0x40) 0 4) = none → homeOf s i.val (poolRegs s i.val).part = true → (poolRegs s i.val).bad = false →
    Answers (.poolCreate i a) s fun t =>
      let x := clearLatches s (kvaPage i.val)
      t = poolEnd (x.updEns i.val fun e => { e with pools := Tbl.put e.pools (s.fld (kvaR i.val 0x40) 0 4) (poolRegs s i.val) }) i.val 0x01 true) ∧
  (∀ (i : Inst) (a : Acc) (s : State),
    s.Serves i.val → s.Free (kvaPage i.val) → s.fld (kvaR i.val 0x48) 0 1 = 0 → (pool? s i.val (s.fld (kvaR i.val 0x40) 0 4)).isSome = true ∨ homeOf s i.val (poolRegs s i.val).part = false →
    Answers (.poolCreate i a) s fun t =>
      let x := clearLatches s (kvaPage i.val)
      t = poolEnd x i.val 0x10 false) ∧
  (∀ (i : Inst) (a : Acc) (s : State),
    s.Serves i.val → s.Free (kvaPage i.val) → s.fld (kvaR i.val 0x48) 0 1 = 0 → pool? s i.val (s.fld (kvaR i.val 0x40) 0 4) = none → homeOf s i.val (poolRegs s i.val).part = true → (poolRegs s i.val).bad = true →
    Answers (.poolCreate i a) s fun t =>
      let x := clearLatches s (kvaPage i.val)
      t = poolEnd x i.val 0x11 false) ∧
  (∀ (i : Inst) (a : Acc) (k : PoolRec) (s : State),
    s.Serves i.val → s.Free (kvaPage i.val) → s.fld (kvaR i.val 0x48) 0 1 = 0 → pool? s i.val (s.fld (kvaR i.val 0x40) 0 4) = some k → (s.en i.val).seqs.any (fun e => e.2.pool == (s.fld (kvaR i.val 0x40) 0 4) && !e.2.blocks.isEmpty) = true ∨ (s.en i.val).recs.any (fun e => e.2.st != 0 && poolNo s i.val e.1 == (s.fld (kvaR i.val 0x40) 0 4)) = true →
    Answers (.poolDestroy i a) s fun t =>
      let x := clearLatches s (kvaPage i.val)
      t = poolEnd x i.val 0x13 false) ∧
  (∀ (i : Inst) (a : Acc) (k : PoolRec) (s : State),
    s.Serves i.val → s.Free (kvaPage i.val) → s.fld (kvaR i.val 0x48) 0 1 = 0 → pool? s i.val (s.fld (kvaR i.val 0x40) 0 4) = some k → (s.en i.val).seqs.any (fun e => e.2.pool == (s.fld (kvaR i.val 0x40) 0 4) && !e.2.blocks.isEmpty) = false → (s.en i.val).recs.any (fun e => e.2.st != 0 && poolNo s i.val e.1 == (s.fld (kvaR i.val 0x40) 0 4)) = false →
    Answers (.poolDestroy i a) s fun t =>
      let x := clearLatches s (kvaPage i.val)
      t = poolEnd (x.updEns i.val fun e => { e with pools := Tbl.del e.pools (s.fld (kvaR i.val 0x40) 0 4) }) i.val 0x01 true) ∧
  (∀ (i : Inst) (a : Acc) (s : State),
    s.Serves i.val → s.Free (kvaPage i.val) → s.fld (kvaR i.val 0x48) 0 1 = 0 → pool? s i.val (s.fld (kvaR i.val 0x40) 0 4) = none →
    Answers (.poolDestroy i a) s fun t =>
      let x := clearLatches s (kvaPage i.val)
      t = poolEnd x i.val 0x10 false) ∧
  (∀ (i : Inst) (a : Acc) (k : PoolRec) (s : State),
    s.Serves i.val → s.Free (kvaPage i.val) → s.fld (kvaR i.val 0x48) 0 1 = 0 → pool? s i.val (s.fld (kvaR i.val 0x40) 0 4) = some k →
    Answers (.poolRead i a) s fun t =>
      let x := clearLatches s (kvaPage i.val)
      let y := (x.setR (kvaR i.val 0x50) k.base).setR (kvaR i.val 0x58) (fields [(0, k.log2), (8, k.part), (16, k.btoks)])
      let y := (y.setR (kvaR i.val 0x5C) k.blocks).setR (kvaR i.val 0x60) k.btDa
      t = poolEnd ((y.setR (kvaR i.val 0x68) (fields [(0, k.btLog2), (8, k.tabLog2)])).setR (kvaR i.val 0x6C) k.reserve) i.val 0x01 false) ∧
  (∀ (i : Inst) (q : Qidx) (p : Pos) (d : DescSt) (n : Nat) (x s : State),
    s.Serves i.val → fnHeld s i.val .ens = false → startGate s i.val q.toNat = (x, some (p, d)) → (x.q i.val q.toNat).ctx.kind = 2 → d.ph = .ready → opcodeOf d.raw = 0x40 → (x.ensemble i.val (x.q i.val q.toNat).part).st = 1 → seqHeld x i.val q.toNat d.raw = [] → letFirst x i.val (.desc q.toNat p.pos 0) = false → Tbl.freshFrom (x.en i.val).seqs 65536 0 = some n →
    Answers (.sequenceIntake i q) s fun t =>
      let r : SeqRec := { part := (x.q i.val q.toNat).part, q := q.toNat, pos := p.pos, prompt := df d.raw 8 0 52, ptoks := df d.raw 0x10 0 24, maxNew := df d.raw 0x10 24 24, out := df d.raw 0x18 0 52, params := df d.raw 0x20 0 52, user := df d.raw 0 32 32, lc := (x.q i.val q.toNat).ctx.cls == 1, intake := (x.en i.val).order }
      let y := x.updEns i.val fun e => { e with seqs := Tbl.put e.seqs n r, order := (x.en i.val).order + 1 }
      t = y.updQ i.val q.toNat fun z => z.updPos p.pos fun w => { w with ph := .started, port := pickPort y (x.q i.val q.toNat).ctx.group (carrier y i.val) }) ∧
  (∀ (i : Inst) (q : Qidx) (x s : State),
    s.Serves i.val → fnHeld s i.val .ens = false → startGate s i.val q.toNat = (x, none) →
    Answers (.sequenceIntake i q) s fun t =>
      t = x) ∧
  (∀ (i : Inst) (p : Part) (lane : Fin 12) (st : Rsp) (k : PoolRec) (s : State),
    s.Serves i.val → (s.ensemble i.val p.val).st = 1 → lane.val < ensF s i.val p.val 0x400 8 4 → Tbl.has (s.ensemble i.val p.val).lanes lane.val = false → homeOf s i.val p.val = true → fnHeld s i.val .ens = false → pool? s i.val (poolNo s i.val p.val) = some k → (composed s i.val p.val).ents = [] →
    Answers (.stepCompose i p lane st) s fun t =>
      t = (composed s i.val p.val).s) ∧
  (∀ (i : Inst) (p : Part) (lane : Fin 12) (k : PoolRec) (s : State),
    s.Serves i.val → (s.ensemble i.val p.val).st = 1 → lane.val < ensF s i.val p.val 0x400 8 4 → Tbl.has (s.ensemble i.val p.val).lanes lane.val = false → homeOf s i.val p.val = true → fnHeld s i.val .ens = false → pool? s i.val (poolNo s i.val p.val) = some k → (composed s i.val p.val).ents ≠ [] →
    Answers (.stepCompose i p lane .ok) s fun t =>
      let c := composed s i.val p.val
      let num := (s.ensemble i.val p.val).num + 1
      let lc := c.ents.any fun e => ((seq? c.s i.val e.seq).map SeqRec.lc).getD false
      let cmd := stepCmd c.s i.val p.val lane.val lc
      let x := c.tabs.foldl (fun s e => s.emit (.bulk 1 e.1 (cmd.tag :: b2n lc :: e.2))) c.s
      let x := x.emit (.bulk 3 cmd.args (cmd.tag :: b2n lc :: batchWords x i.val p.val lane.val num k c.ents c.t))
      t = (c.ents.foldl (fun s e => updSeq s i.val e.seq fun q => { q with lane := some lane.val, lastStep := num }) x).updEnsemble i.val p.val fun e =>
        { e with num, lanes := Tbl.put e.lanes lane.val { num, ents := c.ents, lc, cmd } }) ∧
  (∀ (i : Inst) (p : Part) (lane : Fin 12) (st : Rsp) (k : PoolRec) (s : State),
    s.Serves i.val → (s.ensemble i.val p.val).st = 1 → lane.val < ensF s i.val p.val 0x400 8 4 → Tbl.has (s.ensemble i.val p.val).lanes lane.val = false → homeOf s i.val p.val = true → fnHeld s i.val .ens = false → pool? s i.val (poolNo s i.val p.val) = some k → (composed s i.val p.val).ents ≠ [] → st ≠ .ok →
    Answers (.stepCompose i p lane st) s fun t =>
      t = contained ((s.updEnsemble i.val p.val fun e => { e with st := 3 }).irq (ensPage i.val) 17) i.val 3 0 p.val) ∧
  (∀ (i : Inst) (p : Part) (lane : Fin 12) (st : Rsp) (s : State),
    s.Serves i.val → (s.ensemble i.val p.val).st ≠ 1 ∨ ensF s i.val p.val 0x400 8 4 ≤ lane.val ∨ Tbl.has (s.ensemble i.val p.val).lanes lane.val = true ∨ homeOf s i.val p.val = false →
    Answers (.stepCompose i p lane st) s fun t =>
      t = s)

/-- For every state, instance and partition whose sequence table lists its indices in rising order: the step that the two passes compose has
at most max_seqs entries, T is the sum of their tokens and at most token_budget (a budget of 0 acts as 1, log entry 31), no sequence
appears twice, and the entries are decode entries of one token with sample = 1 followed by prefill entries of at least one token. (R358,
R359, R365) -/
def Obligations.StepsKeepBudgetAndOrder : Prop :=
  ∀ (i : Inst) (p : Part) (s : State), ((s.en i.val).seqs.map Prod.fst).Pairwise (· < ·) →
    let c := composed s i.val p.val
    let cfg := stepCfg s i.val p.val
    c.ents.length ≤ cfg.entries ∧ c.t = (c.ents.map SEnt.tokens).sum ∧ c.t ≤ cfg.budget ∧ (c.ents.map SEnt.seq).Nodup ∧
    ∃ d f, c.ents = d ++ f ∧ (∀ e ∈ d, e.prefill = false ∧ e.tokens = 1 ∧ e.sample = true) ∧ ∀ e ∈ f, e.prefill = true ∧ 1 ≤ e.tokens

/-- With the VDM page unbound and no command in progress, for VD v ≠ 0: CREATE of a free VD with good fields, no clash and no memory range
makes it ACTIVE with its counters zeroed and its page at reset values (else BAD_STATE 0x10, BAD_FIELD 0x11, the PASID in use 0x12, a
resource in use 0x13). DESTROY of one without enabled queues or saved commands removes it (else 0x15; not existing 0x10). READ shows its
configuration. CURTAIN_DOWN of an ACTIVE one makes it CLOSING, its queues CURTAIN and its sequences frozen; CURTAIN_UP of a CLOSING or
DOWN one reverses this; in another state 0x10. SAVE_STATE of a DOWN one writes its image to the buffer; a buffer too small gives 0x16, a
failed access 0x17, another state 0x10. RESTORE of an image that passes its checks makes the VD DOWN with the image's state; enabled
queues give 0x15, a failing or short read 0x17, a failed check 0x18, what finds no room 0x1A. Where the instance fails under SAVE_STATE or
in the first pass of RESTORE the command stays in progress and nothing else changes; in the second pass its queues stay DISABLED and the
image's held records, saved commands and sequences are gone (the model's choice, log entry 177). CURTAIN_CLOSED of a CLOSING one at rest
makes it DOWN with IMG_NEED and raises curtain_done (17), else nothing; CURTAIN_LATE raises curtain_late (18) once. VD_SNAPSHOT snapshots
VD 0 and every existing VD of the served instances. MBOX_SEND of an existing VD whose mailbox is not busy makes it busy and raises mbox
(19), while busy it is ignored; MBOX_RESPOND for a busy mailbox copies the response words to the VD page, ends busy and raises that page's
interrupt 16, otherwise it sets cmd_refused (16). (R375, R376, R381, R382, R383, R384, R385, R386, R388, R389, R390, R392) -/
def Obligations.VirtualDeviceCommandsAct : Prop :=
  (∀ (i : Inst) (a : Acc) (r : VdRec) (s : State),
    s.Serves i.val → s.Free (vdmPage i.val) → s.fld (vdmR i.val 0x48) 0 1 = 0 → (s.fld (vdmR i.val 0x40) 0 12) ≠ 0 → (s.vd i.val (s.fld (vdmR i.val 0x40) 0 12)).st = .free → r = cfgRec s i.val → homeOf s i.val r.part = true → vdBadField s i.val r = false → ([0, 1].any fun h => (vdsOf s h).any fun e => e.2.group == r.group && bits e.2.cfg0 8 20 == bits r.cfg0 8 20) = false → (vdsOf s i.val).any (fun e => r.overlaps e.2) = false → (vdQueues s i.val r).any (fun e => !e.2.disabled) = false → (r.mem && bitAt (Tbl.getD s.rt (bits r.cfg4 32 8) (0, 0)).1 0) = false →
    Answers (.vdCreate i a) s fun t =>
      let x := clearLatches s (vdmPage i.val)
      let v := s.fld (vdmR i.val 0x40) 0 12
      let y := (List.range r.ecount).foldl (fun y k => setEvt y i.val (r.ebase + k) { val := 0, owner := evtOwner r v }) x
      let y := dropVectors y i.val r
      let y := if r.mem then putRange y (bits r.cfg4 32 8) (fields [(0, 1), (1, 1), (2, 1), (8, r.part), (12, v)]) (fields [(0, bits r.cfg4 0 13), (16, bits r.cfg4 16 13)]) else y
      t = vdEnd (freshPage (y.updVd i.val v fun _ => r) (vdPage i.val v)) i.val 0x01 true) ∧
  (∀ (i : Inst) (a : Acc) (s : State),
    s.Serves i.val → s.Free (vdmPage i.val) → s.fld (vdmR i.val 0x48) 0 1 = 0 → (s.fld (vdmR i.val 0x40) 0 12) = 0 ∨ (s.vd i.val (s.fld (vdmR i.val 0x40) 0 12)).st ≠ .free ∨ homeOf s i.val (cfgRec s i.val).part = false →
    Answers (.vdCreate i a) s fun t =>
      let x := clearLatches s (vdmPage i.val)
      t = vdEnd x i.val 0x10 false) ∧
  (∀ (i : Inst) (a : Acc) (s : State),
    s.Serves i.val → s.Free (vdmPage i.val) → s.fld (vdmR i.val 0x48) 0 1 = 0 → (s.fld (vdmR i.val 0x40) 0 12) ≠ 0 → (s.vd i.val (s.fld (vdmR i.val 0x40) 0 12)).st = .free → homeOf s i.val (cfgRec s i.val).part = true → vdBadField s i.val (cfgRec s i.val) = true →
    Answers (.vdCreate i a) s fun t =>
      let x := clearLatches s (vdmPage i.val)
      t = vdEnd x i.val 0x11 false) ∧
  (∀ (i : Inst) (a : Acc) (s : State),
    s.Serves i.val → s.Free (vdmPage i.val) → s.fld (vdmR i.val 0x48) 0 1 = 0 → (s.fld (vdmR i.val 0x40) 0 12) ≠ 0 → (s.vd i.val (s.fld (vdmR i.val 0x40) 0 12)).st = .free → homeOf s i.val (cfgRec s i.val).part = true → vdBadField s i.val (cfgRec s i.val) = false → ([0, 1].any fun h => (vdsOf s h).any fun e => e.2.group == (cfgRec s i.val).group && bits e.2.cfg0 8 20 == bits (cfgRec s i.val).cfg0 8 20) = true →
    Answers (.vdCreate i a) s fun t =>
      let x := clearLatches s (vdmPage i.val)
      t = vdEnd x i.val 0x12 false) ∧
  (∀ (i : Inst) (a : Acc) (s : State),
    s.Serves i.val → s.Free (vdmPage i.val) → s.fld (vdmR i.val 0x48) 0 1 = 0 → (s.fld (vdmR i.val 0x40) 0 12) ≠ 0 → (s.vd i.val (s.fld (vdmR i.val 0x40) 0 12)).st = .free → homeOf s i.val (cfgRec s i.val).part = true → vdBadField s i.val (cfgRec s i.val) = false → ([0, 1].any fun h => (vdsOf s h).any fun e => e.2.group == (cfgRec s i.val).group && bits e.2.cfg0 8 20 == bits (cfgRec s i.val).cfg0 8 20) = false → (vdsOf s i.val).any (fun e => (cfgRec s i.val).overlaps e.2) = true ∨ (vdQueues s i.val (cfgRec s i.val)).any (fun e => !e.2.disabled) = true ∨ ((cfgRec s i.val).mem && bitAt (Tbl.getD s.rt (bits (cfgRec s i.val).cfg4 32 8) (0, 0)).1 0) = true →
    Answers (.vdCreate i a) s fun t =>
      let x := clearLatches s (vdmPage i.val)
      t = vdEnd x i.val 0x13 false) ∧
  (∀ (i : Inst) (a : Acc) (s : State),
    s.Serves i.val → s.Free (vdmPage i.val) → s.fld (vdmR i.val 0x48) 0 1 = 0 → (s.fld (vdmR i.val 0x40) 0 12) = 0 ∨ (s.vd i.val (s.fld (vdmR i.val 0x40) 0 12)).st = .free →
    Answers (.vdDestroy i a) s fun t =>
      let x := clearLatches s (vdmPage i.val)
      t = vdEnd x i.val 0x10 false) ∧
  (∀ (i : Inst) (a : Acc) (s : State),
    s.Serves i.val → s.Free (vdmPage i.val) → s.fld (vdmR i.val 0x48) 0 1 = 0 → (s.fld (vdmR i.val 0x40) 0 12) ≠ 0 → (s.vd i.val (s.fld (vdmR i.val 0x40) 0 12)).st ≠ .free → (vdQueues s i.val (s.vd i.val (s.fld (vdmR i.val 0x40) 0 12))).any (fun e => !e.2.disabled) = true ∨ vdSaved s i.val (s.vd i.val (s.fld (vdmR i.val 0x40) 0 12)) ≠ [] →
    Answers (.vdDestroy i a) s fun t =>
      let x := clearLatches s (vdmPage i.val)
      t = vdEnd x i.val 0x15 false) ∧
  (∀ (i : Inst) (a : Acc) (s : State),
    s.Serves i.val → s.Free (vdmPage i.val) → s.fld (vdmR i.val 0x48) 0 1 = 1 →
    Answers (.vdDestroy i a) s fun t =>
      t = { (clearLatches s (vdmPage i.val)).perr (vdmPage i.val) 16 with wlatch := s.wlatch }) ∧
  (∀ (i : Inst) (a : Acc) (s : State),
    s.Serves i.val → s.Free (vdmPage i.val) → s.fld (vdmR i.val 0x48) 0 1 = 0 → (s.fld (vdmR i.val 0x40) 0 12) = 0 ∨ (s.vd i.val (s.fld (vdmR i.val 0x40) 0 12)).st ≠ .active →
    Answers (.curtainDown i a) s fun t =>
      let x := clearLatches s (vdmPage i.val)
      t = vdEnd x i.val 0x10 false) ∧
  (∀ (i : Inst) (a : Acc) (s : State),
    s.Serves i.val → s.Free (vdmPage i.val) → s.fld (vdmR i.val 0x48) 0 1 = 0 → (s.fld (vdmR i.val 0x40) 0 12) = 0 ∨ ((s.vd i.val (s.fld (vdmR i.val 0x40) 0 12)).st ≠ .closing ∧ (s.vd i.val (s.fld (vdmR i.val 0x40) 0 12)).st ≠ .down) →
    Answers (.curtainUp i a) s fun t =>
      let x := clearLatches s (vdmPage i.val)
      t = vdEnd x i.val 0x10 false) ∧
  (∀ (i : Inst) (v : BitVec 12) (s : State),
    s.Serves i.val → v.toNat = 0 ∨ (s.vd i.val v.toNat).st ≠ .closing ∨ curtainRest s i.val (s.vd i.val v.toNat) = false →
    Answers (.curtainClosed i v) s fun t =>
      t = s) ∧
  (∀ (i : Inst) (a : Acc) (data : List (List Byte)) (st : VdIo) (s : State),
    s.Serves i.val → s.Free (vdmPage i.val) → s.fld (vdmR i.val 0x48) 0 1 = 0 → (s.fld (vdmR i.val 0x40) 0 12) = 0 ∨ (s.vd i.val (s.fld (vdmR i.val 0x40) 0 12)).st ≠ .down →
    Answers (.saveState i a data st) s fun t =>
      let x := clearLatches s (vdmPage i.val)
      t = vdEnd x i.val 0x10 false) ∧
  (∀ (i : Inst) (a : Acc) (data : List (List Byte)) (r : Rsp) (s : State),
    s.Serves i.val → s.Free (vdmPage i.val) → s.fld (vdmR i.val 0x48) 0 1 = 0 → (s.fld (vdmR i.val 0x40) 0 12) ≠ 0 → (s.vd i.val (s.fld (vdmR i.val 0x40) 0 12)).st = .down → (s.vd i.val (s.fld (vdmR i.val 0x40) 0 12)).need ≤ s.r (vdmR i.val 0x84) * 1024 → data.map List.length = (vdSaved s i.val (s.vd i.val (s.fld (vdmR i.val 0x40) 0 12))).map (fun e => savedBytes e.2 - 128) → r ≠ .ok →
    Answers (.saveState i a data (.ends r)) s fun t =>
      let x := clearLatches s (vdmPage i.val)
      t = vdEnd x i.val 0x17 false) ∧
  (∀ (i : Inst) (a : Acc) (img : List Byte) (st : VdIo) (s : State),
    s.Serves i.val → s.Free (vdmPage i.val) → s.fld (vdmR i.val 0x48) 0 1 = 0 → (s.fld (vdmR i.val 0x40) 0 12) = 0 ∨ ((s.vd i.val (s.fld (vdmR i.val 0x40) 0 12)).st ≠ .active ∧ (s.vd i.val (s.fld (vdmR i.val 0x40) 0 12)).st ≠ .down) →
    Answers (.vdRestore i a img st) s fun t =>
      let x := clearLatches s (vdmPage i.val)
      t = vdEnd x i.val 0x10 false) ∧
  (∀ (i : Inst) (a : Acc) (s : State),
    s.Serves i.val → s.Free (vdmPage i.val) → s.fld (vdmR i.val 0x48) 0 1 = 0 → (s.fld (vdmR i.val 0x40) 0 12) ≠ 0 → (s.vd i.val (s.fld (vdmR i.val 0x40) 0 12)).st ≠ .free → (vdQueues s i.val (s.vd i.val (s.fld (vdmR i.val 0x40) 0 12))).any (fun e => !e.2.disabled) = false → vdSaved s i.val (s.vd i.val (s.fld (vdmR i.val 0x40) 0 12)) = [] →
    Answers (.vdDestroy i a) s fun t =>
      t = vdEnd (dropVd (clearLatches s (vdmPage i.val)) i.val (s.fld (vdmR i.val 0x40) 0 12)) i.val 0x01 true) ∧
  (∀ (i : Inst) (a : Acc) (s : State),
    s.Serves i.val → s.Free (vdmPage i.val) → s.fld (vdmR i.val 0x48) 0 1 = 0 →
    Answers (.vdRead i a) s fun t =>
      let x := clearLatches s (vdmPage i.val)
      let v := s.fld (vdmR i.val 0x40) 0 12
      let r := s.vd i.val v
      t = vdEnd (((((x.setR (vdmR i.val 0x50) r.cfg0).setR (vdmR i.val 0x58) r.cfg1).setR (vdmR i.val 0x60) r.cfg2).setR (vdmR i.val 0x68) r.cfg3).setR
        (vdmR i.val 0x70) r.cfg4) i.val 0x01 false) ∧
  (∀ (i : Inst) (a : Acc) (s : State),
    s.Serves i.val → s.Free (vdmPage i.val) → s.fld (vdmR i.val 0x48) 0 1 = 0 → (s.fld (vdmR i.val 0x40) 0 12) ≠ 0 → (s.vd i.val (s.fld (vdmR i.val 0x40) 0 12)).st = .active →
    Answers (.curtainDown i a) s fun t =>
      let x := clearLatches s (vdmPage i.val)
      let v := s.fld (vdmR i.val 0x40) 0 12
      let r := s.vd i.val v
      let y := x.updVd i.val v fun r => { r with st := .closing, late := false }
      let qs := vdQueues y i.val r
      let y := qs.foldl (fun s e => if e.2.disabled then s else s.updQ i.val e.1 fun x => { x with conds := { x.conds with curtain := true } }) y
      let y := (qs.flatMap fun e => (cmdsOfQueue y i.val e.1).map Prod.fst).foldl (fun s j => curtainCmd s i.val j) y
      t = vdEnd ((vdSeqs y i.val r).foldl (fun s e => updSeq s i.val e.1 fun x => { x with frozen := true }) y) i.val 0x01 true) ∧
  (∀ (i : Inst) (a : Acc) (s : State),
    s.Serves i.val → s.Free (vdmPage i.val) → s.fld (vdmR i.val 0x48) 0 1 = 0 → (s.fld (vdmR i.val 0x40) 0 12) ≠ 0 → (s.vd i.val (s.fld (vdmR i.val 0x40) 0 12)).st = .closing ∨ (s.vd i.val (s.fld (vdmR i.val 0x40) 0 12)).st = .down →
    Answers (.curtainUp i a) s fun t =>
      let x := clearLatches s (vdmPage i.val)
      let v := s.fld (vdmR i.val 0x40) 0 12
      let r := s.vd i.val v
      let y := x.updVd i.val v fun r => { r with st := .active, late := false }
      let y := (vdQueues y i.val r).foldl (fun s e => s.updQ i.val e.1 fun x => { x with conds := { x.conds with curtain := false } }) y
      t = vdEnd ((vdSeqs y i.val r).foldl (fun s e => updSeq s i.val e.1 fun x => { x with frozen := false }) y) i.val 0x01 true) ∧
  (∀ (i : Inst) (v : BitVec 12) (s : State),
    s.Serves i.val → v.toNat ≠ 0 → (s.vd i.val v.toNat).st = .closing → curtainRest s i.val (s.vd i.val v.toNat) = true →
    Answers (.curtainClosed i v) s fun t =>
      t = (s.updVd i.val v.toNat fun r => { r with st := .down, need := imageBytes s i.val r }).irq (vdmPage i.val) 17) ∧
  (∀ (i : Inst) (v : BitVec 12) (s : State),
    s.Serves i.val → (s.vd i.val v.toNat).st = .closing → (s.vd i.val v.toNat).late = false →
    Answers (.curtainLate i v) s fun t =>
      t = (s.updVd i.val v.toNat fun r => { r with late := true }).irq (vdmPage i.val) 18) ∧
  (∀ (i : Inst) (v : BitVec 12) (s : State),
    s.Serves i.val → (s.vd i.val v.toNat).st ≠ .closing ∨ (s.vd i.val v.toNat).late = true →
    Answers (.curtainLate i v) s fun t =>
      t = s) ∧
  (∀ (i : Inst) (a : Acc) (data : List (List Byte)) (st : VdIo) (s : State),
    s.Serves i.val → s.Free (vdmPage i.val) → s.fld (vdmR i.val 0x48) 0 1 = 0 → (s.fld (vdmR i.val 0x40) 0 12) ≠ 0 → (s.vd i.val (s.fld (vdmR i.val 0x40) 0 12)).st = .down → s.r (vdmR i.val 0x84) * 1024 < (s.vd i.val (s.fld (vdmR i.val 0x40) 0 12)).need →
    Answers (.saveState i a data st) s fun t =>
      let x := clearLatches s (vdmPage i.val)
      t = vdEnd x i.val 0x16 false) ∧
  (∀ (i : Inst) (a : Acc) (data : List (List Byte)) (s : State),
    s.Serves i.val → s.Free (vdmPage i.val) → s.fld (vdmR i.val 0x48) 0 1 = 0 → (s.fld (vdmR i.val 0x40) 0 12) ≠ 0 → (s.vd i.val (s.fld (vdmR i.val 0x40) 0 12)).st = .down → (s.vd i.val (s.fld (vdmR i.val 0x40) 0 12)).need ≤ s.r (vdmR i.val 0x84) * 1024 → data.map List.length = (vdSaved s i.val (s.vd i.val (s.fld (vdmR i.val 0x40) 0 12))).map (fun e => savedBytes e.2 - 128) →
    Answers (.saveState i a data (.ends .ok)) s fun t =>
      let x := clearLatches s (vdmPage i.val)
      let v := s.fld (vdmR i.val 0x40) 0 12
      let r := s.vd i.val v
      let c := s.r (vdmR i.val 0x80)
      t = vdEnd (x.emit (.bulk 2 (s.r (vdmR i.val 0x78)) (bits c 0 1 :: (if bits c 0 1 = 0 then r.part else bits c 4 2) :: (vdImage s i.val v data).map BitVec.toNat))) i.val 0x01 false) ∧
  (∀ (i : Inst) (a : Acc) (img : List Byte) (st : VdIo) (s : State),
    s.Serves i.val → s.Free (vdmPage i.val) → s.fld (vdmR i.val 0x48) 0 1 = 0 → (s.fld (vdmR i.val 0x40) 0 12) ≠ 0 → (s.vd i.val (s.fld (vdmR i.val 0x40) 0 12)).st = .active ∨ (s.vd i.val (s.fld (vdmR i.val 0x40) 0 12)).st = .down → (vdQueues s i.val (s.vd i.val (s.fld (vdmR i.val 0x40) 0 12))).any (fun e => !e.2.disabled) = true ∨ vdSaved s i.val (s.vd i.val (s.fld (vdmR i.val 0x40) 0 12)) ≠ [] →
    Answers (.vdRestore i a img st) s fun t =>
      let x := clearLatches s (vdmPage i.val)
      t = vdEnd x i.val 0x15 false) ∧
  (∀ (i : Inst) (a : Acc) (img : List Byte) (r : Rsp) (s : State),
    s.Serves i.val → s.Free (vdmPage i.val) → s.fld (vdmR i.val 0x48) 0 1 = 0 → (s.fld (vdmR i.val 0x40) 0 12) ≠ 0 → (s.vd i.val (s.fld (vdmR i.val 0x40) 0 12)).st = .active ∨ (s.vd i.val (s.fld (vdmR i.val 0x40) 0 12)).st = .down → (vdQueues s i.val (s.vd i.val (s.fld (vdmR i.val 0x40) 0 12))).any (fun e => !e.2.disabled) = false → vdSaved s i.val (s.vd i.val (s.fld (vdmR i.val 0x40) 0 12)) = [] → r ≠ .ok ∨ img.length < 64 ∨ (fieldAt img 8 8 ≤ s.r (vdmR i.val 0x84) * 1024 ∧ img.length < fieldAt img 8 8) →
    Answers (.vdRestore i a img (.ends r)) s fun t =>
      let x := clearLatches s (vdmPage i.val)
      t = vdEnd x i.val 0x17 false) ∧
  (∀ (i : Inst) (a : Acc) (img b : List Byte) (s : State),
    s.Serves i.val → s.Free (vdmPage i.val) → s.fld (vdmR i.val 0x48) 0 1 = 0 → (s.fld (vdmR i.val 0x40) 0 12) ≠ 0 → (s.vd i.val (s.fld (vdmR i.val 0x40) 0 12)).st = .active ∨ (s.vd i.val (s.fld (vdmR i.val 0x40) 0 12)).st = .down → (vdQueues s i.val (s.vd i.val (s.fld (vdmR i.val 0x40) 0 12))).any (fun e => !e.2.disabled) = false → vdSaved s i.val (s.vd i.val (s.fld (vdmR i.val 0x40) 0 12)) = [] → 64 ≤ img.length → fieldAt img 8 8 ≤ img.length ∨ s.r (vdmR i.val 0x84) * 1024 < fieldAt img 8 8 → b = img.take (fieldAt img 8 8) → fieldAt img 0 2 ≠ 1 ∨ fieldAt img 2 2 ≠ 0x0D2A ∨ s.r (vdmR i.val 0x84) * 1024 < fieldAt img 8 8 ∨ crc64 (b.take 0x38 ++ List.replicate 8 0 ++ b.drop 0x40) ≠ fieldAt b 0x38 8 ∨ (s.vd i.val (s.fld (vdmR i.val 0x40) 0 12)).qcount < fieldAt b 0x10 4 % 2 ^ 21 ∨ (s.vd i.val (s.fld (vdmR i.val 0x40) 0 12)).ecount < fieldAt b 0x14 4 % 2 ^ 13 ∨ (s.vd i.val (s.fld (vdmR i.val 0x40) 0 12)).vcount < fieldAt b 0x18 4 % 2 ^ 17 →
    Answers (.vdRestore i a img (.ends .ok)) s fun t =>
      let x := clearLatches s (vdmPage i.val)
      t = vdEnd x i.val 0x18 false) ∧
  (∀ (i : Inst) (a : Acc) (data : List (List Byte)) (c : Bool) (s : State),
    s.Serves i.val → s.Free (vdmPage i.val) → s.fld (vdmR i.val 0x48) 0 1 = 0 → (s.fld (vdmR i.val 0x40) 0 12) ≠ 0 → (s.vd i.val (s.fld (vdmR i.val 0x40) 0 12)).st = .down → (s.vd i.val (s.fld (vdmR i.val 0x40) 0 12)).need ≤ s.r (vdmR i.val 0x84) * 1024 →
    Answers (.saveState i a data (.cut c)) s fun t =>
      t = vdHangs (clearLatches s (vdmPage i.val)) i.val) ∧
  (∀ (i : Inst) (a : Acc) (img : List Byte) (s : State),
    s.Serves i.val → s.Free (vdmPage i.val) → s.fld (vdmR i.val 0x48) 0 1 = 0 → (s.fld (vdmR i.val 0x40) 0 12) ≠ 0 → (s.vd i.val (s.fld (vdmR i.val 0x40) 0 12)).st = .active ∨ (s.vd i.val (s.fld (vdmR i.val 0x40) 0 12)).st = .down → (vdQueues s i.val (s.vd i.val (s.fld (vdmR i.val 0x40) 0 12))).any (fun e => !e.2.disabled) = false → vdSaved s i.val (s.vd i.val (s.fld (vdmR i.val 0x40) 0 12)) = [] →
    Answers (.vdRestore i a img (.cut false)) s fun t =>
      t = vdHangs (clearLatches s (vdmPage i.val)) i.val) ∧
  (∀ (i : Inst) (a : Acc) (img b : List Byte) (qs : List ImgQ) (o eo vo co : Nat) (y s : State),
    s.Serves i.val → s.Free (vdmPage i.val) → s.fld (vdmR i.val 0x48) 0 1 = 0 → (s.fld (vdmR i.val 0x40) 0 12) ≠ 0 → (s.vd i.val (s.fld (vdmR i.val 0x40) 0 12)).st = .active ∨ (s.vd i.val (s.fld (vdmR i.val 0x40) 0 12)).st = .down → (vdQueues s i.val (s.vd i.val (s.fld (vdmR i.val 0x40) 0 12))).any (fun e => !e.2.disabled) = false → vdSaved s i.val (s.vd i.val (s.fld (vdmR i.val 0x40) 0 12)) = [] → 64 ≤ img.length → fieldAt img 8 8 ≤ img.length → b = img.take (fieldAt img 8 8) → fieldAt img 8 8 ≤ s.r (vdmR i.val 0x84) * 1024 → fieldAt img 0 2 = 1 → fieldAt img 2 2 = 0x0D2A → crc64 (b.take 0x38 ++ List.replicate 8 0 ++ b.drop 0x40) = fieldAt b 0x38 8 → fieldAt b 0x10 4 % 2 ^ 21 ≤ (s.vd i.val (s.fld (vdmR i.val 0x40) 0 12)).qcount → fieldAt b 0x14 4 % 2 ^ 13 ≤ (s.vd i.val (s.fld (vdmR i.val 0x40) 0 12)).ecount → fieldAt b 0x18 4 % 2 ^ 17 ≤ (s.vd i.val (s.fld (vdmR i.val 0x40) 0 12)).vcount → imgQueues b (fieldAt b 0x10 4 % 2 ^ 21) 128 = (qs, o) → eo = alignUp o 64 → vo = alignUp (eo + 8 * (fieldAt b 0x14 4 % 2 ^ 13)) 64 → co = alignUp (vo + 16 * (fieldAt b 0x18 4 % 2 ^ 17)) 64 → ((imgCmds b (fieldAt b 0x1C 4 % 2 ^ 16) co).1.any fun c => ((sitesFor s i.val (s.vd i.val (s.fld (vdmR i.val 0x40) 0 12)).part 0xFFF).map (siteKind s)).any fun k => k != areaKind c.save) = false → (s.en i.val).seqs.length + fieldAt b 0x20 4 ≤ 65536 → vdRestored (clearLatches s (vdmPage i.val)) i.val (s.fld (vdmR i.val 0x40) 0 12) b qs eo vo co = some y →
    Answers (.vdRestore i a img (.cut true)) s fun t =>
      t = vdCutShort (clearLatches s (vdmPage i.val)) i.val (s.fld (vdmR i.val 0x40) 0 12) b qs eo vo) ∧
  (∀ (i : Inst) (a : Acc) (img b : List Byte) (qs : List ImgQ) (o eo vo co : Nat) (y s : State),
    s.Serves i.val → s.Free (vdmPage i.val) → s.fld (vdmR i.val 0x48) 0 1 = 0 → (s.fld (vdmR i.val 0x40) 0 12) ≠ 0 → (s.vd i.val (s.fld (vdmR i.val 0x40) 0 12)).st = .active ∨ (s.vd i.val (s.fld (vdmR i.val 0x40) 0 12)).st = .down → (vdQueues s i.val (s.vd i.val (s.fld (vdmR i.val 0x40) 0 12))).any (fun e => !e.2.disabled) = false → vdSaved s i.val (s.vd i.val (s.fld (vdmR i.val 0x40) 0 12)) = [] → 64 ≤ img.length → fieldAt img 8 8 ≤ img.length → b = img.take (fieldAt img 8 8) → fieldAt img 8 8 ≤ s.r (vdmR i.val 0x84) * 1024 → fieldAt img 0 2 = 1 → fieldAt img 2 2 = 0x0D2A → crc64 (b.take 0x38 ++ List.replicate 8 0 ++ b.drop 0x40) = fieldAt b 0x38 8 → fieldAt b 0x10 4 % 2 ^ 21 ≤ (s.vd i.val (s.fld (vdmR i.val 0x40) 0 12)).qcount → fieldAt b 0x14 4 % 2 ^ 13 ≤ (s.vd i.val (s.fld (vdmR i.val 0x40) 0 12)).ecount → fieldAt b 0x18 4 % 2 ^ 17 ≤ (s.vd i.val (s.fld (vdmR i.val 0x40) 0 12)).vcount → imgQueues b (fieldAt b 0x10 4 % 2 ^ 21) 128 = (qs, o) → eo = alignUp o 64 → vo = alignUp (eo + 8 * (fieldAt b 0x14 4 % 2 ^ 13)) 64 → co = alignUp (vo + 16 * (fieldAt b 0x18 4 % 2 ^ 17)) 64 → ((imgCmds b (fieldAt b 0x1C 4 % 2 ^ 16) co).1.any fun c => ((sitesFor s i.val (s.vd i.val (s.fld (vdmR i.val 0x40) 0 12)).part 0xFFF).map (siteKind s)).any fun k => k != areaKind c.save) = false → (s.en i.val).seqs.length + fieldAt b 0x20 4 ≤ 65536 → vdRestored (clearLatches s (vdmPage i.val)) i.val (s.fld (vdmR i.val 0x40) 0 12) b qs eo vo co = some y →
    Answers (.vdRestore i a img (.ends .ok)) s fun t =>
      t = vdEnd (y.updVd i.val (s.fld (vdmR i.val 0x40) 0 12) fun r => { r with st := .down, need := imageBytes y i.val r }) i.val 0x01 true) ∧
  (∀ (i : Inst) (a : Acc) (img b : List Byte) (qs : List ImgQ) (o eo vo co : Nat) (s : State),
    s.Serves i.val → s.Free (vdmPage i.val) → s.fld (vdmR i.val 0x48) 0 1 = 0 → (s.fld (vdmR i.val 0x40) 0 12) ≠ 0 → (s.vd i.val (s.fld (vdmR i.val 0x40) 0 12)).st = .active ∨ (s.vd i.val (s.fld (vdmR i.val 0x40) 0 12)).st = .down → (vdQueues s i.val (s.vd i.val (s.fld (vdmR i.val 0x40) 0 12))).any (fun e => !e.2.disabled) = false → vdSaved s i.val (s.vd i.val (s.fld (vdmR i.val 0x40) 0 12)) = [] → 64 ≤ img.length → fieldAt img 8 8 ≤ img.length → b = img.take (fieldAt img 8 8) → fieldAt img 8 8 ≤ s.r (vdmR i.val 0x84) * 1024 → fieldAt img 0 2 = 1 → fieldAt img 2 2 = 0x0D2A → crc64 (b.take 0x38 ++ List.replicate 8 0 ++ b.drop 0x40) = fieldAt b 0x38 8 → fieldAt b 0x10 4 % 2 ^ 21 ≤ (s.vd i.val (s.fld (vdmR i.val 0x40) 0 12)).qcount → fieldAt b 0x14 4 % 2 ^ 13 ≤ (s.vd i.val (s.fld (vdmR i.val 0x40) 0 12)).ecount → fieldAt b 0x18 4 % 2 ^ 17 ≤ (s.vd i.val (s.fld (vdmR i.val 0x40) 0 12)).vcount → imgQueues b (fieldAt b 0x10 4 % 2 ^ 21) 128 = (qs, o) → eo = alignUp o 64 → vo = alignUp (eo + 8 * (fieldAt b 0x14 4 % 2 ^ 13)) 64 → co = alignUp (vo + 16 * (fieldAt b 0x18 4 % 2 ^ 17)) 64 → ((imgCmds b (fieldAt b 0x1C 4 % 2 ^ 16) co).1.any fun c => ((sitesFor s i.val (s.vd i.val (s.fld (vdmR i.val 0x40) 0 12)).part 0xFFF).map (siteKind s)).any fun k => k != areaKind c.save) = false → 65536 < (s.en i.val).seqs.length + fieldAt b 0x20 4 ∨ vdRestored (clearLatches s (vdmPage i.val)) i.val (s.fld (vdmR i.val 0x40) 0 12) b qs eo vo co = none →
    Answers (.vdRestore i a img (.ends .ok)) s fun t =>
      let x := clearLatches s (vdmPage i.val)
      t = vdEnd x i.val 0x1A false) ∧
  (∀ (s : State),
    s.Up →
    Answers (.vdSnapshot) s fun t =>
      let one (s : State) (i : Nat) : State :=
        if (server s i).isSome then ((s.vdm.get i).filter fun e => e.2.st != .free && e.1 != 0).foldl (fun s e => vdSnap s i e.1 e.2) (vdSnap s i 0 (s.vd i 0)) else s
      t = (bothInst s one).updLev fun l => { l with seen := (l.reasons.map Prod.fst).eraseDups }) ∧
  (∀ (i : Inst) (v : BitVec 12) (a : Acc) (s : State),
    s.Serves i.val → (s.vdm.get i.val).any (fun e => e.1 == v.toNat && e.2.st != .free && !e.2.mbox) = true →
    Answers (.mboxSend i v a) s fun t =>
      t = ((clearLatches s (vdPage i.val v.toNat)).updVd i.val v.toNat fun r => { r with mbox := true }).irq (vdmPage i.val) 19) ∧
  (∀ (i : Inst) (v : BitVec 12) (a : Acc) (s : State),
    s.Serves i.val → (s.vdm.get i.val).any (fun e => e.1 == v.toNat && e.2.st != .free && !e.2.mbox) = false →
    Answers (.mboxSend i v a) s fun t =>
      t = { clearLatches s (vdPage i.val v.toNat) with wlatch := s.wlatch }) ∧
  (∀ (i : Inst) (a : Acc) (s : State),
    s.Serves i.val → s.Free (vdmPage i.val) → (s.vd i.val (s.fld (vdmR i.val 0x40) 0 12)).mbox = true →
    Answers (.mboxRespond i a) s fun t =>
      let x := clearLatches s (vdmPage i.val)
      let v := s.fld (vdmR i.val 0x40) 0 12
      let r := s.vd i.val v
      let y := (List.range 8).foldl (fun s k => s.setR (reg .vd i.val v (0x100 + 8 * k)) (s.r (vdmR i.val (0x100 + 8 * k)))) x
      t = (y.updVd i.val v fun r => { r with mbox := false }).irq (vdPage i.val v) 16) ∧
  (∀ (i : Inst) (a : Acc) (s : State),
    s.Serves i.val → s.Free (vdmPage i.val) → (s.vd i.val (s.fld (vdmR i.val 0x40) 0 12)).mbox = false →
    Answers (.mboxRespond i a) s fun t =>
      t = { (clearLatches s (vdmPage i.val)).perr (vdmPage i.val) 16 with wlatch := s.wlatch })

/-- For every state, VD and saved data: the image has version 1 and the magic 0x0D2A in its header, its length field holds its length, and the
CRC-64 over the image with the CRC field as zero is the value of that field, whatever the VD holds (images below 2^64 bytes). The form of
the CRC-64 beyond its polynomial is the model's choice (log entry 45). (R386, R387, R388) -/
def Obligations.SavedImagesPassTheirChecks : Prop :=
  ∀ (i : Inst) (v : Nat) (data : List (List Byte)) (s : State),
    let b := vdImage s i.val v data
    b.length < 2 ^ 64 → fieldAt b 0 2 = 1 ∧ fieldAt b 2 2 = 0x0D2A ∧ fieldAt b 8 8 = b.length ∧ 64 ≤ b.length ∧
      crc64 (b.take 0x38 ++ List.replicate 8 0 ++ b.drop 0x40) = fieldAt b 0x38 8

/-- In these clauses the levels then settle: every domain whose level lies below what its reasons ask for is raised at once, and levels,
reasons and pacing follow. LEVEL_RAMP_STEP of a domain above that moves it one step down, of any other does nothing. TEMP_UPDATE takes the
zones; of zones below crit and warn minus 3 releases both holds; at or above crit it sets the alert and the hold. THERMTRIP holds the pin
and reports source 52 as fatal. BRAKE and BRAKE_RELEASE set the level of the pin, and nothing else while reset is held; otherwise BRAKE
inhibits the NV store, sets the brake alert and holds, BRAKE_RELEASE releases. DROOP_END ends the event; DROOP_HOLD_EXPIRY then takes
reason 4 from the domain; DROOP_STORM_EXPIRY lets the raised level go. IOUT_WARNING of a rail in use begins or ends its warning; the last
one of a domain takes its steps with it. HUB_DROOP and SITE_DROOP are droop events at their domain. DIDT_CFG_WRITE sets PWR.DIDT_CFG and
the budgets that follow. SENSOR_RECOVERY clears the user limit. (R393, R395, R405, R406, R407, R408, R409, R410, R411, R412, R426) -/
def Obligations.PowerLevelCommandsAct : Prop :=
  (∀ (d : Fin 13) (s : State),
    s.por = false → wanted s d.val < levelOf s d.val →
    Answers (.levelRampStep d) s fun t =>
      t = settleLevels (setLevel s d.val (levelOf s d.val - 1))) ∧
  (∀ (d : Fin 13) (s : State),
    s.por = false → levelOf s d.val ≤ wanted s d.val →
    Answers (.levelRampStep d) s fun t =>
      t = s) ∧
  (∀ (z : List Byte) (s : State),
    s.por = false →
    Answers (.tempUpdate z) s fun t =>
      let x := s.setR (thrR 0x60) (fields ((List.range 8).map fun k => (8 * k, (z.map BitVec.toNat).getD k 0)))
      let h := hottest x
      let warn := s.fld (thrR 0x58) 0 8
      let crit := s.fld (thrR 0x58) 8 8
      let y := if warn ≤ h then setAlert x 0 else x
      let y := if crit ≤ h then setAlert y 1 else y
      t = settleLevels (y.updLev fun l => { l with
        warn := if warn ≤ h then true else if h + 3 < warn then false else l.warn, warm := if h + 3 < warn then 0 else l.warm,
        crit := if crit ≤ h then true else if h < warn then false else l.crit })) ∧
  (∀ (z : List Byte) (s : State),
    s.por = false → (∀ k < 8, ((z.map BitVec.toNat).getD k 0) + 3 < s.fld (thrR 0x58) 0 8) → s.fld (thrR 0x58) 0 8 ≤ s.fld (thrR 0x58) 8 8 →
    Answers (.tempUpdate z) s fun t =>
      (let x := s.setR (thrR 0x60) (fields ((List.range 8).map fun k => (8 * k, (z.map BitVec.toNat).getD k 0)))
      t = settleLevels (x.updLev fun l => { l with warn := false, warm := 0, crit := false }))) ∧
  (∀ (k : Fin 8) (z : List Byte) (s : State),
    s.por = false → z.length = 8 → s.fld (thrR 0x58) 8 8 ≤ ((z.map BitVec.toNat).getD k.val 0) → s.fld (thrR 0x58) 0 8 ≤ s.fld (thrR 0x58) 8 8 →
    Answers (.tempUpdate z) s fun t =>
      t.lev.crit = true ∧ t.lev.warn = true ∧ bitAt (t.r (thrR 0x44)) 0 = true ∧ bitAt (t.r (thrR 0x44)) 1 = true ∧
      (∀ d < 12, 12 ≤ levelOf t d) ∧ 3 ≤ levelOf t 12) ∧
  (∀ (s : State),
    s.por = false →
    Answers (.thermtrip) s fun t =>
      t = settleLevels (faultEvent (setAlert { s with thermTrip := true } 6) 52 2 {} none)) ∧
  (∀ (s : State),
    s.Up → s.nv.inhibit = true →
    Answers (.brake) s fun t =>
      let x := { s with brakeLow := true }
      t = settleLevels ((setAlert (setInhibit x true) 2).updLev fun l => { l with brake := true })) ∧
  (∀ (s : State),
    s.Up → s.nv.inhibit = false →
    Answers (.brake) s fun t =>
      let x := { s with brakeLow := true }
      t = settleLevels ((setAlert (setInhibit (cpLine (cpLine x 0 45) 1 45) true) 2).updLev fun l => { l with brake := true })) ∧
  (∀ (s : State),
    s.por = false → s.held = true →
    Answers (.brake) s fun t =>
      t = { s with brakeLow := true }) ∧
  (∀ (s : State),
    s.Up → s.lev.brake = false →
    Answers (.brakeRelease) s fun t =>
      t = { s with brakeLow := false }) ∧
  (∀ (s : State),
    s.por = false → s.held = true →
    Answers (.brakeRelease) s fun t =>
      t = { s with brakeLow := false }) ∧
  (∀ (s : State),
    s.Up → s.lev.brake = true →
    Answers (.brakeRelease) s fun t =>
      let x := { s with brakeLow := false }
      t = settleLevels (x.updLev fun l => { l with brake := false })) ∧
  (∀ (d : Fin 13) (s : State),
    s.por = false →
    Answers (.droopEnd d) s fun t =>
      t = s.updLev fun l => { l with droopOn := l.droopOn.filter (· != d.val) }) ∧
  (∀ (d : Fin 13) (s : State),
    s.por = false → s.lev.droopOn.contains d.val = false →
    Answers (.droopHoldExpiry d) s fun t =>
      t = settleLevels (s.updLev fun l => { l with droop := l.droop.filter (· != d.val) })) ∧
  (∀ (d : Fin 13) (s : State),
    s.por = false → s.lev.droopOn.contains d.val = true →
    Answers (.droopHoldExpiry d) s fun t =>
      t = s) ∧
  (∀ (d : Fin 13) (s : State),
    s.por = false →
    Answers (.droopStormExpiry d) s fun t =>
      t = settleLevels (s.updLev fun l => { l with storm := l.storm.filter (· != d.val) })) ∧
  (∀ (s : State),
    s.por = false →
    Answers (.hubDroop) s fun t =>
      t = droopEvent s 12) ∧
  (∀ (k : Site) (s : State),
    s.por = false →
    Answers (.siteDroop k) s fun t =>
      t = droopEvent s k.val) ∧
  (∀ (rail : Fin 16) (on : Bool) (s : State),
    s.por = false → railRole s rail.val = 0 →
    Answers (.ioutWarning rail on) s fun t =>
      t = s) ∧
  (∀ (rail : Fin 16) (s : State),
    s.por = false → railRole s rail.val ≠ 0 →
    Answers (.ioutWarning rail true) s fun t =>
      t = settleLevels (s.updLev fun l => { l with warned := (rail.val, railDom s rail.val) :: l.warned.filter (fun e => e.1 != rail.val) })) ∧
  (∀ (rail : Fin 16) (s : State),
    s.por = false → railRole s rail.val ≠ 0 → (∀ e ∈ s.lev.warned, e.2 = railDom s rail.val → e.1 = rail.val) →
    Answers (.ioutWarning rail false) s fun t =>
      t = settleLevels (s.updLev fun l => { l with warned := l.warned.filter (fun e => e.1 != rail.val), iout := Tbl.del l.iout (railDom s rail.val) })) ∧
  (∀ (rail : Fin 16) (e : Nat × Nat) (s : State),
    s.por = false → railRole s rail.val ≠ 0 → e ∈ s.lev.warned → e.2 = railDom s rail.val → e.1 ≠ rail.val →
    Answers (.ioutWarning rail false) s fun t =>
      t = settleLevels (s.updLev fun l => { l with warned := l.warned.filter (fun e => e.1 != rail.val) })) ∧
  (∀ (a : Acc) (v : W32) (s : State),
    s.Up →
    Answers (.didtCfgWrite none a v) s fun t =>
      t = setDidt ((clearLatches s pwrPage).setR (pwrR 0x6C) (v.toNat &&& 0x0FFF0FFF))) ∧
  (∀ (i : Inst) (a : Acc) (v : W32) (s : State),
    s.Serves i.val → s.Free ⟨.sch, i.val, 0⟩ → s.NoLate →
    Answers (.didtCfgWrite (some i) a v) s fun t =>
      t = setWave (clearLatches s ⟨.sch, i.val, 0⟩) i.val v.toNat) ∧
  (∀ (s : State),
    s.por = false → s.lev.sensorBad = false →
    Answers (.sensorRecovery) s fun t =>
      t = s) ∧
  (∀ (s : State),
    s.por = false → s.lev.sensorBad = true →
    Answers (.sensorRecovery) s fun t =>
      t = settleLevels ((s.setR (pwrR 0x4C) 0).updLev fun l => { l with sensorBad := false }))

/-- IMON_SAMPLE while reset is held or the measuring unit is lost does nothing; otherwise it adds the sample to the rails' sums, to the energy
in µJ (with the remainder kept, unless the package power is modelled) and to the window, and raises the levels where the window exceeds
the fast limit. CAL_CHECK compares every rail in use and POWER_POLICY_STEP runs the policy step after the power tick, where a power master
works, which tells its partner of what changed in one record; otherwise nothing. PKG_BUDGET_WRITE sets the budget while src = 1 and the
value lies in 800 to 2,800 W, otherwise cfg_refused (16); PACKAGE_BUDGET does so while src = 0, otherwise nothing. BUDGET_SOURCE sets src.
The four PLDM sensors answer package power in W, energy in J, the hottest zone and THR.ACTIVE. (R390, R397, R398, R399, R401, R403, R405,
R422) -/
def Obligations.PowerMeasuresAndBudgets : Prop :=
  (∀ (raws : List (BitVec 12)) (s : State),
    s.Up → s.lev.pmiLost = true →
    Answers (.imonSample raws) s fun t =>
      t = s) ∧
  (∀ (raws : List (BitVec 12)) (s : State),
    s.por = false → s.held = true →
    Answers (.imonSample raws) s fun t =>
      t = s) ∧
  (∀ (raws : List (BitVec 12)) (w : Nat) (s : State),
    s.Up → s.lev.pmiLost = false → w = max 1 (s.fld (pwrR 0x68) 16 8) →
    Answers (.imonSample raws) s fun t =>
      let p := ((pkgRails s).map fun n => (railSample s (raws.map BitVec.toNat) n).1).sum
      let x := (railsUsed s).foldl (fun s n => updRail s n fun x => { x with sumP := x.sumP + (railSample s (raws.map BitVec.toNat) n).1, sumI := x.sumI + (railSample s (raws.map BitVec.toNat) n).2 }) s
      let e := if pkgModel s then s.lev.energy else s.lev.energy + p
      let y := if e < 1000000 then x else x.bump (pwrR 0x88) (e / 1000000)
      let win := (p :: s.lev.window).take w
      let much := decide (win.length = w) && decide (budget s * 1000000 * (100 + s.fld (pwrR 0x68) 0 8) * w < win.sum * 100)
      let z := y.updLev fun l => { l with samples := l.samples + 1, energy := e % 1000000, window := win, fast := l.fast || much }
      t = if much then settleLevels z else z) ∧
  (∀ (raws : List (BitVec 12)) (n : Nat) (s : State),
    s.Up → s.lev.pmiLost = false → railsUsed s = [n] → pkgModel s = false → pkgRails s = [n] →
    Answers (.imonSample raws) s fun t =>
      (let v := railSample s (raws.map BitVec.toNat) n
      (railSt t n).sumP = (railSt s n).sumP + v.1 ∧ (railSt t n).sumI = (railSt s n).sumI + v.2 ∧ t.lev.energy = (s.lev.energy + v.1) % 1000000 ∧
      t.lev.window = (v.1 :: s.lev.window).take (max 1 (s.fld (pwrR 0x68) 16 8)) ∧ t.r (pwrR 0x88) = (s.r (pwrR 0x88) + (s.lev.energy + v.1) / 1000000) % 2 ^ 64)) ∧
  (∀ (m : Nat) (s : State),
    s.por = false → powerMaster s = some m →
    Answers (.calCheck) s fun t =>
      let y := (railsUsed s).foldl calRail s
      t = if powerKnown y = powerKnown s then y else y.report m []) ∧
  (∀ (s : State),
    s.por = false → powerMaster s = none →
    Answers (.calCheck) s fun t =>
      t = s) ∧
  (∀ (r : PwrRead) (s : State),
    s.por = false → s.held = true →
    Answers (.powerPolicyStep r) s fun t =>
      t = s) ∧
  (∀ (r : PwrRead) (m : Nat) (s : State),
    s.Up → powerMaster s = some m →
    Answers (.powerPolicyStep r) s fun t =>
      let y := policyStep (powerTickLine s) r
      t = if powerKnown y = powerKnown s then y else y.report m []) ∧
  (∀ (a : Acc) (v : W32) (s : State),
    s.Up → inBand s = true → 800 ≤ bits v.toNat 0 12 → bits v.toNat 0 12 ≤ 2800 →
    Answers (.pkgBudgetWrite a v) s fun t =>
      t = setBudget (clearLatches s pwrPage) (bits v.toNat 0 12)) ∧
  (∀ (a : Acc) (v : W32) (s : State),
    s.Up → inBand s = false ∨ bits v.toNat 0 12 < 800 ∨ 2800 < bits v.toNat 0 12 →
    Answers (.pkgBudgetWrite a v) s fun t =>
      t = { (clearLatches s pwrPage).perr pwrPage 16 with wlatch := s.wlatch }) ∧
  (∀ (v : W32) (s : State),
    s.por = false → s.boot.addr.isSome = true → inBand s = false → 800 ≤ v.toNat → v.toNat ≤ 2800 →
    Answers (.packageBudget v) s fun t =>
      t = setBudget s v.toNat) ∧
  (∀ (v : W32) (s : State),
    s.por = false → s.boot.addr = none →
    Answers (.packageBudget v) s fun t =>
      t = s) ∧
  (∀ (b : Bool) (s : State),
    s.por = false → s.boot.addr = none →
    Answers (.budgetSource b) s fun t =>
      t = s) ∧
  (∀ (id : BitVec 16) (s : State),
    s.por = false → s.boot.addr = none →
    Answers (.pldmSensorRead id) s fun t =>
      t = s) ∧
  (∀ (v : W32) (s : State),
    s.por = false → s.boot.addr.isSome = true → inBand s = true ∨ v.toNat < 800 ∨ 2800 < v.toNat →
    Answers (.packageBudget v) s fun t =>
      t = s) ∧
  (∀ (b : Bool) (s : State),
    s.por = false → s.boot.addr.isSome = true →
    Answers (.budgetSource b) s fun t =>
      t = settleLevels (s.setFld (pwrR 0x40) 8 1 (b2n b))) ∧
  (∀ (s : State),
    s.por = false → s.boot.addr.isSome = true →
    Answers (.pldmSensorRead 0x200) s fun t =>
      t = s.emit (.pldmValue (s.fld (pwrR 0x80) 0 20 / 16))) ∧
  (∀ (s : State),
    s.por = false → s.boot.addr.isSome = true →
    Answers (.pldmSensorRead 0x201) s fun t =>
      t = s.emit (.pldmValue (s.r (pwrR 0x88) / 1000000))) ∧
  (∀ (s : State),
    s.por = false → s.boot.addr.isSome = true →
    Answers (.pldmSensorRead 0x202) s fun t =>
      t = s.emit (.pldmValue (hottest s))) ∧
  (∀ (s : State),
    s.por = false → s.boot.addr.isSome = true →
    Answers (.pldmSensorRead 0x203) s fun t =>
      t = s.emit (.pldmValue (s.r (thrR 0x40)))) ∧
  (∀ (id : BitVec 16) (s : State),
    s.por = false → s.boot.addr.isSome = true → id ≠ 0x200 ∧ id ≠ 0x201 ∧ id ≠ 0x202 ∧ id ≠ 0x203 →
    Answers (.pldmSensorRead id) s fun t =>
      t = s)

/-- For every state: settling never lowers a level, and raises each to what its reasons ask for, at most 15 for a site and 3 for the hub;
where the brake or the critical-temperature hold is in force every site level is then at least 12 and the hub level at least 3. BRAKE from
a state whose reset is not held leads there, with its alert bit 2 set. (R394, R395, R407, R411, R412) -/
def Obligations.BrakeAndTripHoldLevels : Prop :=
  (∀ (d : Fin 13) (s : State), levelOf (settleLevels s) d.val = max (levelOf s d.val) (wanted (showBudget s) d.val)) ∧
  (∀ (d : Fin 13) (s : State), wanted s d.val ≤ (if d.val = 12 then 3 else 15)) ∧
  (∀ (d : Fin 13) (s : State), (s.lev.brake = true ∨ s.lev.crit = true) → (if d.val = 12 then 3 else 12) ≤ levelOf (settleLevels s) d.val) ∧
  (∀ s : State, s.por = false → s.held = false → ∃ t, exec .brake s = .next t ∧ t.lev.brake = true ∧ t.nv.inhibit = true ∧ bitAt (t.r (thrR 0x44)) 2 = true ∧
    ∀ d : Fin 13, (if d.val = 12 then 3 else 12) ≤ levelOf t d.val)

/-- For every state in which the reservations of PWR.SPLIT and the idle watts fit in B and the sites of partitions have a weight: the twelve
site allotments and those of hub, HBM and peer die sum to the effective budget. For every state whose sites within 2 % of their allotment
have a weight, the redistribution of maximum mode leaves the sum of the base allotments as it was. (R398, R399) -/
def Obligations.AllotmentsSumToTheBudget : Prop :=
  (∀ s : State, let sp := s.r (pwrR 0x50)
    bits sp 0 10 + bits sp 10 10 + bits sp 20 10 + s.fld (pwrR 0x54) 0 8 * (12 - (partSites s).length) ≤ budget s → ((partSites s).map (weightOf s)).sum ≠ 0 →
    ((baseAllot s).map Prod.snd).sum = budget s) ∧
  (∀ s : State,
    (((partSites s).filter fun k => let v := Tbl.getD (baseAllot s) k 0
      v * 16 * 98 ≤ Tbl.getD s.lev.power k 0 * 100 && Tbl.getD s.lev.power k 0 * 100 ≤ v * 16 * 102).map (weightOf s)).sum ≠ 0 →
    ((redistribute s (baseAllot s)).map Prod.snd).sum = ((baseAllot s).map Prod.snd).sum)

/-- POOL_TOTAL and POOL_CONFIGURATION apply in-band while src = 1 and through the sideband while src = 0; in-band while src = 0 they set
cfg_refused (16), through the sideband while src = 1, or while SBD has no address, nothing. POOL_EPOCH_END of a running pool puts this
package's record into every mailbox, takes a new total into force, gives a notice in force again and waits for the decision. POOL_DECISION
with a record of every member of the last epoch and equal totals ends the wait, raises pool_decision (17), shows the lateness and moves
POOL_STEP watts where a receiver and a donor exist; a record missing or unequal totals change nothing. POOL_RECORD_TIMEOUT while it waits
counts, sets the alert and ends the wait. POOL_MAILBOX_TICK takes the notices in. These run at the power master, which tells its partner
of what changed in one record; without one nothing happens. (R397, R416, R418, R419, R420) -/
def Obligations.PoolActs : Prop :=
  (∀ (a : Acc) (v : W32) (s : State),
    s.Up → inBand s = true →
    Answers (.poolTotal (some a) v) s fun t =>
      t = (clearLatches s pwrPage).setR (pwrR 0x204) (bits v.toNat 0 16)) ∧
  (∀ (a : Acc) (v : W32) (s : State),
    s.Up → inBand s = false →
    Answers (.poolTotal (some a) v) s fun t =>
      t = { (clearLatches s pwrPage).perr pwrPage 16 with wlatch := s.wlatch }) ∧
  (∀ (v : W32) (s : State),
    s.por = false → s.boot.addr.isSome = true → inBand s = false →
    Answers (.poolTotal none v) s fun t =>
      t = s.setR (pwrR 0x204) (bits v.toNat 0 16)) ∧
  (∀ (v : W32) (s : State),
    s.por = false → s.boot.addr = none →
    Answers (.poolTotal none v) s fun t =>
      t = s) ∧
  (∀ (v : W32) (s : State),
    s.por = false → s.boot.addr = none →
    Answers (.poolConfiguration none v) s fun t =>
      t = s) ∧
  (∀ (v : W32) (s : State),
    s.por = false → s.boot.addr.isSome = true → inBand s = true →
    Answers (.poolTotal none v) s fun t =>
      t = s) ∧
  (∀ (a : Acc) (v : W32) (s : State),
    s.Up → inBand s = true →
    Answers (.poolConfiguration (some a) v) s fun t =>
      t = setPoolCfg (clearLatches s pwrPage) v.toNat) ∧
  (∀ (v : W32) (s : State),
    s.por = false → s.boot.addr.isSome = true → inBand s = false →
    Answers (.poolConfiguration none v) s fun t =>
      t = setPoolCfg s v.toNat) ∧
  (∀ (m : Nat) (s : State),
    s.Up → powerMaster s = some m → poolOn s = true →
    Answers (.poolEpochEnd) s fun t =>
      let e := (s.hubTime / (epochMs s * 1000000) + (2 ^ 16 - 1)) % 2 ^ 16
      let x := toMailboxes s (0x40 * pkgNum s + 0x200 * (e % 2)) (poolRecord s e)
      let x := (x.setR (pwrR 0x21C) e).updLev fun l => { l with last := [], steps := 0, pending := true, paced := (0, 0) }
      let n := x.r (pwrR 0x204)
      let y := if n = x.lev.total then x else showShare (x.updLev fun l => { l with shares := scaleShares (poolMembers x) l.shares l.total n, total := n })
      let z := match paceDue y with
        | some v => sendNotice y v
        | none => y
      t = if powerKnown z = powerKnown s then z else z.report m []) ∧
  (∀ (s : State),
    s.Up → poolOn s = false →
    Answers (.poolEpochEnd) s fun t =>
      t = s) ∧
  (∀ (rs : List PoolMsg) (r d m : Nat) (s : State),
    s.Up → powerMaster s = some m → poolOn s = true → s.lev.pending = true → (poolMembers s).all (fun m => rs.any fun r => r.member == m && r.epoch == s.fld (pwrR 0x21C) 0 16) = true → rs.length = (poolMembers s).length → rs.all (fun r => some r.total == rs.head?.map PoolMsg.total) = true → poolTransfer rs (poolMembers s) s.lev.shares (s.fld (pwrR 0x208) 0 8) = some (r, d) →
    Answers (.poolDecision rs) s fun t =>
      let x := ((s.setR (pwrR 0x220) (fields ((List.range 8).map fun m => (8 * m, min 255 (lateOf rs m))))).updLev fun l => { l with pending := false }).irq pwrPage 17
      let y := showShare (x.updLev fun l => { l with shares := l.shares.zipIdx.map fun e => if e.2 = r then e.1 + s.fld (pwrR 0x208) 0 8 else if e.2 = d then e.1 - s.fld (pwrR 0x208) 0 8 else e.1 })
      t = if powerKnown y = powerKnown s then y else y.report m []) ∧
  (∀ (rs : List PoolMsg) (m : Nat) (s : State),
    s.Up → powerMaster s = some m → poolOn s = true → s.lev.pending = true → (poolMembers s).all (fun m => rs.any fun r => r.member == m && r.epoch == s.fld (pwrR 0x21C) 0 16) = true → rs.length = (poolMembers s).length → rs.all (fun r => some r.total == rs.head?.map PoolMsg.total) = true → poolTransfer rs (poolMembers s) s.lev.shares (s.fld (pwrR 0x208) 0 8) = none →
    Answers (.poolDecision rs) s fun t =>
      let x := ((s.setR (pwrR 0x220) (fields ((List.range 8).map fun m => (8 * m, min 255 (lateOf rs m))))).updLev fun l => { l with pending := false }).irq pwrPage 17
      t = x.report m []) ∧
  (∀ (rs : List PoolMsg) (s : State),
    s.Up → (poolMembers s).all (fun m => rs.any fun r => r.member == m && r.epoch == s.fld (pwrR 0x21C) 0 16) = false ∨ rs.all (fun r => some r.total == rs.head?.map PoolMsg.total) = false →
    Answers (.poolDecision rs) s fun t =>
      t = s) ∧
  (∀ (rs : List PoolMsg) (s : State),
    s.Up → s.lev.pending = false →
    Answers (.poolDecision rs) s fun t =>
      t = s) ∧
  (∀ (m : Nat) (s : State),
    s.Up → powerMaster s = some m → poolOn s = true → s.lev.pending = true →
    Answers (.poolRecordTimeout) s fun t =>
      t = (setAlert ((s.satFld (pwrR 0x218) 16 16 1).updLev fun l => { l with pending := false }) 5).report m []) ∧
  (∀ (s : State),
    s.Up → poolOn s = false ∨ s.lev.pending = false →
    Answers (.poolRecordTimeout) s fun t =>
      t = s) ∧
  (∀ (ns : List PaceMsg) (m : Nat) (s : State),
    s.Up → powerMaster s = some m →
    Answers (.poolMailboxTick ns) s fun t =>
      let y := mailboxTick (cpLine (cpLine s 0 8) 1 8) ns
      t = if powerKnown y = powerKnown s then y else y.report m []) ∧
  (∀ (ns : List PaceMsg) (s : State),
    s.Up → powerMaster s = none →
    Answers (.poolMailboxTick ns) s fun t =>
      t = s)

/-- For members below 8 without repeats and at least one: the equal shares of a total sum to it; shares of members alone, scaled from their
sum to a new total, sum to the new total. Whatever the records: a transfer that R419 decides on names two different members, the receiver
without thermal reason and with at most 2,800 W after it, the donor with at least 800 W after it and less lateness than the receiver.
(R416, R419) -/
def Obligations.TransfersKeepThePool : Prop :=
  (∀ (ms : List Nat) (n : Nat), ms ≠ [] → ms.Nodup → (∀ m ∈ ms, m < 8) → (equalShares ms n).sum = n) ∧
  (∀ (ms sh : List Nat) (n : Nat), ms.Nodup → (∀ m ∈ ms, m < 8) → sh.length = 8 → (∀ m, sh.getD m 0 ≠ 0 → m ∈ ms) → sh.sum ≠ 0 →
    (scaleShares ms sh sh.sum n).sum = n) ∧
  (∀ (rs : List PoolMsg) (ms sh : List Nat) (step r d : Nat), poolTransfer rs ms sh step = some (r, d) →
    r ∈ ms ∧ d ∈ ms ∧ r ≠ d ∧ (recOf rs r).thermal = false ∧ sh.getD r 0 + step ≤ 2800 ∧ 800 + step ≤ sh.getD d 0 ∧ lateOf rs d < lateOf rs r)

/-- For every state, source, class and error report. While FLT.WORD is 0: the incident takes the next 16-bit number, its class and open bit;
FIRST_SRC, FIRST_MASTER, FIRST_ADDR, FIRST_TIME and FIRST_DETAIL hold the event; the source's bit is set; the grace timer runs exactly for
a UCE-C or FATAL event. While it is not 0: the bit is set, MERGED rises by 1 (saturating), the class rises to the higher of the two, the
first-error record and the grace timer stay. A FATAL event then takes its immediate action in either case. (R427) -/
def Obligations.EventsOpenOrMerge : Prop :=
  ∀ (src : Fin 64) (r : ErrReport) (inst : Option Nat) (s : State),
    let c := r.cls.val
    let m := reportOf r
    ∃ t, faultEvent s src.val c m inst = (if c = 2 then fatalAct t inst else t) ∧ bitAt (t.r (fltR 0x40)) src.val = true ∧
      (s.r (fltR 0x40) = 0 →
        t.fld (fltR 0x6C) 0 16 = (s.fld (fltR 0x6C) 0 16 + 1) % 2 ^ 16 ∧ t.fld (fltR 0x6C) 16 1 = 1 ∧ t.fld (fltR 0x6C) 17 2 = c ∧
        t.r (fltR 0x80) = fields [(0, src.val), (8, c), (12, m.access), (31, 1)] ∧ t.r (fltR 0x84) = fields [(0, m.idx), (12, m.kind)] ∧
        t.r (fltR 0x88) = m.addr ∧ t.r (fltR 0x90) = s.hubTime % 2 ^ 64 ∧ t.r (fltR 0x98) = m.detail ∧ t.flt.grace = decide (1 ≤ c)) ∧
      (s.r (fltR 0x40) ≠ 0 →
        (∀ b < 64, bitAt (t.r (fltR 0x40)) b = (bitAt (s.r (fltR 0x40)) b || b == src.val)) ∧
        t.r (fltR 0x9C) = satAdd 32 (s.r (fltR 0x9C)) 1 ∧ t.fld (fltR 0x6C) 17 2 = max (s.fld (fltR 0x6C) 17 2) c ∧
        t.r (fltR 0x80) = s.r (fltR 0x80) ∧ t.r (fltR 0x84) = s.r (fltR 0x84) ∧ t.r (fltR 0x88) = s.r (fltR 0x88) ∧
        t.r (fltR 0x90) = s.r (fltR 0x90) ∧ t.r (fltR 0x98) = s.r (fltR 0x98) ∧ t.flt.grace = s.flt.grace)

/-- FAULT_EVENT and ISLAND_ERROR_PIN are the error event of their report; the pin of an island in reset is inactive, and so is its source. A
silent pin is FATAL for the island's instance, or the hub where the island is shared. CLOCK_LOST of an island AON does not monitor, of one
in reset, or whose clock is already lost, does nothing; of an island of an instance it is FATAL for the instance, of an STP island the
site's link is down, of an HPC island the port is, each with its bit of LIVENESS; of the PMI it is a CE and its readings stop counting;
CLOCK_RETURN ends the condition. HEARTBEAT_LOSS of a working instance is FATAL on LIVENESS with QM's or SCH's bit. PATROL_SCRUB that
corrects a word of a working instance is a CE of its island, one that does not is nothing. BANK_FAILURE of a working instance fails the
bank, once; of one in its boot self-test too, beside what its repair map lists. At an instance that does not work these do nothing
otherwise. (R41, R402, R424, R425, R426, R433, R439, R449, R450) -/
def Obligations.FaultsAreReported : Prop :=
  (∀ (src : Fin 64) (r : ErrReport) (s : State),
    s.por = false → 40 ≤ src.val ∨ islandHeld s src.val = false →
    Answers (.faultEvent src r) s fun t =>
      t = errorEvent s src.val r.cls.val (reportOf r) r.hit) ∧
  (∀ (src : Fin 64) (r : ErrReport) (s : State),
    s.por = false → src.val < 40 → islandHeld s src.val = true →
    Answers (.faultEvent src r) s fun t =>
      t = s) ∧
  (∀ (k : Island) (r : ErrReport) (s : State),
    s.por = false → islandHeld s k.val = false →
    Answers (.islandErrorPin k r) s fun t =>
      t = errorEvent s k.val r.cls.val (reportOf r) r.hit) ∧
  (∀ (k : Island) (r : ErrReport) (s : State),
    s.por = false → islandHeld s k.val = true →
    Answers (.islandErrorPin k r) s fun t =>
      t = s) ∧
  (∀ (k : Island) (s : State),
    s.por = false → islandHeld s k.val = false → sharedIsland k.val = true →
    Answers (.islandReportTimeout k) s fun t =>
      t = faultEvent s k.val 2 { idx := k.val } none) ∧
  (∀ (k : Island) (s : State),
    s.por = false → islandHeld s k.val = false → sharedIsland k.val = false →
    Answers (.islandReportTimeout k) s fun t =>
      t = faultEvent s k.val 2 { idx := k.val } (srcInst k.val)) ∧
  (∀ (k : Island) (s : State),
    s.por = false → islandHeld s k.val = true →
    Answers (.islandReportTimeout k) s fun t =>
      t = s) ∧
  (∀ (k : Island) (s : State),
    s.Up → k.val = 36 ∨ k.val = 37 ∨ k.val = 39 ∨ islandHeld s k.val = true ∨ s.flt.cond.contains k.val = true →
    Answers (.clockLost k) s fun t =>
      t = s) ∧
  (∀ (k : Island) (s : State),
    s.Up → monitored k.val = true → islandHeld s k.val = false → s.flt.cond.contains k.val = false → k.val < 32 → sharedIsland k.val = false →
    Answers (.clockLost k) s fun t =>
      let x : State := { s with flt := { s.flt with cond := k.val :: s.flt.cond } }
      t = livenessEvent x k.val 2 (some (k.val / 16))) ∧
  (∀ (k : Island) (s : State),
    s.Up → monitored k.val = true → islandHeld s k.val = false → s.flt.cond.contains k.val = false → k.val < 32 → sharedIsland k.val = true →
    Answers (.clockLost k) s fun t =>
      let x : State := { s with flt := { s.flt with cond := k.val :: s.flt.cond } }
      t = siteDown (livenessEvent x k.val 1 none) (6 * (k.val / 16) + (k.val % 16 - 8))) ∧
  (∀ (k : Island) (s : State),
    s.Up → monitored k.val = true → islandHeld s k.val = false → s.flt.cond.contains k.val = false → 32 ≤ k.val → k.val < 36 →
    Answers (.clockLost k) s fun t =>
      let x : State := { s with flt := { s.flt with cond := k.val :: s.flt.cond } }
      t = portFails (livenessEvent x k.val 1 none) (k.val - 32)) ∧
  (∀ (s : State),
    s.Up → islandHeld s 38 = false → s.flt.cond.contains 38 = false →
    Answers (.clockLost 38) s fun t =>
      t = (livenessEvent { s with flt := { s.flt with cond := 38 :: s.flt.cond } } 38 0 none).updLev fun l => { l with pmiLost := true }) ∧
  (∀ (k : Island) (s : State),
    s.por = false → k.val ≠ 38 →
    Answers (.clockReturn k) s fun t =>
      t = { s with flt := { s.flt with cond := s.flt.cond.filter (· != k.val) } }) ∧
  (∀ (s : State),
    s.por = false →
    Answers (.clockReturn 38) s fun t =>
      t = ({ s with flt := { s.flt with cond := s.flt.cond.filter (· != 38) } } : State).updLev fun l => { l with pmiLost := false }) ∧
  (∀ (i : Inst) (b : Bool) (s : State),
    s.Up → alive s i.val = false →
    Answers (.heartbeatLoss i b) s fun t =>
      t = s) ∧
  (∀ (i : Inst) (isl : Fin 16) (addr : W64) (b : Bool) (s : State),
    s.Up → alive s i.val = false →
    Answers (.patrolScrub i isl addr b) s fun t =>
      t = s) ∧
  (∀ (i : Inst) (w : Fin 9) (n : Fin 16) (s : State),
    s.Up → alive s i.val = false → booting s i.val = false →
    Answers (.bankFailure i w n) s fun t =>
      t = s) ∧
  (∀ (i : Inst) (w : Fin 9) (n : Fin 16) (s : State),
    s.Up → alive s i.val = false → booting s i.val = true →
    Answers (.bankFailure i w n) s fun t =>
      let x := { s with flt := { s.flt with banks := banksJoined s.nv.repair s.flt.banks } }
      t = bankFails x i.val w.val n.val) ∧
  (∀ (i : Inst) (b : Bool) (s : State),
    s.Up → alive s i.val = true →
    Answers (.heartbeatLoss i b) s fun t =>
      t = livenessEvent s (16 * i.val + if b then 4 else 2) 2 (some i.val)) ∧
  (∀ (i : Inst) (isl : Fin 16) (addr : W64) (s : State),
    s.Up → alive s i.val = true →
    Answers (.patrolScrub i isl addr true) s fun t =>
      t = faultEvent s (16 * i.val + isl.val) 0 { idx := 16 * i.val + isl.val, access := 3, addr := addr.toNat } none) ∧
  (∀ (i : Inst) (isl : Fin 16) (addr : W64) (s : State),
    s.Up →
    Answers (.patrolScrub i isl addr false) s fun t =>
      t = s) ∧
  (∀ (i : Inst) (w : Fin 9) (n : Fin 16) (s : State),
    s.Up → alive s i.val = true →
    Answers (.bankFailure i w n) s fun t =>
      t = bankFails s i.val w.val n.val) ∧
  (∀ (i : Inst) (w : Fin 9) (n : Fin 16) (s : State),
    s.Up → alive s i.val = true → s.flt.banks.contains (i.val, w.val, n.val) = true →
    Answers (.bankFailure i w n) s fun t =>
      t = s)

/-- ACK with the number of the open incident acknowledges it and stops the grace timer; with any other number nothing happens. A W1C write of
FLT.WORD clears the written bits whose condition does not hold in WORD, UCE and FATAL. Rearm sends the interrupt again while an incident
is open. CF_POP drops the oldest entry. INJECT outside MANUFACTURE sets inject_refused (16), in it it is the event named, with
FIRST_DETAIL bit 31 set; class 3 is none. SWEEP of a working instance and FULL of one that may hand over set busy, of another they end
with 0x10; while a self-test runs another is refused (17); SWEEP_DONE ends it with its result and the structures skipped. GRACE_EXPIRY
without a running timer does nothing; otherwise it sets escalated, raises the interrupt, logs the incident where log_en is set and sends
the PLDM event; a FATAL incident then starts the reset that recovery needs. (R17, R427, R428, R429, R430, R431, R432, R451, R452, R454) -/
def Obligations.FaultPageCommandsAct : Prop :=
  (∀ (a : Acc) (v : W32) (s : State),
    s.Up → s.fld (fltR 0x6C) 16 1 = 1 → s.fld (fltR 0x6C) 0 16 = bits v.toNat 0 16 →
    Answers (.fltAck a v) s fun t =>
      t = { (clearLatches s fltPage).setFld (fltR 0x6C) 19 1 1 with flt := { s.flt with grace := false } }) ∧
  (∀ (a : Acc) (v : W32) (s : State),
    s.Up → s.fld (fltR 0x6C) 16 1 = 0 ∨ s.fld (fltR 0x6C) 0 16 ≠ bits v.toNat 0 16 →
    Answers (.fltAck a v) s fun t =>
      t = { clearLatches s fltPage with wlatch := s.wlatch }) ∧
  (∀ (a : Acc) (v : W64) (s : State),
    s.Up →
    Answers (.fltWordClear a v) s fun t =>
      (∀ off ∈ [0x40, 0x48, 0x50], ∀ b < 64, bitAt (t.r (fltR off)) b = (bitAt (s.r (fltR off)) b && !(bitAt v.toNat b && !bitAt (condBits s) b))) ∧
      (t.r (fltR 0x40) = 0 → t.fld (fltR 0x6C) 16 1 = 0 ∧ t.flt.grace = false)) ∧
  (∀ (a : Acc) (v : W64) (s : State),
    s.Up →
    Answers (.fltWordClear a v) s fun t =>
      let m := v.toNat - (v.toNat &&& condBits s)
      let x := [0x40, 0x48, 0x50].foldl (fun s off => s.setR (fltR off) (s.r (fltR off) - (s.r (fltR off) &&& m))) (clearLatches s fltPage)
      let y := if bitAt m 54 then { x with trust := { x.trust with lost := false } } else x
      t = if y.r (fltR 0x40) = 0 then { y.setFld (fltR 0x6C) 16 1 0 with flt := { y.flt with grace := false } } else y) ∧
  (∀ (a : Acc) (s : State),
    s.Up → s.fld (fltR 0x6C) 16 1 = 1 →
    Answers (.fltIrqRearm a) s fun t =>
      t = faultIrq (clearLatches s fltPage)) ∧
  (∀ (a : Acc) (s : State),
    s.Up → s.fld (fltR 0x6C) 16 1 = 0 →
    Answers (.fltIrqRearm a) s fun t =>
      t = clearLatches s fltPage) ∧
  (∀ (a : Acc) (s : State),
    s.Up →
    Answers (.cfPop a) s fun t =>
      t = { clearLatches s fltPage with flt := { s.flt with cf := s.flt.cf.drop 1, cfOver := s.flt.cfOver && decide (2 ≤ s.flt.cf.length) } }) ∧
  (∀ (a : Acc) (h : Half) (v : Nat) (x s : State),
    s.Up → takeHalf s fltPage 0xD0 h = (x, some (some v)) → s.fw.lifecycle ≠ 0 →
    Answers (.fltInject a h) s fun t =>
      t = x.perr fltPage 16) ∧
  (∀ (a : Acc) (h : Half) (v : Nat) (x s : State),
    s.Up → takeHalf s fltPage 0xD0 h = (x, some (some v)) → s.fw.lifecycle = 0 → bits v 8 2 ≠ 3 →
    Answers (.fltInject a h) s fun t =>
      t = errorEvent x (bits v 0 6) (bits v 8 2) { idx := if bits v 0 6 < 40 then bits v 0 6 else 0, detail := 2 ^ 31 + (bits v 0 31 - (bits v 0 31 &&& 0x33F)) } .none) ∧
  (∀ (a : Acc) (h : Half) (v : Nat) (x s : State),
    s.Up → takeHalf s fltPage 0xD0 h = (x, some (some v)) → s.fw.lifecycle = 0 → bits v 8 2 = 3 →
    Answers (.fltInject a h) s fun t =>
      t = x) ∧
  (∀ (a : Acc) (h : Half) (x s : State),
    s.Up → takeHalf s fltPage 0xD0 h = (x, none) →
    Answers (.fltInject a h) s fun t =>
      t = x) ∧
  (∀ (a : Acc) (i : Inst) (s : State),
    s.Up → s.flt.bist = none → alive s i.val = false →
    Answers (.sweep a i) s fun t =>
      t = bistEnd (clearLatches s fltPage) 0x10 0) ∧
  (∀ (a : Acc) (i : Inst) (s : State),
    s.Up → s.flt.bist = none → handoverOk s i.val = false →
    Answers (.full a i) s fun t =>
      t = bistEnd (clearLatches s fltPage) 0x10 0) ∧
  (∀ (a : Acc) (i : Inst) (s : State),
    s.Up → s.flt.bist ≠ none →
    Answers (.full a i) s fun t =>
      t = { (clearLatches s fltPage).perr fltPage 17 with wlatch := s.wlatch }) ∧
  (∀ (ok : Bool) (s : State),
    s.Up → s.flt.bist = none →
    Answers (.sweepDone ok) s fun t =>
      t = s) ∧
  (∀ (a : Acc) (i : Inst) (s : State),
    s.Up → s.flt.bist = none → alive s i.val = true →
    Answers (.sweep a i) s fun t =>
      t = { clearLatches s fltPage with flt := { s.flt with bist := some (i.val, 1) } }.setR (fltR 0xC4) 1) ∧
  (∀ (a : Acc) (i : Inst) (s : State),
    s.Up → s.flt.bist ≠ none →
    Answers (.sweep a i) s fun t =>
      t = { (clearLatches s fltPage).perr fltPage 17 with wlatch := s.wlatch }) ∧
  (∀ (a : Acc) (i : Inst) (s : State),
    s.Up → s.flt.bist = none → handoverOk s i.val = true →
    Answers (.full a i) s fun t =>
      t = handoverBegin ({ clearLatches s fltPage with flt := { s.flt with bist := some (i.val, 2) } }.setR (fltR 0xC4) 1) i.val 5) ∧
  (∀ (ok : Bool) (i : Nat) (s : State),
    s.Up → s.flt.bist = some (i, 1) →
    Answers (.sweepDone ok) s fun t =>
      t = bistEnd s (if ok then 1 else 2) (onesOf (s.fld (fltR 0xC8) (8 * i) 8) 8).length) ∧
  (∀ (s : State),
    s.por = false → s.flt.grace = false →
    Answers (.graceExpiry) s fun t =>
      t = s) ∧
  (∀ (s : State),
    s.por = false → s.flt.grace = true → s.fld (fltR 0x6C) 17 2 ≠ 2 →
    Answers (.graceExpiry) s fun t =>
      let x := (({ s with flt := { s.flt with grace := false } } : State).setFld (fltR 0x6C) 20 1 1).irq fltPage 17
      let y := if bitAt (x.r (fltR 0x68)) 1 then pushLog x (incidentEntry x) else x
      t = y.emit (.pldmEvent (y.fld (fltR 0x80) 0 6) (s.fld (fltR 0x6C) 17 2))) ∧
  (∀ (s : State),
    s.por = false → s.flt.grace = true → s.fld (fltR 0x6C) 17 2 = 2 →
    Answers (.graceExpiry) s fun t =>
      let x := (({ s with flt := { s.flt with grace := false } } : State).setFld (fltR 0x6C) 20 1 1).irq fltPage 17
      let y := if bitAt (x.r (fltR 0x68)) 1 then pushLog x (incidentEntry x) else x
      let z := bothInst (y.emit (.pldmEvent (y.fld (fltR 0x80) 0 6) 2)) fun s i =>
        if (s.mir.get i).fenced && (s.mir.get i).inst == .resetting && !(s.mir.get i).takenOver && (s.mir.get i).failed && !(s.mir.get i).resetRun then
          s.updMir i fun m => { m with resetRun := true } else s
      t = if z.flt.hubFatal && bitAt (z.r (fltR 0x68)) 0 then { z with boot := { z.boot with asked := true } }.emit .warmReq else z)

/-- TAKEOVER of a failed working instance of a PROTECTED pair fences it and its partner takes over its work; of an instance that hands over it
switches once nothing is in flight, its dirty coherent lines cleaned and its ring swept before; otherwise nothing. HANDOVER in a PROTECTED
pair without another switch starts the planned switch, elsewhere ends BAD_STATE (0x10); while busy it sets cmd_refused. HANDOVER_TIMEOUT
of one that MIR.CMD began ends it with TIMEOUT (0x17), of a REJOIN's switch the REJOIN. REJOIN of an understudy whose partner is in
STANDBY starts SYNCING, else BAD_STATE. MIRROR_SYNCED outside a rejoin makes both PROTECTED and what waited visible; in one the work goes
back once it may. MIRROR_LINK_UP of two working instances in LINK_LOST starts SYNCING where they have one major version; MIRROR_LINK_LOST
outside SYNCING and PROTECTED does nothing. MIRROR_CHANGE_HELD makes the oldest waiting change visible. INSTANCE_RESET_END of an instance
with an understudy (not after a failed test) leads to STANDBY, of one without to service with every queue DISABLED; after a failed FULL
test it ends the test. (R435, R437, R439, R440, R445, R446, R447, R448, R451) -/
def Obligations.PairCommandsAct : Prop :=
  (∀ (i : Inst) (s : State),
    s.Up → protected_ s i.val = true → alive s i.val = true → (s.mir.get i.val).failed = true →
    Answers (.takeover i) s fun t =>
      t = takeOver s i.val) ∧
  (∀ (i : Inst) (s : State),
    s.Up → protected_ s i.val = true → alive s i.val = true → (s.mir.get i.val).failed = false → (s.mir.get i.val).handover = true → switchReady s i.val i.val ((List.range 12).filter fun k => owner s k == i.val) (onesOf (s.r (hlcR i.val 0x40)) 4) = true →
    Answers (.takeover i) s fun t =>
      t = takeOver s i.val) ∧
  (∀ (i : Inst) (s : State),
    s.Up → protected_ s i.val = true → alive s i.val = true → (s.mir.get i.val).failed = false → (s.mir.get i.val).handover = true → switchReady s i.val i.val ((List.range 12).filter fun k => owner s k == i.val) (onesOf (s.r (hlcR i.val 0x40)) 4) = false →
    Answers (.takeover i) s fun t =>
      t = switchClean s i.val ((List.range 12).filter fun k => owner s k == i.val) (onesOf (s.r (hlcR i.val 0x40)) 4)) ∧
  (∀ (i : Inst) (s : State),
    s.Up → (s.mir.get i.val).failed = false → (s.mir.get i.val).handover = false →
    Answers (.takeover i) s fun t =>
      t = s) ∧
  (∀ (i : Inst) (a : Acc) (s : State),
    s.Serves i.val → s.Free (mirPage i.val) → s.fld (mirR i.val 0x48) 0 1 = 0 → handoverOk s i.val = true →
    Answers (.handover i a) s fun t =>
      t = handoverBegin ((clearLatches s (mirPage i.val)).setR (mirR i.val 0x48) 1) i.val 4) ∧
  (∀ (i : Inst) (a : Acc) (s : State),
    s.Serves i.val → s.Free (mirPage i.val) → alive s i.val = true → s.fld (mirR i.val 0x48) 0 1 = 0 → handoverOk s i.val = false →
    Answers (.handover i a) s fun t =>
      t = mirEnd ((clearLatches s (mirPage i.val)).setR (mirR i.val 0x48) 1) i.val 0x10) ∧
  (∀ (i : Inst) (s : State),
    s.Up → (s.mir.get i.val).handover = true → (s.mir.get (partner i.val)).rejoin = false → (s.mir.get i.val).why = 4 → s.fw.upd = none →
    Answers (.handoverTimeout i) s fun t =>
      t = mirEnd (s.updMir i.val fun m => { m with handover := false }) i.val 0x17) ∧
  (∀ (i : Inst) (a : Acc) (s : State),
    s.Serves i.val → s.Free (mirPage i.val) → alive s i.val = true → s.fld (mirR i.val 0x48) 0 1 = 0 → rejoinOk s i.val = true →
    Answers (.rejoin i a) s fun t =>
      t = rejoinBegin ((clearLatches s (mirPage i.val)).setR (mirR i.val 0x48) 1) i.val) ∧
  (∀ (i : Inst) (a : Acc) (s : State),
    s.Serves i.val → s.Free (mirPage i.val) → alive s i.val = true → s.fld (mirR i.val 0x48) 0 1 = 0 → rejoinOk s i.val = false →
    Answers (.rejoin i a) s fun t =>
      t = mirEnd ((clearLatches s (mirPage i.val)).setR (mirR i.val 0x48) 1) i.val 0x10) ∧
  (∀ (i : Inst) (a : Acc) (s : State),
    s.Serves i.val → s.Free (mirPage i.val) → alive s i.val = true → s.fld (mirR i.val 0x48) 0 1 = 1 →
    Answers (.handover i a) s fun t =>
      t = { (clearLatches s (mirPage i.val)).perr (mirPage i.val) 16 with wlatch := s.wlatch }) ∧
  (∀ (i : Inst) (s : State),
    s.Up → (s.mir.get i.val).handover = false →
    Answers (.handoverTimeout i) s fun t =>
      t = s) ∧
  (∀ (i : Inst) (s : State),
    s.Up → (s.mir.get i.val).handover = true → (s.mir.get (partner i.val)).rejoin = true →
    Answers (.handoverTimeout i) s fun t =>
      t = rejoinFails s (partner i.val) 0x17) ∧
  (∀ (s : State),
    s.Up → (s.mir.get 0).pair ≠ .syncing ∨ (s.mir.get 1).pair ≠ .syncing →
    Answers (.mirrorSynced) s fun t =>
      t = s) ∧
  (∀ (u : Inst) (s : State),
    s.Up → (s.mir.get 0).pair = .syncing ∧ (s.mir.get 1).pair = .syncing → [0, 1].find? (fun u => (s.mir.get u).rejoin) = some u.val →
    Answers (.mirrorSynced) s fun t =>
      let x := s.updMir (partner u.val) fun m => { m with handover := true }
      t = if switchReady x (partner u.val) u.val (sitesBack x (partner u.val)) (x.mir.get (partner u.val)).cohAt then switchBack x (partner u.val)
        else switchClean x u.val (sitesBack x (partner u.val)) (x.mir.get (partner u.val)).cohAt) ∧
  (∀ (s : State),
    s.Up → (s.mir.get 0).pair = .syncing ∧ (s.mir.get 1).pair = .syncing → (s.mir.get 0).rejoin = false ∧ (s.mir.get 1).rejoin = false →
    Answers (.mirrorSynced) s fun t =>
      t = setPair (setPair (bothInst s fun s i => (s.mir.get i).wait.foldl (applyReport i) (s.updMir i fun m => { m with wait := [] })) 0 .prot) 1 .prot) ∧
  (∀ (s : State),
    s.Up → (s.mir.get 0).pair = .syncing ∧ (s.mir.get 1).pair = .syncing → (s.mir.get 0).rejoin = false ∧ (s.mir.get 1).rejoin = false → (s.mir.get 0).wait = [] ∧ (s.mir.get 1).wait = [] →
    Answers (.mirrorSynced) s fun t =>
      (t.mir.get 0).pair = .prot ∧ (t.mir.get 1).pair = .prot ∧ t.regs = s.regs) ∧
  (∀ (s : State),
    s.Up → pairMode s = true → (∀ i : Inst, alive s i.val = true ∧ (s.mir.get i.val).inst = .active ∧ (s.mir.get i.val).pair = .linkLost) →
    Answers (.mirrorLinkUp) s fun t =>
      let x := bothInst s fun s i => s.updMir i fun m => { m with linkUp := true }
      t = if majorOf s 0 == majorOf s 1 then setPair (setPair x 0 .syncing) 1 .syncing else x) ∧
  (∀ (s : State),
    s.Up → (pairMode s = false ∨ ∃ i : Inst, alive s i.val = false ∨ (s.mir.get i.val).inst ≠ .active ∨ (s.mir.get i.val).pair ≠ .linkLost) →
    Answers (.mirrorLinkUp) s fun t =>
      t = s) ∧
  (∀ (s : State),
    s.Up → (s.mir.get 0).pair ≠ .syncing ∧ (s.mir.get 0).pair ≠ .prot →
    Answers (.mirrorLinkLost) s fun t =>
      t = s) ∧
  (∀ (s : State),
    s.Up → (s.mir.get 0).pair = .prot ∧ (s.mir.get 1).pair = .prot → (s.mir.get 0).rejoin = false ∧ (s.mir.get 1).rejoin = false →
    Answers (.mirrorLinkLost) s fun t =>
      (t.mir.get 0).pair = .linkLost ∧ (t.mir.get 1).pair = .linkLost ∧ bitAt (t.r (fltR 0x40)) 7 = true ∧ bitAt (t.r (fltR 0x40)) 23 = true ∧
      bitAt (t.r ((mirPage 0).key + 0x18)) 17 = true ∧ bitAt (t.r ((mirPage 1).key + 0x18)) 17 = true) ∧
  (∀ (i : Inst) (s : State),
    s.Up → alive s i.val = false ∨ (s.mir.get i.val).pair ≠ .prot ∨ (s.mir.get i.val).wait = [] →
    Answers (.mirrorChangeHeld i) s fun t =>
      t = s) ∧
  (∀ (i : Inst) (r : Report) (rest : List Report) (s : State),
    s.Up → alive s i.val = true → (s.mir.get i.val).pair = .prot → (s.mir.get i.val).wait = r :: rest →
    Answers (.mirrorChangeHeld i) s fun t =>
      t = applyReport i.val (s.updMir i.val fun m => { m with wait := rest }) r) ∧
  (∀ (i : Inst) (ok : Bool) (s : State),
    s.Up → (s.mir.get i.val).inst ≠ .resetting ∨ (s.mir.get i.val).resetRun = false →
    Answers (.instanceResetEnd i ok) s fun t =>
      t = s) ∧
  (∀ (i : Inst) (s : State),
    s.Up → (s.mir.get i.val).inst = .resetting → (s.mir.get i.val).resetRun = true → (s.mir.get i.val).takenOver = true → (s.mir.get i.val).why = 5 →
    Answers (.instanceResetEnd i false) s fun t =>
      t = bistEnd (s.updMir i.val fun m => { m with resetRun := false }) 2 0) ∧
  (∀ (i : Inst) (ok : Bool) (s : State),
    s.Up → (s.mir.get i.val).inst = .resetting → (s.mir.get i.val).resetRun = true → (s.mir.get i.val).takenOver = false →
    Answers (.instanceResetEnd i ok) s fun t =>
      t = comeUpAlone (rebootFw s i.val) i.val) ∧
  (∀ (i : Inst) (ok : Bool) (s : State),
    s.Up → (s.mir.get i.val).inst = .resetting → (s.mir.get i.val).resetRun = true → (s.mir.get i.val).takenOver = true → (s.mir.get i.val).why = 3 →
    Answers (.instanceResetEnd i ok) s fun t =>
      t = rebootFw (s.updMir i.val fun m => { m with pair := .standby, resetRun := false }) i.val)

/-- A restart keeps the longest interval in WDOG_MAX (µs, at most 65,535), takes the time and ends the warning; a warning asserts source 0; an
expiry is FATAL on the CP island's bit. INTERRUPT_TAKE with the global mask clear enters the most urgent ready source: RP takes its
priority, the old RP is pushed, an event's line falls and the core is awake; with the mask set, or with nothing ready, only the core's
settings are taken. END_OF_INTERRUPT pops the stack into RP. WAIT with the mask set puts the core to sleep, with the mask clear not;
CP_WAKE with a ready source wakes it. HOUSEKEEPING_TICK asserts source 46. At an instance that does not work none of them does anything.
(R457, R458, R459, R460, R461) -/
def Obligations.ControlProcessorEvents : Prop :=
  (∀ (i : Inst) (s : State),
    s.Up → alive s i.val = true →
    Answers (.watchdogRestart i) s fun t =>
      let d := min ((s.time i.val - (s.cpu i.val).restart) / 1000) 65535
      t = (if s.r (cpiR i.val 0x68) < d then s.setR (cpiR i.val 0x68) d else s).updCp i.val fun c => { c with restart := s.time i.val, warned := false }) ∧
  (∀ (i : Inst) (s : State),
    s.Up → alive s i.val = true →
    Answers (.watchdogWarning i) s fun t =>
      t = s.updCp i.val fun c => { c with warned := true }) ∧
  (∀ (i : Inst) (s : State),
    s.Up → alive s i.val = true →
    Answers (.watchdogExpiry i) s fun t =>
      t = faultEvent s (16 * i.val + 5) 2 { kind := 0, idx := 16 * i.val + 5 } (some i.val)) ∧
  (∀ (i : Inst) (c : CpCore) (n : Nat) (s : State),
    s.Up → alive s i.val = true → c.mask = false → urgent (coreSet s i.val c) i.val = some n →
    Answers (.interruptTake i c) s fun t =>
      t = (coreSet s i.val c).updCp i.val fun x =>
        { x with rp := srcPrio n, stack := x.rp :: x.stack, active := n :: x.active, lines := x.lines.filter (· != n), asleep := false }) ∧
  (∀ (i : Inst) (c : CpCore) (s : State),
    s.Up → alive s i.val = true → c.mask = true ∨ urgent (coreSet s i.val c) i.val = none →
    Answers (.interruptTake i c) s fun t =>
      t = coreSet s i.val c) ∧
  (∀ (i : Inst) (p : Nat) (r : List Nat) (s : State),
    s.Up → alive s i.val = true → (s.cpu i.val).stack = p :: r →
    Answers (.endOfInterrupt i) s fun t =>
      t = s.updCp i.val fun c => { c with rp := p, stack := r, active := c.active.drop 1 }) ∧
  (∀ (i : Inst) (s : State),
    s.Up → alive s i.val = true → (s.cpu i.val).stack = [] →
    Answers (.endOfInterrupt i) s fun t =>
      t = s) ∧
  (∀ (i : Inst) (c : CpCore) (s : State),
    s.Up → alive s i.val = true →
    Answers (.wait i c) s fun t =>
      t = (coreSet s i.val c).updCp i.val fun x => { x with asleep := x.asleep || c.mask }) ∧
  (∀ (i : Inst) (c : CpCore) (s : State),
    s.Up → alive s i.val = true → ready (coreSet s i.val c) i.val ≠ [] →
    Answers (.cpWake i c) s fun t =>
      t = (coreSet s i.val c).updCp i.val fun x => { x with asleep := false }) ∧
  (∀ (i : Inst) (c : CpCore) (s : State),
    s.Up → alive s i.val = true → ready (coreSet s i.val c) i.val = [] →
    Answers (.cpWake i c) s fun t =>
      t = coreSet s i.val c) ∧
  (∀ (i : Inst) (s : State),
    s.Up → alive s i.val = true →
    Answers (.housekeepingTick i) s fun t =>
      t = cpLine s i.val 46) ∧
  (∀ (i : Inst) (s : State),
    s.Up → alive s i.val = false →
    Answers (.watchdogRestart i) s fun t =>
      t = s) ∧
  (∀ (i : Inst) (s : State),
    s.Up → alive s i.val = false →
    Answers (.watchdogWarning i) s fun t =>
      t = s) ∧
  (∀ (i : Inst) (s : State),
    s.Up → alive s i.val = false →
    Answers (.watchdogExpiry i) s fun t =>
      t = s) ∧
  (∀ (i : Inst) (s : State),
    s.Up → alive s i.val = false →
    Answers (.endOfInterrupt i) s fun t =>
      t = s) ∧
  (∀ (i : Inst) (s : State),
    s.Up → alive s i.val = false →
    Answers (.housekeepingTick i) s fun t =>
      t = s) ∧
  (∀ (i : Inst) (c : CpCore) (s : State),
    s.Up → alive s i.val = false →
    Answers (.interruptTake i c) s fun t =>
      t = s) ∧
  (∀ (i : Inst) (c : CpCore) (s : State),
    s.Up → alive s i.val = false →
    Answers (.wait i c) s fun t =>
      t = s) ∧
  (∀ (i : Inst) (c : CpCore) (s : State),
    s.Up → alive s i.val = false →
    Answers (.cpWake i c) s fun t =>
      t = s)

/-- For every state and working instance: where INTERRUPT_TAKE enters source n, n is asserted, enabled and not active, its priority is above
RP and above the threshold, and no ready source has a higher one, nor an equal one and a lower number. END_OF_INTERRUPT after it gives
back the RP, the stack and the active sources of before. (R459, R460) -/
def Obligations.InterruptsNestByPriority : Prop :=
  (∀ (i : Inst) (n : Nat) (s : State), urgent s i.val = some n →
    n < 47 ∧ lineUp s i.val n = true ∧ bitAt (s.cpu i.val).en n = true ∧ n ∉ (s.cpu i.val).active ∧ (s.cpu i.val).rp < srcPrio n ∧ (s.cpu i.val).thr < srcPrio n ∧
    ∀ m ∈ ready s i.val, srcPrio m < srcPrio n ∨ (srcPrio m = srcPrio n ∧ n ≤ m)) ∧
  (∀ (i : Inst) (c : CpCore) (n : Nat) (s t u : State), s.Up → alive s i.val = true → c.mask = false → urgent (coreSet s i.val c) i.val = some n →
    exec (.interruptTake i c) s = .next t → exec (.endOfInterrupt i) t = .next u →
    (u.cpu i.val).rp = (s.cpu i.val).rp ∧ (u.cpu i.val).stack = (s.cpu i.val).stack ∧ (u.cpu i.val).active = (s.cpu i.val).active)

/-- With a responder (the power master): VERSION restarts a mailbox's negotiation; CAPABILITIES and ALGORITHMS advance it, each refused out of
order or without a common choice; before the negotiation is complete DIGESTS, CERTIFICATE, CHALLENGE, MEASUREMENTS and KEY_EXCHANGE give
an unexpected-request error. After it: slot 0 is served and another is refused; MEASUREMENTS answers the number of indices and the values
asked for, signed where asked; an index that is not present is refused; a signature is a free value of the model; a decommissioned package
signs nothing; KEY_EXCHANGE opens a session of the lowest free number, an error 0x0A without one; FINISH with a good proof makes the
session ready, with a bad one ends it; HEARTBEAT, KEY_UPDATE with operations 1 to 3 and END_SESSION act only inside a ready session of the
same mailbox, and give an invalid-session error elsewhere. Message codes are the model's (log entry 60). (R468, R469, R470, R473) -/
def Obligations.SpdmRequestsAreAnswered : Prop :=
  (∀ (p : Port) (r : Nat) (s : State),
    s.Up → powerMaster s = some r →
    Answers (.getVersion p) s fun t =>
      t = (setBox (cpBoth s 6) p.val 1).emit (.spdm p.val 0x04 [0x12, 0x13])) ∧
  (∀ (p : Port) (v : Byte) (r : Nat) (s : State),
    s.Up → powerMaster s = some r → boxOf s p.val ≠ 0 → v = 0x12 ∨ v = 0x13 →
    Answers (.getCapabilities p v) s fun t =>
      t = (setBox (bothInst (cpBoth s 6) fun s i => s.setFld (secR i 0x4C) 16 8 v.toNat) p.val 2).emit (.spdm p.val 0x61 [v.toNat, 20, 0x62D6])) ∧
  (∀ (p : Port) (v : Byte) (r : Nat) (s : State),
    s.Up → powerMaster s = some r → boxOf s p.val = 0 →
    Answers (.getCapabilities p v) s fun t =>
      t = spdmError (cpBoth s 6) p.val 4) ∧
  (∀ (p : Port) (v : Byte) (r : Nat) (s : State),
    s.Up → powerMaster s = some r → boxOf s p.val ≠ 0 → v ≠ 0x12 ∧ v ≠ 0x13 →
    Answers (.getCapabilities p v) s fun t =>
      t = spdmError (cpBoth s 6) p.val 0x41) ∧
  (∀ (p : Port) (r : Nat) (s : State),
    s.Up → powerMaster s = some r → 2 ≤ boxOf s p.val →
    Answers (.negotiateAlgorithms p false) s fun t =>
      t = spdmError (cpBoth s 6) p.val 1) ∧
  (∀ (p : Port) (r : Nat) (s : State),
    s.Up → powerMaster s = some r → boxOf s p.val ≠ 3 →
    Answers (.getDigests p) s fun t =>
      t = spdmError (cpBoth s 6) p.val 4) ∧
  (∀ (p : Port) (k : BitVec 4) (o n : BitVec 16) (r : Nat) (s : State),
    s.Up → powerMaster s = some r → boxOf s p.val ≠ 3 →
    Answers (.getCertificate p k o n) s fun t =>
      t = spdmError (cpBoth s 6) p.val 4) ∧
  (∀ (p : Port) (k : BitVec 4) (n : Nat) (r : Nat) (s : State),
    s.Up → powerMaster s = some r → boxOf s p.val ≠ 3 →
    Answers (.challenge p k n) s fun t =>
      t = spdmError (cpBoth s 6) p.val 4) ∧
  (∀ (p : Port) (x : Byte) (b : Bool) (k : BitVec 4) (n : Nat) (r : Nat) (s : State),
    s.Up → powerMaster s = some r → boxOf s p.val ≠ 3 →
    Answers (.getMeasurements p x b k n) s fun t =>
      t = spdmError (cpBoth s 6) p.val 4) ∧
  (∀ (p : Port) (k : BitVec 4) (q : BitVec 16) (r : Nat) (s : State),
    s.Up → powerMaster s = some r → boxOf s p.val ≠ 3 →
    Answers (.keyExchange p k q) s fun t =>
      t = spdmError (cpBoth s 6) p.val 4) ∧
  (∀ (p : Port) (k : BitVec 4) (n : Nat) (r : Nat) (s : State),
    s.Up → powerMaster s = some r → boxOf s p.val = 3 → decommissioned s = false → k ≠ 0 →
    Answers (.challenge p k n) s fun t =>
      t = spdmError (cpBoth s 6) p.val 1) ∧
  (∀ (p : Port) (k : BitVec 4) (q : BitVec 16) (r : Nat) (s : State),
    s.Up → powerMaster s = some r → boxOf s p.val = 3 → decommissioned s = false → k ≠ 0 →
    Answers (.keyExchange p k q) s fun t =>
      t = spdmError (cpBoth s 6) p.val 1) ∧
  (∀ (p : Port) (k : BitVec 4) (q : BitVec 16) (r : Nat) (s : State),
    s.Up → powerMaster s = some r → boxOf s p.val = 3 → decommissioned s = true →
    Answers (.keyExchange p k q) s fun t =>
      t = spdmError (cpBoth s 6) p.val 5) ∧
  (∀ (p : Port) (sid : W32) (b : Bool) (r : Nat) (s : State),
    s.Up → powerMaster s = some r → Tbl.find s.trust.sessions sid.toNat = none →
    Answers (.finish p sid b) s fun t =>
      t = spdmError (cpBoth s 6) p.val 2) ∧
  (∀ (p : Port) (sid : W32) (b : Bool) (x : Session) (r : Nat) (s : State),
    s.Up → powerMaster s = some r → Tbl.find s.trust.sessions sid.toNat = some x → x.port ≠ p.val ∨ x.ready = true →
    Answers (.finish p sid b) s fun t =>
      t = spdmError (cpBoth s 6) p.val 4) ∧
  (∀ (p : Port) (sid : W32) (op : Byte) (r : Nat) (s : State),
    s.Up → powerMaster s = some r → Tbl.find s.trust.sessions sid.toNat = some ⟨p.val, true⟩ → op.toNat = 0 ∨ 3 < op.toNat →
    Answers (.keyUpdate p sid op) s fun t =>
      t = spdmError (cpBoth s 6) p.val 1) ∧
  (∀ (p : Port) (sid : W32) (op : Byte) (r : Nat) (s : State),
    s.Up → powerMaster s = some r → ((Tbl.find s.trust.sessions sid.toNat).any fun x => x.port == p.val && x.ready) = false →
    Answers (.keyUpdate p sid op) s fun t =>
      t = spdmError (cpBoth s 6) p.val 2) ∧
  (∀ (p : Port) (sid : W32) (r : Nat) (s : State),
    s.Up → powerMaster s = some r → ((Tbl.find s.trust.sessions sid.toNat).any fun x => x.port == p.val && x.ready) = false →
    Answers (.endSession p sid) s fun t =>
      t = spdmError (cpBoth s 6) p.val 2) ∧
  (∀ (p : Port) (s : State),
    s.Up → powerMaster s = none →
    Answers (.getVersion p) s fun t =>
      t = cpBoth s 6) ∧
  (∀ (p : Port) (r : Nat) (s : State),
    s.Up → powerMaster s = some r → 2 ≤ boxOf s p.val →
    Answers (.negotiateAlgorithms p true) s fun t =>
      t = (setBox (cpBoth s 6) p.val 3).emit (.spdm p.val 0x63 [0x80, 2, 0x10, 2])) ∧
  (∀ (p : Port) (b : Bool) (r : Nat) (s : State),
    s.Up → powerMaster s = some r → boxOf s p.val < 2 →
    Answers (.negotiateAlgorithms p b) s fun t =>
      t = spdmError (cpBoth s 6) p.val 4) ∧
  (∀ (p : Port) (r : Nat) (s : State),
    s.Up → powerMaster s = some r → boxOf s p.val = 3 →
    Answers (.getDigests p) s fun t =>
      t = (secretValue (cpBoth s 6)).2.emit (.spdm p.val 0x01 [1, (secretValue (cpBoth s 6)).1])) ∧
  (∀ (p : Port) (o n : BitVec 16) (r : Nat) (s : State),
    s.Up → powerMaster s = some r → boxOf s p.val = 3 →
    Answers (.getCertificate p 0 o n) s fun t =>
      t = (secretValue (cpBoth s 6)).2.emit (.spdm p.val 0x02 [0, o.toNat, n.toNat, (secretValue (cpBoth s 6)).1])) ∧
  (∀ (p : Port) (k : BitVec 4) (o n : BitVec 16) (r : Nat) (s : State),
    s.Up → powerMaster s = some r → boxOf s p.val = 3 → k ≠ 0 →
    Answers (.getCertificate p k o n) s fun t =>
      t = spdmError (cpBoth s 6) p.val 1) ∧
  (∀ (p : Port) (n : Nat) (r : Nat) (s : State),
    s.Up → powerMaster s = some r → boxOf s p.val = 3 → decommissioned s = false →
    Answers (.challenge p 0 n) s fun t =>
      t = (secretValue (cpLine (cpBoth s 6) r 5)).2.emit (.spdm p.val 0x03 [0, n, (secretValue (cpLine (cpBoth s 6) r 5)).1])) ∧
  (∀ (p : Port) (k : BitVec 4) (n : Nat) (r : Nat) (s : State),
    s.Up → powerMaster s = some r → boxOf s p.val = 3 → decommissioned s = true →
    Answers (.challenge p k n) s fun t =>
      t = spdmError (cpBoth s 6) p.val 5) ∧
  (∀ (p : Port) (idx : Byte) (k : BitVec 4) (n : Nat) (ms : List Nat) (r : Nat) (s : State),
    s.Up → powerMaster s = some r → boxOf s p.val = 3 → ms = (if idx.toNat = 0xFF then measured s else if idx.toNat = 0 then [] else (measured s).filter (· == idx.toNat)) → ms ≠ [] ∨ idx = 0 →
    Answers (.getMeasurements p idx false k n) s fun t =>
      t = (cpBoth s 6).emit (.spdm p.val 0x60 ((measured s).length :: ms.flatMap fun m => m :: ((measurement s m).getD []).length :: (measurement s m).getD []))) ∧
  (∀ (p : Port) (idx : Byte) (n : Nat) (ms : List Nat) (r : Nat) (s : State),
    s.Up → powerMaster s = some r → boxOf s p.val = 3 → decommissioned s = false → ms = (if idx.toNat = 0xFF then measured s else if idx.toNat = 0 then [] else (measured s).filter (· == idx.toNat)) → ms ≠ [] ∨ idx = 0 →
    Answers (.getMeasurements p idx true 0 n) s fun t =>
      let x := secretValue (cpLine (cpBoth s 6) r 5)
      t = x.2.emit (.spdm p.val 0x60 (((measured s).length :: ms.flatMap fun m => m :: ((measurement s m).getD []).length :: (measurement s m).getD []) ++ [n, x.1]))) ∧
  (∀ (p : Port) (idx : Byte) (b : Bool) (k : BitVec 4) (n : Nat) (ms : List Nat) (r : Nat) (s : State),
    s.Up → powerMaster s = some r → boxOf s p.val = 3 → b = false ∨ decommissioned s = false → ms = (if idx.toNat = 0xFF then measured s else if idx.toNat = 0 then [] else (measured s).filter (· == idx.toNat)) → (b = true ∧ k ≠ 0) ∨ (idx ≠ 0 ∧ ms = []) →
    Answers (.getMeasurements p idx b k n) s fun t =>
      t = spdmError (cpBoth s 6) p.val 1) ∧
  (∀ (p : Port) (x : Byte) (k : BitVec 4) (n : Nat) (r : Nat) (s : State),
    s.Up → powerMaster s = some r → boxOf s p.val = 3 → decommissioned s = true →
    Answers (.getMeasurements p x true k n) s fun t =>
      t = spdmError (cpBoth s 6) p.val 5) ∧
  (∀ (p : Port) (q : BitVec 16) (n : Nat) (r : Nat) (s : State),
    s.Up → powerMaster s = some r → boxOf s p.val = 3 → decommissioned s = false → ((List.range 8).find? fun n => !(s.trust.sessions.map fun e => e.1 / 2 ^ 16).contains n) = some n →
    Answers (.keyExchange p 0 q) s fun t =>
      (let x := secretValue (cpLine (cpBoth s 6) r 5)
      t = (x.2.updTrust fun u => { u with sessions := Tbl.put u.sessions (q.toNat + 2 ^ 16 * n) { port := p.val } }).emit (.spdm p.val 0x64 [q.toNat + 2 ^ 16 * n, x.1]))) ∧
  (∀ (p : Port) (q : BitVec 16) (r : Nat) (s : State),
    s.Up → powerMaster s = some r → boxOf s p.val = 3 → decommissioned s = false → ((List.range 8).find? fun n => !(s.trust.sessions.map fun e => e.1 / 2 ^ 16).contains n) = none →
    Answers (.keyExchange p 0 q) s fun t =>
      t = spdmError (cpBoth s 6) p.val 0x0A) ∧
  (∀ (p : Port) (sid : W32) (r : Nat) (s : State),
    s.Up → powerMaster s = some r → Tbl.find s.trust.sessions sid.toNat = some ⟨p.val, false⟩ →
    Answers (.finish p sid true) s fun t =>
      t = ((cpBoth s 6).updTrust fun u => { u with sessions := Tbl.put u.sessions sid.toNat ⟨p.val, true⟩ }).emit (.spdm p.val 0x65 [sid.toNat])) ∧
  (∀ (p : Port) (sid : W32) (r : Nat) (s : State),
    s.Up → powerMaster s = some r → Tbl.find s.trust.sessions sid.toNat = some ⟨p.val, false⟩ →
    Answers (.finish p sid false) s fun t =>
      t = spdmError (endSession (cpBoth s 6) sid.toNat) p.val 6) ∧
  (∀ (p : Port) (sid : W32) (r : Nat) (s : State),
    s.Up → powerMaster s = some r → Tbl.find s.trust.sessions sid.toNat = some ⟨p.val, true⟩ →
    Answers (.heartbeat p sid) s fun t =>
      t = (cpBoth s 6).emit (.spdm p.val 0x68 [sid.toNat])) ∧
  (∀ (p : Port) (sid : W32) (r : Nat) (s : State),
    s.Up → powerMaster s = some r → ((Tbl.find s.trust.sessions sid.toNat).any fun x => x.port == p.val && x.ready) = false →
    Answers (.heartbeat p sid) s fun t =>
      t = spdmError (cpBoth s 6) p.val 2) ∧
  (∀ (p : Port) (sid : W32) (op : Byte) (r : Nat) (s : State),
    s.Up → powerMaster s = some r → Tbl.find s.trust.sessions sid.toNat = some ⟨p.val, true⟩ → 1 ≤ op.toNat → op.toNat ≤ 3 →
    Answers (.keyUpdate p sid op) s fun t =>
      t = (cpBoth s 6).emit (.spdm p.val 0x69 [sid.toNat, op.toNat])) ∧
  (∀ (p : Port) (sid : W32) (r : Nat) (s : State),
    s.Up → powerMaster s = some r → Tbl.find s.trust.sessions sid.toNat = some ⟨p.val, true⟩ →
    Answers (.endSession p sid) s fun t =>
      t = (endSession (cpBoth s 6) sid.toNat).emit (.spdm p.val 0x6C [sid.toNat]))

/-- Inside a ready session of the mailbox: QUERY of port 0 answers the stream information; KEY_PROG stores the key, or answers an error while
Ashlar has lost service; K_SET_GO switches a sub-stream to a key set that is programmed and refuses another; K_SET_STOP ends its use.
IDE_CHECK_FAILURE of a selective stream makes it insecure and reports a UCE-C. LC_CMD: the second write of the sequence from the same port
within 1 ms of the first decommissions a package in PRODUCTION and revokes both keys; the first arms it, any other write disarms it;
outside PRODUCTION nothing. Outside a ready session of the mailbox the IDE messages give an invalid-session error. (R471, R472, R473) -/
def Obligations.IdeKeysAndLifecycle : Prop :=
  (∀ (p : Port) (sid : W32) (n : Byte) (r : Nat) (s : State),
    s.Up → powerMaster s = some r → Tbl.find s.trust.sessions sid.toNat = some ⟨p.val, true⟩ → n ≠ 0 →
    Answers (.query p sid n) s fun t =>
      t = spdmError (cpBoth s 6) p.val 1) ∧
  (∀ (p : Port) (sid : W32) (n : Byte) (r : Nat) (s : State),
    s.Up → powerMaster s = some r → ((Tbl.find s.trust.sessions sid.toNat).any fun x => x.port == p.val && x.ready) = false →
    Answers (.query p sid n) s fun t =>
      t = spdmError (cpBoth s 6) p.val 2) ∧
  (∀ (p : Port) (sid : W32) (stream : Fin 9) (kset rx : Bool) (sub : Fin 3) (r : Nat) (s : State),
    s.Up → powerMaster s = some r → ((Tbl.find s.trust.sessions sid.toNat).any fun x => x.port == p.val && x.ready) = false →
    Answers (.keyProg p sid stream kset rx sub) s fun t =>
      t = spdmError (cpBoth s 6) p.val 2) ∧
  (∀ (p : Port) (sid : W32) (stream : Fin 9) (kset rx : Bool) (sub : Fin 3) (r : Nat) (s : State),
    s.Up → powerMaster s = some r → ((Tbl.find s.trust.sessions sid.toNat).any fun x => x.port == p.val && x.ready) = false →
    Answers (.kSetGo p sid stream kset rx sub) s fun t =>
      t = spdmError (cpBoth s 6) p.val 2) ∧
  (∀ (p : Port) (sid : W32) (stream : Fin 9) (kset rx : Bool) (sub : Fin 3) (r : Nat) (s : State),
    s.Up → powerMaster s = some r → ((Tbl.find s.trust.sessions sid.toNat).any fun x => x.port == p.val && x.ready) = false →
    Answers (.kSetStop p sid stream kset rx sub) s fun t =>
      t = spdmError (cpBoth s 6) p.val 2) ∧
  (∀ (p : Port) (sid : W32) (r : Nat) (s : State),
    s.Up → powerMaster s = some r → Tbl.find s.trust.sessions sid.toNat = some ⟨p.val, true⟩ →
    Answers (.query p sid 0) s fun t =>
      t = (cpBoth s 6).emit (.spdm p.val 0x101 [p.val, idePort s p.val])) ∧
  (∀ (p : Port) (sid : W32) (stream : Fin 9) (kset rx : Bool) (sub : Fin 3) (r : Nat) (s : State),
    s.Up → powerMaster s = some r → Tbl.find s.trust.sessions sid.toNat = some ⟨p.val, true⟩ → s.trust.lost = true →
    Answers (.keyProg p sid stream kset rx sub) s fun t =>
      t = (cpBoth s 6).emit (.spdm p.val 0x103 [stream.val, keyNo kset rx sub, 4])) ∧
  (∀ (p : Port) (sid : W32) (stream : Fin 9) (kset rx : Bool) (sub : Fin 3) (r : Nat) (s : State),
    s.Up → powerMaster s = some r → Tbl.find s.trust.sessions sid.toNat = some ⟨p.val, true⟩ → s.trust.lost = false →
    Answers (.keyProg p sid stream kset rx sub) s fun t =>
      (let k := keyNo kset rx sub
      let x := ideOf s p.val stream.val
      t = (setIde (cpLine (cpBoth s 6) r 5) p.val stream.val { x with keys := k :: x.keys.filter (· != k) }).emit (.spdm p.val 0x103 [stream.val, k, 0]))) ∧
  (∀ (p : Port) (sid : W32) (stream : Fin 9) (kset rx : Bool) (sub : Fin 3) (r : Nat) (s : State),
    s.Up → powerMaster s = some r → Tbl.find s.trust.sessions sid.toNat = some ⟨p.val, true⟩ → (ideOf s p.val stream.val).keys.contains (keyNo kset rx sub) = false →
    Answers (.kSetGo p sid stream kset rx sub) s fun t =>
      t = spdmError (cpBoth s 6) p.val 1) ∧
  (∀ (p : Port) (sid : W32) (stream : Fin 9) (kset rx : Bool) (sub : Fin 3) (r : Nat) (s : State),
    s.Up → powerMaster s = some r → Tbl.find s.trust.sessions sid.toNat = some ⟨p.val, true⟩ → (ideOf s p.val stream.val).keys.contains (keyNo kset rx sub) = true →
    Answers (.kSetGo p sid stream kset rx sub) s fun t =>
      (let k := keyNo kset rx sub
      let x := ideOf s p.val stream.val
      t = (setIde (cpBoth s 6) p.val stream.val { x with use := k :: x.use.filter (fun n => n % 6 != k % 6), insecure := false }).emit (.spdm p.val 0x106 [stream.val, k]))) ∧
  (∀ (p : Port) (sid : W32) (stream : Fin 9) (kset rx : Bool) (sub : Fin 3) (r : Nat) (s : State),
    s.Up → powerMaster s = some r → Tbl.find s.trust.sessions sid.toNat = some ⟨p.val, true⟩ →
    Answers (.kSetStop p sid stream kset rx sub) s fun t =>
      (let k := keyNo kset rx sub
      let x := ideOf s p.val stream.val
      t = (setIde (cpBoth s 6) p.val stream.val { x with use := x.use.filter (· != k) }).emit (.spdm p.val 0x106 [stream.val, k]))) ∧
  (∀ (p : Port) (stream : Fin 9) (un : BitVec 8) (s : State),
    s.Up → (ideOf s p.val stream.val).secure = false →
    Answers (.ideCheckFailure p stream un) s fun t =>
      t = s) ∧
  (∀ (p : Port) (stream : Fin 9) (un : BitVec 8) (s : State),
    s.Up → (ideOf s p.val stream.val).secure = true →
    Answers (.ideCheckFailure p stream un) s fun t =>
      (let x := bothInst (setIde s p.val stream.val { ideOf s p.val stream.val with insecure := true }) fun s i => s.bump (secR i 0x70) 1
      t = portLinkDown (faultEvent x (32 + p.val) 1 { kind := 3, idx := p.val } none) p.val un.toNat)) ∧
  (∀ (i : Inst) (a : Acc) (s : State),
    s.Serves i.val → s.Free ⟨.sec, i.val, 0⟩ → alive s i.val = true → s.fw.lifecycle = 1 →
    Answers (.lcCmd i a 0x5EC00001) s fun t =>
      t = (clearLatches s ⟨.sec, i.val, 0⟩).updFw fun w => { w with lcArm := some (s.hubTime, portCode a) }) ∧
  (∀ (i : Inst) (a : Acc) (n : Nat) (s : State),
    s.Serves i.val → s.Free ⟨.sec, i.val, 0⟩ → alive s i.val = true → s.fw.lifecycle = 1 → s.fw.lcArm = some (n, portCode a) → s.hubTime ≤ n + 1000000 →
    Answers (.lcCmd i a 0x5EC00002) s fun t =>
      t = (clearLatches s ⟨.sec, i.val, 0⟩).updFw fun w => { w with lcArm := none, lifecycle := 2, revoked := 3 }) ∧
  (∀ (i : Inst) (a : Acc) (v : W32) (s : State),
    s.Serves i.val → s.Free ⟨.sec, i.val, 0⟩ → s.fw.lifecycle ≠ 1 →
    Answers (.lcCmd i a v) s fun t =>
      t = if alive s i.val then (clearLatches s ⟨.sec, i.val, 0⟩).updFw fun w => { w with lcArm := none } else clearLatches s ⟨.sec, i.val, 0⟩) ∧
  (∀ (i : Inst) (a : Acc) (v : W32) (s : State),
    s.Serves i.val → s.Free ⟨.sec, i.val, 0⟩ → alive s i.val = true → s.fw.lifecycle = 1 → v ≠ 0x5EC00001 → v ≠ 0x5EC00002 ∨ (s.fw.lcArm.any fun x => x.2 == portCode a && decide (s.hubTime ≤ x.1 + 1000000)) = false →
    Answers (.lcCmd i a v) s fun t =>
      t = (clearLatches s ⟨.sec, i.val, 0⟩).updFw fun w => { w with lcArm := none })

/-- Without a command in progress and with a flash: READ of a readable region whose range lies in it, with an aligned buffer, copies the bytes
(bytes no rule gives are free values) and ends DONE (1), a bad region, length, range or buffer gives BAD_FIELD (0x11), a failed access
FLASH_ERROR (0x13); WRITE_RECORD of USER_CAL or USER_CFG queues the record, other fields give BAD_FIELD, region 0 outside MANUFACTURE
BAD_STATE (0x10), a failed read of the buffer FLASH_ERROR; CLEAR_LOG queues the erase; RESTORE_FACTORY queues the restore exactly when the
confirmation is in force for its port, else NOT_CONFIRMED (0x15). While a command is in progress another sets cmd_refused (16); without a
flash each ends FLASH_ERROR. FLASH_OP_DONE ends the oldest operation with its effect, or with a flash error; without one, or while
inhibited, nothing. The lift of an inhibit, unless the brake is on, puts the held entries behind the operations; its time-out ends the
commands under way INHIBITED (0x12, 0x18), a record under way leaving its copy bad, and leaves the operations of no command. (R474, R475,
R476, R477, R481) -/
def Obligations.NvStoreCommandsAct : Prop :=
  (∀ (a : Acc) (g : BitVec 4) (s : State),
    s.Up → s.nv.cmd = none → s.nv.present = true → g.toNat ∈ [0, 1, 4, 5, 6, 7] → s.fld (nvsR 0x4C) 0 17 ≤ 65536 → s.fld (nvsR 0x48) 0 24 + s.fld (nvsR 0x4C) 0 17 ≤ regionSize g.toNat → s.r (nvsR 0x50) % 64 = 0 →
    Answers (.read a g .ok) s fun t =>
      t = nvEnd ({ ((clearLatches s nvsPage).updNv fun n => { n with confirm := none }) with free := s.free + 1 }.emit (.bulk 6 (s.r (nvsR 0x50)) (s.r (nvsR 0x58) ::
        (nvBytes s g.toNat (s.fld (nvsR 0x48) 0 24) (s.fld (nvsR 0x4C) 0 17)).map BitVec.toNat))) 1) ∧
  (∀ (a : Acc) (g : BitVec 4) (st : Rsp) (s : State),
    s.Up → s.nv.cmd = none → s.nv.present = true → g.toNat ∉ [0, 1, 4, 5, 6, 7] ∨ 65536 < s.fld (nvsR 0x4C) 0 17 ∨ regionSize g.toNat < s.fld (nvsR 0x48) 0 24 + s.fld (nvsR 0x4C) 0 17 ∨ s.r (nvsR 0x50) % 64 ≠ 0 →
    Answers (.read a g st) s fun t =>
      t = nvEnd ((clearLatches s nvsPage).updNv fun n => { n with confirm := none }) 0x11) ∧
  (∀ (a : Acc) (g : BitVec 4) (st : Rsp) (s : State),
    s.Up → s.nv.cmd = none → s.nv.present = true → g.toNat ∈ [0, 1, 4, 5, 6, 7] → s.fld (nvsR 0x4C) 0 17 ≤ 65536 → s.fld (nvsR 0x48) 0 24 + s.fld (nvsR 0x4C) 0 17 ≤ regionSize g.toNat → s.r (nvsR 0x50) % 64 = 0 → st ≠ .ok →
    Answers (.read a g st) s fun t =>
      t = nvEnd (if st == .uncorr then flashError ((clearLatches s nvsPage).updNv fun n => { n with confirm := none }) else ((clearLatches s nvsPage).updNv fun n => { n with confirm := none })) 0x13) ∧
  (∀ (a : Acc) (g : BitVec 4) (st : Rsp) (s : State),
    s.Up → s.nv.cmd ≠ none →
    Answers (.read a g st) s fun t =>
      t = { ((clearLatches s nvsPage).updNv fun n => { n with confirm := none }).perr nvsPage 16 with wlatch := s.wlatch }) ∧
  (∀ (a : Acc) (g : BitVec 4) (st : Rsp) (s : State),
    s.Up → s.nv.cmd = none → s.nv.present = false →
    Answers (.read a g st) s fun t =>
      t = nvEnd ((clearLatches s nvsPage).updNv fun n => { n with confirm := none }) 0x13) ∧
  (∀ (a : Acc) (g : BitVec 4) (body : List Byte) (st : Rsp) (s : State),
    s.Up → s.nv.cmd = none → s.nv.present = true → g.toNat = 0 → s.fw.lifecycle ≠ 0 →
    Answers (.writeRecord a g body st) s fun t =>
      t = nvEnd ((clearLatches s nvsPage).updNv fun n => { n with confirm := none }) 0x10) ∧
  (∀ (a : Acc) (g : BitVec 4) (body : List Byte) (st : Rsp) (s : State),
    s.Up → s.nv.cmd = none → s.nv.present = true → g.toNat ≠ 0 ∨ s.fw.lifecycle = 0 → (g.toNat ≠ 5 ∧ g.toNat ≠ 6) ∨ 131008 < s.fld (nvsR 0x4C) 0 17 ∨ s.r (nvsR 0x50) % 64 ≠ 0 →
    Answers (.writeRecord a g body st) s fun t =>
      t = nvEnd ((clearLatches s nvsPage).updNv fun n => { n with confirm := none }) 0x11) ∧
  (∀ (a : Acc) (g : BitVec 4) (body : List Byte) (st : Rsp) (s : State),
    s.Up → s.nv.cmd = none → s.nv.present = true → g.toNat = 5 ∨ g.toNat = 6 → s.fld (nvsR 0x4C) 0 17 ≤ 131008 → s.r (nvsR 0x50) % 64 = 0 → st ≠ .ok →
    Answers (.writeRecord a g body st) s fun t =>
      t = nvEnd ((clearLatches s nvsPage).updNv fun n => { n with confirm := none }) 0x13) ∧
  (∀ (a : Acc) (g : BitVec 4) (body : List Byte) (s : State),
    s.Up → s.nv.cmd = none → s.nv.present = true → g.toNat = 5 ∨ g.toNat = 6 → s.fld (nvsR 0x4C) 0 17 ≤ 131008 → s.r (nvsR 0x50) % 64 = 0 → body.length = s.fld (nvsR 0x4C) 0 17 →
    Answers (.writeRecord a g body .ok) s fun t =>
      t = nvQueue (nvBegin ((clearLatches s nvsPage).updNv fun n => { n with confirm := none }) 2) (.record g.toNat body)) ∧
  (∀ (a : Acc) (s : State),
    s.Up → s.nv.cmd = none → s.nv.present = true →
    Answers (.clearLog a) s fun t =>
      t = nvQueue (nvBegin ((clearLatches s nvsPage).updNv fun n => { n with confirm := none }) 3) .clearLog) ∧
  (∀ (a : Acc) (s : State),
    s.Up → s.nv.cmd = none → s.nv.present = true → s.nv.confirm = some (portCode a) →
    Answers (.restoreFactory a) s fun t =>
      t = nvQueue (nvBegin ((clearLatches s nvsPage).updNv fun n => { n with confirm := none }) 4) .restore) ∧
  (∀ (a : Acc) (s : State),
    s.Up → s.nv.cmd = none → s.nv.present = true → s.nv.confirm ≠ some (portCode a) →
    Answers (.restoreFactory a) s fun t =>
      t = nvEnd ((clearLatches s nvsPage).updNv fun n => { n with confirm := none }) 0x15) ∧
  (∀ (a : Acc) (s : State),
    s.Up → s.nv.cmd ≠ none →
    Answers (.clearLog a) s fun t =>
      t = { ((clearLatches s nvsPage).updNv fun n => { n with confirm := none }).perr nvsPage 16 with wlatch := s.wlatch }) ∧
  (∀ (a : Acc) (s : State),
    s.Up → s.nv.cmd = none → s.nv.present = false →
    Answers (.clearLog a) s fun t =>
      t = nvEnd ((clearLatches s nvsPage).updNv fun n => { n with confirm := none }) 0x13) ∧
  (∀ (ok : Bool) (s : State),
    s.por = false → s.nv.ops = [] →
    Answers (.flashOpDone ok) s fun t =>
      t = s) ∧
  (∀ (o : NvOp) (r : List NvOp) (s : State),
    s.por = false → s.nv.inhibit = false → s.nv.ops = o :: r →
    Answers (.flashOpDone true) s fun t =>
      t = opDone (s.updNv fun n => { n with ops := r }) o) ∧
  (∀ (o : NvOp) (r : List NvOp) (s : State),
    s.por = false → s.nv.inhibit = false → s.nv.ops = o :: r →
    Answers (.flashOpDone false) s fun t =>
      t = opLost (flashError (s.updNv fun n => { n with ops := r })) o 0x13 0x17) ∧
  (∀ (ok : Bool) (s : State),
    s.por = false → s.nv.inhibit = true →
    Answers (.flashOpDone ok) s fun t =>
      t = s) ∧
  (∀  (s : State),
    s.por = false → s.nv.inhibit = true → s.lev.brake = false →
    Answers (.nvInhibitLift) s fun t =>
      t = cpBoth (setInhibit (s.updNv fun n => { n with ops := n.ops ++ s.nv.held.map NvOp.entry, held := [] }) false) 45) ∧
  (∀ (body : List Byte) (s : State),
    s.por = false → s.nv.inhibit = true → s.nv.cmd = some 2 → s.nv.ops = [.record 5 body] →
    Answers (.nvInhibitTimeout) s fun t =>
      t = nvEnd (spoilRecord (s.updNv fun n => { n with ops := [] }) 5) 0x12) ∧
  (∀  (s : State),
    s.por = false → s.nv.inhibit = true →
    Answers (.nvInhibitTimeout) s fun t =>
      let ofCmd : NvOp → Bool := fun
        | .record _ _ | .clearLog | .restore => s.nv.cmd.isSome
        | .image _ _ | .empty _ | .active _ => s.fw.upd.isSome
        | _ => false
      t = (s.nv.ops.filter ofCmd).foldl (fun s o => opLost s o 0x12 0x18) (s.updNv fun n => { n with ops := s.nv.ops.filter fun o => !ofCmd o })) ∧
  (∀  (s : State),
    s.por = false → s.nv.inhibit = false →
    Answers (.nvInhibitTimeout) s fun t =>
      t = s) ∧
  (∀  (s : State),
    s.por = false → s.nv.inhibit = false ∨ s.lev.brake = true →
    Answers (.nvInhibitLift) s fun t =>
      t = s)

/-- Without an update in progress: STAGE of an image that Ashlar accepts queues its write to the inactive slot, a refused one ends with its
result, a size of 0 or above 1,537 KiB, or a body that the size does not hold, with BAD_FIELD (0x11), one with an image already staged
BAD_STATE (0x10), one without a flash 0x17. ACTIVATE in a PROTECTED pair with a staged image of the same major version and no other switch
starts IGX1's planned switch, with another major version it ends with 0x15, else BAD_STATE. DISCARD of a staged image queues the slot's
clearing. COMMIT_SVN where both processors run the active slot and nothing is staged burns the fuses up to the running svn, else
BAD_STATE. While an update is in progress each sets cmd_refused (16). At an instance that does not work nothing happens. (R462, R463,
R464, R465, R467, R479) -/
def Obligations.FirmwareCommandsAct : Prop :=
  (∀ (i : Inst) (a : Acc) (m : ImageIn) (s : State),
    s.Serves i.val → s.Free (cpiPage i.val) → alive s i.val = true → s.fw.upd = none → s.fw.staged = none → s.nv.present = true → 1 ≤ s.r (cpiR i.val 0x58) → s.r (cpiR i.val 0x58) ≤ 1537 → 256 + m.body ≤ 1024 * s.r (cpiR i.val 0x58) → imageBad s m = none →
    Answers (.stage i a m) s fun t =>
      t = nvQueue (cpLine (((cpLine (clearLatches s (cpiPage i.val)) i.val 43).setR (cpiR i.val 0x64) 1).updFw fun w => { w with upd := some (i.val, 1) }) i.val 5) (.image (otherSlot s) (imageOf m))) ∧
  (∀ (i : Inst) (a : Acc) (m : ImageIn) (r : Nat) (s : State),
    s.Serves i.val → s.Free (cpiPage i.val) → alive s i.val = true → s.fw.upd = none → s.fw.staged = none → 1 ≤ s.r (cpiR i.val 0x58) → s.r (cpiR i.val 0x58) ≤ 1537 → imageBad s m = some r →
    Answers (.stage i a m) s fun t =>
      t = updEnd (cpLine (((cpLine (clearLatches s (cpiPage i.val)) i.val 43).setR (cpiR i.val 0x64) 1).updFw fun w => { w with upd := some (i.val, 1) }) i.val 5) r) ∧
  (∀ (i : Inst) (a : Acc) (m : ImageIn) (s : State),
    s.Serves i.val → s.Free (cpiPage i.val) → alive s i.val = true → s.fw.upd = none → s.fw.staged = none → 1 ≤ s.r (cpiR i.val 0x58) → s.r (cpiR i.val 0x58) ≤ 1537 → 1024 * s.r (cpiR i.val 0x58) < 256 + m.body → imageBad s m = none →
    Answers (.stage i a m) s fun t =>
      t = updEnd (cpLine (((cpLine (clearLatches s (cpiPage i.val)) i.val 43).setR (cpiR i.val 0x64) 1).updFw fun w => { w with upd := some (i.val, 1) }) i.val 5) 0x11) ∧
  (∀ (i : Inst) (a : Acc) (m : ImageIn) (x : Image) (s : State),
    s.Serves i.val → s.Free (cpiPage i.val) → alive s i.val = true → s.fw.upd = none → s.fw.staged = some x →
    Answers (.stage i a m) s fun t =>
      t = updEnd (((cpLine (clearLatches s (cpiPage i.val)) i.val 43).setR (cpiR i.val 0x64) 1).updFw fun w => { w with upd := some (i.val, 1) }) 0x10) ∧
  (∀ (i : Inst) (a : Acc) (m : ImageIn) (s : State),
    s.Serves i.val → s.Free (cpiPage i.val) → alive s i.val = true → s.fw.upd = none → s.fw.staged = none → s.r (cpiR i.val 0x58) = 0 ∨ 1537 < s.r (cpiR i.val 0x58) →
    Answers (.stage i a m) s fun t =>
      t = updEnd (((cpLine (clearLatches s (cpiPage i.val)) i.val 43).setR (cpiR i.val 0x64) 1).updFw fun w => { w with upd := some (i.val, 1) }) 0x11) ∧
  (∀ (i : Inst) (a : Acc) (m : ImageIn) (s : State),
    s.Serves i.val → s.Free (cpiPage i.val) → alive s i.val = true → s.fw.upd = none → s.fw.staged = none → s.nv.present = false → 1 ≤ s.r (cpiR i.val 0x58) → s.r (cpiR i.val 0x58) ≤ 1537 → 256 + m.body ≤ 1024 * s.r (cpiR i.val 0x58) → imageBad s m = none →
    Answers (.stage i a m) s fun t =>
      t = updEnd (cpLine (((cpLine (clearLatches s (cpiPage i.val)) i.val 43).setR (cpiR i.val 0x64) 1).updFw fun w => { w with upd := some (i.val, 1) }) i.val 5) 0x17) ∧
  (∀ (i : Inst) (a : Acc) (m : Image) (s : State),
    s.Serves i.val → s.Free (cpiPage i.val) → alive s i.val = true → s.fw.upd = none → s.fw.staged = some m → protected_ s i.val = true → s.flt.bist = none → m.version / 2 ^ 24 ≠ majorOf s i.val →
    Answers (.activate i a) s fun t =>
      t = updEnd (((cpLine (clearLatches s (cpiPage i.val)) i.val 43).setR (cpiR i.val 0x64) 1).updFw fun w => { w with upd := some (i.val, 2) }) 0x15) ∧
  (∀ (i : Inst) (a : Acc) (m : Image) (s : State),
    s.Serves i.val → s.Free (cpiPage i.val) → alive s i.val = true → s.fw.upd = none → s.fw.staged = some m → protected_ s i.val = false ∨ s.flt.bist ≠ none ∨ (m.version / 2 ^ 24 = majorOf s i.val ∧ handoverOk s 1 = false) →
    Answers (.activate i a) s fun t =>
      t = updEnd (((cpLine (clearLatches s (cpiPage i.val)) i.val 43).setR (cpiR i.val 0x64) 1).updFw fun w => { w with upd := some (i.val, 2) }) 0x10) ∧
  (∀ (i : Inst) (a : Acc) (s : State),
    s.Serves i.val → s.Free (cpiPage i.val) → alive s i.val = true → s.fw.upd = none → s.fw.staged = none →
    Answers (.discard i a) s fun t =>
      t = updEnd (((cpLine (clearLatches s (cpiPage i.val)) i.val 43).setR (cpiR i.val 0x64) 1).updFw fun w => { w with upd := some (i.val, 3) }) 0x10) ∧
  (∀ (i : Inst) (a : Acc) (m : Image) (s : State),
    s.Serves i.val → s.Free (cpiPage i.val) → alive s i.val = true → s.fw.upd = none → s.fw.staged = some m → s.nv.present = false →
    Answers (.discard i a) s fun t =>
      t = updEnd (((cpLine (clearLatches s (cpiPage i.val)) i.val 43).setR (cpiR i.val 0x64) 1).updFw fun w => { w with upd := some (i.val, 3) }) 0x17) ∧
  (∀ (i : Inst) (a : Acc) (s : State),
    s.Serves i.val → s.Free (cpiPage i.val) → alive s i.val = true → s.fw.upd = none → runActive s = false ∨ s.fw.staged ≠ none →
    Answers (.commitSvn i a) s fun t =>
      t = updEnd (((cpLine (clearLatches s (cpiPage i.val)) i.val 43).setR (cpiR i.val 0x64) 1).updFw fun w => { w with upd := some (i.val, 4) }) 0x10) ∧
  (∀ (i : Inst) (a : Acc) (s : State),
    s.Serves i.val → s.Free (cpiPage i.val) → alive s i.val = false →
    Answers (.discard i a) s fun t =>
      t = { clearLatches s (cpiPage i.val) with wlatch := s.wlatch }) ∧
  (∀ (i : Inst) (a : Acc) (m : ImageIn) (s : State),
    s.Serves i.val → s.Free (cpiPage i.val) → alive s i.val = true → s.fw.upd ≠ none →
    Answers (.stage i a m) s fun t =>
      t = { (cpLine (clearLatches s (cpiPage i.val)) i.val 43).perr (cpiPage i.val) 16 with wlatch := s.wlatch }) ∧
  (∀ (i : Inst) (a : Acc) (m : Image) (s : State),
    s.Serves i.val → s.Free (cpiPage i.val) → alive s i.val = true → s.fw.upd = none → s.fw.staged = some m → protected_ s i.val = true → s.flt.bist = none → m.version / 2 ^ 24 = majorOf s i.val → handoverOk s 1 = true →
    Answers (.activate i a) s fun t =>
      t = handoverBegin ((((cpLine (clearLatches s (cpiPage i.val)) i.val 43).setR (cpiR i.val 0x64) 1).updFw fun w => { w with upd := some (i.val, 2) }).updFw fun w => { w with phase := 1 }) 1 4) ∧
  (∀ (i : Inst) (a : Acc) (s : State),
    s.Serves i.val → s.Free (cpiPage i.val) → alive s i.val = true → s.fw.upd = none → s.fw.staged = none →
    Answers (.activate i a) s fun t =>
      t = updEnd (((cpLine (clearLatches s (cpiPage i.val)) i.val 43).setR (cpiR i.val 0x64) 1).updFw fun w => { w with upd := some (i.val, 2) }) 0x10) ∧
  (∀ (i : Inst) (a : Acc) (m : Image) (s : State),
    s.Serves i.val → s.Free (cpiPage i.val) → alive s i.val = true → s.fw.upd = none → s.fw.staged = some m → s.nv.present = true →
    Answers (.discard i a) s fun t =>
      t = nvQueue (((cpLine (clearLatches s (cpiPage i.val)) i.val 43).setR (cpiR i.val 0x64) 1).updFw fun w => { w with upd := some (i.val, 3) }) (.empty (otherSlot s))) ∧
  (∀ (i : Inst) (a : Acc) (m : Image) (k : Nat) (s : State),
    s.Serves i.val → s.Free (cpiPage i.val) → alive s i.val = true → s.fw.upd = none → s.fw.staged = none → runActive s = true → Tbl.find s.fw.run i.val = some (m, k) →
    Answers (.commitSvn i a) s fun t =>
      t = updEnd ((cpLine (((cpLine (clearLatches s (cpiPage i.val)) i.val 43).setR (cpiR i.val 0x64) 1).updFw fun w => { w with upd := some (i.val, 4) }) i.val 5).updFw fun w => { w with fuse := max w.fuse m.svn }) 1)

/-- HUB_POR_ASSERT resets the machine but for fuses, flash and HBM; its release samples the straps (enable 0 acts as 1) and starts boot. A
warm reset resets what is not marked to survive; while power-on reset is held it only asserts its line; its release starts boot again.
HBM_READY is noted. BOOT_SELFTEST_DONE in phase 1 reads the repair map and leads to phase 2 with the boot slot, to phase 6 with recovery
straps; a failed test outside a warm reset is FATAL for the instance, whose partner goes on with its pair OFF. IMAGE_VERIFY_DONE in phase
2 of an accepted image leads to phase 4, which makes another staged slot active; a first refused one to the other slot, a second one to
recovery or FAILED. RECOVERY_IMAGE while an instance waits for it runs it there, or answers why it is refused. FW_INIT_DONE in phase 4
with HBM ready sets the carve-out, calibration and fixed levels, holds the user limit while a sensor is reported failed, and makes the
instance ACTIVE in phase 5. In other phases these do nothing. SBD takes an SMBus address before an I3C broadcast and a dynamic one after
it. (R43, R44, R463, R464, R485, R487, R488, R490, R492, R493, R494) -/
def Obligations.ResetsAndBootRun : Prop :=
  (∀  (s : State),
    
    Answers (.hubPorAssert) s fun t =>
      t = porAssert s) ∧
  (∀ (boot en : BitVec 2) (pair : Bool) (s : State),
    s.por = true →
    Answers (.hubPorRelease boot en pair) s fun t =>
      t = porRelease s boot.toNat en.toNat pair) ∧
  (∀ (boot en : BitVec 2) (pair : Bool) (s : State),
    s.por = false →
    Answers (.hubPorRelease boot en pair) s fun t =>
      t = s) ∧
  (∀  (s : State),
    s.Up →
    Answers (.warmResetAssert) s fun t =>
      t = warmAssert s) ∧
  (∀  (s : State),
    s.por = true →
    Answers (.warmResetAssert) s fun t =>
      t = { s with warm := true }) ∧
  (∀  (s : State),
    s.warm = true →
    Answers (.warmResetRelease) s fun t =>
      t = warmRelease s) ∧
  (∀  (s : State),
    s.por = false → s.warm = true →
    Answers (.warmResetAssert) s fun t =>
      t = s) ∧
  (∀  (s : State),
    s.warm = false →
    Answers (.warmResetRelease) s fun t =>
      t = s) ∧
  (∀  (s : State),
    s.Up →
    Answers (.hbmReady) s fun t =>
      t = s.updBoot fun b => { b with hbm := true }) ∧
  (∀ (i : Inst) (ok flash : Bool) (s : State),
    s.Up → phaseOf s i.val = 1 → ok = true ∨ s.boot.warm = true →
    Answers (.bootSelftestDone i ok flash) s fun t =>
      let x := (s.updNv fun n => { n with present := flash }).setFld (nvsR 0x44) 17 1 (b2n flash)
      let y := showBanks { x with flt := { x.flt with banks := if flash then banksJoined s.nv.repair s.flt.banks else s.flt.banks } } i.val
      t = if s.fld (dbgR i.val 0x40) 0 2 = 2 then setPhase y i.val 6 else (setPhase y i.val 2).setFld (dbgR i.val 0x44) 8 1 (bootSlot y i.val)) ∧
  (∀ (i : Inst) (flash : Bool) (s : State),
    s.Up → phaseOf s i.val = 1 → s.boot.warm = false →
    Answers (.bootSelftestDone i false flash) s fun t =>
      let x := (s.updNv fun n => { n with present := flash }).setFld (nvsR 0x44) 17 1 (b2n flash)
      let y := showBanks { x with flt := { x.flt with banks := if flash then banksJoined s.nv.repair s.flt.banks else s.flt.banks } } i.val
      t = faultEvent (setPair (y.setFld (dbgR i.val 0x44) 11 1 1) (partner i.val) .off) (16 * i.val + 5) 2 { kind := 0, idx := 16 * i.val + 5 } (some i.val)) ∧
  (∀ (i : Inst) (ok flash : Bool) (s : State),
    s.Up → phaseOf s i.val ≠ 1 →
    Answers (.bootSelftestDone i ok flash) s fun t =>
      t = s) ∧
  (∀ (i : Inst) (m : ImageIn) (k : Nat) (s : State),
    s.Up → phaseOf s i.val = 2 → imageBad s m = none → k = s.fld (dbgR i.val 0x44) 8 1 →
    Answers (.imageVerifyDone i m) s fun t =>
      let img := (Tbl.find s.fw.slots k).getD (imageOf m)
      let x := if s.fw.staged.isSome && k != s.fw.active && s.fld (dbgR i.val 0x44) 9 1 = 0 then nvQueue (s.updFw fun w => { w with staged := none, active := k }) (.active k) else s
      t = bootImage (x.updFw fun w => { w with slots := Tbl.put w.slots k img }) i.val img k) ∧
  (∀ (i : Inst) (m : ImageIn) (r : Nat) (s : State),
    s.Up → phaseOf s i.val = 2 → imageBad s m = some r → s.boot.tried.contains i.val = false →
    Answers (.imageVerifyDone i m) s fun t =>
      t = ((s.updBoot fun b => { b with tried := i.val :: b.tried }).setFld (dbgR i.val 0x44) 9 1 1).setFld (dbgR i.val 0x44) 8 1 (1 - s.fld (dbgR i.val 0x44) 8 1)) ∧
  (∀ (i : Inst) (m : ImageIn) (r : Nat) (s : State),
    s.Up → phaseOf s i.val = 2 → imageBad s m = some r → s.boot.tried.contains i.val = true →
    Answers (.imageVerifyDone i m) s fun t =>
      t = setPhase s i.val (if s.fld (dbgR i.val 0x40) 0 2 = 0 then 7 else 6)) ∧
  (∀ (i : Inst) (m : ImageIn) (s : State),
    s.Up → phaseOf s i.val ≠ 2 →
    Answers (.imageVerifyDone i m) s fun t =>
      t = s) ∧
  (∀ (m : ImageIn) (s : State),
    s.Up → s.boot.addr = none ∨ (phaseOf s 0 ≠ 6 ∧ phaseOf s 1 ≠ 6) →
    Answers (.recoveryImage m) s fun t =>
      t = s) ∧
  (∀ (m : ImageIn) (is : List Nat) (s : State),
    s.Up → s.boot.addr.isSome = true → is = [0, 1].filter (fun i => phaseOf s i == 6) → is ≠ [] → imageBad s m = none →
    Answers (.recoveryImage m) s fun t =>
      let x := (if s.nv.present then nvQueue s (.image 0 (imageOf m)) else s).emit (.pldmValue 0)
      t = is.foldl (fun s i => ((bootImage s i (imageOf m) 0).setFld (dbgR i 0x44) 10 1 1).setFld (dbgR i 0x44) 8 1 0) x) ∧
  (∀ (m : ImageIn) (r : Nat) (s : State),
    s.Up → s.boot.addr.isSome = true → phaseOf s 0 = 6 ∨ phaseOf s 1 = 6 → imageBad s m = some r →
    Answers (.recoveryImage m) s fun t =>
      t = s.emit (.pldmValue r)) ∧
  (∀ (i : Inst) (fixed : List (BitVec 2 × BitVec 4)) (cal : List W64) (s : State),
    s.Up → phaseOf s i.val = 4 → s.boot.hbm = true →
    Answers (.fwInitDone i fixed cal) s fun t =>
      let x := (s.setR (xbarR (0x100 + 0x40 * i.val)) (0x5F00000000 + 0x80000000 * i.val)).setR (xbarR (0x108 + 0x40 * i.val)) 1024
      let x := fwRange (fwSetup x i.val) i.val
      let x := ((cal.map BitVec.toNat).take 8).zipIdx.foldl (fun s e => s.setR (pwrR (0x180 + 8 * e.2)) (e.1 % 2 ^ 48)) x
      let x := x.updLev fun l => { l with fixed := (fixed.map fun e => (e.1.toNat, e.2.toNat)).take 21 }
      let x := (setPhase x i.val 5).setR (dbgR i.val 0x4C) (min ((s.tsu.get i.val - s.boot.start) / 1000) (2 ^ 24 - 1))
      let y := x.updMir i.val fun _ => { inst := .active, pair := if pairMode x && s.fld (dbgR (partner i.val) 0x44) 11 1 != 1 then .linkLost else .off }
      t = settleLevels (((holdLimit y).updCp i.val fun _ => { restart := y.time i.val }).irq ⟨.dbg, i.val, 0⟩ 16)) ∧
  (∀ (i : Inst) (fixed : List (BitVec 2 × BitVec 4)) (cal : List W64) (s : State),
    s.Up → phaseOf s i.val ≠ 4 ∨ s.boot.hbm = false →
    Answers (.fwInitDone i fixed cal) s fun t =>
      t = s) ∧
  (∀ (x : BitVec 7) (s : State),
    s.por = false → s.boot.i3c = false →
    Answers (.smbusArp x) s fun t =>
      t = s.updBoot fun b => { b with addr := some x.toNat }) ∧
  (∀ (x : BitVec 7) (s : State),
    s.por = false → s.boot.i3c = true →
    Answers (.entdaa x) s fun t =>
      t = s.updBoot fun b => { b with addr := some x.toNat }) ∧
  (∀ (x : BitVec 7) (s : State),
    s.por = false → s.boot.i3c = false →
    Answers (.entdaa x) s fun t =>
      t = s) ∧
  (∀  (s : State),
    s.por = false → s.boot.i3c = false →
    Answers (.i3cBroadcast) s fun t =>
      t = s.updBoot fun b => { b with i3c := true, addr := none }) ∧
  (∀ (x : BitVec 7) (s : State),
    s.por = false → s.boot.i3c = true →
    Answers (.smbusArp x) s fun t =>
      t = s) ∧
  (∀  (s : State),
    s.por = false → s.boot.i3c = true →
    Answers (.i3cBroadcast) s fun t =>
      t = s)

/-- For every command c, queue rest and state s: the step of s with c in front of rest is exec of c on s with rest as its queue. On an empty
queue the step answers the idle state: unchanged while a reset is held, else one nanosecond later by the clock of every instance that has
power, with the durations of the throttle reasons in force one microsecond on at each microsecond (the tick and its length are the model's
choice, log entry 1). (R56, R423) -/
def Obligations.StepRunsTheFrontCommand : Prop :=
  (∀ (c : Instr) (rest : List Instr) (s : State), step { s with pending := c :: rest } = exec c { s with pending := rest }) ∧
  (∀ s : State, s.pending = [] → s.held = true → step s = .next s) ∧
  (∀ s : State, s.pending = [] → s.held = false → let x := { s with tsu := tsuTick s }; step s = .next (if x.hubTime % 1000 = 0 then durTick x else x)) ∧
  (∀ (i : Inst) (s : State), (tsuTick s).get i.val = if (s.mir.get i.val).inst = .disabled then s.tsu.get i.val else (s.tsu.get i.val + 1) % 2 ^ 64)

/-- For every command, with every operand, and every state: exec answers a next state. Between steps no write is marked as one that waited for
a function (premise State.NoLate of other statements): reset marks none, and a step from a state without such a mark leads to one. No
meaning ends in a fault or a refusal: what the spec refuses shows in the registers (bad_access, cmd_refused, result codes), and what it
leaves open is a free value. (R45, R52, R56, R454) -/
def Obligations.EveryCommandCompletes : Prop :=
  (∀ (c : Instr) (s : State), ∃ t, exec c s = .next t) ∧
  (∀ s t : State, s.NoLate → step s = .next t → t.NoLate) ∧ State.reset.NoLate

/-- For every state in which power-on reset is held and no write waits for a released function: every command other than the assertion or
release of HUB_POR_N, of HUB_WARM_RST_N, of a PERST pin and of IGX_BRAKE_N leaves the state as it was; PERST changes the pin and the link
of its port and nothing else, IGX_BRAKE_N its level alone, in warm reset too. After power-on reset is asserted no write waits and the
eight output pins are released. (R37, R43, R45, R492) -/
def Obligations.HeldResetStopsEverything : Prop :=
  (∀ (c : Instr) (s : State), s.por = true → (s.txn.get 0).held = [] → (s.txn.get 1).held = [] →
    c ≠ .hubPorAssert → (∀ b e p, c ≠ .hubPorRelease b e p) → c ≠ .warmResetAssert → c ≠ .warmResetRelease → (∀ p u, c ≠ .perstAssert p u) → (∀ p, c ≠ .perstRelease p) → c ≠ .brake → c ≠ .brakeRelease → exec c s = .next s) ∧
  (∀ s : State, s.held = true → exec .brake s = .next { s with brakeLow := true } ∧ exec .brakeRelease s = .next { s with brakeLow := false }) ∧
  (∀ (p : Port) (u : BitVec 8) (s : State), s.por = true → exec (.perstAssert p u) s = .next (s.updPort p.val fun x => { x with perst := true, link := .reset })) ∧
  (∀ (p : Port) (s : State), s.por = true → exec (.perstRelease p) s = .next (s.updPort p.val fun x => { x with perst := false, link := .training })) ∧
  (∀ s : State, ∃ t, exec .hubPorAssert s = .next t ∧ t.por = true ∧ (t.txn.get 0).held = [] ∧ (t.txn.get 1).held = [] ∧
    t.pinFault = none ∧ t.pinAlert = none ∧ t.pinTherm = none ∧ t.pinSpiCs = none ∧
    t.pinSpiClk = none ∧ t.pinSpiIo = [none, none, none, none] ∧ t.pinScl = none ∧ t.pinSda = none)

/-- For every state whose pins show their sources, and every step from it that answers a next state, the pins show their sources again:
released while a reset is held, otherwise IGX_FAULT_N by FLT.WORD and PIN_MASK, IGX_ALERT_N by THR.ALERT and ALERT_MASK, IGX_THERMTRIP_N
by the trip, IGX_SPI_CS_N low while a flash operation runs, the flash clock and data pins and the sideband pins by free values (the
model's choice, log entry 126). The sideband pins are open drain: never driven high. In particular, with no reset held IGX_ALERT_N is low
exactly while some THR.ALERT bit is 1 whose ALERT_MASK bit is 0. (R413) -/
def Obligations.PinsFollowTheirSources : Prop :=
  (∀ s t : State, s.PinsOk → step s = .next t → t.PinsOk) ∧
  (∀ s : State, s.PinsOk → s.held = false →
    (s.pinAlert = some false ↔ ∃ b, bitAt (s.r (thrR 0x44)) b = true ∧ bitAt (s.r (thrR 0x48)) b = false)) ∧
  (∀ s : State, s.PinsOk → s.pinScl ≠ some true ∧ s.pinSda ≠ some true)

/-- State.reset meets the pin invariant: power-on reset is held and the eight output pins are released. After HUB_POR_RELEASE from it the pins
carry the levels of their sources, inactive, and the flash clock is driven. (R43, R44) -/
def Obligations.ResetShowsThePins : Prop :=
  State.reset.PinsOk ∧ State.reset.pinFault = none ∧ State.reset.pinAlert = none ∧ State.reset.pinTherm = none ∧ State.reset.pinSpiCs = none ∧
  State.reset.pinSpiClk = none ∧ State.reset.pinSpiIo = [none, none, none, none] ∧ State.reset.pinScl = none ∧ State.reset.pinSda = none ∧
  ∀ (boot en : BitVec 2) (pair : Bool), ∃ t, exec (.hubPorRelease boot en pair) State.reset = .next t ∧ t.PinsOk ∧ t.pinFault = some true ∧ t.pinAlert = some true ∧ t.pinTherm = some true ∧ t.pinSpiCs = some true ∧
    t.pinSpiClk.isSome = true ∧ t.pinScl ≠ some true ∧ t.pinSda ≠ some true
end

