-- ==== Sys2Proof/Laws/State.lean ====
section
/-! SUPPORT. One lemma per field of the state and per basic update: what the update leaves as it was. -/
namespace Sys2Proof.Machine

/-! ### setR changes `regs` only -/

@[simp] theorem State.setR_pending (s : State) (k v : Nat) : (s.setR k v).pending = s.pending := rfl
@[simp] theorem State.setR_rlatch (s : State) (k v : Nat) : (s.setR k v).rlatch = s.rlatch := rfl
@[simp] theorem State.setR_wlatch (s : State) (k v : Nat) : (s.setR k v).wlatch = s.wlatch := rfl
@[simp] theorem State.setR_por (s : State) (k v : Nat) : (s.setR k v).por = s.por := rfl
@[simp] theorem State.setR_warm (s : State) (k v : Nat) : (s.setR k v).warm = s.warm := rfl
@[simp] theorem State.setR_tsu (s : State) (k v : Nat) : (s.setR k v).tsu = s.tsu := rfl
@[simp] theorem State.setR_free (s : State) (k v : Nat) : (s.setR k v).free = s.free := rfl
@[simp] theorem State.setR_out (s : State) (k v : Nat) : (s.setR k v).out = s.out := rfl
@[simp] theorem State.setR_thermTrip (s : State) (k v : Nat) : (s.setR k v).thermTrip = s.thermTrip := rfl
@[simp] theorem State.setR_pinFault (s : State) (k v : Nat) : (s.setR k v).pinFault = s.pinFault := rfl
@[simp] theorem State.setR_pinAlert (s : State) (k v : Nat) : (s.setR k v).pinAlert = s.pinAlert := rfl
@[simp] theorem State.setR_pinTherm (s : State) (k v : Nat) : (s.setR k v).pinTherm = s.pinTherm := rfl
@[simp] theorem State.setR_pinSpiCs (s : State) (k v : Nat) : (s.setR k v).pinSpiCs = s.pinSpiCs := rfl
@[simp] theorem State.setR_pinSpiClk (s : State) (k v : Nat) : (s.setR k v).pinSpiClk = s.pinSpiClk := rfl
@[simp] theorem State.setR_pinSpiIo (s : State) (k v : Nat) : (s.setR k v).pinSpiIo = s.pinSpiIo := rfl
@[simp] theorem State.setR_pinScl (s : State) (k v : Nat) : (s.setR k v).pinScl = s.pinScl := rfl
@[simp] theorem State.setR_pinSda (s : State) (k v : Nat) : (s.setR k v).pinSda = s.pinSda := rfl
@[simp] theorem State.setR_brakeLow (s : State) (k v : Nat) : (s.setR k v).brakeLow = s.brakeLow := rfl
@[simp] theorem State.setR_txn (s : State) (k v : Nat) : (s.setR k v).txn = s.txn := rfl
@[simp] theorem State.setR_ports (s : State) (k v : Nat) : (s.setR k v).ports = s.ports := rfl
@[simp] theorem State.setR_groups (s : State) (k v : Nat) : (s.setR k v).groups = s.groups := rfl
@[simp] theorem State.setR_jrnl (s : State) (k v : Nat) : (s.setR k v).jrnl = s.jrnl := rfl
@[simp] theorem State.setR_copy (s : State) (k v : Nat) : (s.setR k v).copy = s.copy := rfl
@[simp] theorem State.setR_flt (s : State) (k v : Nat) : (s.setR k v).flt = s.flt := rfl
@[simp] theorem State.setR_mir (s : State) (k v : Nat) : (s.setR k v).mir = s.mir := rfl
@[simp] theorem State.setR_qm (s : State) (k v : Nat) : (s.setR k v).qm = s.qm := rfl
@[simp] theorem State.setR_chans (s : State) (k v : Nat) : (s.setR k v).chans = s.chans := rfl
@[simp] theorem State.setR_pools (s : State) (k v : Nat) : (s.setR k v).pools = s.pools := rfl
@[simp] theorem State.setR_red (s : State) (k v : Nat) : (s.setR k v).red = s.red := rfl
@[simp] theorem State.setR_atu (s : State) (k v : Nat) : (s.setR k v).atu = s.atu := rfl
@[simp] theorem State.setR_prq (s : State) (k v : Nat) : (s.setR k v).prq = s.prq := rfl
@[simp] theorem State.setR_acc (s : State) (k v : Nat) : (s.setR k v).acc = s.acc := rfl
@[simp] theorem State.setR_rt (s : State) (k v : Nat) : (s.setR k v).rt = s.rt := rfl
@[simp] theorem State.setR_rtWait (s : State) (k v : Nat) : (s.setR k v).rtWait = s.rtWait := rfl
@[simp] theorem State.setR_spt (s : State) (k v : Nat) : (s.setR k v).spt = s.spt := rfl
@[simp] theorem State.setR_vdm (s : State) (k v : Nat) : (s.setR k v).vdm = s.vdm := rfl
@[simp] theorem State.setR_hlc (s : State) (k v : Nat) : (s.setR k v).hlc = s.hlc := rfl
@[simp] theorem State.setR_sites (s : State) (k v : Nat) : (s.setR k v).sites = s.sites := rfl
@[simp] theorem State.setR_sch (s : State) (k v : Nat) : (s.setR k v).sch = s.sch := rfl
@[simp] theorem State.setR_ens (s : State) (k v : Nat) : (s.setR k v).ens = s.ens := rfl
@[simp] theorem State.setR_lev (s : State) (k v : Nat) : (s.setR k v).lev = s.lev := rfl
@[simp] theorem State.setR_cp (s : State) (k v : Nat) : (s.setR k v).cp = s.cp := rfl
@[simp] theorem State.setR_fw (s : State) (k v : Nat) : (s.setR k v).fw = s.fw := rfl
@[simp] theorem State.setR_trust (s : State) (k v : Nat) : (s.setR k v).trust = s.trust := rfl
@[simp] theorem State.setR_nv (s : State) (k v : Nat) : (s.setR k v).nv = s.nv := rfl
@[simp] theorem State.setR_boot (s : State) (k v : Nat) : (s.setR k v).boot = s.boot := rfl

/-! ### setFld changes `regs` only -/

@[simp] theorem State.setFld_pending (s : State) (k lo w v : Nat) : (s.setFld k lo w v).pending = s.pending := rfl
@[simp] theorem State.setFld_rlatch (s : State) (k lo w v : Nat) : (s.setFld k lo w v).rlatch = s.rlatch := rfl
@[simp] theorem State.setFld_wlatch (s : State) (k lo w v : Nat) : (s.setFld k lo w v).wlatch = s.wlatch := rfl
@[simp] theorem State.setFld_por (s : State) (k lo w v : Nat) : (s.setFld k lo w v).por = s.por := rfl
@[simp] theorem State.setFld_warm (s : State) (k lo w v : Nat) : (s.setFld k lo w v).warm = s.warm := rfl
@[simp] theorem State.setFld_tsu (s : State) (k lo w v : Nat) : (s.setFld k lo w v).tsu = s.tsu := rfl
@[simp] theorem State.setFld_free (s : State) (k lo w v : Nat) : (s.setFld k lo w v).free = s.free := rfl
@[simp] theorem State.setFld_out (s : State) (k lo w v : Nat) : (s.setFld k lo w v).out = s.out := rfl
@[simp] theorem State.setFld_thermTrip (s : State) (k lo w v : Nat) : (s.setFld k lo w v).thermTrip = s.thermTrip := rfl
@[simp] theorem State.setFld_pinFault (s : State) (k lo w v : Nat) : (s.setFld k lo w v).pinFault = s.pinFault := rfl
@[simp] theorem State.setFld_pinAlert (s : State) (k lo w v : Nat) : (s.setFld k lo w v).pinAlert = s.pinAlert := rfl
@[simp] theorem State.setFld_pinTherm (s : State) (k lo w v : Nat) : (s.setFld k lo w v).pinTherm = s.pinTherm := rfl
@[simp] theorem State.setFld_pinSpiCs (s : State) (k lo w v : Nat) : (s.setFld k lo w v).pinSpiCs = s.pinSpiCs := rfl
@[simp] theorem State.setFld_pinSpiClk (s : State) (k lo w v : Nat) : (s.setFld k lo w v).pinSpiClk = s.pinSpiClk := rfl
@[simp] theorem State.setFld_pinSpiIo (s : State) (k lo w v : Nat) : (s.setFld k lo w v).pinSpiIo = s.pinSpiIo := rfl
@[simp] theorem State.setFld_pinScl (s : State) (k lo w v : Nat) : (s.setFld k lo w v).pinScl = s.pinScl := rfl
@[simp] theorem State.setFld_pinSda (s : State) (k lo w v : Nat) : (s.setFld k lo w v).pinSda = s.pinSda := rfl
@[simp] theorem State.setFld_brakeLow (s : State) (k lo w v : Nat) : (s.setFld k lo w v).brakeLow = s.brakeLow := rfl
@[simp] theorem State.setFld_txn (s : State) (k lo w v : Nat) : (s.setFld k lo w v).txn = s.txn := rfl
@[simp] theorem State.setFld_ports (s : State) (k lo w v : Nat) : (s.setFld k lo w v).ports = s.ports := rfl
@[simp] theorem State.setFld_groups (s : State) (k lo w v : Nat) : (s.setFld k lo w v).groups = s.groups := rfl
@[simp] theorem State.setFld_jrnl (s : State) (k lo w v : Nat) : (s.setFld k lo w v).jrnl = s.jrnl := rfl
@[simp] theorem State.setFld_copy (s : State) (k lo w v : Nat) : (s.setFld k lo w v).copy = s.copy := rfl
@[simp] theorem State.setFld_flt (s : State) (k lo w v : Nat) : (s.setFld k lo w v).flt = s.flt := rfl
@[simp] theorem State.setFld_mir (s : State) (k lo w v : Nat) : (s.setFld k lo w v).mir = s.mir := rfl
@[simp] theorem State.setFld_qm (s : State) (k lo w v : Nat) : (s.setFld k lo w v).qm = s.qm := rfl
@[simp] theorem State.setFld_chans (s : State) (k lo w v : Nat) : (s.setFld k lo w v).chans = s.chans := rfl
@[simp] theorem State.setFld_pools (s : State) (k lo w v : Nat) : (s.setFld k lo w v).pools = s.pools := rfl
@[simp] theorem State.setFld_red (s : State) (k lo w v : Nat) : (s.setFld k lo w v).red = s.red := rfl
@[simp] theorem State.setFld_atu (s : State) (k lo w v : Nat) : (s.setFld k lo w v).atu = s.atu := rfl
@[simp] theorem State.setFld_prq (s : State) (k lo w v : Nat) : (s.setFld k lo w v).prq = s.prq := rfl
@[simp] theorem State.setFld_acc (s : State) (k lo w v : Nat) : (s.setFld k lo w v).acc = s.acc := rfl
@[simp] theorem State.setFld_rt (s : State) (k lo w v : Nat) : (s.setFld k lo w v).rt = s.rt := rfl
@[simp] theorem State.setFld_rtWait (s : State) (k lo w v : Nat) : (s.setFld k lo w v).rtWait = s.rtWait := rfl
@[simp] theorem State.setFld_spt (s : State) (k lo w v : Nat) : (s.setFld k lo w v).spt = s.spt := rfl
@[simp] theorem State.setFld_vdm (s : State) (k lo w v : Nat) : (s.setFld k lo w v).vdm = s.vdm := rfl
@[simp] theorem State.setFld_hlc (s : State) (k lo w v : Nat) : (s.setFld k lo w v).hlc = s.hlc := rfl
@[simp] theorem State.setFld_sites (s : State) (k lo w v : Nat) : (s.setFld k lo w v).sites = s.sites := rfl
@[simp] theorem State.setFld_sch (s : State) (k lo w v : Nat) : (s.setFld k lo w v).sch = s.sch := rfl
@[simp] theorem State.setFld_ens (s : State) (k lo w v : Nat) : (s.setFld k lo w v).ens = s.ens := rfl
@[simp] theorem State.setFld_lev (s : State) (k lo w v : Nat) : (s.setFld k lo w v).lev = s.lev := rfl
@[simp] theorem State.setFld_cp (s : State) (k lo w v : Nat) : (s.setFld k lo w v).cp = s.cp := rfl
@[simp] theorem State.setFld_fw (s : State) (k lo w v : Nat) : (s.setFld k lo w v).fw = s.fw := rfl
@[simp] theorem State.setFld_trust (s : State) (k lo w v : Nat) : (s.setFld k lo w v).trust = s.trust := rfl
@[simp] theorem State.setFld_nv (s : State) (k lo w v : Nat) : (s.setFld k lo w v).nv = s.nv := rfl
@[simp] theorem State.setFld_boot (s : State) (k lo w v : Nat) : (s.setFld k lo w v).boot = s.boot := rfl

/-! ### setMask changes `regs` only -/

@[simp] theorem State.setMask_pending (s : State) (k m v : Nat) : (s.setMask k m v).pending = s.pending := rfl
@[simp] theorem State.setMask_rlatch (s : State) (k m v : Nat) : (s.setMask k m v).rlatch = s.rlatch := rfl
@[simp] theorem State.setMask_wlatch (s : State) (k m v : Nat) : (s.setMask k m v).wlatch = s.wlatch := rfl
@[simp] theorem State.setMask_por (s : State) (k m v : Nat) : (s.setMask k m v).por = s.por := rfl
@[simp] theorem State.setMask_warm (s : State) (k m v : Nat) : (s.setMask k m v).warm = s.warm := rfl
@[simp] theorem State.setMask_tsu (s : State) (k m v : Nat) : (s.setMask k m v).tsu = s.tsu := rfl
@[simp] theorem State.setMask_free (s : State) (k m v : Nat) : (s.setMask k m v).free = s.free := rfl
@[simp] theorem State.setMask_out (s : State) (k m v : Nat) : (s.setMask k m v).out = s.out := rfl
@[simp] theorem State.setMask_thermTrip (s : State) (k m v : Nat) : (s.setMask k m v).thermTrip = s.thermTrip := rfl
@[simp] theorem State.setMask_pinFault (s : State) (k m v : Nat) : (s.setMask k m v).pinFault = s.pinFault := rfl
@[simp] theorem State.setMask_pinAlert (s : State) (k m v : Nat) : (s.setMask k m v).pinAlert = s.pinAlert := rfl
@[simp] theorem State.setMask_pinTherm (s : State) (k m v : Nat) : (s.setMask k m v).pinTherm = s.pinTherm := rfl
@[simp] theorem State.setMask_pinSpiCs (s : State) (k m v : Nat) : (s.setMask k m v).pinSpiCs = s.pinSpiCs := rfl
@[simp] theorem State.setMask_pinSpiClk (s : State) (k m v : Nat) : (s.setMask k m v).pinSpiClk = s.pinSpiClk := rfl
@[simp] theorem State.setMask_pinSpiIo (s : State) (k m v : Nat) : (s.setMask k m v).pinSpiIo = s.pinSpiIo := rfl
@[simp] theorem State.setMask_pinScl (s : State) (k m v : Nat) : (s.setMask k m v).pinScl = s.pinScl := rfl
@[simp] theorem State.setMask_pinSda (s : State) (k m v : Nat) : (s.setMask k m v).pinSda = s.pinSda := rfl
@[simp] theorem State.setMask_brakeLow (s : State) (k m v : Nat) : (s.setMask k m v).brakeLow = s.brakeLow := rfl
@[simp] theorem State.setMask_txn (s : State) (k m v : Nat) : (s.setMask k m v).txn = s.txn := rfl
@[simp] theorem State.setMask_ports (s : State) (k m v : Nat) : (s.setMask k m v).ports = s.ports := rfl
@[simp] theorem State.setMask_groups (s : State) (k m v : Nat) : (s.setMask k m v).groups = s.groups := rfl
@[simp] theorem State.setMask_jrnl (s : State) (k m v : Nat) : (s.setMask k m v).jrnl = s.jrnl := rfl
@[simp] theorem State.setMask_copy (s : State) (k m v : Nat) : (s.setMask k m v).copy = s.copy := rfl
@[simp] theorem State.setMask_flt (s : State) (k m v : Nat) : (s.setMask k m v).flt = s.flt := rfl
@[simp] theorem State.setMask_mir (s : State) (k m v : Nat) : (s.setMask k m v).mir = s.mir := rfl
@[simp] theorem State.setMask_qm (s : State) (k m v : Nat) : (s.setMask k m v).qm = s.qm := rfl
@[simp] theorem State.setMask_chans (s : State) (k m v : Nat) : (s.setMask k m v).chans = s.chans := rfl
@[simp] theorem State.setMask_pools (s : State) (k m v : Nat) : (s.setMask k m v).pools = s.pools := rfl
@[simp] theorem State.setMask_red (s : State) (k m v : Nat) : (s.setMask k m v).red = s.red := rfl
@[simp] theorem State.setMask_atu (s : State) (k m v : Nat) : (s.setMask k m v).atu = s.atu := rfl
@[simp] theorem State.setMask_prq (s : State) (k m v : Nat) : (s.setMask k m v).prq = s.prq := rfl
@[simp] theorem State.setMask_acc (s : State) (k m v : Nat) : (s.setMask k m v).acc = s.acc := rfl
@[simp] theorem State.setMask_rt (s : State) (k m v : Nat) : (s.setMask k m v).rt = s.rt := rfl
@[simp] theorem State.setMask_rtWait (s : State) (k m v : Nat) : (s.setMask k m v).rtWait = s.rtWait := rfl
@[simp] theorem State.setMask_spt (s : State) (k m v : Nat) : (s.setMask k m v).spt = s.spt := rfl
@[simp] theorem State.setMask_vdm (s : State) (k m v : Nat) : (s.setMask k m v).vdm = s.vdm := rfl
@[simp] theorem State.setMask_hlc (s : State) (k m v : Nat) : (s.setMask k m v).hlc = s.hlc := rfl
@[simp] theorem State.setMask_sites (s : State) (k m v : Nat) : (s.setMask k m v).sites = s.sites := rfl
@[simp] theorem State.setMask_sch (s : State) (k m v : Nat) : (s.setMask k m v).sch = s.sch := rfl
@[simp] theorem State.setMask_ens (s : State) (k m v : Nat) : (s.setMask k m v).ens = s.ens := rfl
@[simp] theorem State.setMask_lev (s : State) (k m v : Nat) : (s.setMask k m v).lev = s.lev := rfl
@[simp] theorem State.setMask_cp (s : State) (k m v : Nat) : (s.setMask k m v).cp = s.cp := rfl
@[simp] theorem State.setMask_fw (s : State) (k m v : Nat) : (s.setMask k m v).fw = s.fw := rfl
@[simp] theorem State.setMask_trust (s : State) (k m v : Nat) : (s.setMask k m v).trust = s.trust := rfl
@[simp] theorem State.setMask_nv (s : State) (k m v : Nat) : (s.setMask k m v).nv = s.nv := rfl
@[simp] theorem State.setMask_boot (s : State) (k m v : Nat) : (s.setMask k m v).boot = s.boot := rfl

/-! ### orR changes `regs` only -/

@[simp] theorem State.orR_pending (s : State) (k m : Nat) : (s.orR k m).pending = s.pending := rfl
@[simp] theorem State.orR_rlatch (s : State) (k m : Nat) : (s.orR k m).rlatch = s.rlatch := rfl
@[simp] theorem State.orR_wlatch (s : State) (k m : Nat) : (s.orR k m).wlatch = s.wlatch := rfl
@[simp] theorem State.orR_por (s : State) (k m : Nat) : (s.orR k m).por = s.por := rfl
@[simp] theorem State.orR_warm (s : State) (k m : Nat) : (s.orR k m).warm = s.warm := rfl
@[simp] theorem State.orR_tsu (s : State) (k m : Nat) : (s.orR k m).tsu = s.tsu := rfl
@[simp] theorem State.orR_free (s : State) (k m : Nat) : (s.orR k m).free = s.free := rfl
@[simp] theorem State.orR_out (s : State) (k m : Nat) : (s.orR k m).out = s.out := rfl
@[simp] theorem State.orR_thermTrip (s : State) (k m : Nat) : (s.orR k m).thermTrip = s.thermTrip := rfl
@[simp] theorem State.orR_pinFault (s : State) (k m : Nat) : (s.orR k m).pinFault = s.pinFault := rfl
@[simp] theorem State.orR_pinAlert (s : State) (k m : Nat) : (s.orR k m).pinAlert = s.pinAlert := rfl
@[simp] theorem State.orR_pinTherm (s : State) (k m : Nat) : (s.orR k m).pinTherm = s.pinTherm := rfl
@[simp] theorem State.orR_pinSpiCs (s : State) (k m : Nat) : (s.orR k m).pinSpiCs = s.pinSpiCs := rfl
@[simp] theorem State.orR_pinSpiClk (s : State) (k m : Nat) : (s.orR k m).pinSpiClk = s.pinSpiClk := rfl
@[simp] theorem State.orR_pinSpiIo (s : State) (k m : Nat) : (s.orR k m).pinSpiIo = s.pinSpiIo := rfl
@[simp] theorem State.orR_pinScl (s : State) (k m : Nat) : (s.orR k m).pinScl = s.pinScl := rfl
@[simp] theorem State.orR_pinSda (s : State) (k m : Nat) : (s.orR k m).pinSda = s.pinSda := rfl
@[simp] theorem State.orR_brakeLow (s : State) (k m : Nat) : (s.orR k m).brakeLow = s.brakeLow := rfl
@[simp] theorem State.orR_txn (s : State) (k m : Nat) : (s.orR k m).txn = s.txn := rfl
@[simp] theorem State.orR_ports (s : State) (k m : Nat) : (s.orR k m).ports = s.ports := rfl
@[simp] theorem State.orR_groups (s : State) (k m : Nat) : (s.orR k m).groups = s.groups := rfl
@[simp] theorem State.orR_jrnl (s : State) (k m : Nat) : (s.orR k m).jrnl = s.jrnl := rfl
@[simp] theorem State.orR_copy (s : State) (k m : Nat) : (s.orR k m).copy = s.copy := rfl
@[simp] theorem State.orR_flt (s : State) (k m : Nat) : (s.orR k m).flt = s.flt := rfl
@[simp] theorem State.orR_mir (s : State) (k m : Nat) : (s.orR k m).mir = s.mir := rfl
@[simp] theorem State.orR_qm (s : State) (k m : Nat) : (s.orR k m).qm = s.qm := rfl
@[simp] theorem State.orR_chans (s : State) (k m : Nat) : (s.orR k m).chans = s.chans := rfl
@[simp] theorem State.orR_pools (s : State) (k m : Nat) : (s.orR k m).pools = s.pools := rfl
@[simp] theorem State.orR_red (s : State) (k m : Nat) : (s.orR k m).red = s.red := rfl
@[simp] theorem State.orR_atu (s : State) (k m : Nat) : (s.orR k m).atu = s.atu := rfl
@[simp] theorem State.orR_prq (s : State) (k m : Nat) : (s.orR k m).prq = s.prq := rfl
@[simp] theorem State.orR_acc (s : State) (k m : Nat) : (s.orR k m).acc = s.acc := rfl
@[simp] theorem State.orR_rt (s : State) (k m : Nat) : (s.orR k m).rt = s.rt := rfl
@[simp] theorem State.orR_rtWait (s : State) (k m : Nat) : (s.orR k m).rtWait = s.rtWait := rfl
@[simp] theorem State.orR_spt (s : State) (k m : Nat) : (s.orR k m).spt = s.spt := rfl
@[simp] theorem State.orR_vdm (s : State) (k m : Nat) : (s.orR k m).vdm = s.vdm := rfl
@[simp] theorem State.orR_hlc (s : State) (k m : Nat) : (s.orR k m).hlc = s.hlc := rfl
@[simp] theorem State.orR_sites (s : State) (k m : Nat) : (s.orR k m).sites = s.sites := rfl
@[simp] theorem State.orR_sch (s : State) (k m : Nat) : (s.orR k m).sch = s.sch := rfl
@[simp] theorem State.orR_ens (s : State) (k m : Nat) : (s.orR k m).ens = s.ens := rfl
@[simp] theorem State.orR_lev (s : State) (k m : Nat) : (s.orR k m).lev = s.lev := rfl
@[simp] theorem State.orR_cp (s : State) (k m : Nat) : (s.orR k m).cp = s.cp := rfl
@[simp] theorem State.orR_fw (s : State) (k m : Nat) : (s.orR k m).fw = s.fw := rfl
@[simp] theorem State.orR_trust (s : State) (k m : Nat) : (s.orR k m).trust = s.trust := rfl
@[simp] theorem State.orR_nv (s : State) (k m : Nat) : (s.orR k m).nv = s.nv := rfl
@[simp] theorem State.orR_boot (s : State) (k m : Nat) : (s.orR k m).boot = s.boot := rfl

/-! ### bump changes `regs` only -/

@[simp] theorem State.bump_pending (s : State) (k n : Nat) : (s.bump k n).pending = s.pending := rfl
@[simp] theorem State.bump_rlatch (s : State) (k n : Nat) : (s.bump k n).rlatch = s.rlatch := rfl
@[simp] theorem State.bump_wlatch (s : State) (k n : Nat) : (s.bump k n).wlatch = s.wlatch := rfl
@[simp] theorem State.bump_por (s : State) (k n : Nat) : (s.bump k n).por = s.por := rfl
@[simp] theorem State.bump_warm (s : State) (k n : Nat) : (s.bump k n).warm = s.warm := rfl
@[simp] theorem State.bump_tsu (s : State) (k n : Nat) : (s.bump k n).tsu = s.tsu := rfl
@[simp] theorem State.bump_free (s : State) (k n : Nat) : (s.bump k n).free = s.free := rfl
@[simp] theorem State.bump_out (s : State) (k n : Nat) : (s.bump k n).out = s.out := rfl
@[simp] theorem State.bump_thermTrip (s : State) (k n : Nat) : (s.bump k n).thermTrip = s.thermTrip := rfl
@[simp] theorem State.bump_pinFault (s : State) (k n : Nat) : (s.bump k n).pinFault = s.pinFault := rfl
@[simp] theorem State.bump_pinAlert (s : State) (k n : Nat) : (s.bump k n).pinAlert = s.pinAlert := rfl
@[simp] theorem State.bump_pinTherm (s : State) (k n : Nat) : (s.bump k n).pinTherm = s.pinTherm := rfl
@[simp] theorem State.bump_pinSpiCs (s : State) (k n : Nat) : (s.bump k n).pinSpiCs = s.pinSpiCs := rfl
@[simp] theorem State.bump_pinSpiClk (s : State) (k n : Nat) : (s.bump k n).pinSpiClk = s.pinSpiClk := rfl
@[simp] theorem State.bump_pinSpiIo (s : State) (k n : Nat) : (s.bump k n).pinSpiIo = s.pinSpiIo := rfl
@[simp] theorem State.bump_pinScl (s : State) (k n : Nat) : (s.bump k n).pinScl = s.pinScl := rfl
@[simp] theorem State.bump_pinSda (s : State) (k n : Nat) : (s.bump k n).pinSda = s.pinSda := rfl
@[simp] theorem State.bump_brakeLow (s : State) (k n : Nat) : (s.bump k n).brakeLow = s.brakeLow := rfl
@[simp] theorem State.bump_txn (s : State) (k n : Nat) : (s.bump k n).txn = s.txn := rfl
@[simp] theorem State.bump_ports (s : State) (k n : Nat) : (s.bump k n).ports = s.ports := rfl
@[simp] theorem State.bump_groups (s : State) (k n : Nat) : (s.bump k n).groups = s.groups := rfl
@[simp] theorem State.bump_jrnl (s : State) (k n : Nat) : (s.bump k n).jrnl = s.jrnl := rfl
@[simp] theorem State.bump_copy (s : State) (k n : Nat) : (s.bump k n).copy = s.copy := rfl
@[simp] theorem State.bump_flt (s : State) (k n : Nat) : (s.bump k n).flt = s.flt := rfl
@[simp] theorem State.bump_mir (s : State) (k n : Nat) : (s.bump k n).mir = s.mir := rfl
@[simp] theorem State.bump_qm (s : State) (k n : Nat) : (s.bump k n).qm = s.qm := rfl
@[simp] theorem State.bump_chans (s : State) (k n : Nat) : (s.bump k n).chans = s.chans := rfl
@[simp] theorem State.bump_pools (s : State) (k n : Nat) : (s.bump k n).pools = s.pools := rfl
@[simp] theorem State.bump_red (s : State) (k n : Nat) : (s.bump k n).red = s.red := rfl
@[simp] theorem State.bump_atu (s : State) (k n : Nat) : (s.bump k n).atu = s.atu := rfl
@[simp] theorem State.bump_prq (s : State) (k n : Nat) : (s.bump k n).prq = s.prq := rfl
@[simp] theorem State.bump_acc (s : State) (k n : Nat) : (s.bump k n).acc = s.acc := rfl
@[simp] theorem State.bump_rt (s : State) (k n : Nat) : (s.bump k n).rt = s.rt := rfl
@[simp] theorem State.bump_rtWait (s : State) (k n : Nat) : (s.bump k n).rtWait = s.rtWait := rfl
@[simp] theorem State.bump_spt (s : State) (k n : Nat) : (s.bump k n).spt = s.spt := rfl
@[simp] theorem State.bump_vdm (s : State) (k n : Nat) : (s.bump k n).vdm = s.vdm := rfl
@[simp] theorem State.bump_hlc (s : State) (k n : Nat) : (s.bump k n).hlc = s.hlc := rfl
@[simp] theorem State.bump_sites (s : State) (k n : Nat) : (s.bump k n).sites = s.sites := rfl
@[simp] theorem State.bump_sch (s : State) (k n : Nat) : (s.bump k n).sch = s.sch := rfl
@[simp] theorem State.bump_ens (s : State) (k n : Nat) : (s.bump k n).ens = s.ens := rfl
@[simp] theorem State.bump_lev (s : State) (k n : Nat) : (s.bump k n).lev = s.lev := rfl
@[simp] theorem State.bump_cp (s : State) (k n : Nat) : (s.bump k n).cp = s.cp := rfl
@[simp] theorem State.bump_fw (s : State) (k n : Nat) : (s.bump k n).fw = s.fw := rfl
@[simp] theorem State.bump_trust (s : State) (k n : Nat) : (s.bump k n).trust = s.trust := rfl
@[simp] theorem State.bump_nv (s : State) (k n : Nat) : (s.bump k n).nv = s.nv := rfl
@[simp] theorem State.bump_boot (s : State) (k n : Nat) : (s.bump k n).boot = s.boot := rfl

/-! ### satFld changes `regs` only -/

@[simp] theorem State.satFld_pending (s : State) (k lo w n : Nat) : (s.satFld k lo w n).pending = s.pending := rfl
@[simp] theorem State.satFld_rlatch (s : State) (k lo w n : Nat) : (s.satFld k lo w n).rlatch = s.rlatch := rfl
@[simp] theorem State.satFld_wlatch (s : State) (k lo w n : Nat) : (s.satFld k lo w n).wlatch = s.wlatch := rfl
@[simp] theorem State.satFld_por (s : State) (k lo w n : Nat) : (s.satFld k lo w n).por = s.por := rfl
@[simp] theorem State.satFld_warm (s : State) (k lo w n : Nat) : (s.satFld k lo w n).warm = s.warm := rfl
@[simp] theorem State.satFld_tsu (s : State) (k lo w n : Nat) : (s.satFld k lo w n).tsu = s.tsu := rfl
@[simp] theorem State.satFld_free (s : State) (k lo w n : Nat) : (s.satFld k lo w n).free = s.free := rfl
@[simp] theorem State.satFld_out (s : State) (k lo w n : Nat) : (s.satFld k lo w n).out = s.out := rfl
@[simp] theorem State.satFld_thermTrip (s : State) (k lo w n : Nat) : (s.satFld k lo w n).thermTrip = s.thermTrip := rfl
@[simp] theorem State.satFld_pinFault (s : State) (k lo w n : Nat) : (s.satFld k lo w n).pinFault = s.pinFault := rfl
@[simp] theorem State.satFld_pinAlert (s : State) (k lo w n : Nat) : (s.satFld k lo w n).pinAlert = s.pinAlert := rfl
@[simp] theorem State.satFld_pinTherm (s : State) (k lo w n : Nat) : (s.satFld k lo w n).pinTherm = s.pinTherm := rfl
@[simp] theorem State.satFld_pinSpiCs (s : State) (k lo w n : Nat) : (s.satFld k lo w n).pinSpiCs = s.pinSpiCs := rfl
@[simp] theorem State.satFld_pinSpiClk (s : State) (k lo w n : Nat) : (s.satFld k lo w n).pinSpiClk = s.pinSpiClk := rfl
@[simp] theorem State.satFld_pinSpiIo (s : State) (k lo w n : Nat) : (s.satFld k lo w n).pinSpiIo = s.pinSpiIo := rfl
@[simp] theorem State.satFld_pinScl (s : State) (k lo w n : Nat) : (s.satFld k lo w n).pinScl = s.pinScl := rfl
@[simp] theorem State.satFld_pinSda (s : State) (k lo w n : Nat) : (s.satFld k lo w n).pinSda = s.pinSda := rfl
@[simp] theorem State.satFld_brakeLow (s : State) (k lo w n : Nat) : (s.satFld k lo w n).brakeLow = s.brakeLow := rfl
@[simp] theorem State.satFld_txn (s : State) (k lo w n : Nat) : (s.satFld k lo w n).txn = s.txn := rfl
@[simp] theorem State.satFld_ports (s : State) (k lo w n : Nat) : (s.satFld k lo w n).ports = s.ports := rfl
@[simp] theorem State.satFld_groups (s : State) (k lo w n : Nat) : (s.satFld k lo w n).groups = s.groups := rfl
@[simp] theorem State.satFld_jrnl (s : State) (k lo w n : Nat) : (s.satFld k lo w n).jrnl = s.jrnl := rfl
@[simp] theorem State.satFld_copy (s : State) (k lo w n : Nat) : (s.satFld k lo w n).copy = s.copy := rfl
@[simp] theorem State.satFld_flt (s : State) (k lo w n : Nat) : (s.satFld k lo w n).flt = s.flt := rfl
@[simp] theorem State.satFld_mir (s : State) (k lo w n : Nat) : (s.satFld k lo w n).mir = s.mir := rfl
@[simp] theorem State.satFld_qm (s : State) (k lo w n : Nat) : (s.satFld k lo w n).qm = s.qm := rfl
@[simp] theorem State.satFld_chans (s : State) (k lo w n : Nat) : (s.satFld k lo w n).chans = s.chans := rfl
@[simp] theorem State.satFld_pools (s : State) (k lo w n : Nat) : (s.satFld k lo w n).pools = s.pools := rfl
@[simp] theorem State.satFld_red (s : State) (k lo w n : Nat) : (s.satFld k lo w n).red = s.red := rfl
@[simp] theorem State.satFld_atu (s : State) (k lo w n : Nat) : (s.satFld k lo w n).atu = s.atu := rfl
@[simp] theorem State.satFld_prq (s : State) (k lo w n : Nat) : (s.satFld k lo w n).prq = s.prq := rfl
@[simp] theorem State.satFld_acc (s : State) (k lo w n : Nat) : (s.satFld k lo w n).acc = s.acc := rfl
@[simp] theorem State.satFld_rt (s : State) (k lo w n : Nat) : (s.satFld k lo w n).rt = s.rt := rfl
@[simp] theorem State.satFld_rtWait (s : State) (k lo w n : Nat) : (s.satFld k lo w n).rtWait = s.rtWait := rfl
@[simp] theorem State.satFld_spt (s : State) (k lo w n : Nat) : (s.satFld k lo w n).spt = s.spt := rfl
@[simp] theorem State.satFld_vdm (s : State) (k lo w n : Nat) : (s.satFld k lo w n).vdm = s.vdm := rfl
@[simp] theorem State.satFld_hlc (s : State) (k lo w n : Nat) : (s.satFld k lo w n).hlc = s.hlc := rfl
@[simp] theorem State.satFld_sites (s : State) (k lo w n : Nat) : (s.satFld k lo w n).sites = s.sites := rfl
@[simp] theorem State.satFld_sch (s : State) (k lo w n : Nat) : (s.satFld k lo w n).sch = s.sch := rfl
@[simp] theorem State.satFld_ens (s : State) (k lo w n : Nat) : (s.satFld k lo w n).ens = s.ens := rfl
@[simp] theorem State.satFld_lev (s : State) (k lo w n : Nat) : (s.satFld k lo w n).lev = s.lev := rfl
@[simp] theorem State.satFld_cp (s : State) (k lo w n : Nat) : (s.satFld k lo w n).cp = s.cp := rfl
@[simp] theorem State.satFld_fw (s : State) (k lo w n : Nat) : (s.satFld k lo w n).fw = s.fw := rfl
@[simp] theorem State.satFld_trust (s : State) (k lo w n : Nat) : (s.satFld k lo w n).trust = s.trust := rfl
@[simp] theorem State.satFld_nv (s : State) (k lo w n : Nat) : (s.satFld k lo w n).nv = s.nv := rfl
@[simp] theorem State.satFld_boot (s : State) (k lo w n : Nat) : (s.satFld k lo w n).boot = s.boot := rfl

/-! ### irq changes `regs` only -/

@[simp] theorem State.irq_pending (s : State) (p : PageId) (n : Nat) : (s.irq p n).pending = s.pending := rfl
@[simp] theorem State.irq_rlatch (s : State) (p : PageId) (n : Nat) : (s.irq p n).rlatch = s.rlatch := rfl
@[simp] theorem State.irq_wlatch (s : State) (p : PageId) (n : Nat) : (s.irq p n).wlatch = s.wlatch := rfl
@[simp] theorem State.irq_por (s : State) (p : PageId) (n : Nat) : (s.irq p n).por = s.por := rfl
@[simp] theorem State.irq_warm (s : State) (p : PageId) (n : Nat) : (s.irq p n).warm = s.warm := rfl
@[simp] theorem State.irq_tsu (s : State) (p : PageId) (n : Nat) : (s.irq p n).tsu = s.tsu := rfl
@[simp] theorem State.irq_free (s : State) (p : PageId) (n : Nat) : (s.irq p n).free = s.free := rfl
@[simp] theorem State.irq_out (s : State) (p : PageId) (n : Nat) : (s.irq p n).out = s.out := rfl
@[simp] theorem State.irq_thermTrip (s : State) (p : PageId) (n : Nat) : (s.irq p n).thermTrip = s.thermTrip := rfl
@[simp] theorem State.irq_pinFault (s : State) (p : PageId) (n : Nat) : (s.irq p n).pinFault = s.pinFault := rfl
@[simp] theorem State.irq_pinAlert (s : State) (p : PageId) (n : Nat) : (s.irq p n).pinAlert = s.pinAlert := rfl
@[simp] theorem State.irq_pinTherm (s : State) (p : PageId) (n : Nat) : (s.irq p n).pinTherm = s.pinTherm := rfl
@[simp] theorem State.irq_pinSpiCs (s : State) (p : PageId) (n : Nat) : (s.irq p n).pinSpiCs = s.pinSpiCs := rfl
@[simp] theorem State.irq_pinSpiClk (s : State) (p : PageId) (n : Nat) : (s.irq p n).pinSpiClk = s.pinSpiClk := rfl
@[simp] theorem State.irq_pinSpiIo (s : State) (p : PageId) (n : Nat) : (s.irq p n).pinSpiIo = s.pinSpiIo := rfl
@[simp] theorem State.irq_pinScl (s : State) (p : PageId) (n : Nat) : (s.irq p n).pinScl = s.pinScl := rfl
@[simp] theorem State.irq_pinSda (s : State) (p : PageId) (n : Nat) : (s.irq p n).pinSda = s.pinSda := rfl
@[simp] theorem State.irq_brakeLow (s : State) (p : PageId) (n : Nat) : (s.irq p n).brakeLow = s.brakeLow := rfl
@[simp] theorem State.irq_txn (s : State) (p : PageId) (n : Nat) : (s.irq p n).txn = s.txn := rfl
@[simp] theorem State.irq_ports (s : State) (p : PageId) (n : Nat) : (s.irq p n).ports = s.ports := rfl
@[simp] theorem State.irq_groups (s : State) (p : PageId) (n : Nat) : (s.irq p n).groups = s.groups := rfl
@[simp] theorem State.irq_jrnl (s : State) (p : PageId) (n : Nat) : (s.irq p n).jrnl = s.jrnl := rfl
@[simp] theorem State.irq_copy (s : State) (p : PageId) (n : Nat) : (s.irq p n).copy = s.copy := rfl
@[simp] theorem State.irq_flt (s : State) (p : PageId) (n : Nat) : (s.irq p n).flt = s.flt := rfl
@[simp] theorem State.irq_mir (s : State) (p : PageId) (n : Nat) : (s.irq p n).mir = s.mir := rfl
@[simp] theorem State.irq_qm (s : State) (p : PageId) (n : Nat) : (s.irq p n).qm = s.qm := rfl
@[simp] theorem State.irq_chans (s : State) (p : PageId) (n : Nat) : (s.irq p n).chans = s.chans := rfl
@[simp] theorem State.irq_pools (s : State) (p : PageId) (n : Nat) : (s.irq p n).pools = s.pools := rfl
@[simp] theorem State.irq_red (s : State) (p : PageId) (n : Nat) : (s.irq p n).red = s.red := rfl
@[simp] theorem State.irq_atu (s : State) (p : PageId) (n : Nat) : (s.irq p n).atu = s.atu := rfl
@[simp] theorem State.irq_prq (s : State) (p : PageId) (n : Nat) : (s.irq p n).prq = s.prq := rfl
@[simp] theorem State.irq_acc (s : State) (p : PageId) (n : Nat) : (s.irq p n).acc = s.acc := rfl
@[simp] theorem State.irq_rt (s : State) (p : PageId) (n : Nat) : (s.irq p n).rt = s.rt := rfl
@[simp] theorem State.irq_rtWait (s : State) (p : PageId) (n : Nat) : (s.irq p n).rtWait = s.rtWait := rfl
@[simp] theorem State.irq_spt (s : State) (p : PageId) (n : Nat) : (s.irq p n).spt = s.spt := rfl
@[simp] theorem State.irq_vdm (s : State) (p : PageId) (n : Nat) : (s.irq p n).vdm = s.vdm := rfl
@[simp] theorem State.irq_hlc (s : State) (p : PageId) (n : Nat) : (s.irq p n).hlc = s.hlc := rfl
@[simp] theorem State.irq_sites (s : State) (p : PageId) (n : Nat) : (s.irq p n).sites = s.sites := rfl
@[simp] theorem State.irq_sch (s : State) (p : PageId) (n : Nat) : (s.irq p n).sch = s.sch := rfl
@[simp] theorem State.irq_ens (s : State) (p : PageId) (n : Nat) : (s.irq p n).ens = s.ens := rfl
@[simp] theorem State.irq_lev (s : State) (p : PageId) (n : Nat) : (s.irq p n).lev = s.lev := rfl
@[simp] theorem State.irq_cp (s : State) (p : PageId) (n : Nat) : (s.irq p n).cp = s.cp := rfl
@[simp] theorem State.irq_fw (s : State) (p : PageId) (n : Nat) : (s.irq p n).fw = s.fw := rfl
@[simp] theorem State.irq_trust (s : State) (p : PageId) (n : Nat) : (s.irq p n).trust = s.trust := rfl
@[simp] theorem State.irq_nv (s : State) (p : PageId) (n : Nat) : (s.irq p n).nv = s.nv := rfl
@[simp] theorem State.irq_boot (s : State) (p : PageId) (n : Nat) : (s.irq p n).boot = s.boot := rfl

/-! ### perr changes `regs` only -/

@[simp] theorem State.perr_pending (s : State) (p : PageId) (n : Nat) : (s.perr p n).pending = s.pending := rfl
@[simp] theorem State.perr_rlatch (s : State) (p : PageId) (n : Nat) : (s.perr p n).rlatch = s.rlatch := rfl
@[simp] theorem State.perr_wlatch (s : State) (p : PageId) (n : Nat) : (s.perr p n).wlatch = s.wlatch := rfl
@[simp] theorem State.perr_por (s : State) (p : PageId) (n : Nat) : (s.perr p n).por = s.por := rfl
@[simp] theorem State.perr_warm (s : State) (p : PageId) (n : Nat) : (s.perr p n).warm = s.warm := rfl
@[simp] theorem State.perr_tsu (s : State) (p : PageId) (n : Nat) : (s.perr p n).tsu = s.tsu := rfl
@[simp] theorem State.perr_free (s : State) (p : PageId) (n : Nat) : (s.perr p n).free = s.free := rfl
@[simp] theorem State.perr_out (s : State) (p : PageId) (n : Nat) : (s.perr p n).out = s.out := rfl
@[simp] theorem State.perr_thermTrip (s : State) (p : PageId) (n : Nat) : (s.perr p n).thermTrip = s.thermTrip := rfl
@[simp] theorem State.perr_pinFault (s : State) (p : PageId) (n : Nat) : (s.perr p n).pinFault = s.pinFault := rfl
@[simp] theorem State.perr_pinAlert (s : State) (p : PageId) (n : Nat) : (s.perr p n).pinAlert = s.pinAlert := rfl
@[simp] theorem State.perr_pinTherm (s : State) (p : PageId) (n : Nat) : (s.perr p n).pinTherm = s.pinTherm := rfl
@[simp] theorem State.perr_pinSpiCs (s : State) (p : PageId) (n : Nat) : (s.perr p n).pinSpiCs = s.pinSpiCs := rfl
@[simp] theorem State.perr_pinSpiClk (s : State) (p : PageId) (n : Nat) : (s.perr p n).pinSpiClk = s.pinSpiClk := rfl
@[simp] theorem State.perr_pinSpiIo (s : State) (p : PageId) (n : Nat) : (s.perr p n).pinSpiIo = s.pinSpiIo := rfl
@[simp] theorem State.perr_pinScl (s : State) (p : PageId) (n : Nat) : (s.perr p n).pinScl = s.pinScl := rfl
@[simp] theorem State.perr_pinSda (s : State) (p : PageId) (n : Nat) : (s.perr p n).pinSda = s.pinSda := rfl
@[simp] theorem State.perr_brakeLow (s : State) (p : PageId) (n : Nat) : (s.perr p n).brakeLow = s.brakeLow := rfl
@[simp] theorem State.perr_txn (s : State) (p : PageId) (n : Nat) : (s.perr p n).txn = s.txn := rfl
@[simp] theorem State.perr_ports (s : State) (p : PageId) (n : Nat) : (s.perr p n).ports = s.ports := rfl
@[simp] theorem State.perr_groups (s : State) (p : PageId) (n : Nat) : (s.perr p n).groups = s.groups := rfl
@[simp] theorem State.perr_jrnl (s : State) (p : PageId) (n : Nat) : (s.perr p n).jrnl = s.jrnl := rfl
@[simp] theorem State.perr_copy (s : State) (p : PageId) (n : Nat) : (s.perr p n).copy = s.copy := rfl
@[simp] theorem State.perr_flt (s : State) (p : PageId) (n : Nat) : (s.perr p n).flt = s.flt := rfl
@[simp] theorem State.perr_mir (s : State) (p : PageId) (n : Nat) : (s.perr p n).mir = s.mir := rfl
@[simp] theorem State.perr_qm (s : State) (p : PageId) (n : Nat) : (s.perr p n).qm = s.qm := rfl
@[simp] theorem State.perr_chans (s : State) (p : PageId) (n : Nat) : (s.perr p n).chans = s.chans := rfl
@[simp] theorem State.perr_pools (s : State) (p : PageId) (n : Nat) : (s.perr p n).pools = s.pools := rfl
@[simp] theorem State.perr_red (s : State) (p : PageId) (n : Nat) : (s.perr p n).red = s.red := rfl
@[simp] theorem State.perr_atu (s : State) (p : PageId) (n : Nat) : (s.perr p n).atu = s.atu := rfl
@[simp] theorem State.perr_prq (s : State) (p : PageId) (n : Nat) : (s.perr p n).prq = s.prq := rfl
@[simp] theorem State.perr_acc (s : State) (p : PageId) (n : Nat) : (s.perr p n).acc = s.acc := rfl
@[simp] theorem State.perr_rt (s : State) (p : PageId) (n : Nat) : (s.perr p n).rt = s.rt := rfl
@[simp] theorem State.perr_rtWait (s : State) (p : PageId) (n : Nat) : (s.perr p n).rtWait = s.rtWait := rfl
@[simp] theorem State.perr_spt (s : State) (p : PageId) (n : Nat) : (s.perr p n).spt = s.spt := rfl
@[simp] theorem State.perr_vdm (s : State) (p : PageId) (n : Nat) : (s.perr p n).vdm = s.vdm := rfl
@[simp] theorem State.perr_hlc (s : State) (p : PageId) (n : Nat) : (s.perr p n).hlc = s.hlc := rfl
@[simp] theorem State.perr_sites (s : State) (p : PageId) (n : Nat) : (s.perr p n).sites = s.sites := rfl
@[simp] theorem State.perr_sch (s : State) (p : PageId) (n : Nat) : (s.perr p n).sch = s.sch := rfl
@[simp] theorem State.perr_ens (s : State) (p : PageId) (n : Nat) : (s.perr p n).ens = s.ens := rfl
@[simp] theorem State.perr_lev (s : State) (p : PageId) (n : Nat) : (s.perr p n).lev = s.lev := rfl
@[simp] theorem State.perr_cp (s : State) (p : PageId) (n : Nat) : (s.perr p n).cp = s.cp := rfl
@[simp] theorem State.perr_fw (s : State) (p : PageId) (n : Nat) : (s.perr p n).fw = s.fw := rfl
@[simp] theorem State.perr_trust (s : State) (p : PageId) (n : Nat) : (s.perr p n).trust = s.trust := rfl
@[simp] theorem State.perr_nv (s : State) (p : PageId) (n : Nat) : (s.perr p n).nv = s.nv := rfl
@[simp] theorem State.perr_boot (s : State) (p : PageId) (n : Nat) : (s.perr p n).boot = s.boot := rfl

/-! ### emit changes `out` only -/

@[simp] theorem State.emit_pending (s : State) (o : Out) : (s.emit o).pending = s.pending := rfl
@[simp] theorem State.emit_regs (s : State) (o : Out) : (s.emit o).regs = s.regs := rfl
@[simp] theorem State.emit_rlatch (s : State) (o : Out) : (s.emit o).rlatch = s.rlatch := rfl
@[simp] theorem State.emit_wlatch (s : State) (o : Out) : (s.emit o).wlatch = s.wlatch := rfl
@[simp] theorem State.emit_por (s : State) (o : Out) : (s.emit o).por = s.por := rfl
@[simp] theorem State.emit_warm (s : State) (o : Out) : (s.emit o).warm = s.warm := rfl
@[simp] theorem State.emit_tsu (s : State) (o : Out) : (s.emit o).tsu = s.tsu := rfl
@[simp] theorem State.emit_free (s : State) (o : Out) : (s.emit o).free = s.free := rfl
@[simp] theorem State.emit_thermTrip (s : State) (o : Out) : (s.emit o).thermTrip = s.thermTrip := rfl
@[simp] theorem State.emit_pinFault (s : State) (o : Out) : (s.emit o).pinFault = s.pinFault := rfl
@[simp] theorem State.emit_pinAlert (s : State) (o : Out) : (s.emit o).pinAlert = s.pinAlert := rfl
@[simp] theorem State.emit_pinTherm (s : State) (o : Out) : (s.emit o).pinTherm = s.pinTherm := rfl
@[simp] theorem State.emit_pinSpiCs (s : State) (o : Out) : (s.emit o).pinSpiCs = s.pinSpiCs := rfl
@[simp] theorem State.emit_pinSpiClk (s : State) (o : Out) : (s.emit o).pinSpiClk = s.pinSpiClk := rfl
@[simp] theorem State.emit_pinSpiIo (s : State) (o : Out) : (s.emit o).pinSpiIo = s.pinSpiIo := rfl
@[simp] theorem State.emit_pinScl (s : State) (o : Out) : (s.emit o).pinScl = s.pinScl := rfl
@[simp] theorem State.emit_pinSda (s : State) (o : Out) : (s.emit o).pinSda = s.pinSda := rfl
@[simp] theorem State.emit_brakeLow (s : State) (o : Out) : (s.emit o).brakeLow = s.brakeLow := rfl
@[simp] theorem State.emit_txn (s : State) (o : Out) : (s.emit o).txn = s.txn := rfl
@[simp] theorem State.emit_ports (s : State) (o : Out) : (s.emit o).ports = s.ports := rfl
@[simp] theorem State.emit_groups (s : State) (o : Out) : (s.emit o).groups = s.groups := rfl
@[simp] theorem State.emit_jrnl (s : State) (o : Out) : (s.emit o).jrnl = s.jrnl := rfl
@[simp] theorem State.emit_copy (s : State) (o : Out) : (s.emit o).copy = s.copy := rfl
@[simp] theorem State.emit_flt (s : State) (o : Out) : (s.emit o).flt = s.flt := rfl
@[simp] theorem State.emit_mir (s : State) (o : Out) : (s.emit o).mir = s.mir := rfl
@[simp] theorem State.emit_qm (s : State) (o : Out) : (s.emit o).qm = s.qm := rfl
@[simp] theorem State.emit_chans (s : State) (o : Out) : (s.emit o).chans = s.chans := rfl
@[simp] theorem State.emit_pools (s : State) (o : Out) : (s.emit o).pools = s.pools := rfl
@[simp] theorem State.emit_red (s : State) (o : Out) : (s.emit o).red = s.red := rfl
@[simp] theorem State.emit_atu (s : State) (o : Out) : (s.emit o).atu = s.atu := rfl
@[simp] theorem State.emit_prq (s : State) (o : Out) : (s.emit o).prq = s.prq := rfl
@[simp] theorem State.emit_acc (s : State) (o : Out) : (s.emit o).acc = s.acc := rfl
@[simp] theorem State.emit_rt (s : State) (o : Out) : (s.emit o).rt = s.rt := rfl
@[simp] theorem State.emit_rtWait (s : State) (o : Out) : (s.emit o).rtWait = s.rtWait := rfl
@[simp] theorem State.emit_spt (s : State) (o : Out) : (s.emit o).spt = s.spt := rfl
@[simp] theorem State.emit_vdm (s : State) (o : Out) : (s.emit o).vdm = s.vdm := rfl
@[simp] theorem State.emit_hlc (s : State) (o : Out) : (s.emit o).hlc = s.hlc := rfl
@[simp] theorem State.emit_sites (s : State) (o : Out) : (s.emit o).sites = s.sites := rfl
@[simp] theorem State.emit_sch (s : State) (o : Out) : (s.emit o).sch = s.sch := rfl
@[simp] theorem State.emit_ens (s : State) (o : Out) : (s.emit o).ens = s.ens := rfl
@[simp] theorem State.emit_lev (s : State) (o : Out) : (s.emit o).lev = s.lev := rfl
@[simp] theorem State.emit_cp (s : State) (o : Out) : (s.emit o).cp = s.cp := rfl
@[simp] theorem State.emit_fw (s : State) (o : Out) : (s.emit o).fw = s.fw := rfl
@[simp] theorem State.emit_trust (s : State) (o : Out) : (s.emit o).trust = s.trust := rfl
@[simp] theorem State.emit_nv (s : State) (o : Out) : (s.emit o).nv = s.nv := rfl
@[simp] theorem State.emit_boot (s : State) (o : Out) : (s.emit o).boot = s.boot := rfl

/-! ### emits changes `out` only -/

@[simp] theorem State.emits_pending (s : State) (o : List Out) : (s.emits o).pending = s.pending := rfl
@[simp] theorem State.emits_regs (s : State) (o : List Out) : (s.emits o).regs = s.regs := rfl
@[simp] theorem State.emits_rlatch (s : State) (o : List Out) : (s.emits o).rlatch = s.rlatch := rfl
@[simp] theorem State.emits_wlatch (s : State) (o : List Out) : (s.emits o).wlatch = s.wlatch := rfl
@[simp] theorem State.emits_por (s : State) (o : List Out) : (s.emits o).por = s.por := rfl
@[simp] theorem State.emits_warm (s : State) (o : List Out) : (s.emits o).warm = s.warm := rfl
@[simp] theorem State.emits_tsu (s : State) (o : List Out) : (s.emits o).tsu = s.tsu := rfl
@[simp] theorem State.emits_free (s : State) (o : List Out) : (s.emits o).free = s.free := rfl
@[simp] theorem State.emits_thermTrip (s : State) (o : List Out) : (s.emits o).thermTrip = s.thermTrip := rfl
@[simp] theorem State.emits_pinFault (s : State) (o : List Out) : (s.emits o).pinFault = s.pinFault := rfl
@[simp] theorem State.emits_pinAlert (s : State) (o : List Out) : (s.emits o).pinAlert = s.pinAlert := rfl
@[simp] theorem State.emits_pinTherm (s : State) (o : List Out) : (s.emits o).pinTherm = s.pinTherm := rfl
@[simp] theorem State.emits_pinSpiCs (s : State) (o : List Out) : (s.emits o).pinSpiCs = s.pinSpiCs := rfl
@[simp] theorem State.emits_pinSpiClk (s : State) (o : List Out) : (s.emits o).pinSpiClk = s.pinSpiClk := rfl
@[simp] theorem State.emits_pinSpiIo (s : State) (o : List Out) : (s.emits o).pinSpiIo = s.pinSpiIo := rfl
@[simp] theorem State.emits_pinScl (s : State) (o : List Out) : (s.emits o).pinScl = s.pinScl := rfl
@[simp] theorem State.emits_pinSda (s : State) (o : List Out) : (s.emits o).pinSda = s.pinSda := rfl
@[simp] theorem State.emits_brakeLow (s : State) (o : List Out) : (s.emits o).brakeLow = s.brakeLow := rfl
@[simp] theorem State.emits_txn (s : State) (o : List Out) : (s.emits o).txn = s.txn := rfl
@[simp] theorem State.emits_ports (s : State) (o : List Out) : (s.emits o).ports = s.ports := rfl
@[simp] theorem State.emits_groups (s : State) (o : List Out) : (s.emits o).groups = s.groups := rfl
@[simp] theorem State.emits_jrnl (s : State) (o : List Out) : (s.emits o).jrnl = s.jrnl := rfl
@[simp] theorem State.emits_copy (s : State) (o : List Out) : (s.emits o).copy = s.copy := rfl
@[simp] theorem State.emits_flt (s : State) (o : List Out) : (s.emits o).flt = s.flt := rfl
@[simp] theorem State.emits_mir (s : State) (o : List Out) : (s.emits o).mir = s.mir := rfl
@[simp] theorem State.emits_qm (s : State) (o : List Out) : (s.emits o).qm = s.qm := rfl
@[simp] theorem State.emits_chans (s : State) (o : List Out) : (s.emits o).chans = s.chans := rfl
@[simp] theorem State.emits_pools (s : State) (o : List Out) : (s.emits o).pools = s.pools := rfl
@[simp] theorem State.emits_red (s : State) (o : List Out) : (s.emits o).red = s.red := rfl
@[simp] theorem State.emits_atu (s : State) (o : List Out) : (s.emits o).atu = s.atu := rfl
@[simp] theorem State.emits_prq (s : State) (o : List Out) : (s.emits o).prq = s.prq := rfl
@[simp] theorem State.emits_acc (s : State) (o : List Out) : (s.emits o).acc = s.acc := rfl
@[simp] theorem State.emits_rt (s : State) (o : List Out) : (s.emits o).rt = s.rt := rfl
@[simp] theorem State.emits_rtWait (s : State) (o : List Out) : (s.emits o).rtWait = s.rtWait := rfl
@[simp] theorem State.emits_spt (s : State) (o : List Out) : (s.emits o).spt = s.spt := rfl
@[simp] theorem State.emits_vdm (s : State) (o : List Out) : (s.emits o).vdm = s.vdm := rfl
@[simp] theorem State.emits_hlc (s : State) (o : List Out) : (s.emits o).hlc = s.hlc := rfl
@[simp] theorem State.emits_sites (s : State) (o : List Out) : (s.emits o).sites = s.sites := rfl
@[simp] theorem State.emits_sch (s : State) (o : List Out) : (s.emits o).sch = s.sch := rfl
@[simp] theorem State.emits_ens (s : State) (o : List Out) : (s.emits o).ens = s.ens := rfl
@[simp] theorem State.emits_lev (s : State) (o : List Out) : (s.emits o).lev = s.lev := rfl
@[simp] theorem State.emits_cp (s : State) (o : List Out) : (s.emits o).cp = s.cp := rfl
@[simp] theorem State.emits_fw (s : State) (o : List Out) : (s.emits o).fw = s.fw := rfl
@[simp] theorem State.emits_trust (s : State) (o : List Out) : (s.emits o).trust = s.trust := rfl
@[simp] theorem State.emits_nv (s : State) (o : List Out) : (s.emits o).nv = s.nv := rfl
@[simp] theorem State.emits_boot (s : State) (o : List Out) : (s.emits o).boot = s.boot := rfl

/-! ### updPort changes `ports` only -/

@[simp] theorem State.updPort_pending (s : State) (n : Nat) (f : PortSt → PortSt) : (s.updPort n f).pending = s.pending := rfl
@[simp] theorem State.updPort_regs (s : State) (n : Nat) (f : PortSt → PortSt) : (s.updPort n f).regs = s.regs := rfl
@[simp] theorem State.updPort_rlatch (s : State) (n : Nat) (f : PortSt → PortSt) : (s.updPort n f).rlatch = s.rlatch := rfl
@[simp] theorem State.updPort_wlatch (s : State) (n : Nat) (f : PortSt → PortSt) : (s.updPort n f).wlatch = s.wlatch := rfl
@[simp] theorem State.updPort_por (s : State) (n : Nat) (f : PortSt → PortSt) : (s.updPort n f).por = s.por := rfl
@[simp] theorem State.updPort_warm (s : State) (n : Nat) (f : PortSt → PortSt) : (s.updPort n f).warm = s.warm := rfl
@[simp] theorem State.updPort_tsu (s : State) (n : Nat) (f : PortSt → PortSt) : (s.updPort n f).tsu = s.tsu := rfl
@[simp] theorem State.updPort_free (s : State) (n : Nat) (f : PortSt → PortSt) : (s.updPort n f).free = s.free := rfl
@[simp] theorem State.updPort_out (s : State) (n : Nat) (f : PortSt → PortSt) : (s.updPort n f).out = s.out := rfl
@[simp] theorem State.updPort_thermTrip (s : State) (n : Nat) (f : PortSt → PortSt) : (s.updPort n f).thermTrip = s.thermTrip := rfl
@[simp] theorem State.updPort_pinFault (s : State) (n : Nat) (f : PortSt → PortSt) : (s.updPort n f).pinFault = s.pinFault := rfl
@[simp] theorem State.updPort_pinAlert (s : State) (n : Nat) (f : PortSt → PortSt) : (s.updPort n f).pinAlert = s.pinAlert := rfl
@[simp] theorem State.updPort_pinTherm (s : State) (n : Nat) (f : PortSt → PortSt) : (s.updPort n f).pinTherm = s.pinTherm := rfl
@[simp] theorem State.updPort_pinSpiCs (s : State) (n : Nat) (f : PortSt → PortSt) : (s.updPort n f).pinSpiCs = s.pinSpiCs := rfl
@[simp] theorem State.updPort_pinSpiClk (s : State) (n : Nat) (f : PortSt → PortSt) : (s.updPort n f).pinSpiClk = s.pinSpiClk := rfl
@[simp] theorem State.updPort_pinSpiIo (s : State) (n : Nat) (f : PortSt → PortSt) : (s.updPort n f).pinSpiIo = s.pinSpiIo := rfl
@[simp] theorem State.updPort_pinScl (s : State) (n : Nat) (f : PortSt → PortSt) : (s.updPort n f).pinScl = s.pinScl := rfl
@[simp] theorem State.updPort_pinSda (s : State) (n : Nat) (f : PortSt → PortSt) : (s.updPort n f).pinSda = s.pinSda := rfl
@[simp] theorem State.updPort_brakeLow (s : State) (n : Nat) (f : PortSt → PortSt) : (s.updPort n f).brakeLow = s.brakeLow := rfl
@[simp] theorem State.updPort_txn (s : State) (n : Nat) (f : PortSt → PortSt) : (s.updPort n f).txn = s.txn := rfl
@[simp] theorem State.updPort_groups (s : State) (n : Nat) (f : PortSt → PortSt) : (s.updPort n f).groups = s.groups := rfl
@[simp] theorem State.updPort_jrnl (s : State) (n : Nat) (f : PortSt → PortSt) : (s.updPort n f).jrnl = s.jrnl := rfl
@[simp] theorem State.updPort_copy (s : State) (n : Nat) (f : PortSt → PortSt) : (s.updPort n f).copy = s.copy := rfl
@[simp] theorem State.updPort_flt (s : State) (n : Nat) (f : PortSt → PortSt) : (s.updPort n f).flt = s.flt := rfl
@[simp] theorem State.updPort_mir (s : State) (n : Nat) (f : PortSt → PortSt) : (s.updPort n f).mir = s.mir := rfl
@[simp] theorem State.updPort_qm (s : State) (n : Nat) (f : PortSt → PortSt) : (s.updPort n f).qm = s.qm := rfl
@[simp] theorem State.updPort_chans (s : State) (n : Nat) (f : PortSt → PortSt) : (s.updPort n f).chans = s.chans := rfl
@[simp] theorem State.updPort_pools (s : State) (n : Nat) (f : PortSt → PortSt) : (s.updPort n f).pools = s.pools := rfl
@[simp] theorem State.updPort_red (s : State) (n : Nat) (f : PortSt → PortSt) : (s.updPort n f).red = s.red := rfl
@[simp] theorem State.updPort_atu (s : State) (n : Nat) (f : PortSt → PortSt) : (s.updPort n f).atu = s.atu := rfl
@[simp] theorem State.updPort_prq (s : State) (n : Nat) (f : PortSt → PortSt) : (s.updPort n f).prq = s.prq := rfl
@[simp] theorem State.updPort_acc (s : State) (n : Nat) (f : PortSt → PortSt) : (s.updPort n f).acc = s.acc := rfl
@[simp] theorem State.updPort_rt (s : State) (n : Nat) (f : PortSt → PortSt) : (s.updPort n f).rt = s.rt := rfl
@[simp] theorem State.updPort_rtWait (s : State) (n : Nat) (f : PortSt → PortSt) : (s.updPort n f).rtWait = s.rtWait := rfl
@[simp] theorem State.updPort_spt (s : State) (n : Nat) (f : PortSt → PortSt) : (s.updPort n f).spt = s.spt := rfl
@[simp] theorem State.updPort_vdm (s : State) (n : Nat) (f : PortSt → PortSt) : (s.updPort n f).vdm = s.vdm := rfl
@[simp] theorem State.updPort_hlc (s : State) (n : Nat) (f : PortSt → PortSt) : (s.updPort n f).hlc = s.hlc := rfl
@[simp] theorem State.updPort_sites (s : State) (n : Nat) (f : PortSt → PortSt) : (s.updPort n f).sites = s.sites := rfl
@[simp] theorem State.updPort_sch (s : State) (n : Nat) (f : PortSt → PortSt) : (s.updPort n f).sch = s.sch := rfl
@[simp] theorem State.updPort_ens (s : State) (n : Nat) (f : PortSt → PortSt) : (s.updPort n f).ens = s.ens := rfl
@[simp] theorem State.updPort_lev (s : State) (n : Nat) (f : PortSt → PortSt) : (s.updPort n f).lev = s.lev := rfl
@[simp] theorem State.updPort_cp (s : State) (n : Nat) (f : PortSt → PortSt) : (s.updPort n f).cp = s.cp := rfl
@[simp] theorem State.updPort_fw (s : State) (n : Nat) (f : PortSt → PortSt) : (s.updPort n f).fw = s.fw := rfl
@[simp] theorem State.updPort_trust (s : State) (n : Nat) (f : PortSt → PortSt) : (s.updPort n f).trust = s.trust := rfl
@[simp] theorem State.updPort_nv (s : State) (n : Nat) (f : PortSt → PortSt) : (s.updPort n f).nv = s.nv := rfl
@[simp] theorem State.updPort_boot (s : State) (n : Nat) (f : PortSt → PortSt) : (s.updPort n f).boot = s.boot := rfl

/-! ### updGroup changes `groups` only -/

@[simp] theorem State.updGroup_pending (s : State) (n : Nat) (f : GroupSt → GroupSt) : (s.updGroup n f).pending = s.pending := rfl
@[simp] theorem State.updGroup_regs (s : State) (n : Nat) (f : GroupSt → GroupSt) : (s.updGroup n f).regs = s.regs := rfl
@[simp] theorem State.updGroup_rlatch (s : State) (n : Nat) (f : GroupSt → GroupSt) : (s.updGroup n f).rlatch = s.rlatch := rfl
@[simp] theorem State.updGroup_wlatch (s : State) (n : Nat) (f : GroupSt → GroupSt) : (s.updGroup n f).wlatch = s.wlatch := rfl
@[simp] theorem State.updGroup_por (s : State) (n : Nat) (f : GroupSt → GroupSt) : (s.updGroup n f).por = s.por := rfl
@[simp] theorem State.updGroup_warm (s : State) (n : Nat) (f : GroupSt → GroupSt) : (s.updGroup n f).warm = s.warm := rfl
@[simp] theorem State.updGroup_tsu (s : State) (n : Nat) (f : GroupSt → GroupSt) : (s.updGroup n f).tsu = s.tsu := rfl
@[simp] theorem State.updGroup_free (s : State) (n : Nat) (f : GroupSt → GroupSt) : (s.updGroup n f).free = s.free := rfl
@[simp] theorem State.updGroup_out (s : State) (n : Nat) (f : GroupSt → GroupSt) : (s.updGroup n f).out = s.out := rfl
@[simp] theorem State.updGroup_thermTrip (s : State) (n : Nat) (f : GroupSt → GroupSt) : (s.updGroup n f).thermTrip = s.thermTrip := rfl
@[simp] theorem State.updGroup_pinFault (s : State) (n : Nat) (f : GroupSt → GroupSt) : (s.updGroup n f).pinFault = s.pinFault := rfl
@[simp] theorem State.updGroup_pinAlert (s : State) (n : Nat) (f : GroupSt → GroupSt) : (s.updGroup n f).pinAlert = s.pinAlert := rfl
@[simp] theorem State.updGroup_pinTherm (s : State) (n : Nat) (f : GroupSt → GroupSt) : (s.updGroup n f).pinTherm = s.pinTherm := rfl
@[simp] theorem State.updGroup_pinSpiCs (s : State) (n : Nat) (f : GroupSt → GroupSt) : (s.updGroup n f).pinSpiCs = s.pinSpiCs := rfl
@[simp] theorem State.updGroup_pinSpiClk (s : State) (n : Nat) (f : GroupSt → GroupSt) : (s.updGroup n f).pinSpiClk = s.pinSpiClk := rfl
@[simp] theorem State.updGroup_pinSpiIo (s : State) (n : Nat) (f : GroupSt → GroupSt) : (s.updGroup n f).pinSpiIo = s.pinSpiIo := rfl
@[simp] theorem State.updGroup_pinScl (s : State) (n : Nat) (f : GroupSt → GroupSt) : (s.updGroup n f).pinScl = s.pinScl := rfl
@[simp] theorem State.updGroup_pinSda (s : State) (n : Nat) (f : GroupSt → GroupSt) : (s.updGroup n f).pinSda = s.pinSda := rfl
@[simp] theorem State.updGroup_brakeLow (s : State) (n : Nat) (f : GroupSt → GroupSt) : (s.updGroup n f).brakeLow = s.brakeLow := rfl
@[simp] theorem State.updGroup_txn (s : State) (n : Nat) (f : GroupSt → GroupSt) : (s.updGroup n f).txn = s.txn := rfl
@[simp] theorem State.updGroup_ports (s : State) (n : Nat) (f : GroupSt → GroupSt) : (s.updGroup n f).ports = s.ports := rfl
@[simp] theorem State.updGroup_jrnl (s : State) (n : Nat) (f : GroupSt → GroupSt) : (s.updGroup n f).jrnl = s.jrnl := rfl
@[simp] theorem State.updGroup_copy (s : State) (n : Nat) (f : GroupSt → GroupSt) : (s.updGroup n f).copy = s.copy := rfl
@[simp] theorem State.updGroup_flt (s : State) (n : Nat) (f : GroupSt → GroupSt) : (s.updGroup n f).flt = s.flt := rfl
@[simp] theorem State.updGroup_mir (s : State) (n : Nat) (f : GroupSt → GroupSt) : (s.updGroup n f).mir = s.mir := rfl
@[simp] theorem State.updGroup_qm (s : State) (n : Nat) (f : GroupSt → GroupSt) : (s.updGroup n f).qm = s.qm := rfl
@[simp] theorem State.updGroup_chans (s : State) (n : Nat) (f : GroupSt → GroupSt) : (s.updGroup n f).chans = s.chans := rfl
@[simp] theorem State.updGroup_pools (s : State) (n : Nat) (f : GroupSt → GroupSt) : (s.updGroup n f).pools = s.pools := rfl
@[simp] theorem State.updGroup_red (s : State) (n : Nat) (f : GroupSt → GroupSt) : (s.updGroup n f).red = s.red := rfl
@[simp] theorem State.updGroup_atu (s : State) (n : Nat) (f : GroupSt → GroupSt) : (s.updGroup n f).atu = s.atu := rfl
@[simp] theorem State.updGroup_prq (s : State) (n : Nat) (f : GroupSt → GroupSt) : (s.updGroup n f).prq = s.prq := rfl
@[simp] theorem State.updGroup_acc (s : State) (n : Nat) (f : GroupSt → GroupSt) : (s.updGroup n f).acc = s.acc := rfl
@[simp] theorem State.updGroup_rt (s : State) (n : Nat) (f : GroupSt → GroupSt) : (s.updGroup n f).rt = s.rt := rfl
@[simp] theorem State.updGroup_rtWait (s : State) (n : Nat) (f : GroupSt → GroupSt) : (s.updGroup n f).rtWait = s.rtWait := rfl
@[simp] theorem State.updGroup_spt (s : State) (n : Nat) (f : GroupSt → GroupSt) : (s.updGroup n f).spt = s.spt := rfl
@[simp] theorem State.updGroup_vdm (s : State) (n : Nat) (f : GroupSt → GroupSt) : (s.updGroup n f).vdm = s.vdm := rfl
@[simp] theorem State.updGroup_hlc (s : State) (n : Nat) (f : GroupSt → GroupSt) : (s.updGroup n f).hlc = s.hlc := rfl
@[simp] theorem State.updGroup_sites (s : State) (n : Nat) (f : GroupSt → GroupSt) : (s.updGroup n f).sites = s.sites := rfl
@[simp] theorem State.updGroup_sch (s : State) (n : Nat) (f : GroupSt → GroupSt) : (s.updGroup n f).sch = s.sch := rfl
@[simp] theorem State.updGroup_ens (s : State) (n : Nat) (f : GroupSt → GroupSt) : (s.updGroup n f).ens = s.ens := rfl
@[simp] theorem State.updGroup_lev (s : State) (n : Nat) (f : GroupSt → GroupSt) : (s.updGroup n f).lev = s.lev := rfl
@[simp] theorem State.updGroup_cp (s : State) (n : Nat) (f : GroupSt → GroupSt) : (s.updGroup n f).cp = s.cp := rfl
@[simp] theorem State.updGroup_fw (s : State) (n : Nat) (f : GroupSt → GroupSt) : (s.updGroup n f).fw = s.fw := rfl
@[simp] theorem State.updGroup_trust (s : State) (n : Nat) (f : GroupSt → GroupSt) : (s.updGroup n f).trust = s.trust := rfl
@[simp] theorem State.updGroup_nv (s : State) (n : Nat) (f : GroupSt → GroupSt) : (s.updGroup n f).nv = s.nv := rfl
@[simp] theorem State.updGroup_boot (s : State) (n : Nat) (f : GroupSt → GroupSt) : (s.updGroup n f).boot = s.boot := rfl

/-! ### updChan changes `chans` only -/

@[simp] theorem State.updChan_pending (s : State) (n : Nat) (f : ChanRec → ChanRec) : (s.updChan n f).pending = s.pending := rfl
@[simp] theorem State.updChan_regs (s : State) (n : Nat) (f : ChanRec → ChanRec) : (s.updChan n f).regs = s.regs := rfl
@[simp] theorem State.updChan_rlatch (s : State) (n : Nat) (f : ChanRec → ChanRec) : (s.updChan n f).rlatch = s.rlatch := rfl
@[simp] theorem State.updChan_wlatch (s : State) (n : Nat) (f : ChanRec → ChanRec) : (s.updChan n f).wlatch = s.wlatch := rfl
@[simp] theorem State.updChan_por (s : State) (n : Nat) (f : ChanRec → ChanRec) : (s.updChan n f).por = s.por := rfl
@[simp] theorem State.updChan_warm (s : State) (n : Nat) (f : ChanRec → ChanRec) : (s.updChan n f).warm = s.warm := rfl
@[simp] theorem State.updChan_tsu (s : State) (n : Nat) (f : ChanRec → ChanRec) : (s.updChan n f).tsu = s.tsu := rfl
@[simp] theorem State.updChan_free (s : State) (n : Nat) (f : ChanRec → ChanRec) : (s.updChan n f).free = s.free := rfl
@[simp] theorem State.updChan_out (s : State) (n : Nat) (f : ChanRec → ChanRec) : (s.updChan n f).out = s.out := rfl
@[simp] theorem State.updChan_thermTrip (s : State) (n : Nat) (f : ChanRec → ChanRec) : (s.updChan n f).thermTrip = s.thermTrip := rfl
@[simp] theorem State.updChan_pinFault (s : State) (n : Nat) (f : ChanRec → ChanRec) : (s.updChan n f).pinFault = s.pinFault := rfl
@[simp] theorem State.updChan_pinAlert (s : State) (n : Nat) (f : ChanRec → ChanRec) : (s.updChan n f).pinAlert = s.pinAlert := rfl
@[simp] theorem State.updChan_pinTherm (s : State) (n : Nat) (f : ChanRec → ChanRec) : (s.updChan n f).pinTherm = s.pinTherm := rfl
@[simp] theorem State.updChan_pinSpiCs (s : State) (n : Nat) (f : ChanRec → ChanRec) : (s.updChan n f).pinSpiCs = s.pinSpiCs := rfl
@[simp] theorem State.updChan_pinSpiClk (s : State) (n : Nat) (f : ChanRec → ChanRec) : (s.updChan n f).pinSpiClk = s.pinSpiClk := rfl
@[simp] theorem State.updChan_pinSpiIo (s : State) (n : Nat) (f : ChanRec → ChanRec) : (s.updChan n f).pinSpiIo = s.pinSpiIo := rfl
@[simp] theorem State.updChan_pinScl (s : State) (n : Nat) (f : ChanRec → ChanRec) : (s.updChan n f).pinScl = s.pinScl := rfl
@[simp] theorem State.updChan_pinSda (s : State) (n : Nat) (f : ChanRec → ChanRec) : (s.updChan n f).pinSda = s.pinSda := rfl
@[simp] theorem State.updChan_brakeLow (s : State) (n : Nat) (f : ChanRec → ChanRec) : (s.updChan n f).brakeLow = s.brakeLow := rfl
@[simp] theorem State.updChan_txn (s : State) (n : Nat) (f : ChanRec → ChanRec) : (s.updChan n f).txn = s.txn := rfl
@[simp] theorem State.updChan_ports (s : State) (n : Nat) (f : ChanRec → ChanRec) : (s.updChan n f).ports = s.ports := rfl
@[simp] theorem State.updChan_groups (s : State) (n : Nat) (f : ChanRec → ChanRec) : (s.updChan n f).groups = s.groups := rfl
@[simp] theorem State.updChan_jrnl (s : State) (n : Nat) (f : ChanRec → ChanRec) : (s.updChan n f).jrnl = s.jrnl := rfl
@[simp] theorem State.updChan_copy (s : State) (n : Nat) (f : ChanRec → ChanRec) : (s.updChan n f).copy = s.copy := rfl
@[simp] theorem State.updChan_flt (s : State) (n : Nat) (f : ChanRec → ChanRec) : (s.updChan n f).flt = s.flt := rfl
@[simp] theorem State.updChan_mir (s : State) (n : Nat) (f : ChanRec → ChanRec) : (s.updChan n f).mir = s.mir := rfl
@[simp] theorem State.updChan_qm (s : State) (n : Nat) (f : ChanRec → ChanRec) : (s.updChan n f).qm = s.qm := rfl
@[simp] theorem State.updChan_pools (s : State) (n : Nat) (f : ChanRec → ChanRec) : (s.updChan n f).pools = s.pools := rfl
@[simp] theorem State.updChan_red (s : State) (n : Nat) (f : ChanRec → ChanRec) : (s.updChan n f).red = s.red := rfl
@[simp] theorem State.updChan_atu (s : State) (n : Nat) (f : ChanRec → ChanRec) : (s.updChan n f).atu = s.atu := rfl
@[simp] theorem State.updChan_prq (s : State) (n : Nat) (f : ChanRec → ChanRec) : (s.updChan n f).prq = s.prq := rfl
@[simp] theorem State.updChan_acc (s : State) (n : Nat) (f : ChanRec → ChanRec) : (s.updChan n f).acc = s.acc := rfl
@[simp] theorem State.updChan_rt (s : State) (n : Nat) (f : ChanRec → ChanRec) : (s.updChan n f).rt = s.rt := rfl
@[simp] theorem State.updChan_rtWait (s : State) (n : Nat) (f : ChanRec → ChanRec) : (s.updChan n f).rtWait = s.rtWait := rfl
@[simp] theorem State.updChan_spt (s : State) (n : Nat) (f : ChanRec → ChanRec) : (s.updChan n f).spt = s.spt := rfl
@[simp] theorem State.updChan_vdm (s : State) (n : Nat) (f : ChanRec → ChanRec) : (s.updChan n f).vdm = s.vdm := rfl
@[simp] theorem State.updChan_hlc (s : State) (n : Nat) (f : ChanRec → ChanRec) : (s.updChan n f).hlc = s.hlc := rfl
@[simp] theorem State.updChan_sites (s : State) (n : Nat) (f : ChanRec → ChanRec) : (s.updChan n f).sites = s.sites := rfl
@[simp] theorem State.updChan_sch (s : State) (n : Nat) (f : ChanRec → ChanRec) : (s.updChan n f).sch = s.sch := rfl
@[simp] theorem State.updChan_ens (s : State) (n : Nat) (f : ChanRec → ChanRec) : (s.updChan n f).ens = s.ens := rfl
@[simp] theorem State.updChan_lev (s : State) (n : Nat) (f : ChanRec → ChanRec) : (s.updChan n f).lev = s.lev := rfl
@[simp] theorem State.updChan_cp (s : State) (n : Nat) (f : ChanRec → ChanRec) : (s.updChan n f).cp = s.cp := rfl
@[simp] theorem State.updChan_fw (s : State) (n : Nat) (f : ChanRec → ChanRec) : (s.updChan n f).fw = s.fw := rfl
@[simp] theorem State.updChan_trust (s : State) (n : Nat) (f : ChanRec → ChanRec) : (s.updChan n f).trust = s.trust := rfl
@[simp] theorem State.updChan_nv (s : State) (n : Nat) (f : ChanRec → ChanRec) : (s.updChan n f).nv = s.nv := rfl
@[simp] theorem State.updChan_boot (s : State) (n : Nat) (f : ChanRec → ChanRec) : (s.updChan n f).boot = s.boot := rfl

/-! ### updPool changes `pools` only -/

@[simp] theorem State.updPool_pending (s : State) (n : Nat) (f : Pools → Pools) : (s.updPool n f).pending = s.pending := rfl
@[simp] theorem State.updPool_regs (s : State) (n : Nat) (f : Pools → Pools) : (s.updPool n f).regs = s.regs := rfl
@[simp] theorem State.updPool_rlatch (s : State) (n : Nat) (f : Pools → Pools) : (s.updPool n f).rlatch = s.rlatch := rfl
@[simp] theorem State.updPool_wlatch (s : State) (n : Nat) (f : Pools → Pools) : (s.updPool n f).wlatch = s.wlatch := rfl
@[simp] theorem State.updPool_por (s : State) (n : Nat) (f : Pools → Pools) : (s.updPool n f).por = s.por := rfl
@[simp] theorem State.updPool_warm (s : State) (n : Nat) (f : Pools → Pools) : (s.updPool n f).warm = s.warm := rfl
@[simp] theorem State.updPool_tsu (s : State) (n : Nat) (f : Pools → Pools) : (s.updPool n f).tsu = s.tsu := rfl
@[simp] theorem State.updPool_free (s : State) (n : Nat) (f : Pools → Pools) : (s.updPool n f).free = s.free := rfl
@[simp] theorem State.updPool_out (s : State) (n : Nat) (f : Pools → Pools) : (s.updPool n f).out = s.out := rfl
@[simp] theorem State.updPool_thermTrip (s : State) (n : Nat) (f : Pools → Pools) : (s.updPool n f).thermTrip = s.thermTrip := rfl
@[simp] theorem State.updPool_pinFault (s : State) (n : Nat) (f : Pools → Pools) : (s.updPool n f).pinFault = s.pinFault := rfl
@[simp] theorem State.updPool_pinAlert (s : State) (n : Nat) (f : Pools → Pools) : (s.updPool n f).pinAlert = s.pinAlert := rfl
@[simp] theorem State.updPool_pinTherm (s : State) (n : Nat) (f : Pools → Pools) : (s.updPool n f).pinTherm = s.pinTherm := rfl
@[simp] theorem State.updPool_pinSpiCs (s : State) (n : Nat) (f : Pools → Pools) : (s.updPool n f).pinSpiCs = s.pinSpiCs := rfl
@[simp] theorem State.updPool_pinSpiClk (s : State) (n : Nat) (f : Pools → Pools) : (s.updPool n f).pinSpiClk = s.pinSpiClk := rfl
@[simp] theorem State.updPool_pinSpiIo (s : State) (n : Nat) (f : Pools → Pools) : (s.updPool n f).pinSpiIo = s.pinSpiIo := rfl
@[simp] theorem State.updPool_pinScl (s : State) (n : Nat) (f : Pools → Pools) : (s.updPool n f).pinScl = s.pinScl := rfl
@[simp] theorem State.updPool_pinSda (s : State) (n : Nat) (f : Pools → Pools) : (s.updPool n f).pinSda = s.pinSda := rfl
@[simp] theorem State.updPool_brakeLow (s : State) (n : Nat) (f : Pools → Pools) : (s.updPool n f).brakeLow = s.brakeLow := rfl
@[simp] theorem State.updPool_txn (s : State) (n : Nat) (f : Pools → Pools) : (s.updPool n f).txn = s.txn := rfl
@[simp] theorem State.updPool_ports (s : State) (n : Nat) (f : Pools → Pools) : (s.updPool n f).ports = s.ports := rfl
@[simp] theorem State.updPool_groups (s : State) (n : Nat) (f : Pools → Pools) : (s.updPool n f).groups = s.groups := rfl
@[simp] theorem State.updPool_jrnl (s : State) (n : Nat) (f : Pools → Pools) : (s.updPool n f).jrnl = s.jrnl := rfl
@[simp] theorem State.updPool_copy (s : State) (n : Nat) (f : Pools → Pools) : (s.updPool n f).copy = s.copy := rfl
@[simp] theorem State.updPool_flt (s : State) (n : Nat) (f : Pools → Pools) : (s.updPool n f).flt = s.flt := rfl
@[simp] theorem State.updPool_mir (s : State) (n : Nat) (f : Pools → Pools) : (s.updPool n f).mir = s.mir := rfl
@[simp] theorem State.updPool_qm (s : State) (n : Nat) (f : Pools → Pools) : (s.updPool n f).qm = s.qm := rfl
@[simp] theorem State.updPool_chans (s : State) (n : Nat) (f : Pools → Pools) : (s.updPool n f).chans = s.chans := rfl
@[simp] theorem State.updPool_red (s : State) (n : Nat) (f : Pools → Pools) : (s.updPool n f).red = s.red := rfl
@[simp] theorem State.updPool_atu (s : State) (n : Nat) (f : Pools → Pools) : (s.updPool n f).atu = s.atu := rfl
@[simp] theorem State.updPool_prq (s : State) (n : Nat) (f : Pools → Pools) : (s.updPool n f).prq = s.prq := rfl
@[simp] theorem State.updPool_acc (s : State) (n : Nat) (f : Pools → Pools) : (s.updPool n f).acc = s.acc := rfl
@[simp] theorem State.updPool_rt (s : State) (n : Nat) (f : Pools → Pools) : (s.updPool n f).rt = s.rt := rfl
@[simp] theorem State.updPool_rtWait (s : State) (n : Nat) (f : Pools → Pools) : (s.updPool n f).rtWait = s.rtWait := rfl
@[simp] theorem State.updPool_spt (s : State) (n : Nat) (f : Pools → Pools) : (s.updPool n f).spt = s.spt := rfl
@[simp] theorem State.updPool_vdm (s : State) (n : Nat) (f : Pools → Pools) : (s.updPool n f).vdm = s.vdm := rfl
@[simp] theorem State.updPool_hlc (s : State) (n : Nat) (f : Pools → Pools) : (s.updPool n f).hlc = s.hlc := rfl
@[simp] theorem State.updPool_sites (s : State) (n : Nat) (f : Pools → Pools) : (s.updPool n f).sites = s.sites := rfl
@[simp] theorem State.updPool_sch (s : State) (n : Nat) (f : Pools → Pools) : (s.updPool n f).sch = s.sch := rfl
@[simp] theorem State.updPool_ens (s : State) (n : Nat) (f : Pools → Pools) : (s.updPool n f).ens = s.ens := rfl
@[simp] theorem State.updPool_lev (s : State) (n : Nat) (f : Pools → Pools) : (s.updPool n f).lev = s.lev := rfl
@[simp] theorem State.updPool_cp (s : State) (n : Nat) (f : Pools → Pools) : (s.updPool n f).cp = s.cp := rfl
@[simp] theorem State.updPool_fw (s : State) (n : Nat) (f : Pools → Pools) : (s.updPool n f).fw = s.fw := rfl
@[simp] theorem State.updPool_trust (s : State) (n : Nat) (f : Pools → Pools) : (s.updPool n f).trust = s.trust := rfl
@[simp] theorem State.updPool_nv (s : State) (n : Nat) (f : Pools → Pools) : (s.updPool n f).nv = s.nv := rfl
@[simp] theorem State.updPool_boot (s : State) (n : Nat) (f : Pools → Pools) : (s.updPool n f).boot = s.boot := rfl

/-! ### updQ changes `qm` only -/

@[simp] theorem State.updQ_pending (s : State) (n q : Nat) (f : Queue → Queue) : (s.updQ n q f).pending = s.pending := rfl
@[simp] theorem State.updQ_regs (s : State) (n q : Nat) (f : Queue → Queue) : (s.updQ n q f).regs = s.regs := rfl
@[simp] theorem State.updQ_rlatch (s : State) (n q : Nat) (f : Queue → Queue) : (s.updQ n q f).rlatch = s.rlatch := rfl
@[simp] theorem State.updQ_wlatch (s : State) (n q : Nat) (f : Queue → Queue) : (s.updQ n q f).wlatch = s.wlatch := rfl
@[simp] theorem State.updQ_por (s : State) (n q : Nat) (f : Queue → Queue) : (s.updQ n q f).por = s.por := rfl
@[simp] theorem State.updQ_warm (s : State) (n q : Nat) (f : Queue → Queue) : (s.updQ n q f).warm = s.warm := rfl
@[simp] theorem State.updQ_tsu (s : State) (n q : Nat) (f : Queue → Queue) : (s.updQ n q f).tsu = s.tsu := rfl
@[simp] theorem State.updQ_free (s : State) (n q : Nat) (f : Queue → Queue) : (s.updQ n q f).free = s.free := rfl
@[simp] theorem State.updQ_out (s : State) (n q : Nat) (f : Queue → Queue) : (s.updQ n q f).out = s.out := rfl
@[simp] theorem State.updQ_thermTrip (s : State) (n q : Nat) (f : Queue → Queue) : (s.updQ n q f).thermTrip = s.thermTrip := rfl
@[simp] theorem State.updQ_pinFault (s : State) (n q : Nat) (f : Queue → Queue) : (s.updQ n q f).pinFault = s.pinFault := rfl
@[simp] theorem State.updQ_pinAlert (s : State) (n q : Nat) (f : Queue → Queue) : (s.updQ n q f).pinAlert = s.pinAlert := rfl
@[simp] theorem State.updQ_pinTherm (s : State) (n q : Nat) (f : Queue → Queue) : (s.updQ n q f).pinTherm = s.pinTherm := rfl
@[simp] theorem State.updQ_pinSpiCs (s : State) (n q : Nat) (f : Queue → Queue) : (s.updQ n q f).pinSpiCs = s.pinSpiCs := rfl
@[simp] theorem State.updQ_pinSpiClk (s : State) (n q : Nat) (f : Queue → Queue) : (s.updQ n q f).pinSpiClk = s.pinSpiClk := rfl
@[simp] theorem State.updQ_pinSpiIo (s : State) (n q : Nat) (f : Queue → Queue) : (s.updQ n q f).pinSpiIo = s.pinSpiIo := rfl
@[simp] theorem State.updQ_pinScl (s : State) (n q : Nat) (f : Queue → Queue) : (s.updQ n q f).pinScl = s.pinScl := rfl
@[simp] theorem State.updQ_pinSda (s : State) (n q : Nat) (f : Queue → Queue) : (s.updQ n q f).pinSda = s.pinSda := rfl
@[simp] theorem State.updQ_brakeLow (s : State) (n q : Nat) (f : Queue → Queue) : (s.updQ n q f).brakeLow = s.brakeLow := rfl
@[simp] theorem State.updQ_txn (s : State) (n q : Nat) (f : Queue → Queue) : (s.updQ n q f).txn = s.txn := rfl
@[simp] theorem State.updQ_ports (s : State) (n q : Nat) (f : Queue → Queue) : (s.updQ n q f).ports = s.ports := rfl
@[simp] theorem State.updQ_groups (s : State) (n q : Nat) (f : Queue → Queue) : (s.updQ n q f).groups = s.groups := rfl
@[simp] theorem State.updQ_jrnl (s : State) (n q : Nat) (f : Queue → Queue) : (s.updQ n q f).jrnl = s.jrnl := rfl
@[simp] theorem State.updQ_copy (s : State) (n q : Nat) (f : Queue → Queue) : (s.updQ n q f).copy = s.copy := rfl
@[simp] theorem State.updQ_flt (s : State) (n q : Nat) (f : Queue → Queue) : (s.updQ n q f).flt = s.flt := rfl
@[simp] theorem State.updQ_mir (s : State) (n q : Nat) (f : Queue → Queue) : (s.updQ n q f).mir = s.mir := rfl
@[simp] theorem State.updQ_chans (s : State) (n q : Nat) (f : Queue → Queue) : (s.updQ n q f).chans = s.chans := rfl
@[simp] theorem State.updQ_pools (s : State) (n q : Nat) (f : Queue → Queue) : (s.updQ n q f).pools = s.pools := rfl
@[simp] theorem State.updQ_red (s : State) (n q : Nat) (f : Queue → Queue) : (s.updQ n q f).red = s.red := rfl
@[simp] theorem State.updQ_atu (s : State) (n q : Nat) (f : Queue → Queue) : (s.updQ n q f).atu = s.atu := rfl
@[simp] theorem State.updQ_prq (s : State) (n q : Nat) (f : Queue → Queue) : (s.updQ n q f).prq = s.prq := rfl
@[simp] theorem State.updQ_acc (s : State) (n q : Nat) (f : Queue → Queue) : (s.updQ n q f).acc = s.acc := rfl
@[simp] theorem State.updQ_rt (s : State) (n q : Nat) (f : Queue → Queue) : (s.updQ n q f).rt = s.rt := rfl
@[simp] theorem State.updQ_rtWait (s : State) (n q : Nat) (f : Queue → Queue) : (s.updQ n q f).rtWait = s.rtWait := rfl
@[simp] theorem State.updQ_spt (s : State) (n q : Nat) (f : Queue → Queue) : (s.updQ n q f).spt = s.spt := rfl
@[simp] theorem State.updQ_vdm (s : State) (n q : Nat) (f : Queue → Queue) : (s.updQ n q f).vdm = s.vdm := rfl
@[simp] theorem State.updQ_hlc (s : State) (n q : Nat) (f : Queue → Queue) : (s.updQ n q f).hlc = s.hlc := rfl
@[simp] theorem State.updQ_sites (s : State) (n q : Nat) (f : Queue → Queue) : (s.updQ n q f).sites = s.sites := rfl
@[simp] theorem State.updQ_sch (s : State) (n q : Nat) (f : Queue → Queue) : (s.updQ n q f).sch = s.sch := rfl
@[simp] theorem State.updQ_ens (s : State) (n q : Nat) (f : Queue → Queue) : (s.updQ n q f).ens = s.ens := rfl
@[simp] theorem State.updQ_lev (s : State) (n q : Nat) (f : Queue → Queue) : (s.updQ n q f).lev = s.lev := rfl
@[simp] theorem State.updQ_cp (s : State) (n q : Nat) (f : Queue → Queue) : (s.updQ n q f).cp = s.cp := rfl
@[simp] theorem State.updQ_fw (s : State) (n q : Nat) (f : Queue → Queue) : (s.updQ n q f).fw = s.fw := rfl
@[simp] theorem State.updQ_trust (s : State) (n q : Nat) (f : Queue → Queue) : (s.updQ n q f).trust = s.trust := rfl
@[simp] theorem State.updQ_nv (s : State) (n q : Nat) (f : Queue → Queue) : (s.updQ n q f).nv = s.nv := rfl
@[simp] theorem State.updQ_boot (s : State) (n q : Nat) (f : Queue → Queue) : (s.updQ n q f).boot = s.boot := rfl

/-! ### updVd changes `vdm` only -/

@[simp] theorem State.updVd_pending (s : State) (n v : Nat) (f : VdRec → VdRec) : (s.updVd n v f).pending = s.pending := rfl
@[simp] theorem State.updVd_regs (s : State) (n v : Nat) (f : VdRec → VdRec) : (s.updVd n v f).regs = s.regs := rfl
@[simp] theorem State.updVd_rlatch (s : State) (n v : Nat) (f : VdRec → VdRec) : (s.updVd n v f).rlatch = s.rlatch := rfl
@[simp] theorem State.updVd_wlatch (s : State) (n v : Nat) (f : VdRec → VdRec) : (s.updVd n v f).wlatch = s.wlatch := rfl
@[simp] theorem State.updVd_por (s : State) (n v : Nat) (f : VdRec → VdRec) : (s.updVd n v f).por = s.por := rfl
@[simp] theorem State.updVd_warm (s : State) (n v : Nat) (f : VdRec → VdRec) : (s.updVd n v f).warm = s.warm := rfl
@[simp] theorem State.updVd_tsu (s : State) (n v : Nat) (f : VdRec → VdRec) : (s.updVd n v f).tsu = s.tsu := rfl
@[simp] theorem State.updVd_free (s : State) (n v : Nat) (f : VdRec → VdRec) : (s.updVd n v f).free = s.free := rfl
@[simp] theorem State.updVd_out (s : State) (n v : Nat) (f : VdRec → VdRec) : (s.updVd n v f).out = s.out := rfl
@[simp] theorem State.updVd_thermTrip (s : State) (n v : Nat) (f : VdRec → VdRec) : (s.updVd n v f).thermTrip = s.thermTrip := rfl
@[simp] theorem State.updVd_pinFault (s : State) (n v : Nat) (f : VdRec → VdRec) : (s.updVd n v f).pinFault = s.pinFault := rfl
@[simp] theorem State.updVd_pinAlert (s : State) (n v : Nat) (f : VdRec → VdRec) : (s.updVd n v f).pinAlert = s.pinAlert := rfl
@[simp] theorem State.updVd_pinTherm (s : State) (n v : Nat) (f : VdRec → VdRec) : (s.updVd n v f).pinTherm = s.pinTherm := rfl
@[simp] theorem State.updVd_pinSpiCs (s : State) (n v : Nat) (f : VdRec → VdRec) : (s.updVd n v f).pinSpiCs = s.pinSpiCs := rfl
@[simp] theorem State.updVd_pinSpiClk (s : State) (n v : Nat) (f : VdRec → VdRec) : (s.updVd n v f).pinSpiClk = s.pinSpiClk := rfl
@[simp] theorem State.updVd_pinSpiIo (s : State) (n v : Nat) (f : VdRec → VdRec) : (s.updVd n v f).pinSpiIo = s.pinSpiIo := rfl
@[simp] theorem State.updVd_pinScl (s : State) (n v : Nat) (f : VdRec → VdRec) : (s.updVd n v f).pinScl = s.pinScl := rfl
@[simp] theorem State.updVd_pinSda (s : State) (n v : Nat) (f : VdRec → VdRec) : (s.updVd n v f).pinSda = s.pinSda := rfl
@[simp] theorem State.updVd_brakeLow (s : State) (n v : Nat) (f : VdRec → VdRec) : (s.updVd n v f).brakeLow = s.brakeLow := rfl
@[simp] theorem State.updVd_txn (s : State) (n v : Nat) (f : VdRec → VdRec) : (s.updVd n v f).txn = s.txn := rfl
@[simp] theorem State.updVd_ports (s : State) (n v : Nat) (f : VdRec → VdRec) : (s.updVd n v f).ports = s.ports := rfl
@[simp] theorem State.updVd_groups (s : State) (n v : Nat) (f : VdRec → VdRec) : (s.updVd n v f).groups = s.groups := rfl
@[simp] theorem State.updVd_jrnl (s : State) (n v : Nat) (f : VdRec → VdRec) : (s.updVd n v f).jrnl = s.jrnl := rfl
@[simp] theorem State.updVd_copy (s : State) (n v : Nat) (f : VdRec → VdRec) : (s.updVd n v f).copy = s.copy := rfl
@[simp] theorem State.updVd_flt (s : State) (n v : Nat) (f : VdRec → VdRec) : (s.updVd n v f).flt = s.flt := rfl
@[simp] theorem State.updVd_mir (s : State) (n v : Nat) (f : VdRec → VdRec) : (s.updVd n v f).mir = s.mir := rfl
@[simp] theorem State.updVd_qm (s : State) (n v : Nat) (f : VdRec → VdRec) : (s.updVd n v f).qm = s.qm := rfl
@[simp] theorem State.updVd_chans (s : State) (n v : Nat) (f : VdRec → VdRec) : (s.updVd n v f).chans = s.chans := rfl
@[simp] theorem State.updVd_pools (s : State) (n v : Nat) (f : VdRec → VdRec) : (s.updVd n v f).pools = s.pools := rfl
@[simp] theorem State.updVd_red (s : State) (n v : Nat) (f : VdRec → VdRec) : (s.updVd n v f).red = s.red := rfl
@[simp] theorem State.updVd_atu (s : State) (n v : Nat) (f : VdRec → VdRec) : (s.updVd n v f).atu = s.atu := rfl
@[simp] theorem State.updVd_prq (s : State) (n v : Nat) (f : VdRec → VdRec) : (s.updVd n v f).prq = s.prq := rfl
@[simp] theorem State.updVd_acc (s : State) (n v : Nat) (f : VdRec → VdRec) : (s.updVd n v f).acc = s.acc := rfl
@[simp] theorem State.updVd_rt (s : State) (n v : Nat) (f : VdRec → VdRec) : (s.updVd n v f).rt = s.rt := rfl
@[simp] theorem State.updVd_rtWait (s : State) (n v : Nat) (f : VdRec → VdRec) : (s.updVd n v f).rtWait = s.rtWait := rfl
@[simp] theorem State.updVd_spt (s : State) (n v : Nat) (f : VdRec → VdRec) : (s.updVd n v f).spt = s.spt := rfl
@[simp] theorem State.updVd_hlc (s : State) (n v : Nat) (f : VdRec → VdRec) : (s.updVd n v f).hlc = s.hlc := rfl
@[simp] theorem State.updVd_sites (s : State) (n v : Nat) (f : VdRec → VdRec) : (s.updVd n v f).sites = s.sites := rfl
@[simp] theorem State.updVd_sch (s : State) (n v : Nat) (f : VdRec → VdRec) : (s.updVd n v f).sch = s.sch := rfl
@[simp] theorem State.updVd_ens (s : State) (n v : Nat) (f : VdRec → VdRec) : (s.updVd n v f).ens = s.ens := rfl
@[simp] theorem State.updVd_lev (s : State) (n v : Nat) (f : VdRec → VdRec) : (s.updVd n v f).lev = s.lev := rfl
@[simp] theorem State.updVd_cp (s : State) (n v : Nat) (f : VdRec → VdRec) : (s.updVd n v f).cp = s.cp := rfl
@[simp] theorem State.updVd_fw (s : State) (n v : Nat) (f : VdRec → VdRec) : (s.updVd n v f).fw = s.fw := rfl
@[simp] theorem State.updVd_trust (s : State) (n v : Nat) (f : VdRec → VdRec) : (s.updVd n v f).trust = s.trust := rfl
@[simp] theorem State.updVd_nv (s : State) (n v : Nat) (f : VdRec → VdRec) : (s.updVd n v f).nv = s.nv := rfl
@[simp] theorem State.updVd_boot (s : State) (n v : Nat) (f : VdRec → VdRec) : (s.updVd n v f).boot = s.boot := rfl

/-! ### updAtu changes `atu` only -/

@[simp] theorem State.updAtu_pending (s : State) (n : Nat) (f : Atu → Atu) : (s.updAtu n f).pending = s.pending := rfl
@[simp] theorem State.updAtu_regs (s : State) (n : Nat) (f : Atu → Atu) : (s.updAtu n f).regs = s.regs := rfl
@[simp] theorem State.updAtu_rlatch (s : State) (n : Nat) (f : Atu → Atu) : (s.updAtu n f).rlatch = s.rlatch := rfl
@[simp] theorem State.updAtu_wlatch (s : State) (n : Nat) (f : Atu → Atu) : (s.updAtu n f).wlatch = s.wlatch := rfl
@[simp] theorem State.updAtu_por (s : State) (n : Nat) (f : Atu → Atu) : (s.updAtu n f).por = s.por := rfl
@[simp] theorem State.updAtu_warm (s : State) (n : Nat) (f : Atu → Atu) : (s.updAtu n f).warm = s.warm := rfl
@[simp] theorem State.updAtu_tsu (s : State) (n : Nat) (f : Atu → Atu) : (s.updAtu n f).tsu = s.tsu := rfl
@[simp] theorem State.updAtu_free (s : State) (n : Nat) (f : Atu → Atu) : (s.updAtu n f).free = s.free := rfl
@[simp] theorem State.updAtu_out (s : State) (n : Nat) (f : Atu → Atu) : (s.updAtu n f).out = s.out := rfl
@[simp] theorem State.updAtu_thermTrip (s : State) (n : Nat) (f : Atu → Atu) : (s.updAtu n f).thermTrip = s.thermTrip := rfl
@[simp] theorem State.updAtu_pinFault (s : State) (n : Nat) (f : Atu → Atu) : (s.updAtu n f).pinFault = s.pinFault := rfl
@[simp] theorem State.updAtu_pinAlert (s : State) (n : Nat) (f : Atu → Atu) : (s.updAtu n f).pinAlert = s.pinAlert := rfl
@[simp] theorem State.updAtu_pinTherm (s : State) (n : Nat) (f : Atu → Atu) : (s.updAtu n f).pinTherm = s.pinTherm := rfl
@[simp] theorem State.updAtu_pinSpiCs (s : State) (n : Nat) (f : Atu → Atu) : (s.updAtu n f).pinSpiCs = s.pinSpiCs := rfl
@[simp] theorem State.updAtu_pinSpiClk (s : State) (n : Nat) (f : Atu → Atu) : (s.updAtu n f).pinSpiClk = s.pinSpiClk := rfl
@[simp] theorem State.updAtu_pinSpiIo (s : State) (n : Nat) (f : Atu → Atu) : (s.updAtu n f).pinSpiIo = s.pinSpiIo := rfl
@[simp] theorem State.updAtu_pinScl (s : State) (n : Nat) (f : Atu → Atu) : (s.updAtu n f).pinScl = s.pinScl := rfl
@[simp] theorem State.updAtu_pinSda (s : State) (n : Nat) (f : Atu → Atu) : (s.updAtu n f).pinSda = s.pinSda := rfl
@[simp] theorem State.updAtu_brakeLow (s : State) (n : Nat) (f : Atu → Atu) : (s.updAtu n f).brakeLow = s.brakeLow := rfl
@[simp] theorem State.updAtu_txn (s : State) (n : Nat) (f : Atu → Atu) : (s.updAtu n f).txn = s.txn := rfl
@[simp] theorem State.updAtu_ports (s : State) (n : Nat) (f : Atu → Atu) : (s.updAtu n f).ports = s.ports := rfl
@[simp] theorem State.updAtu_groups (s : State) (n : Nat) (f : Atu → Atu) : (s.updAtu n f).groups = s.groups := rfl
@[simp] theorem State.updAtu_jrnl (s : State) (n : Nat) (f : Atu → Atu) : (s.updAtu n f).jrnl = s.jrnl := rfl
@[simp] theorem State.updAtu_copy (s : State) (n : Nat) (f : Atu → Atu) : (s.updAtu n f).copy = s.copy := rfl
@[simp] theorem State.updAtu_flt (s : State) (n : Nat) (f : Atu → Atu) : (s.updAtu n f).flt = s.flt := rfl
@[simp] theorem State.updAtu_mir (s : State) (n : Nat) (f : Atu → Atu) : (s.updAtu n f).mir = s.mir := rfl
@[simp] theorem State.updAtu_qm (s : State) (n : Nat) (f : Atu → Atu) : (s.updAtu n f).qm = s.qm := rfl
@[simp] theorem State.updAtu_chans (s : State) (n : Nat) (f : Atu → Atu) : (s.updAtu n f).chans = s.chans := rfl
@[simp] theorem State.updAtu_pools (s : State) (n : Nat) (f : Atu → Atu) : (s.updAtu n f).pools = s.pools := rfl
@[simp] theorem State.updAtu_red (s : State) (n : Nat) (f : Atu → Atu) : (s.updAtu n f).red = s.red := rfl
@[simp] theorem State.updAtu_prq (s : State) (n : Nat) (f : Atu → Atu) : (s.updAtu n f).prq = s.prq := rfl
@[simp] theorem State.updAtu_acc (s : State) (n : Nat) (f : Atu → Atu) : (s.updAtu n f).acc = s.acc := rfl
@[simp] theorem State.updAtu_rt (s : State) (n : Nat) (f : Atu → Atu) : (s.updAtu n f).rt = s.rt := rfl
@[simp] theorem State.updAtu_rtWait (s : State) (n : Nat) (f : Atu → Atu) : (s.updAtu n f).rtWait = s.rtWait := rfl
@[simp] theorem State.updAtu_spt (s : State) (n : Nat) (f : Atu → Atu) : (s.updAtu n f).spt = s.spt := rfl
@[simp] theorem State.updAtu_vdm (s : State) (n : Nat) (f : Atu → Atu) : (s.updAtu n f).vdm = s.vdm := rfl
@[simp] theorem State.updAtu_hlc (s : State) (n : Nat) (f : Atu → Atu) : (s.updAtu n f).hlc = s.hlc := rfl
@[simp] theorem State.updAtu_sites (s : State) (n : Nat) (f : Atu → Atu) : (s.updAtu n f).sites = s.sites := rfl
@[simp] theorem State.updAtu_sch (s : State) (n : Nat) (f : Atu → Atu) : (s.updAtu n f).sch = s.sch := rfl
@[simp] theorem State.updAtu_ens (s : State) (n : Nat) (f : Atu → Atu) : (s.updAtu n f).ens = s.ens := rfl
@[simp] theorem State.updAtu_lev (s : State) (n : Nat) (f : Atu → Atu) : (s.updAtu n f).lev = s.lev := rfl
@[simp] theorem State.updAtu_cp (s : State) (n : Nat) (f : Atu → Atu) : (s.updAtu n f).cp = s.cp := rfl
@[simp] theorem State.updAtu_fw (s : State) (n : Nat) (f : Atu → Atu) : (s.updAtu n f).fw = s.fw := rfl
@[simp] theorem State.updAtu_trust (s : State) (n : Nat) (f : Atu → Atu) : (s.updAtu n f).trust = s.trust := rfl
@[simp] theorem State.updAtu_nv (s : State) (n : Nat) (f : Atu → Atu) : (s.updAtu n f).nv = s.nv := rfl
@[simp] theorem State.updAtu_boot (s : State) (n : Nat) (f : Atu → Atu) : (s.updAtu n f).boot = s.boot := rfl

/-! ### updPrq changes `prq` only -/

@[simp] theorem State.updPrq_pending (s : State) (n : Nat) (f : Prq → Prq) : (s.updPrq n f).pending = s.pending := rfl
@[simp] theorem State.updPrq_regs (s : State) (n : Nat) (f : Prq → Prq) : (s.updPrq n f).regs = s.regs := rfl
@[simp] theorem State.updPrq_rlatch (s : State) (n : Nat) (f : Prq → Prq) : (s.updPrq n f).rlatch = s.rlatch := rfl
@[simp] theorem State.updPrq_wlatch (s : State) (n : Nat) (f : Prq → Prq) : (s.updPrq n f).wlatch = s.wlatch := rfl
@[simp] theorem State.updPrq_por (s : State) (n : Nat) (f : Prq → Prq) : (s.updPrq n f).por = s.por := rfl
@[simp] theorem State.updPrq_warm (s : State) (n : Nat) (f : Prq → Prq) : (s.updPrq n f).warm = s.warm := rfl
@[simp] theorem State.updPrq_tsu (s : State) (n : Nat) (f : Prq → Prq) : (s.updPrq n f).tsu = s.tsu := rfl
@[simp] theorem State.updPrq_free (s : State) (n : Nat) (f : Prq → Prq) : (s.updPrq n f).free = s.free := rfl
@[simp] theorem State.updPrq_out (s : State) (n : Nat) (f : Prq → Prq) : (s.updPrq n f).out = s.out := rfl
@[simp] theorem State.updPrq_thermTrip (s : State) (n : Nat) (f : Prq → Prq) : (s.updPrq n f).thermTrip = s.thermTrip := rfl
@[simp] theorem State.updPrq_pinFault (s : State) (n : Nat) (f : Prq → Prq) : (s.updPrq n f).pinFault = s.pinFault := rfl
@[simp] theorem State.updPrq_pinAlert (s : State) (n : Nat) (f : Prq → Prq) : (s.updPrq n f).pinAlert = s.pinAlert := rfl
@[simp] theorem State.updPrq_pinTherm (s : State) (n : Nat) (f : Prq → Prq) : (s.updPrq n f).pinTherm = s.pinTherm := rfl
@[simp] theorem State.updPrq_pinSpiCs (s : State) (n : Nat) (f : Prq → Prq) : (s.updPrq n f).pinSpiCs = s.pinSpiCs := rfl
@[simp] theorem State.updPrq_pinSpiClk (s : State) (n : Nat) (f : Prq → Prq) : (s.updPrq n f).pinSpiClk = s.pinSpiClk := rfl
@[simp] theorem State.updPrq_pinSpiIo (s : State) (n : Nat) (f : Prq → Prq) : (s.updPrq n f).pinSpiIo = s.pinSpiIo := rfl
@[simp] theorem State.updPrq_pinScl (s : State) (n : Nat) (f : Prq → Prq) : (s.updPrq n f).pinScl = s.pinScl := rfl
@[simp] theorem State.updPrq_pinSda (s : State) (n : Nat) (f : Prq → Prq) : (s.updPrq n f).pinSda = s.pinSda := rfl
@[simp] theorem State.updPrq_brakeLow (s : State) (n : Nat) (f : Prq → Prq) : (s.updPrq n f).brakeLow = s.brakeLow := rfl
@[simp] theorem State.updPrq_txn (s : State) (n : Nat) (f : Prq → Prq) : (s.updPrq n f).txn = s.txn := rfl
@[simp] theorem State.updPrq_ports (s : State) (n : Nat) (f : Prq → Prq) : (s.updPrq n f).ports = s.ports := rfl
@[simp] theorem State.updPrq_groups (s : State) (n : Nat) (f : Prq → Prq) : (s.updPrq n f).groups = s.groups := rfl
@[simp] theorem State.updPrq_jrnl (s : State) (n : Nat) (f : Prq → Prq) : (s.updPrq n f).jrnl = s.jrnl := rfl
@[simp] theorem State.updPrq_copy (s : State) (n : Nat) (f : Prq → Prq) : (s.updPrq n f).copy = s.copy := rfl
@[simp] theorem State.updPrq_flt (s : State) (n : Nat) (f : Prq → Prq) : (s.updPrq n f).flt = s.flt := rfl
@[simp] theorem State.updPrq_mir (s : State) (n : Nat) (f : Prq → Prq) : (s.updPrq n f).mir = s.mir := rfl
@[simp] theorem State.updPrq_qm (s : State) (n : Nat) (f : Prq → Prq) : (s.updPrq n f).qm = s.qm := rfl
@[simp] theorem State.updPrq_chans (s : State) (n : Nat) (f : Prq → Prq) : (s.updPrq n f).chans = s.chans := rfl
@[simp] theorem State.updPrq_pools (s : State) (n : Nat) (f : Prq → Prq) : (s.updPrq n f).pools = s.pools := rfl
@[simp] theorem State.updPrq_red (s : State) (n : Nat) (f : Prq → Prq) : (s.updPrq n f).red = s.red := rfl
@[simp] theorem State.updPrq_atu (s : State) (n : Nat) (f : Prq → Prq) : (s.updPrq n f).atu = s.atu := rfl
@[simp] theorem State.updPrq_acc (s : State) (n : Nat) (f : Prq → Prq) : (s.updPrq n f).acc = s.acc := rfl
@[simp] theorem State.updPrq_rt (s : State) (n : Nat) (f : Prq → Prq) : (s.updPrq n f).rt = s.rt := rfl
@[simp] theorem State.updPrq_rtWait (s : State) (n : Nat) (f : Prq → Prq) : (s.updPrq n f).rtWait = s.rtWait := rfl
@[simp] theorem State.updPrq_spt (s : State) (n : Nat) (f : Prq → Prq) : (s.updPrq n f).spt = s.spt := rfl
@[simp] theorem State.updPrq_vdm (s : State) (n : Nat) (f : Prq → Prq) : (s.updPrq n f).vdm = s.vdm := rfl
@[simp] theorem State.updPrq_hlc (s : State) (n : Nat) (f : Prq → Prq) : (s.updPrq n f).hlc = s.hlc := rfl
@[simp] theorem State.updPrq_sites (s : State) (n : Nat) (f : Prq → Prq) : (s.updPrq n f).sites = s.sites := rfl
@[simp] theorem State.updPrq_sch (s : State) (n : Nat) (f : Prq → Prq) : (s.updPrq n f).sch = s.sch := rfl
@[simp] theorem State.updPrq_ens (s : State) (n : Nat) (f : Prq → Prq) : (s.updPrq n f).ens = s.ens := rfl
@[simp] theorem State.updPrq_lev (s : State) (n : Nat) (f : Prq → Prq) : (s.updPrq n f).lev = s.lev := rfl
@[simp] theorem State.updPrq_cp (s : State) (n : Nat) (f : Prq → Prq) : (s.updPrq n f).cp = s.cp := rfl
@[simp] theorem State.updPrq_fw (s : State) (n : Nat) (f : Prq → Prq) : (s.updPrq n f).fw = s.fw := rfl
@[simp] theorem State.updPrq_trust (s : State) (n : Nat) (f : Prq → Prq) : (s.updPrq n f).trust = s.trust := rfl
@[simp] theorem State.updPrq_nv (s : State) (n : Nat) (f : Prq → Prq) : (s.updPrq n f).nv = s.nv := rfl
@[simp] theorem State.updPrq_boot (s : State) (n : Nat) (f : Prq → Prq) : (s.updPrq n f).boot = s.boot := rfl

/-! ### updHlc changes `hlc` only -/

@[simp] theorem State.updHlc_pending (s : State) (n : Nat) (f : Hlc → Hlc) : (s.updHlc n f).pending = s.pending := rfl
@[simp] theorem State.updHlc_regs (s : State) (n : Nat) (f : Hlc → Hlc) : (s.updHlc n f).regs = s.regs := rfl
@[simp] theorem State.updHlc_rlatch (s : State) (n : Nat) (f : Hlc → Hlc) : (s.updHlc n f).rlatch = s.rlatch := rfl
@[simp] theorem State.updHlc_wlatch (s : State) (n : Nat) (f : Hlc → Hlc) : (s.updHlc n f).wlatch = s.wlatch := rfl
@[simp] theorem State.updHlc_por (s : State) (n : Nat) (f : Hlc → Hlc) : (s.updHlc n f).por = s.por := rfl
@[simp] theorem State.updHlc_warm (s : State) (n : Nat) (f : Hlc → Hlc) : (s.updHlc n f).warm = s.warm := rfl
@[simp] theorem State.updHlc_tsu (s : State) (n : Nat) (f : Hlc → Hlc) : (s.updHlc n f).tsu = s.tsu := rfl
@[simp] theorem State.updHlc_free (s : State) (n : Nat) (f : Hlc → Hlc) : (s.updHlc n f).free = s.free := rfl
@[simp] theorem State.updHlc_out (s : State) (n : Nat) (f : Hlc → Hlc) : (s.updHlc n f).out = s.out := rfl
@[simp] theorem State.updHlc_thermTrip (s : State) (n : Nat) (f : Hlc → Hlc) : (s.updHlc n f).thermTrip = s.thermTrip := rfl
@[simp] theorem State.updHlc_pinFault (s : State) (n : Nat) (f : Hlc → Hlc) : (s.updHlc n f).pinFault = s.pinFault := rfl
@[simp] theorem State.updHlc_pinAlert (s : State) (n : Nat) (f : Hlc → Hlc) : (s.updHlc n f).pinAlert = s.pinAlert := rfl
@[simp] theorem State.updHlc_pinTherm (s : State) (n : Nat) (f : Hlc → Hlc) : (s.updHlc n f).pinTherm = s.pinTherm := rfl
@[simp] theorem State.updHlc_pinSpiCs (s : State) (n : Nat) (f : Hlc → Hlc) : (s.updHlc n f).pinSpiCs = s.pinSpiCs := rfl
@[simp] theorem State.updHlc_pinSpiClk (s : State) (n : Nat) (f : Hlc → Hlc) : (s.updHlc n f).pinSpiClk = s.pinSpiClk := rfl
@[simp] theorem State.updHlc_pinSpiIo (s : State) (n : Nat) (f : Hlc → Hlc) : (s.updHlc n f).pinSpiIo = s.pinSpiIo := rfl
@[simp] theorem State.updHlc_pinScl (s : State) (n : Nat) (f : Hlc → Hlc) : (s.updHlc n f).pinScl = s.pinScl := rfl
@[simp] theorem State.updHlc_pinSda (s : State) (n : Nat) (f : Hlc → Hlc) : (s.updHlc n f).pinSda = s.pinSda := rfl
@[simp] theorem State.updHlc_brakeLow (s : State) (n : Nat) (f : Hlc → Hlc) : (s.updHlc n f).brakeLow = s.brakeLow := rfl
@[simp] theorem State.updHlc_txn (s : State) (n : Nat) (f : Hlc → Hlc) : (s.updHlc n f).txn = s.txn := rfl
@[simp] theorem State.updHlc_ports (s : State) (n : Nat) (f : Hlc → Hlc) : (s.updHlc n f).ports = s.ports := rfl
@[simp] theorem State.updHlc_groups (s : State) (n : Nat) (f : Hlc → Hlc) : (s.updHlc n f).groups = s.groups := rfl
@[simp] theorem State.updHlc_jrnl (s : State) (n : Nat) (f : Hlc → Hlc) : (s.updHlc n f).jrnl = s.jrnl := rfl
@[simp] theorem State.updHlc_copy (s : State) (n : Nat) (f : Hlc → Hlc) : (s.updHlc n f).copy = s.copy := rfl
@[simp] theorem State.updHlc_flt (s : State) (n : Nat) (f : Hlc → Hlc) : (s.updHlc n f).flt = s.flt := rfl
@[simp] theorem State.updHlc_mir (s : State) (n : Nat) (f : Hlc → Hlc) : (s.updHlc n f).mir = s.mir := rfl
@[simp] theorem State.updHlc_qm (s : State) (n : Nat) (f : Hlc → Hlc) : (s.updHlc n f).qm = s.qm := rfl
@[simp] theorem State.updHlc_chans (s : State) (n : Nat) (f : Hlc → Hlc) : (s.updHlc n f).chans = s.chans := rfl
@[simp] theorem State.updHlc_pools (s : State) (n : Nat) (f : Hlc → Hlc) : (s.updHlc n f).pools = s.pools := rfl
@[simp] theorem State.updHlc_red (s : State) (n : Nat) (f : Hlc → Hlc) : (s.updHlc n f).red = s.red := rfl
@[simp] theorem State.updHlc_atu (s : State) (n : Nat) (f : Hlc → Hlc) : (s.updHlc n f).atu = s.atu := rfl
@[simp] theorem State.updHlc_prq (s : State) (n : Nat) (f : Hlc → Hlc) : (s.updHlc n f).prq = s.prq := rfl
@[simp] theorem State.updHlc_acc (s : State) (n : Nat) (f : Hlc → Hlc) : (s.updHlc n f).acc = s.acc := rfl
@[simp] theorem State.updHlc_rt (s : State) (n : Nat) (f : Hlc → Hlc) : (s.updHlc n f).rt = s.rt := rfl
@[simp] theorem State.updHlc_rtWait (s : State) (n : Nat) (f : Hlc → Hlc) : (s.updHlc n f).rtWait = s.rtWait := rfl
@[simp] theorem State.updHlc_spt (s : State) (n : Nat) (f : Hlc → Hlc) : (s.updHlc n f).spt = s.spt := rfl
@[simp] theorem State.updHlc_vdm (s : State) (n : Nat) (f : Hlc → Hlc) : (s.updHlc n f).vdm = s.vdm := rfl
@[simp] theorem State.updHlc_sites (s : State) (n : Nat) (f : Hlc → Hlc) : (s.updHlc n f).sites = s.sites := rfl
@[simp] theorem State.updHlc_sch (s : State) (n : Nat) (f : Hlc → Hlc) : (s.updHlc n f).sch = s.sch := rfl
@[simp] theorem State.updHlc_ens (s : State) (n : Nat) (f : Hlc → Hlc) : (s.updHlc n f).ens = s.ens := rfl
@[simp] theorem State.updHlc_lev (s : State) (n : Nat) (f : Hlc → Hlc) : (s.updHlc n f).lev = s.lev := rfl
@[simp] theorem State.updHlc_cp (s : State) (n : Nat) (f : Hlc → Hlc) : (s.updHlc n f).cp = s.cp := rfl
@[simp] theorem State.updHlc_fw (s : State) (n : Nat) (f : Hlc → Hlc) : (s.updHlc n f).fw = s.fw := rfl
@[simp] theorem State.updHlc_trust (s : State) (n : Nat) (f : Hlc → Hlc) : (s.updHlc n f).trust = s.trust := rfl
@[simp] theorem State.updHlc_nv (s : State) (n : Nat) (f : Hlc → Hlc) : (s.updHlc n f).nv = s.nv := rfl
@[simp] theorem State.updHlc_boot (s : State) (n : Nat) (f : Hlc → Hlc) : (s.updHlc n f).boot = s.boot := rfl

/-! ### updSite changes `sites` only -/

@[simp] theorem State.updSite_pending (s : State) (n : Nat) (f : SiteRec → SiteRec) : (s.updSite n f).pending = s.pending := rfl
@[simp] theorem State.updSite_regs (s : State) (n : Nat) (f : SiteRec → SiteRec) : (s.updSite n f).regs = s.regs := rfl
@[simp] theorem State.updSite_rlatch (s : State) (n : Nat) (f : SiteRec → SiteRec) : (s.updSite n f).rlatch = s.rlatch := rfl
@[simp] theorem State.updSite_wlatch (s : State) (n : Nat) (f : SiteRec → SiteRec) : (s.updSite n f).wlatch = s.wlatch := rfl
@[simp] theorem State.updSite_por (s : State) (n : Nat) (f : SiteRec → SiteRec) : (s.updSite n f).por = s.por := rfl
@[simp] theorem State.updSite_warm (s : State) (n : Nat) (f : SiteRec → SiteRec) : (s.updSite n f).warm = s.warm := rfl
@[simp] theorem State.updSite_tsu (s : State) (n : Nat) (f : SiteRec → SiteRec) : (s.updSite n f).tsu = s.tsu := rfl
@[simp] theorem State.updSite_free (s : State) (n : Nat) (f : SiteRec → SiteRec) : (s.updSite n f).free = s.free := rfl
@[simp] theorem State.updSite_out (s : State) (n : Nat) (f : SiteRec → SiteRec) : (s.updSite n f).out = s.out := rfl
@[simp] theorem State.updSite_thermTrip (s : State) (n : Nat) (f : SiteRec → SiteRec) : (s.updSite n f).thermTrip = s.thermTrip := rfl
@[simp] theorem State.updSite_pinFault (s : State) (n : Nat) (f : SiteRec → SiteRec) : (s.updSite n f).pinFault = s.pinFault := rfl
@[simp] theorem State.updSite_pinAlert (s : State) (n : Nat) (f : SiteRec → SiteRec) : (s.updSite n f).pinAlert = s.pinAlert := rfl
@[simp] theorem State.updSite_pinTherm (s : State) (n : Nat) (f : SiteRec → SiteRec) : (s.updSite n f).pinTherm = s.pinTherm := rfl
@[simp] theorem State.updSite_pinSpiCs (s : State) (n : Nat) (f : SiteRec → SiteRec) : (s.updSite n f).pinSpiCs = s.pinSpiCs := rfl
@[simp] theorem State.updSite_pinSpiClk (s : State) (n : Nat) (f : SiteRec → SiteRec) : (s.updSite n f).pinSpiClk = s.pinSpiClk := rfl
@[simp] theorem State.updSite_pinSpiIo (s : State) (n : Nat) (f : SiteRec → SiteRec) : (s.updSite n f).pinSpiIo = s.pinSpiIo := rfl
@[simp] theorem State.updSite_pinScl (s : State) (n : Nat) (f : SiteRec → SiteRec) : (s.updSite n f).pinScl = s.pinScl := rfl
@[simp] theorem State.updSite_pinSda (s : State) (n : Nat) (f : SiteRec → SiteRec) : (s.updSite n f).pinSda = s.pinSda := rfl
@[simp] theorem State.updSite_brakeLow (s : State) (n : Nat) (f : SiteRec → SiteRec) : (s.updSite n f).brakeLow = s.brakeLow := rfl
@[simp] theorem State.updSite_txn (s : State) (n : Nat) (f : SiteRec → SiteRec) : (s.updSite n f).txn = s.txn := rfl
@[simp] theorem State.updSite_ports (s : State) (n : Nat) (f : SiteRec → SiteRec) : (s.updSite n f).ports = s.ports := rfl
@[simp] theorem State.updSite_groups (s : State) (n : Nat) (f : SiteRec → SiteRec) : (s.updSite n f).groups = s.groups := rfl
@[simp] theorem State.updSite_jrnl (s : State) (n : Nat) (f : SiteRec → SiteRec) : (s.updSite n f).jrnl = s.jrnl := rfl
@[simp] theorem State.updSite_copy (s : State) (n : Nat) (f : SiteRec → SiteRec) : (s.updSite n f).copy = s.copy := rfl
@[simp] theorem State.updSite_flt (s : State) (n : Nat) (f : SiteRec → SiteRec) : (s.updSite n f).flt = s.flt := rfl
@[simp] theorem State.updSite_mir (s : State) (n : Nat) (f : SiteRec → SiteRec) : (s.updSite n f).mir = s.mir := rfl
@[simp] theorem State.updSite_qm (s : State) (n : Nat) (f : SiteRec → SiteRec) : (s.updSite n f).qm = s.qm := rfl
@[simp] theorem State.updSite_chans (s : State) (n : Nat) (f : SiteRec → SiteRec) : (s.updSite n f).chans = s.chans := rfl
@[simp] theorem State.updSite_pools (s : State) (n : Nat) (f : SiteRec → SiteRec) : (s.updSite n f).pools = s.pools := rfl
@[simp] theorem State.updSite_red (s : State) (n : Nat) (f : SiteRec → SiteRec) : (s.updSite n f).red = s.red := rfl
@[simp] theorem State.updSite_atu (s : State) (n : Nat) (f : SiteRec → SiteRec) : (s.updSite n f).atu = s.atu := rfl
@[simp] theorem State.updSite_prq (s : State) (n : Nat) (f : SiteRec → SiteRec) : (s.updSite n f).prq = s.prq := rfl
@[simp] theorem State.updSite_acc (s : State) (n : Nat) (f : SiteRec → SiteRec) : (s.updSite n f).acc = s.acc := rfl
@[simp] theorem State.updSite_rt (s : State) (n : Nat) (f : SiteRec → SiteRec) : (s.updSite n f).rt = s.rt := rfl
@[simp] theorem State.updSite_rtWait (s : State) (n : Nat) (f : SiteRec → SiteRec) : (s.updSite n f).rtWait = s.rtWait := rfl
@[simp] theorem State.updSite_spt (s : State) (n : Nat) (f : SiteRec → SiteRec) : (s.updSite n f).spt = s.spt := rfl
@[simp] theorem State.updSite_vdm (s : State) (n : Nat) (f : SiteRec → SiteRec) : (s.updSite n f).vdm = s.vdm := rfl
@[simp] theorem State.updSite_hlc (s : State) (n : Nat) (f : SiteRec → SiteRec) : (s.updSite n f).hlc = s.hlc := rfl
@[simp] theorem State.updSite_sch (s : State) (n : Nat) (f : SiteRec → SiteRec) : (s.updSite n f).sch = s.sch := rfl
@[simp] theorem State.updSite_ens (s : State) (n : Nat) (f : SiteRec → SiteRec) : (s.updSite n f).ens = s.ens := rfl
@[simp] theorem State.updSite_lev (s : State) (n : Nat) (f : SiteRec → SiteRec) : (s.updSite n f).lev = s.lev := rfl
@[simp] theorem State.updSite_cp (s : State) (n : Nat) (f : SiteRec → SiteRec) : (s.updSite n f).cp = s.cp := rfl
@[simp] theorem State.updSite_fw (s : State) (n : Nat) (f : SiteRec → SiteRec) : (s.updSite n f).fw = s.fw := rfl
@[simp] theorem State.updSite_trust (s : State) (n : Nat) (f : SiteRec → SiteRec) : (s.updSite n f).trust = s.trust := rfl
@[simp] theorem State.updSite_nv (s : State) (n : Nat) (f : SiteRec → SiteRec) : (s.updSite n f).nv = s.nv := rfl
@[simp] theorem State.updSite_boot (s : State) (n : Nat) (f : SiteRec → SiteRec) : (s.updSite n f).boot = s.boot := rfl

/-! ### updSch changes `sch` only -/

@[simp] theorem State.updSch_pending (s : State) (n : Nat) (f : Sch → Sch) : (s.updSch n f).pending = s.pending := rfl
@[simp] theorem State.updSch_regs (s : State) (n : Nat) (f : Sch → Sch) : (s.updSch n f).regs = s.regs := rfl
@[simp] theorem State.updSch_rlatch (s : State) (n : Nat) (f : Sch → Sch) : (s.updSch n f).rlatch = s.rlatch := rfl
@[simp] theorem State.updSch_wlatch (s : State) (n : Nat) (f : Sch → Sch) : (s.updSch n f).wlatch = s.wlatch := rfl
@[simp] theorem State.updSch_por (s : State) (n : Nat) (f : Sch → Sch) : (s.updSch n f).por = s.por := rfl
@[simp] theorem State.updSch_warm (s : State) (n : Nat) (f : Sch → Sch) : (s.updSch n f).warm = s.warm := rfl
@[simp] theorem State.updSch_tsu (s : State) (n : Nat) (f : Sch → Sch) : (s.updSch n f).tsu = s.tsu := rfl
@[simp] theorem State.updSch_free (s : State) (n : Nat) (f : Sch → Sch) : (s.updSch n f).free = s.free := rfl
@[simp] theorem State.updSch_out (s : State) (n : Nat) (f : Sch → Sch) : (s.updSch n f).out = s.out := rfl
@[simp] theorem State.updSch_thermTrip (s : State) (n : Nat) (f : Sch → Sch) : (s.updSch n f).thermTrip = s.thermTrip := rfl
@[simp] theorem State.updSch_pinFault (s : State) (n : Nat) (f : Sch → Sch) : (s.updSch n f).pinFault = s.pinFault := rfl
@[simp] theorem State.updSch_pinAlert (s : State) (n : Nat) (f : Sch → Sch) : (s.updSch n f).pinAlert = s.pinAlert := rfl
@[simp] theorem State.updSch_pinTherm (s : State) (n : Nat) (f : Sch → Sch) : (s.updSch n f).pinTherm = s.pinTherm := rfl
@[simp] theorem State.updSch_pinSpiCs (s : State) (n : Nat) (f : Sch → Sch) : (s.updSch n f).pinSpiCs = s.pinSpiCs := rfl
@[simp] theorem State.updSch_pinSpiClk (s : State) (n : Nat) (f : Sch → Sch) : (s.updSch n f).pinSpiClk = s.pinSpiClk := rfl
@[simp] theorem State.updSch_pinSpiIo (s : State) (n : Nat) (f : Sch → Sch) : (s.updSch n f).pinSpiIo = s.pinSpiIo := rfl
@[simp] theorem State.updSch_pinScl (s : State) (n : Nat) (f : Sch → Sch) : (s.updSch n f).pinScl = s.pinScl := rfl
@[simp] theorem State.updSch_pinSda (s : State) (n : Nat) (f : Sch → Sch) : (s.updSch n f).pinSda = s.pinSda := rfl
@[simp] theorem State.updSch_brakeLow (s : State) (n : Nat) (f : Sch → Sch) : (s.updSch n f).brakeLow = s.brakeLow := rfl
@[simp] theorem State.updSch_txn (s : State) (n : Nat) (f : Sch → Sch) : (s.updSch n f).txn = s.txn := rfl
@[simp] theorem State.updSch_ports (s : State) (n : Nat) (f : Sch → Sch) : (s.updSch n f).ports = s.ports := rfl
@[simp] theorem State.updSch_groups (s : State) (n : Nat) (f : Sch → Sch) : (s.updSch n f).groups = s.groups := rfl
@[simp] theorem State.updSch_jrnl (s : State) (n : Nat) (f : Sch → Sch) : (s.updSch n f).jrnl = s.jrnl := rfl
@[simp] theorem State.updSch_copy (s : State) (n : Nat) (f : Sch → Sch) : (s.updSch n f).copy = s.copy := rfl
@[simp] theorem State.updSch_flt (s : State) (n : Nat) (f : Sch → Sch) : (s.updSch n f).flt = s.flt := rfl
@[simp] theorem State.updSch_mir (s : State) (n : Nat) (f : Sch → Sch) : (s.updSch n f).mir = s.mir := rfl
@[simp] theorem State.updSch_qm (s : State) (n : Nat) (f : Sch → Sch) : (s.updSch n f).qm = s.qm := rfl
@[simp] theorem State.updSch_chans (s : State) (n : Nat) (f : Sch → Sch) : (s.updSch n f).chans = s.chans := rfl
@[simp] theorem State.updSch_pools (s : State) (n : Nat) (f : Sch → Sch) : (s.updSch n f).pools = s.pools := rfl
@[simp] theorem State.updSch_red (s : State) (n : Nat) (f : Sch → Sch) : (s.updSch n f).red = s.red := rfl
@[simp] theorem State.updSch_atu (s : State) (n : Nat) (f : Sch → Sch) : (s.updSch n f).atu = s.atu := rfl
@[simp] theorem State.updSch_prq (s : State) (n : Nat) (f : Sch → Sch) : (s.updSch n f).prq = s.prq := rfl
@[simp] theorem State.updSch_acc (s : State) (n : Nat) (f : Sch → Sch) : (s.updSch n f).acc = s.acc := rfl
@[simp] theorem State.updSch_rt (s : State) (n : Nat) (f : Sch → Sch) : (s.updSch n f).rt = s.rt := rfl
@[simp] theorem State.updSch_rtWait (s : State) (n : Nat) (f : Sch → Sch) : (s.updSch n f).rtWait = s.rtWait := rfl
@[simp] theorem State.updSch_spt (s : State) (n : Nat) (f : Sch → Sch) : (s.updSch n f).spt = s.spt := rfl
@[simp] theorem State.updSch_vdm (s : State) (n : Nat) (f : Sch → Sch) : (s.updSch n f).vdm = s.vdm := rfl
@[simp] theorem State.updSch_hlc (s : State) (n : Nat) (f : Sch → Sch) : (s.updSch n f).hlc = s.hlc := rfl
@[simp] theorem State.updSch_sites (s : State) (n : Nat) (f : Sch → Sch) : (s.updSch n f).sites = s.sites := rfl
@[simp] theorem State.updSch_ens (s : State) (n : Nat) (f : Sch → Sch) : (s.updSch n f).ens = s.ens := rfl
@[simp] theorem State.updSch_lev (s : State) (n : Nat) (f : Sch → Sch) : (s.updSch n f).lev = s.lev := rfl
@[simp] theorem State.updSch_cp (s : State) (n : Nat) (f : Sch → Sch) : (s.updSch n f).cp = s.cp := rfl
@[simp] theorem State.updSch_fw (s : State) (n : Nat) (f : Sch → Sch) : (s.updSch n f).fw = s.fw := rfl
@[simp] theorem State.updSch_trust (s : State) (n : Nat) (f : Sch → Sch) : (s.updSch n f).trust = s.trust := rfl
@[simp] theorem State.updSch_nv (s : State) (n : Nat) (f : Sch → Sch) : (s.updSch n f).nv = s.nv := rfl
@[simp] theorem State.updSch_boot (s : State) (n : Nat) (f : Sch → Sch) : (s.updSch n f).boot = s.boot := rfl

/-! ### updEns changes `ens` only -/

@[simp] theorem State.updEns_pending (s : State) (n : Nat) (f : Ens → Ens) : (s.updEns n f).pending = s.pending := rfl
@[simp] theorem State.updEns_regs (s : State) (n : Nat) (f : Ens → Ens) : (s.updEns n f).regs = s.regs := rfl
@[simp] theorem State.updEns_rlatch (s : State) (n : Nat) (f : Ens → Ens) : (s.updEns n f).rlatch = s.rlatch := rfl
@[simp] theorem State.updEns_wlatch (s : State) (n : Nat) (f : Ens → Ens) : (s.updEns n f).wlatch = s.wlatch := rfl
@[simp] theorem State.updEns_por (s : State) (n : Nat) (f : Ens → Ens) : (s.updEns n f).por = s.por := rfl
@[simp] theorem State.updEns_warm (s : State) (n : Nat) (f : Ens → Ens) : (s.updEns n f).warm = s.warm := rfl
@[simp] theorem State.updEns_tsu (s : State) (n : Nat) (f : Ens → Ens) : (s.updEns n f).tsu = s.tsu := rfl
@[simp] theorem State.updEns_free (s : State) (n : Nat) (f : Ens → Ens) : (s.updEns n f).free = s.free := rfl
@[simp] theorem State.updEns_out (s : State) (n : Nat) (f : Ens → Ens) : (s.updEns n f).out = s.out := rfl
@[simp] theorem State.updEns_thermTrip (s : State) (n : Nat) (f : Ens → Ens) : (s.updEns n f).thermTrip = s.thermTrip := rfl
@[simp] theorem State.updEns_pinFault (s : State) (n : Nat) (f : Ens → Ens) : (s.updEns n f).pinFault = s.pinFault := rfl
@[simp] theorem State.updEns_pinAlert (s : State) (n : Nat) (f : Ens → Ens) : (s.updEns n f).pinAlert = s.pinAlert := rfl
@[simp] theorem State.updEns_pinTherm (s : State) (n : Nat) (f : Ens → Ens) : (s.updEns n f).pinTherm = s.pinTherm := rfl
@[simp] theorem State.updEns_pinSpiCs (s : State) (n : Nat) (f : Ens → Ens) : (s.updEns n f).pinSpiCs = s.pinSpiCs := rfl
@[simp] theorem State.updEns_pinSpiClk (s : State) (n : Nat) (f : Ens → Ens) : (s.updEns n f).pinSpiClk = s.pinSpiClk := rfl
@[simp] theorem State.updEns_pinSpiIo (s : State) (n : Nat) (f : Ens → Ens) : (s.updEns n f).pinSpiIo = s.pinSpiIo := rfl
@[simp] theorem State.updEns_pinScl (s : State) (n : Nat) (f : Ens → Ens) : (s.updEns n f).pinScl = s.pinScl := rfl
@[simp] theorem State.updEns_pinSda (s : State) (n : Nat) (f : Ens → Ens) : (s.updEns n f).pinSda = s.pinSda := rfl
@[simp] theorem State.updEns_brakeLow (s : State) (n : Nat) (f : Ens → Ens) : (s.updEns n f).brakeLow = s.brakeLow := rfl
@[simp] theorem State.updEns_txn (s : State) (n : Nat) (f : Ens → Ens) : (s.updEns n f).txn = s.txn := rfl
@[simp] theorem State.updEns_ports (s : State) (n : Nat) (f : Ens → Ens) : (s.updEns n f).ports = s.ports := rfl
@[simp] theorem State.updEns_groups (s : State) (n : Nat) (f : Ens → Ens) : (s.updEns n f).groups = s.groups := rfl
@[simp] theorem State.updEns_jrnl (s : State) (n : Nat) (f : Ens → Ens) : (s.updEns n f).jrnl = s.jrnl := rfl
@[simp] theorem State.updEns_copy (s : State) (n : Nat) (f : Ens → Ens) : (s.updEns n f).copy = s.copy := rfl
@[simp] theorem State.updEns_flt (s : State) (n : Nat) (f : Ens → Ens) : (s.updEns n f).flt = s.flt := rfl
@[simp] theorem State.updEns_mir (s : State) (n : Nat) (f : Ens → Ens) : (s.updEns n f).mir = s.mir := rfl
@[simp] theorem State.updEns_qm (s : State) (n : Nat) (f : Ens → Ens) : (s.updEns n f).qm = s.qm := rfl
@[simp] theorem State.updEns_chans (s : State) (n : Nat) (f : Ens → Ens) : (s.updEns n f).chans = s.chans := rfl
@[simp] theorem State.updEns_pools (s : State) (n : Nat) (f : Ens → Ens) : (s.updEns n f).pools = s.pools := rfl
@[simp] theorem State.updEns_red (s : State) (n : Nat) (f : Ens → Ens) : (s.updEns n f).red = s.red := rfl
@[simp] theorem State.updEns_atu (s : State) (n : Nat) (f : Ens → Ens) : (s.updEns n f).atu = s.atu := rfl
@[simp] theorem State.updEns_prq (s : State) (n : Nat) (f : Ens → Ens) : (s.updEns n f).prq = s.prq := rfl
@[simp] theorem State.updEns_acc (s : State) (n : Nat) (f : Ens → Ens) : (s.updEns n f).acc = s.acc := rfl
@[simp] theorem State.updEns_rt (s : State) (n : Nat) (f : Ens → Ens) : (s.updEns n f).rt = s.rt := rfl
@[simp] theorem State.updEns_rtWait (s : State) (n : Nat) (f : Ens → Ens) : (s.updEns n f).rtWait = s.rtWait := rfl
@[simp] theorem State.updEns_spt (s : State) (n : Nat) (f : Ens → Ens) : (s.updEns n f).spt = s.spt := rfl
@[simp] theorem State.updEns_vdm (s : State) (n : Nat) (f : Ens → Ens) : (s.updEns n f).vdm = s.vdm := rfl
@[simp] theorem State.updEns_hlc (s : State) (n : Nat) (f : Ens → Ens) : (s.updEns n f).hlc = s.hlc := rfl
@[simp] theorem State.updEns_sites (s : State) (n : Nat) (f : Ens → Ens) : (s.updEns n f).sites = s.sites := rfl
@[simp] theorem State.updEns_sch (s : State) (n : Nat) (f : Ens → Ens) : (s.updEns n f).sch = s.sch := rfl
@[simp] theorem State.updEns_lev (s : State) (n : Nat) (f : Ens → Ens) : (s.updEns n f).lev = s.lev := rfl
@[simp] theorem State.updEns_cp (s : State) (n : Nat) (f : Ens → Ens) : (s.updEns n f).cp = s.cp := rfl
@[simp] theorem State.updEns_fw (s : State) (n : Nat) (f : Ens → Ens) : (s.updEns n f).fw = s.fw := rfl
@[simp] theorem State.updEns_trust (s : State) (n : Nat) (f : Ens → Ens) : (s.updEns n f).trust = s.trust := rfl
@[simp] theorem State.updEns_nv (s : State) (n : Nat) (f : Ens → Ens) : (s.updEns n f).nv = s.nv := rfl
@[simp] theorem State.updEns_boot (s : State) (n : Nat) (f : Ens → Ens) : (s.updEns n f).boot = s.boot := rfl

/-! ### updMir changes `mir` only -/

@[simp] theorem State.updMir_pending (s : State) (n : Nat) (f : MirSt → MirSt) : (s.updMir n f).pending = s.pending := rfl
@[simp] theorem State.updMir_regs (s : State) (n : Nat) (f : MirSt → MirSt) : (s.updMir n f).regs = s.regs := rfl
@[simp] theorem State.updMir_rlatch (s : State) (n : Nat) (f : MirSt → MirSt) : (s.updMir n f).rlatch = s.rlatch := rfl
@[simp] theorem State.updMir_wlatch (s : State) (n : Nat) (f : MirSt → MirSt) : (s.updMir n f).wlatch = s.wlatch := rfl
@[simp] theorem State.updMir_por (s : State) (n : Nat) (f : MirSt → MirSt) : (s.updMir n f).por = s.por := rfl
@[simp] theorem State.updMir_warm (s : State) (n : Nat) (f : MirSt → MirSt) : (s.updMir n f).warm = s.warm := rfl
@[simp] theorem State.updMir_tsu (s : State) (n : Nat) (f : MirSt → MirSt) : (s.updMir n f).tsu = s.tsu := rfl
@[simp] theorem State.updMir_free (s : State) (n : Nat) (f : MirSt → MirSt) : (s.updMir n f).free = s.free := rfl
@[simp] theorem State.updMir_out (s : State) (n : Nat) (f : MirSt → MirSt) : (s.updMir n f).out = s.out := rfl
@[simp] theorem State.updMir_thermTrip (s : State) (n : Nat) (f : MirSt → MirSt) : (s.updMir n f).thermTrip = s.thermTrip := rfl
@[simp] theorem State.updMir_pinFault (s : State) (n : Nat) (f : MirSt → MirSt) : (s.updMir n f).pinFault = s.pinFault := rfl
@[simp] theorem State.updMir_pinAlert (s : State) (n : Nat) (f : MirSt → MirSt) : (s.updMir n f).pinAlert = s.pinAlert := rfl
@[simp] theorem State.updMir_pinTherm (s : State) (n : Nat) (f : MirSt → MirSt) : (s.updMir n f).pinTherm = s.pinTherm := rfl
@[simp] theorem State.updMir_pinSpiCs (s : State) (n : Nat) (f : MirSt → MirSt) : (s.updMir n f).pinSpiCs = s.pinSpiCs := rfl
@[simp] theorem State.updMir_pinSpiClk (s : State) (n : Nat) (f : MirSt → MirSt) : (s.updMir n f).pinSpiClk = s.pinSpiClk := rfl
@[simp] theorem State.updMir_pinSpiIo (s : State) (n : Nat) (f : MirSt → MirSt) : (s.updMir n f).pinSpiIo = s.pinSpiIo := rfl
@[simp] theorem State.updMir_pinScl (s : State) (n : Nat) (f : MirSt → MirSt) : (s.updMir n f).pinScl = s.pinScl := rfl
@[simp] theorem State.updMir_pinSda (s : State) (n : Nat) (f : MirSt → MirSt) : (s.updMir n f).pinSda = s.pinSda := rfl
@[simp] theorem State.updMir_brakeLow (s : State) (n : Nat) (f : MirSt → MirSt) : (s.updMir n f).brakeLow = s.brakeLow := rfl
@[simp] theorem State.updMir_txn (s : State) (n : Nat) (f : MirSt → MirSt) : (s.updMir n f).txn = s.txn := rfl
@[simp] theorem State.updMir_ports (s : State) (n : Nat) (f : MirSt → MirSt) : (s.updMir n f).ports = s.ports := rfl
@[simp] theorem State.updMir_groups (s : State) (n : Nat) (f : MirSt → MirSt) : (s.updMir n f).groups = s.groups := rfl
@[simp] theorem State.updMir_jrnl (s : State) (n : Nat) (f : MirSt → MirSt) : (s.updMir n f).jrnl = s.jrnl := rfl
@[simp] theorem State.updMir_copy (s : State) (n : Nat) (f : MirSt → MirSt) : (s.updMir n f).copy = s.copy := rfl
@[simp] theorem State.updMir_flt (s : State) (n : Nat) (f : MirSt → MirSt) : (s.updMir n f).flt = s.flt := rfl
@[simp] theorem State.updMir_qm (s : State) (n : Nat) (f : MirSt → MirSt) : (s.updMir n f).qm = s.qm := rfl
@[simp] theorem State.updMir_chans (s : State) (n : Nat) (f : MirSt → MirSt) : (s.updMir n f).chans = s.chans := rfl
@[simp] theorem State.updMir_pools (s : State) (n : Nat) (f : MirSt → MirSt) : (s.updMir n f).pools = s.pools := rfl
@[simp] theorem State.updMir_red (s : State) (n : Nat) (f : MirSt → MirSt) : (s.updMir n f).red = s.red := rfl
@[simp] theorem State.updMir_atu (s : State) (n : Nat) (f : MirSt → MirSt) : (s.updMir n f).atu = s.atu := rfl
@[simp] theorem State.updMir_prq (s : State) (n : Nat) (f : MirSt → MirSt) : (s.updMir n f).prq = s.prq := rfl
@[simp] theorem State.updMir_acc (s : State) (n : Nat) (f : MirSt → MirSt) : (s.updMir n f).acc = s.acc := rfl
@[simp] theorem State.updMir_rt (s : State) (n : Nat) (f : MirSt → MirSt) : (s.updMir n f).rt = s.rt := rfl
@[simp] theorem State.updMir_rtWait (s : State) (n : Nat) (f : MirSt → MirSt) : (s.updMir n f).rtWait = s.rtWait := rfl
@[simp] theorem State.updMir_spt (s : State) (n : Nat) (f : MirSt → MirSt) : (s.updMir n f).spt = s.spt := rfl
@[simp] theorem State.updMir_vdm (s : State) (n : Nat) (f : MirSt → MirSt) : (s.updMir n f).vdm = s.vdm := rfl
@[simp] theorem State.updMir_hlc (s : State) (n : Nat) (f : MirSt → MirSt) : (s.updMir n f).hlc = s.hlc := rfl
@[simp] theorem State.updMir_sites (s : State) (n : Nat) (f : MirSt → MirSt) : (s.updMir n f).sites = s.sites := rfl
@[simp] theorem State.updMir_sch (s : State) (n : Nat) (f : MirSt → MirSt) : (s.updMir n f).sch = s.sch := rfl
@[simp] theorem State.updMir_ens (s : State) (n : Nat) (f : MirSt → MirSt) : (s.updMir n f).ens = s.ens := rfl
@[simp] theorem State.updMir_lev (s : State) (n : Nat) (f : MirSt → MirSt) : (s.updMir n f).lev = s.lev := rfl
@[simp] theorem State.updMir_cp (s : State) (n : Nat) (f : MirSt → MirSt) : (s.updMir n f).cp = s.cp := rfl
@[simp] theorem State.updMir_fw (s : State) (n : Nat) (f : MirSt → MirSt) : (s.updMir n f).fw = s.fw := rfl
@[simp] theorem State.updMir_trust (s : State) (n : Nat) (f : MirSt → MirSt) : (s.updMir n f).trust = s.trust := rfl
@[simp] theorem State.updMir_nv (s : State) (n : Nat) (f : MirSt → MirSt) : (s.updMir n f).nv = s.nv := rfl
@[simp] theorem State.updMir_boot (s : State) (n : Nat) (f : MirSt → MirSt) : (s.updMir n f).boot = s.boot := rfl

/-! ### updCp changes `cp` only -/

@[simp] theorem State.updCp_pending (s : State) (n : Nat) (f : CpSt → CpSt) : (s.updCp n f).pending = s.pending := rfl
@[simp] theorem State.updCp_regs (s : State) (n : Nat) (f : CpSt → CpSt) : (s.updCp n f).regs = s.regs := rfl
@[simp] theorem State.updCp_rlatch (s : State) (n : Nat) (f : CpSt → CpSt) : (s.updCp n f).rlatch = s.rlatch := rfl
@[simp] theorem State.updCp_wlatch (s : State) (n : Nat) (f : CpSt → CpSt) : (s.updCp n f).wlatch = s.wlatch := rfl
@[simp] theorem State.updCp_por (s : State) (n : Nat) (f : CpSt → CpSt) : (s.updCp n f).por = s.por := rfl
@[simp] theorem State.updCp_warm (s : State) (n : Nat) (f : CpSt → CpSt) : (s.updCp n f).warm = s.warm := rfl
@[simp] theorem State.updCp_tsu (s : State) (n : Nat) (f : CpSt → CpSt) : (s.updCp n f).tsu = s.tsu := rfl
@[simp] theorem State.updCp_free (s : State) (n : Nat) (f : CpSt → CpSt) : (s.updCp n f).free = s.free := rfl
@[simp] theorem State.updCp_out (s : State) (n : Nat) (f : CpSt → CpSt) : (s.updCp n f).out = s.out := rfl
@[simp] theorem State.updCp_thermTrip (s : State) (n : Nat) (f : CpSt → CpSt) : (s.updCp n f).thermTrip = s.thermTrip := rfl
@[simp] theorem State.updCp_pinFault (s : State) (n : Nat) (f : CpSt → CpSt) : (s.updCp n f).pinFault = s.pinFault := rfl
@[simp] theorem State.updCp_pinAlert (s : State) (n : Nat) (f : CpSt → CpSt) : (s.updCp n f).pinAlert = s.pinAlert := rfl
@[simp] theorem State.updCp_pinTherm (s : State) (n : Nat) (f : CpSt → CpSt) : (s.updCp n f).pinTherm = s.pinTherm := rfl
@[simp] theorem State.updCp_pinSpiCs (s : State) (n : Nat) (f : CpSt → CpSt) : (s.updCp n f).pinSpiCs = s.pinSpiCs := rfl
@[simp] theorem State.updCp_pinSpiClk (s : State) (n : Nat) (f : CpSt → CpSt) : (s.updCp n f).pinSpiClk = s.pinSpiClk := rfl
@[simp] theorem State.updCp_pinSpiIo (s : State) (n : Nat) (f : CpSt → CpSt) : (s.updCp n f).pinSpiIo = s.pinSpiIo := rfl
@[simp] theorem State.updCp_pinScl (s : State) (n : Nat) (f : CpSt → CpSt) : (s.updCp n f).pinScl = s.pinScl := rfl
@[simp] theorem State.updCp_pinSda (s : State) (n : Nat) (f : CpSt → CpSt) : (s.updCp n f).pinSda = s.pinSda := rfl
@[simp] theorem State.updCp_brakeLow (s : State) (n : Nat) (f : CpSt → CpSt) : (s.updCp n f).brakeLow = s.brakeLow := rfl
@[simp] theorem State.updCp_txn (s : State) (n : Nat) (f : CpSt → CpSt) : (s.updCp n f).txn = s.txn := rfl
@[simp] theorem State.updCp_ports (s : State) (n : Nat) (f : CpSt → CpSt) : (s.updCp n f).ports = s.ports := rfl
@[simp] theorem State.updCp_groups (s : State) (n : Nat) (f : CpSt → CpSt) : (s.updCp n f).groups = s.groups := rfl
@[simp] theorem State.updCp_jrnl (s : State) (n : Nat) (f : CpSt → CpSt) : (s.updCp n f).jrnl = s.jrnl := rfl
@[simp] theorem State.updCp_copy (s : State) (n : Nat) (f : CpSt → CpSt) : (s.updCp n f).copy = s.copy := rfl
@[simp] theorem State.updCp_flt (s : State) (n : Nat) (f : CpSt → CpSt) : (s.updCp n f).flt = s.flt := rfl
@[simp] theorem State.updCp_mir (s : State) (n : Nat) (f : CpSt → CpSt) : (s.updCp n f).mir = s.mir := rfl
@[simp] theorem State.updCp_qm (s : State) (n : Nat) (f : CpSt → CpSt) : (s.updCp n f).qm = s.qm := rfl
@[simp] theorem State.updCp_chans (s : State) (n : Nat) (f : CpSt → CpSt) : (s.updCp n f).chans = s.chans := rfl
@[simp] theorem State.updCp_pools (s : State) (n : Nat) (f : CpSt → CpSt) : (s.updCp n f).pools = s.pools := rfl
@[simp] theorem State.updCp_red (s : State) (n : Nat) (f : CpSt → CpSt) : (s.updCp n f).red = s.red := rfl
@[simp] theorem State.updCp_atu (s : State) (n : Nat) (f : CpSt → CpSt) : (s.updCp n f).atu = s.atu := rfl
@[simp] theorem State.updCp_prq (s : State) (n : Nat) (f : CpSt → CpSt) : (s.updCp n f).prq = s.prq := rfl
@[simp] theorem State.updCp_acc (s : State) (n : Nat) (f : CpSt → CpSt) : (s.updCp n f).acc = s.acc := rfl
@[simp] theorem State.updCp_rt (s : State) (n : Nat) (f : CpSt → CpSt) : (s.updCp n f).rt = s.rt := rfl
@[simp] theorem State.updCp_rtWait (s : State) (n : Nat) (f : CpSt → CpSt) : (s.updCp n f).rtWait = s.rtWait := rfl
@[simp] theorem State.updCp_spt (s : State) (n : Nat) (f : CpSt → CpSt) : (s.updCp n f).spt = s.spt := rfl
@[simp] theorem State.updCp_vdm (s : State) (n : Nat) (f : CpSt → CpSt) : (s.updCp n f).vdm = s.vdm := rfl
@[simp] theorem State.updCp_hlc (s : State) (n : Nat) (f : CpSt → CpSt) : (s.updCp n f).hlc = s.hlc := rfl
@[simp] theorem State.updCp_sites (s : State) (n : Nat) (f : CpSt → CpSt) : (s.updCp n f).sites = s.sites := rfl
@[simp] theorem State.updCp_sch (s : State) (n : Nat) (f : CpSt → CpSt) : (s.updCp n f).sch = s.sch := rfl
@[simp] theorem State.updCp_ens (s : State) (n : Nat) (f : CpSt → CpSt) : (s.updCp n f).ens = s.ens := rfl
@[simp] theorem State.updCp_lev (s : State) (n : Nat) (f : CpSt → CpSt) : (s.updCp n f).lev = s.lev := rfl
@[simp] theorem State.updCp_fw (s : State) (n : Nat) (f : CpSt → CpSt) : (s.updCp n f).fw = s.fw := rfl
@[simp] theorem State.updCp_trust (s : State) (n : Nat) (f : CpSt → CpSt) : (s.updCp n f).trust = s.trust := rfl
@[simp] theorem State.updCp_nv (s : State) (n : Nat) (f : CpSt → CpSt) : (s.updCp n f).nv = s.nv := rfl
@[simp] theorem State.updCp_boot (s : State) (n : Nat) (f : CpSt → CpSt) : (s.updCp n f).boot = s.boot := rfl

/-! ### updLev changes `lev` only -/

@[simp] theorem State.updLev_pending (s : State) (f : Levels → Levels) : (s.updLev f).pending = s.pending := rfl
@[simp] theorem State.updLev_regs (s : State) (f : Levels → Levels) : (s.updLev f).regs = s.regs := rfl
@[simp] theorem State.updLev_rlatch (s : State) (f : Levels → Levels) : (s.updLev f).rlatch = s.rlatch := rfl
@[simp] theorem State.updLev_wlatch (s : State) (f : Levels → Levels) : (s.updLev f).wlatch = s.wlatch := rfl
@[simp] theorem State.updLev_por (s : State) (f : Levels → Levels) : (s.updLev f).por = s.por := rfl
@[simp] theorem State.updLev_warm (s : State) (f : Levels → Levels) : (s.updLev f).warm = s.warm := rfl
@[simp] theorem State.updLev_tsu (s : State) (f : Levels → Levels) : (s.updLev f).tsu = s.tsu := rfl
@[simp] theorem State.updLev_free (s : State) (f : Levels → Levels) : (s.updLev f).free = s.free := rfl
@[simp] theorem State.updLev_out (s : State) (f : Levels → Levels) : (s.updLev f).out = s.out := rfl
@[simp] theorem State.updLev_thermTrip (s : State) (f : Levels → Levels) : (s.updLev f).thermTrip = s.thermTrip := rfl
@[simp] theorem State.updLev_pinFault (s : State) (f : Levels → Levels) : (s.updLev f).pinFault = s.pinFault := rfl
@[simp] theorem State.updLev_pinAlert (s : State) (f : Levels → Levels) : (s.updLev f).pinAlert = s.pinAlert := rfl
@[simp] theorem State.updLev_pinTherm (s : State) (f : Levels → Levels) : (s.updLev f).pinTherm = s.pinTherm := rfl
@[simp] theorem State.updLev_pinSpiCs (s : State) (f : Levels → Levels) : (s.updLev f).pinSpiCs = s.pinSpiCs := rfl
@[simp] theorem State.updLev_pinSpiClk (s : State) (f : Levels → Levels) : (s.updLev f).pinSpiClk = s.pinSpiClk := rfl
@[simp] theorem State.updLev_pinSpiIo (s : State) (f : Levels → Levels) : (s.updLev f).pinSpiIo = s.pinSpiIo := rfl
@[simp] theorem State.updLev_pinScl (s : State) (f : Levels → Levels) : (s.updLev f).pinScl = s.pinScl := rfl
@[simp] theorem State.updLev_pinSda (s : State) (f : Levels → Levels) : (s.updLev f).pinSda = s.pinSda := rfl
@[simp] theorem State.updLev_brakeLow (s : State) (f : Levels → Levels) : (s.updLev f).brakeLow = s.brakeLow := rfl
@[simp] theorem State.updLev_txn (s : State) (f : Levels → Levels) : (s.updLev f).txn = s.txn := rfl
@[simp] theorem State.updLev_ports (s : State) (f : Levels → Levels) : (s.updLev f).ports = s.ports := rfl
@[simp] theorem State.updLev_groups (s : State) (f : Levels → Levels) : (s.updLev f).groups = s.groups := rfl
@[simp] theorem State.updLev_jrnl (s : State) (f : Levels → Levels) : (s.updLev f).jrnl = s.jrnl := rfl
@[simp] theorem State.updLev_copy (s : State) (f : Levels → Levels) : (s.updLev f).copy = s.copy := rfl
@[simp] theorem State.updLev_flt (s : State) (f : Levels → Levels) : (s.updLev f).flt = s.flt := rfl
@[simp] theorem State.updLev_mir (s : State) (f : Levels → Levels) : (s.updLev f).mir = s.mir := rfl
@[simp] theorem State.updLev_qm (s : State) (f : Levels → Levels) : (s.updLev f).qm = s.qm := rfl
@[simp] theorem State.updLev_chans (s : State) (f : Levels → Levels) : (s.updLev f).chans = s.chans := rfl
@[simp] theorem State.updLev_pools (s : State) (f : Levels → Levels) : (s.updLev f).pools = s.pools := rfl
@[simp] theorem State.updLev_red (s : State) (f : Levels → Levels) : (s.updLev f).red = s.red := rfl
@[simp] theorem State.updLev_atu (s : State) (f : Levels → Levels) : (s.updLev f).atu = s.atu := rfl
@[simp] theorem State.updLev_prq (s : State) (f : Levels → Levels) : (s.updLev f).prq = s.prq := rfl
@[simp] theorem State.updLev_acc (s : State) (f : Levels → Levels) : (s.updLev f).acc = s.acc := rfl
@[simp] theorem State.updLev_rt (s : State) (f : Levels → Levels) : (s.updLev f).rt = s.rt := rfl
@[simp] theorem State.updLev_rtWait (s : State) (f : Levels → Levels) : (s.updLev f).rtWait = s.rtWait := rfl
@[simp] theorem State.updLev_spt (s : State) (f : Levels → Levels) : (s.updLev f).spt = s.spt := rfl
@[simp] theorem State.updLev_vdm (s : State) (f : Levels → Levels) : (s.updLev f).vdm = s.vdm := rfl
@[simp] theorem State.updLev_hlc (s : State) (f : Levels → Levels) : (s.updLev f).hlc = s.hlc := rfl
@[simp] theorem State.updLev_sites (s : State) (f : Levels → Levels) : (s.updLev f).sites = s.sites := rfl
@[simp] theorem State.updLev_sch (s : State) (f : Levels → Levels) : (s.updLev f).sch = s.sch := rfl
@[simp] theorem State.updLev_ens (s : State) (f : Levels → Levels) : (s.updLev f).ens = s.ens := rfl
@[simp] theorem State.updLev_cp (s : State) (f : Levels → Levels) : (s.updLev f).cp = s.cp := rfl
@[simp] theorem State.updLev_fw (s : State) (f : Levels → Levels) : (s.updLev f).fw = s.fw := rfl
@[simp] theorem State.updLev_trust (s : State) (f : Levels → Levels) : (s.updLev f).trust = s.trust := rfl
@[simp] theorem State.updLev_nv (s : State) (f : Levels → Levels) : (s.updLev f).nv = s.nv := rfl
@[simp] theorem State.updLev_boot (s : State) (f : Levels → Levels) : (s.updLev f).boot = s.boot := rfl

/-! ### updNv changes `nv` only -/

@[simp] theorem State.updNv_pending (s : State) (f : NvSt → NvSt) : (s.updNv f).pending = s.pending := rfl
@[simp] theorem State.updNv_regs (s : State) (f : NvSt → NvSt) : (s.updNv f).regs = s.regs := rfl
@[simp] theorem State.updNv_rlatch (s : State) (f : NvSt → NvSt) : (s.updNv f).rlatch = s.rlatch := rfl
@[simp] theorem State.updNv_wlatch (s : State) (f : NvSt → NvSt) : (s.updNv f).wlatch = s.wlatch := rfl
@[simp] theorem State.updNv_por (s : State) (f : NvSt → NvSt) : (s.updNv f).por = s.por := rfl
@[simp] theorem State.updNv_warm (s : State) (f : NvSt → NvSt) : (s.updNv f).warm = s.warm := rfl
@[simp] theorem State.updNv_tsu (s : State) (f : NvSt → NvSt) : (s.updNv f).tsu = s.tsu := rfl
@[simp] theorem State.updNv_free (s : State) (f : NvSt → NvSt) : (s.updNv f).free = s.free := rfl
@[simp] theorem State.updNv_out (s : State) (f : NvSt → NvSt) : (s.updNv f).out = s.out := rfl
@[simp] theorem State.updNv_thermTrip (s : State) (f : NvSt → NvSt) : (s.updNv f).thermTrip = s.thermTrip := rfl
@[simp] theorem State.updNv_pinFault (s : State) (f : NvSt → NvSt) : (s.updNv f).pinFault = s.pinFault := rfl
@[simp] theorem State.updNv_pinAlert (s : State) (f : NvSt → NvSt) : (s.updNv f).pinAlert = s.pinAlert := rfl
@[simp] theorem State.updNv_pinTherm (s : State) (f : NvSt → NvSt) : (s.updNv f).pinTherm = s.pinTherm := rfl
@[simp] theorem State.updNv_pinSpiCs (s : State) (f : NvSt → NvSt) : (s.updNv f).pinSpiCs = s.pinSpiCs := rfl
@[simp] theorem State.updNv_pinSpiClk (s : State) (f : NvSt → NvSt) : (s.updNv f).pinSpiClk = s.pinSpiClk := rfl
@[simp] theorem State.updNv_pinSpiIo (s : State) (f : NvSt → NvSt) : (s.updNv f).pinSpiIo = s.pinSpiIo := rfl
@[simp] theorem State.updNv_pinScl (s : State) (f : NvSt → NvSt) : (s.updNv f).pinScl = s.pinScl := rfl
@[simp] theorem State.updNv_pinSda (s : State) (f : NvSt → NvSt) : (s.updNv f).pinSda = s.pinSda := rfl
@[simp] theorem State.updNv_brakeLow (s : State) (f : NvSt → NvSt) : (s.updNv f).brakeLow = s.brakeLow := rfl
@[simp] theorem State.updNv_txn (s : State) (f : NvSt → NvSt) : (s.updNv f).txn = s.txn := rfl
@[simp] theorem State.updNv_ports (s : State) (f : NvSt → NvSt) : (s.updNv f).ports = s.ports := rfl
@[simp] theorem State.updNv_groups (s : State) (f : NvSt → NvSt) : (s.updNv f).groups = s.groups := rfl
@[simp] theorem State.updNv_jrnl (s : State) (f : NvSt → NvSt) : (s.updNv f).jrnl = s.jrnl := rfl
@[simp] theorem State.updNv_copy (s : State) (f : NvSt → NvSt) : (s.updNv f).copy = s.copy := rfl
@[simp] theorem State.updNv_flt (s : State) (f : NvSt → NvSt) : (s.updNv f).flt = s.flt := rfl
@[simp] theorem State.updNv_mir (s : State) (f : NvSt → NvSt) : (s.updNv f).mir = s.mir := rfl
@[simp] theorem State.updNv_qm (s : State) (f : NvSt → NvSt) : (s.updNv f).qm = s.qm := rfl
@[simp] theorem State.updNv_chans (s : State) (f : NvSt → NvSt) : (s.updNv f).chans = s.chans := rfl
@[simp] theorem State.updNv_pools (s : State) (f : NvSt → NvSt) : (s.updNv f).pools = s.pools := rfl
@[simp] theorem State.updNv_red (s : State) (f : NvSt → NvSt) : (s.updNv f).red = s.red := rfl
@[simp] theorem State.updNv_atu (s : State) (f : NvSt → NvSt) : (s.updNv f).atu = s.atu := rfl
@[simp] theorem State.updNv_prq (s : State) (f : NvSt → NvSt) : (s.updNv f).prq = s.prq := rfl
@[simp] theorem State.updNv_acc (s : State) (f : NvSt → NvSt) : (s.updNv f).acc = s.acc := rfl
@[simp] theorem State.updNv_rt (s : State) (f : NvSt → NvSt) : (s.updNv f).rt = s.rt := rfl
@[simp] theorem State.updNv_rtWait (s : State) (f : NvSt → NvSt) : (s.updNv f).rtWait = s.rtWait := rfl
@[simp] theorem State.updNv_spt (s : State) (f : NvSt → NvSt) : (s.updNv f).spt = s.spt := rfl
@[simp] theorem State.updNv_vdm (s : State) (f : NvSt → NvSt) : (s.updNv f).vdm = s.vdm := rfl
@[simp] theorem State.updNv_hlc (s : State) (f : NvSt → NvSt) : (s.updNv f).hlc = s.hlc := rfl
@[simp] theorem State.updNv_sites (s : State) (f : NvSt → NvSt) : (s.updNv f).sites = s.sites := rfl
@[simp] theorem State.updNv_sch (s : State) (f : NvSt → NvSt) : (s.updNv f).sch = s.sch := rfl
@[simp] theorem State.updNv_ens (s : State) (f : NvSt → NvSt) : (s.updNv f).ens = s.ens := rfl
@[simp] theorem State.updNv_lev (s : State) (f : NvSt → NvSt) : (s.updNv f).lev = s.lev := rfl
@[simp] theorem State.updNv_cp (s : State) (f : NvSt → NvSt) : (s.updNv f).cp = s.cp := rfl
@[simp] theorem State.updNv_fw (s : State) (f : NvSt → NvSt) : (s.updNv f).fw = s.fw := rfl
@[simp] theorem State.updNv_trust (s : State) (f : NvSt → NvSt) : (s.updNv f).trust = s.trust := rfl
@[simp] theorem State.updNv_boot (s : State) (f : NvSt → NvSt) : (s.updNv f).boot = s.boot := rfl

/-! ### updFw changes `fw` only -/

@[simp] theorem State.updFw_pending (s : State) (f : FwSt → FwSt) : (s.updFw f).pending = s.pending := rfl
@[simp] theorem State.updFw_regs (s : State) (f : FwSt → FwSt) : (s.updFw f).regs = s.regs := rfl
@[simp] theorem State.updFw_rlatch (s : State) (f : FwSt → FwSt) : (s.updFw f).rlatch = s.rlatch := rfl
@[simp] theorem State.updFw_wlatch (s : State) (f : FwSt → FwSt) : (s.updFw f).wlatch = s.wlatch := rfl
@[simp] theorem State.updFw_por (s : State) (f : FwSt → FwSt) : (s.updFw f).por = s.por := rfl
@[simp] theorem State.updFw_warm (s : State) (f : FwSt → FwSt) : (s.updFw f).warm = s.warm := rfl
@[simp] theorem State.updFw_tsu (s : State) (f : FwSt → FwSt) : (s.updFw f).tsu = s.tsu := rfl
@[simp] theorem State.updFw_free (s : State) (f : FwSt → FwSt) : (s.updFw f).free = s.free := rfl
@[simp] theorem State.updFw_out (s : State) (f : FwSt → FwSt) : (s.updFw f).out = s.out := rfl
@[simp] theorem State.updFw_thermTrip (s : State) (f : FwSt → FwSt) : (s.updFw f).thermTrip = s.thermTrip := rfl
@[simp] theorem State.updFw_pinFault (s : State) (f : FwSt → FwSt) : (s.updFw f).pinFault = s.pinFault := rfl
@[simp] theorem State.updFw_pinAlert (s : State) (f : FwSt → FwSt) : (s.updFw f).pinAlert = s.pinAlert := rfl
@[simp] theorem State.updFw_pinTherm (s : State) (f : FwSt → FwSt) : (s.updFw f).pinTherm = s.pinTherm := rfl
@[simp] theorem State.updFw_pinSpiCs (s : State) (f : FwSt → FwSt) : (s.updFw f).pinSpiCs = s.pinSpiCs := rfl
@[simp] theorem State.updFw_pinSpiClk (s : State) (f : FwSt → FwSt) : (s.updFw f).pinSpiClk = s.pinSpiClk := rfl
@[simp] theorem State.updFw_pinSpiIo (s : State) (f : FwSt → FwSt) : (s.updFw f).pinSpiIo = s.pinSpiIo := rfl
@[simp] theorem State.updFw_pinScl (s : State) (f : FwSt → FwSt) : (s.updFw f).pinScl = s.pinScl := rfl
@[simp] theorem State.updFw_pinSda (s : State) (f : FwSt → FwSt) : (s.updFw f).pinSda = s.pinSda := rfl
@[simp] theorem State.updFw_brakeLow (s : State) (f : FwSt → FwSt) : (s.updFw f).brakeLow = s.brakeLow := rfl
@[simp] theorem State.updFw_txn (s : State) (f : FwSt → FwSt) : (s.updFw f).txn = s.txn := rfl
@[simp] theorem State.updFw_ports (s : State) (f : FwSt → FwSt) : (s.updFw f).ports = s.ports := rfl
@[simp] theorem State.updFw_groups (s : State) (f : FwSt → FwSt) : (s.updFw f).groups = s.groups := rfl
@[simp] theorem State.updFw_jrnl (s : State) (f : FwSt → FwSt) : (s.updFw f).jrnl = s.jrnl := rfl
@[simp] theorem State.updFw_copy (s : State) (f : FwSt → FwSt) : (s.updFw f).copy = s.copy := rfl
@[simp] theorem State.updFw_flt (s : State) (f : FwSt → FwSt) : (s.updFw f).flt = s.flt := rfl
@[simp] theorem State.updFw_mir (s : State) (f : FwSt → FwSt) : (s.updFw f).mir = s.mir := rfl
@[simp] theorem State.updFw_qm (s : State) (f : FwSt → FwSt) : (s.updFw f).qm = s.qm := rfl
@[simp] theorem State.updFw_chans (s : State) (f : FwSt → FwSt) : (s.updFw f).chans = s.chans := rfl
@[simp] theorem State.updFw_pools (s : State) (f : FwSt → FwSt) : (s.updFw f).pools = s.pools := rfl
@[simp] theorem State.updFw_red (s : State) (f : FwSt → FwSt) : (s.updFw f).red = s.red := rfl
@[simp] theorem State.updFw_atu (s : State) (f : FwSt → FwSt) : (s.updFw f).atu = s.atu := rfl
@[simp] theorem State.updFw_prq (s : State) (f : FwSt → FwSt) : (s.updFw f).prq = s.prq := rfl
@[simp] theorem State.updFw_acc (s : State) (f : FwSt → FwSt) : (s.updFw f).acc = s.acc := rfl
@[simp] theorem State.updFw_rt (s : State) (f : FwSt → FwSt) : (s.updFw f).rt = s.rt := rfl
@[simp] theorem State.updFw_rtWait (s : State) (f : FwSt → FwSt) : (s.updFw f).rtWait = s.rtWait := rfl
@[simp] theorem State.updFw_spt (s : State) (f : FwSt → FwSt) : (s.updFw f).spt = s.spt := rfl
@[simp] theorem State.updFw_vdm (s : State) (f : FwSt → FwSt) : (s.updFw f).vdm = s.vdm := rfl
@[simp] theorem State.updFw_hlc (s : State) (f : FwSt → FwSt) : (s.updFw f).hlc = s.hlc := rfl
@[simp] theorem State.updFw_sites (s : State) (f : FwSt → FwSt) : (s.updFw f).sites = s.sites := rfl
@[simp] theorem State.updFw_sch (s : State) (f : FwSt → FwSt) : (s.updFw f).sch = s.sch := rfl
@[simp] theorem State.updFw_ens (s : State) (f : FwSt → FwSt) : (s.updFw f).ens = s.ens := rfl
@[simp] theorem State.updFw_lev (s : State) (f : FwSt → FwSt) : (s.updFw f).lev = s.lev := rfl
@[simp] theorem State.updFw_cp (s : State) (f : FwSt → FwSt) : (s.updFw f).cp = s.cp := rfl
@[simp] theorem State.updFw_trust (s : State) (f : FwSt → FwSt) : (s.updFw f).trust = s.trust := rfl
@[simp] theorem State.updFw_nv (s : State) (f : FwSt → FwSt) : (s.updFw f).nv = s.nv := rfl
@[simp] theorem State.updFw_boot (s : State) (f : FwSt → FwSt) : (s.updFw f).boot = s.boot := rfl

/-! ### updTrust changes `trust` only -/

@[simp] theorem State.updTrust_pending (s : State) (f : Trust → Trust) : (s.updTrust f).pending = s.pending := rfl
@[simp] theorem State.updTrust_regs (s : State) (f : Trust → Trust) : (s.updTrust f).regs = s.regs := rfl
@[simp] theorem State.updTrust_rlatch (s : State) (f : Trust → Trust) : (s.updTrust f).rlatch = s.rlatch := rfl
@[simp] theorem State.updTrust_wlatch (s : State) (f : Trust → Trust) : (s.updTrust f).wlatch = s.wlatch := rfl
@[simp] theorem State.updTrust_por (s : State) (f : Trust → Trust) : (s.updTrust f).por = s.por := rfl
@[simp] theorem State.updTrust_warm (s : State) (f : Trust → Trust) : (s.updTrust f).warm = s.warm := rfl
@[simp] theorem State.updTrust_tsu (s : State) (f : Trust → Trust) : (s.updTrust f).tsu = s.tsu := rfl
@[simp] theorem State.updTrust_free (s : State) (f : Trust → Trust) : (s.updTrust f).free = s.free := rfl
@[simp] theorem State.updTrust_out (s : State) (f : Trust → Trust) : (s.updTrust f).out = s.out := rfl
@[simp] theorem State.updTrust_thermTrip (s : State) (f : Trust → Trust) : (s.updTrust f).thermTrip = s.thermTrip := rfl
@[simp] theorem State.updTrust_pinFault (s : State) (f : Trust → Trust) : (s.updTrust f).pinFault = s.pinFault := rfl
@[simp] theorem State.updTrust_pinAlert (s : State) (f : Trust → Trust) : (s.updTrust f).pinAlert = s.pinAlert := rfl
@[simp] theorem State.updTrust_pinTherm (s : State) (f : Trust → Trust) : (s.updTrust f).pinTherm = s.pinTherm := rfl
@[simp] theorem State.updTrust_pinSpiCs (s : State) (f : Trust → Trust) : (s.updTrust f).pinSpiCs = s.pinSpiCs := rfl
@[simp] theorem State.updTrust_pinSpiClk (s : State) (f : Trust → Trust) : (s.updTrust f).pinSpiClk = s.pinSpiClk := rfl
@[simp] theorem State.updTrust_pinSpiIo (s : State) (f : Trust → Trust) : (s.updTrust f).pinSpiIo = s.pinSpiIo := rfl
@[simp] theorem State.updTrust_pinScl (s : State) (f : Trust → Trust) : (s.updTrust f).pinScl = s.pinScl := rfl
@[simp] theorem State.updTrust_pinSda (s : State) (f : Trust → Trust) : (s.updTrust f).pinSda = s.pinSda := rfl
@[simp] theorem State.updTrust_brakeLow (s : State) (f : Trust → Trust) : (s.updTrust f).brakeLow = s.brakeLow := rfl
@[simp] theorem State.updTrust_txn (s : State) (f : Trust → Trust) : (s.updTrust f).txn = s.txn := rfl
@[simp] theorem State.updTrust_ports (s : State) (f : Trust → Trust) : (s.updTrust f).ports = s.ports := rfl
@[simp] theorem State.updTrust_groups (s : State) (f : Trust → Trust) : (s.updTrust f).groups = s.groups := rfl
@[simp] theorem State.updTrust_jrnl (s : State) (f : Trust → Trust) : (s.updTrust f).jrnl = s.jrnl := rfl
@[simp] theorem State.updTrust_copy (s : State) (f : Trust → Trust) : (s.updTrust f).copy = s.copy := rfl
@[simp] theorem State.updTrust_flt (s : State) (f : Trust → Trust) : (s.updTrust f).flt = s.flt := rfl
@[simp] theorem State.updTrust_mir (s : State) (f : Trust → Trust) : (s.updTrust f).mir = s.mir := rfl
@[simp] theorem State.updTrust_qm (s : State) (f : Trust → Trust) : (s.updTrust f).qm = s.qm := rfl
@[simp] theorem State.updTrust_chans (s : State) (f : Trust → Trust) : (s.updTrust f).chans = s.chans := rfl
@[simp] theorem State.updTrust_pools (s : State) (f : Trust → Trust) : (s.updTrust f).pools = s.pools := rfl
@[simp] theorem State.updTrust_red (s : State) (f : Trust → Trust) : (s.updTrust f).red = s.red := rfl
@[simp] theorem State.updTrust_atu (s : State) (f : Trust → Trust) : (s.updTrust f).atu = s.atu := rfl
@[simp] theorem State.updTrust_prq (s : State) (f : Trust → Trust) : (s.updTrust f).prq = s.prq := rfl
@[simp] theorem State.updTrust_acc (s : State) (f : Trust → Trust) : (s.updTrust f).acc = s.acc := rfl
@[simp] theorem State.updTrust_rt (s : State) (f : Trust → Trust) : (s.updTrust f).rt = s.rt := rfl
@[simp] theorem State.updTrust_rtWait (s : State) (f : Trust → Trust) : (s.updTrust f).rtWait = s.rtWait := rfl
@[simp] theorem State.updTrust_spt (s : State) (f : Trust → Trust) : (s.updTrust f).spt = s.spt := rfl
@[simp] theorem State.updTrust_vdm (s : State) (f : Trust → Trust) : (s.updTrust f).vdm = s.vdm := rfl
@[simp] theorem State.updTrust_hlc (s : State) (f : Trust → Trust) : (s.updTrust f).hlc = s.hlc := rfl
@[simp] theorem State.updTrust_sites (s : State) (f : Trust → Trust) : (s.updTrust f).sites = s.sites := rfl
@[simp] theorem State.updTrust_sch (s : State) (f : Trust → Trust) : (s.updTrust f).sch = s.sch := rfl
@[simp] theorem State.updTrust_ens (s : State) (f : Trust → Trust) : (s.updTrust f).ens = s.ens := rfl
@[simp] theorem State.updTrust_lev (s : State) (f : Trust → Trust) : (s.updTrust f).lev = s.lev := rfl
@[simp] theorem State.updTrust_cp (s : State) (f : Trust → Trust) : (s.updTrust f).cp = s.cp := rfl
@[simp] theorem State.updTrust_fw (s : State) (f : Trust → Trust) : (s.updTrust f).fw = s.fw := rfl
@[simp] theorem State.updTrust_nv (s : State) (f : Trust → Trust) : (s.updTrust f).nv = s.nv := rfl
@[simp] theorem State.updTrust_boot (s : State) (f : Trust → Trust) : (s.updTrust f).boot = s.boot := rfl

/-! ### updBoot changes `boot` only -/

@[simp] theorem State.updBoot_pending (s : State) (f : BootSt → BootSt) : (s.updBoot f).pending = s.pending := rfl
@[simp] theorem State.updBoot_regs (s : State) (f : BootSt → BootSt) : (s.updBoot f).regs = s.regs := rfl
@[simp] theorem State.updBoot_rlatch (s : State) (f : BootSt → BootSt) : (s.updBoot f).rlatch = s.rlatch := rfl
@[simp] theorem State.updBoot_wlatch (s : State) (f : BootSt → BootSt) : (s.updBoot f).wlatch = s.wlatch := rfl
@[simp] theorem State.updBoot_por (s : State) (f : BootSt → BootSt) : (s.updBoot f).por = s.por := rfl
@[simp] theorem State.updBoot_warm (s : State) (f : BootSt → BootSt) : (s.updBoot f).warm = s.warm := rfl
@[simp] theorem State.updBoot_tsu (s : State) (f : BootSt → BootSt) : (s.updBoot f).tsu = s.tsu := rfl
@[simp] theorem State.updBoot_free (s : State) (f : BootSt → BootSt) : (s.updBoot f).free = s.free := rfl
@[simp] theorem State.updBoot_out (s : State) (f : BootSt → BootSt) : (s.updBoot f).out = s.out := rfl
@[simp] theorem State.updBoot_thermTrip (s : State) (f : BootSt → BootSt) : (s.updBoot f).thermTrip = s.thermTrip := rfl
@[simp] theorem State.updBoot_pinFault (s : State) (f : BootSt → BootSt) : (s.updBoot f).pinFault = s.pinFault := rfl
@[simp] theorem State.updBoot_pinAlert (s : State) (f : BootSt → BootSt) : (s.updBoot f).pinAlert = s.pinAlert := rfl
@[simp] theorem State.updBoot_pinTherm (s : State) (f : BootSt → BootSt) : (s.updBoot f).pinTherm = s.pinTherm := rfl
@[simp] theorem State.updBoot_pinSpiCs (s : State) (f : BootSt → BootSt) : (s.updBoot f).pinSpiCs = s.pinSpiCs := rfl
@[simp] theorem State.updBoot_pinSpiClk (s : State) (f : BootSt → BootSt) : (s.updBoot f).pinSpiClk = s.pinSpiClk := rfl
@[simp] theorem State.updBoot_pinSpiIo (s : State) (f : BootSt → BootSt) : (s.updBoot f).pinSpiIo = s.pinSpiIo := rfl
@[simp] theorem State.updBoot_pinScl (s : State) (f : BootSt → BootSt) : (s.updBoot f).pinScl = s.pinScl := rfl
@[simp] theorem State.updBoot_pinSda (s : State) (f : BootSt → BootSt) : (s.updBoot f).pinSda = s.pinSda := rfl
@[simp] theorem State.updBoot_brakeLow (s : State) (f : BootSt → BootSt) : (s.updBoot f).brakeLow = s.brakeLow := rfl
@[simp] theorem State.updBoot_txn (s : State) (f : BootSt → BootSt) : (s.updBoot f).txn = s.txn := rfl
@[simp] theorem State.updBoot_ports (s : State) (f : BootSt → BootSt) : (s.updBoot f).ports = s.ports := rfl
@[simp] theorem State.updBoot_groups (s : State) (f : BootSt → BootSt) : (s.updBoot f).groups = s.groups := rfl
@[simp] theorem State.updBoot_jrnl (s : State) (f : BootSt → BootSt) : (s.updBoot f).jrnl = s.jrnl := rfl
@[simp] theorem State.updBoot_copy (s : State) (f : BootSt → BootSt) : (s.updBoot f).copy = s.copy := rfl
@[simp] theorem State.updBoot_flt (s : State) (f : BootSt → BootSt) : (s.updBoot f).flt = s.flt := rfl
@[simp] theorem State.updBoot_mir (s : State) (f : BootSt → BootSt) : (s.updBoot f).mir = s.mir := rfl
@[simp] theorem State.updBoot_qm (s : State) (f : BootSt → BootSt) : (s.updBoot f).qm = s.qm := rfl
@[simp] theorem State.updBoot_chans (s : State) (f : BootSt → BootSt) : (s.updBoot f).chans = s.chans := rfl
@[simp] theorem State.updBoot_pools (s : State) (f : BootSt → BootSt) : (s.updBoot f).pools = s.pools := rfl
@[simp] theorem State.updBoot_red (s : State) (f : BootSt → BootSt) : (s.updBoot f).red = s.red := rfl
@[simp] theorem State.updBoot_atu (s : State) (f : BootSt → BootSt) : (s.updBoot f).atu = s.atu := rfl
@[simp] theorem State.updBoot_prq (s : State) (f : BootSt → BootSt) : (s.updBoot f).prq = s.prq := rfl
@[simp] theorem State.updBoot_acc (s : State) (f : BootSt → BootSt) : (s.updBoot f).acc = s.acc := rfl
@[simp] theorem State.updBoot_rt (s : State) (f : BootSt → BootSt) : (s.updBoot f).rt = s.rt := rfl
@[simp] theorem State.updBoot_rtWait (s : State) (f : BootSt → BootSt) : (s.updBoot f).rtWait = s.rtWait := rfl
@[simp] theorem State.updBoot_spt (s : State) (f : BootSt → BootSt) : (s.updBoot f).spt = s.spt := rfl
@[simp] theorem State.updBoot_vdm (s : State) (f : BootSt → BootSt) : (s.updBoot f).vdm = s.vdm := rfl
@[simp] theorem State.updBoot_hlc (s : State) (f : BootSt → BootSt) : (s.updBoot f).hlc = s.hlc := rfl
@[simp] theorem State.updBoot_sites (s : State) (f : BootSt → BootSt) : (s.updBoot f).sites = s.sites := rfl
@[simp] theorem State.updBoot_sch (s : State) (f : BootSt → BootSt) : (s.updBoot f).sch = s.sch := rfl
@[simp] theorem State.updBoot_ens (s : State) (f : BootSt → BootSt) : (s.updBoot f).ens = s.ens := rfl
@[simp] theorem State.updBoot_lev (s : State) (f : BootSt → BootSt) : (s.updBoot f).lev = s.lev := rfl
@[simp] theorem State.updBoot_cp (s : State) (f : BootSt → BootSt) : (s.updBoot f).cp = s.cp := rfl
@[simp] theorem State.updBoot_fw (s : State) (f : BootSt → BootSt) : (s.updBoot f).fw = s.fw := rfl
@[simp] theorem State.updBoot_trust (s : State) (f : BootSt → BootSt) : (s.updBoot f).trust = s.trust := rfl
@[simp] theorem State.updBoot_nv (s : State) (f : BootSt → BootSt) : (s.updBoot f).nv = s.nv := rfl

/-! ### clearLatches changes `rlatch` and `wlatch` only -/

@[simp] theorem clearLatches_pending (s : State) (p : PageId) : (clearLatches s p).pending = s.pending := rfl
@[simp] theorem clearLatches_regs (s : State) (p : PageId) : (clearLatches s p).regs = s.regs := rfl
@[simp] theorem clearLatches_por (s : State) (p : PageId) : (clearLatches s p).por = s.por := rfl
@[simp] theorem clearLatches_warm (s : State) (p : PageId) : (clearLatches s p).warm = s.warm := rfl
@[simp] theorem clearLatches_tsu (s : State) (p : PageId) : (clearLatches s p).tsu = s.tsu := rfl
@[simp] theorem clearLatches_free (s : State) (p : PageId) : (clearLatches s p).free = s.free := rfl
@[simp] theorem clearLatches_out (s : State) (p : PageId) : (clearLatches s p).out = s.out := rfl
@[simp] theorem clearLatches_thermTrip (s : State) (p : PageId) : (clearLatches s p).thermTrip = s.thermTrip := rfl
@[simp] theorem clearLatches_pinFault (s : State) (p : PageId) : (clearLatches s p).pinFault = s.pinFault := rfl
@[simp] theorem clearLatches_pinAlert (s : State) (p : PageId) : (clearLatches s p).pinAlert = s.pinAlert := rfl
@[simp] theorem clearLatches_pinTherm (s : State) (p : PageId) : (clearLatches s p).pinTherm = s.pinTherm := rfl
@[simp] theorem clearLatches_pinSpiCs (s : State) (p : PageId) : (clearLatches s p).pinSpiCs = s.pinSpiCs := rfl
@[simp] theorem clearLatches_pinSpiClk (s : State) (p : PageId) : (clearLatches s p).pinSpiClk = s.pinSpiClk := rfl
@[simp] theorem clearLatches_pinSpiIo (s : State) (p : PageId) : (clearLatches s p).pinSpiIo = s.pinSpiIo := rfl
@[simp] theorem clearLatches_pinScl (s : State) (p : PageId) : (clearLatches s p).pinScl = s.pinScl := rfl
@[simp] theorem clearLatches_pinSda (s : State) (p : PageId) : (clearLatches s p).pinSda = s.pinSda := rfl
@[simp] theorem clearLatches_brakeLow (s : State) (p : PageId) : (clearLatches s p).brakeLow = s.brakeLow := rfl
@[simp] theorem clearLatches_txn (s : State) (p : PageId) : (clearLatches s p).txn = s.txn := rfl
@[simp] theorem clearLatches_ports (s : State) (p : PageId) : (clearLatches s p).ports = s.ports := rfl
@[simp] theorem clearLatches_groups (s : State) (p : PageId) : (clearLatches s p).groups = s.groups := rfl
@[simp] theorem clearLatches_jrnl (s : State) (p : PageId) : (clearLatches s p).jrnl = s.jrnl := rfl
@[simp] theorem clearLatches_copy (s : State) (p : PageId) : (clearLatches s p).copy = s.copy := rfl
@[simp] theorem clearLatches_flt (s : State) (p : PageId) : (clearLatches s p).flt = s.flt := rfl
@[simp] theorem clearLatches_mir (s : State) (p : PageId) : (clearLatches s p).mir = s.mir := rfl
@[simp] theorem clearLatches_qm (s : State) (p : PageId) : (clearLatches s p).qm = s.qm := rfl
@[simp] theorem clearLatches_chans (s : State) (p : PageId) : (clearLatches s p).chans = s.chans := rfl
@[simp] theorem clearLatches_pools (s : State) (p : PageId) : (clearLatches s p).pools = s.pools := rfl
@[simp] theorem clearLatches_red (s : State) (p : PageId) : (clearLatches s p).red = s.red := rfl
@[simp] theorem clearLatches_atu (s : State) (p : PageId) : (clearLatches s p).atu = s.atu := rfl
@[simp] theorem clearLatches_prq (s : State) (p : PageId) : (clearLatches s p).prq = s.prq := rfl
@[simp] theorem clearLatches_acc (s : State) (p : PageId) : (clearLatches s p).acc = s.acc := rfl
@[simp] theorem clearLatches_rt (s : State) (p : PageId) : (clearLatches s p).rt = s.rt := rfl
@[simp] theorem clearLatches_rtWait (s : State) (p : PageId) : (clearLatches s p).rtWait = s.rtWait := rfl
@[simp] theorem clearLatches_spt (s : State) (p : PageId) : (clearLatches s p).spt = s.spt := rfl
@[simp] theorem clearLatches_vdm (s : State) (p : PageId) : (clearLatches s p).vdm = s.vdm := rfl
@[simp] theorem clearLatches_hlc (s : State) (p : PageId) : (clearLatches s p).hlc = s.hlc := rfl
@[simp] theorem clearLatches_sites (s : State) (p : PageId) : (clearLatches s p).sites = s.sites := rfl
@[simp] theorem clearLatches_sch (s : State) (p : PageId) : (clearLatches s p).sch = s.sch := rfl
@[simp] theorem clearLatches_ens (s : State) (p : PageId) : (clearLatches s p).ens = s.ens := rfl
@[simp] theorem clearLatches_lev (s : State) (p : PageId) : (clearLatches s p).lev = s.lev := rfl
@[simp] theorem clearLatches_cp (s : State) (p : PageId) : (clearLatches s p).cp = s.cp := rfl
@[simp] theorem clearLatches_fw (s : State) (p : PageId) : (clearLatches s p).fw = s.fw := rfl
@[simp] theorem clearLatches_trust (s : State) (p : PageId) : (clearLatches s p).trust = s.trust := rfl
@[simp] theorem clearLatches_nv (s : State) (p : PageId) : (clearLatches s p).nv = s.nv := rfl
@[simp] theorem clearLatches_boot (s : State) (p : PageId) : (clearLatches s p).boot = s.boot := rfl

/-! ### What is read through a page whose latches were emptied -/

@[simp] theorem clearLatches_r (s : State) (p : PageId) (k : Nat) : State.r (clearLatches s p) k = State.r s k := rfl
@[simp] theorem clearLatches_fld (s : State) (p : PageId) (k lo w : Nat) : State.fld (clearLatches s p) k lo w = State.fld s k lo w := rfl
@[simp] theorem clearLatches_q (s : State) (p : PageId) (i q : Nat) : State.q (clearLatches s p) i q = State.q s i q := rfl
@[simp] theorem clearLatches_read_vd (s : State) (p : PageId) (i v : Nat) : State.vd (clearLatches s p) i v = State.vd s i v := rfl
@[simp] theorem clearLatches_read_group (s : State) (p : PageId) (g : Nat) : State.group (clearLatches s p) g = State.group s g := rfl
@[simp] theorem clearLatches_read_port (s : State) (p : PageId) (g : Nat) : State.port (clearLatches s p) g = State.port s g := rfl
@[simp] theorem clearLatches_chan (s : State) (p : PageId) (g : Nat) : State.chan (clearLatches s p) g = State.chan s g := rfl
@[simp] theorem clearLatches_sc (s : State) (p : PageId) (g : Nat) : State.sc (clearLatches s p) g = State.sc s g := rfl
@[simp] theorem clearLatches_en (s : State) (p : PageId) (g : Nat) : State.en (clearLatches s p) g = State.en s g := rfl
@[simp] theorem clearLatches_hl (s : State) (p : PageId) (g : Nat) : State.hl (clearLatches s p) g = State.hl s g := rfl
@[simp] theorem clearLatches_site (s : State) (p : PageId) (g : Nat) : State.site (clearLatches s p) g = State.site s g := rfl
@[simp] theorem clearLatches_server (s : State) (p : PageId) (i : Nat) : server (clearLatches s p) i = server s i := rfl
@[simp] theorem clearLatches_mirrored (s : State) (p : PageId) (i : Nat) : mirrored (clearLatches s p) i = mirrored s i := rfl
@[simp] theorem clearLatches_alive (s : State) (p : PageId) (i : Nat) : alive (clearLatches s p) i = alive s i := rfl
@[simp] theorem clearLatches_carrier (s : State) (p : PageId) (i : Nat) : carrier (clearLatches s p) i = carrier s i := rfl
@[simp] theorem clearLatches_binder (s : State) (p : PageId) (q : PageId) : binder (clearLatches s p) q = binder s q := rfl
@[simp] theorem clearLatches_slotOf (s : State) (p : PageId) (i n : Nat) : slotOf (clearLatches s p) i n = slotOf s i n := rfl

end Sys2Proof.Machine
end

