-- ==== Sys2Proof/Laws/Total.lean ====
section
/-! SUPPORT. No meaning stops the machine: every gate, every register command and every write that waited answers a next state. -/
namespace Sys2Proof.Machine

/-- The outcome is a next state. -/
def IsNext (o : Host.Outcome State Fault Refusal) : Prop := ∃ t, o = .next t

@[simp] theorem isNext_next (t : State) : IsNext (.next t) := ⟨t, rfl⟩
@[simp] theorem isNext_done (s t : State) : IsNext (done s t) := ⟨_, rfl⟩
@[simp] theorem isNext_live (s : State) (f : State → State) : IsNext (live s f) := by unfold live; split <;> exact ⟨_, rfl⟩
@[simp] theorem isNext_aon (s : State) (f : State → State) : IsNext (aon s f) := by unfold aon; split <;> exact ⟨_, rfl⟩

theorem isNext_thenDo {o : Host.Outcome State Fault Refusal} {f : State → Host.Outcome State Fault Refusal} (h : IsNext o) (hf : ∀ t, IsNext (f t)) :
    IsNext (thenDo o f) := by
  obtain ⟨t, rfl⟩ := h; exact hf t

theorem isNext_foldl {α : Type} (g : α → State → Host.Outcome State Fault Refusal) (hg : ∀ c t, IsNext (g c t)) (l : List α) :
    ∀ o, IsNext o → IsNext (l.foldl (fun o c => thenDo o (g c)) o) := by
  induction l with
  | nil => exact fun o h => h
  | cons c r ih => exact fun o h => ih _ (isNext_thenDo h (hg c))

@[simp] theorem isNext_liveI (s : State) (i : Nat) (f : State → State) : IsNext (liveI s i f) := by unfold liveI; simp

@[simp] theorem isNext_liveF (s : State) (i : Nat) (ty : Pg) (f : State → State) : IsNext (liveF s i ty f) := by unfold liveF; simp

@[simp] theorem isNext_cmdI (s : State) (i : Inst) (a : Acc) (p : PageId) (c : Instr) (f : State → State) : IsNext (cmdI s i a p c f) := by unfold cmdI; simp

@[simp] theorem isNext_cmdD (s : State) (i : Inst) (a : Acc) (p : PageId) (c : Instr) (drop : State → Bool) (f : State → State) : IsNext (cmdD s i a p c drop f) := by unfold cmdD; simp

@[simp] theorem isNext_execHold (i : Inst) (a : Acc) (s : State) : IsNext (execHold i a s) := by unfold execHold; simp

@[simp] theorem isNext_execRtRead (i : Inst) (a : Acc) (s : State) : IsNext (execRtRead i a s) := by unfold execRtRead; simp

@[simp] theorem isNext_execRtWrite (i : Inst) (a : Acc) (s : State) : IsNext (execRtWrite i a s) := by unfold execRtWrite; simp

@[simp] theorem isNext_execConvCtlWrite (i : Inst) (a : Acc) (v : W32) (s : State) : IsNext (execConvCtlWrite i a v s) := by unfold execConvCtlWrite; simp

@[simp] theorem isNext_execChanCfgWrite (i : Inst) (c : Chan) (a : Acc) (v : W32) (s : State) : IsNext (execChanCfgWrite i c a v s) := by unfold execChanCfgWrite; simp

@[simp] theorem isNext_execDmaEnableWrite (i : Inst) (c : Chan) (a : Acc) (en : Bool) (s : State) : IsNext (execDmaEnableWrite i c a en s) := by unfold execDmaEnableWrite; simp

@[simp] theorem isNext_execChannelPause (i : Inst) (c : Chan) (a : Acc) (s : State) : IsNext (execChannelPause i c a s) := by unfold execChannelPause; simp

@[simp] theorem isNext_execChannelUnpause (i : Inst) (c : Chan) (a : Acc) (s : State) : IsNext (execChannelUnpause i c a s) := by unfold execChannelUnpause; simp

@[simp] theorem isNext_execAbort (i : Inst) (c : Chan) (a : Acc) (s : State) : IsNext (execAbort i c a s) := by unfold execAbort; simp

@[simp] theorem isNext_execClearHalt (i : Inst) (c : Chan) (a : Acc) (s : State) : IsNext (execClearHalt i c a s) := by unfold execClearHalt; simp

@[simp] theorem isNext_execDoorbell (p : Port) (bar4 : Bool) (off : BitVec 29) (data : List Byte) (be : Bool) (s : State) : IsNext (execDoorbell p bar4 off data be s) := by unfold execDoorbell; simp

@[simp] theorem isNext_execCbIndexedWrite (i : Inst) (a : Acc) (h : Half) (s : State) : IsNext (execCbIndexedWrite i a h s) := by unfold execCbIndexedWrite; simp

@[simp] theorem isNext_execVdIndexedWrite (i : Inst) (vd : BitVec 12) (a : Acc) (h : Half) (s : State) : IsNext (execVdIndexedWrite i vd a h s) := by unfold execVdIndexedWrite; simp

@[simp] theorem isNext_ctxCmd (s : State) (i : Inst) (a : Acc) (c : Instr) (f : State → Nat → State) : IsNext (ctxCmd s i a c f) := by unfold ctxCmd; simp

@[simp] theorem isNext_execCtxRead (i : Inst) (a : Acc) (s : State) : IsNext (execCtxRead i a s) := by unfold execCtxRead; simp

@[simp] theorem isNext_execCtxWrite (i : Inst) (a : Acc) (vt : NocEnd) (s : State) : IsNext (execCtxWrite i a vt s) := by unfold execCtxWrite; simp

@[simp] theorem isNext_execCtxPin (i : Inst) (a : Acc) (s : State) : IsNext (execCtxPin i a s) := by unfold execCtxPin; simp

@[simp] theorem isNext_execCtxUnpin (i : Inst) (a : Acc) (s : State) : IsNext (execCtxUnpin i a s) := by unfold execCtxUnpin; simp

@[simp] theorem isNext_vtCmd (s : State) (i : Inst) (a : Acc) (c : Instr) (f : State → Nat → State) : IsNext (vtCmd s i a c f) := by unfold vtCmd; simp

@[simp] theorem isNext_execVtRead (i : Inst) (a : Acc) (s : State) : IsNext (execVtRead i a s) := by unfold execVtRead; simp

@[simp] theorem isNext_execVtWrite (i : Inst) (a : Acc) (s : State) : IsNext (execVtWrite i a s) := by unfold execVtWrite; simp

@[simp] theorem isNext_execVtBaseWrite (i : Inst) (isVt : Bool) (a : Acc) (v : W64) (s : State) : IsNext (execVtBaseWrite i isVt a v s) := by unfold execVtBaseWrite; simp

@[simp] theorem isNext_execRegIrqRearm (i : Inst) (a : Acc) (s : State) : IsNext (execRegIrqRearm i a s) := by unfold execRegIrqRearm; simp

@[simp] theorem isNext_execHaltPop (i : Inst) (a : Acc) (s : State) : IsNext (execHaltPop i a s) := by unfold execHaltPop; simp

@[simp] theorem isNext_execEvtValueWrite (i : Inst) (a : Acc) (v : W32) (s : State) : IsNext (execEvtValueWrite i a v s) := by unfold execEvtValueWrite; simp

@[simp] theorem isNext_execEvtAdd (i : Inst) (vd : Option (BitVec 12)) (a : Acc) (v : W32) (s : State) : IsNext (execEvtAdd i vd a v s) := by unfold execEvtAdd; split <;> simp

@[simp] theorem isNext_invCmd (s : State) (i : Inst) (a : Acc) (c : Instr) (v : State → Nat → Option InvScope) : IsNext (invCmd s i a c v) := by unfold invCmd; simp

@[simp] theorem isNext_execDaRange (i : Inst) (a : Acc) (lg : BitVec 6) (s : State) : IsNext (execDaRange i a lg s) := by unfold execDaRange; simp

@[simp] theorem isNext_execDaPartition (i : Inst) (a : Acc) (s : State) : IsNext (execDaPartition i a s) := by unfold execDaPartition; simp

@[simp] theorem isNext_execHostRange (i : Inst) (a : Acc) (lg : BitVec 6) (s : State) : IsNext (execHostRange i a lg s) := by unfold execHostRange; simp

@[simp] theorem isNext_execHostSpace (i : Inst) (a : Acc) (s : State) : IsNext (execHostSpace i a s) := by unfold execHostSpace; simp

@[simp] theorem isNext_execHostGroup (i : Inst) (a : Acc) (s : State) : IsNext (execHostGroup i a s) := by unfold execHostGroup; simp

@[simp] theorem isNext_execPtRootWrite (i : Inst) (part : Part) (a : Acc) (v : W64) (s : State) : IsNext (execPtRootWrite i part a v s) := by unfold execPtRootWrite; simp

@[simp] theorem isNext_execWinWrite (i : Inst) (part : Part) (w : Fin 16) (a : Acc) (v : W64) (s : State) : IsNext (execWinWrite i part w a v s) := by unfold execWinWrite; simp

@[simp] theorem isNext_execPeerWindowWrite (i : Inst) (part : Part) (w : Fin 8) (a : Acc) (v : W64) (s : State) : IsNext (execPeerWindowWrite i part w a v s) := by unfold execPeerWindowWrite; simp

@[simp] theorem isNext_execPeerInWrite (i : Inst) (part : Part) (a : Acc) (v : W32) (leaves : List Leaf) (s : State) : IsNext (execPeerInWrite i part a v leaves s) := by unfold execPeerInWrite; simp

@[simp] theorem isNext_execGroupCfgWrite (i : Inst) (a : Acc) (v : W32) (s : State) : IsNext (execGroupCfgWrite i a v s) := by unfold execGroupCfgWrite; simp

@[simp] theorem isNext_execClean (i : Inst) (a : Acc) (g : Group) (s : State) : IsNext (execClean i a g s) := by unfold execClean; simp

@[simp] theorem isNext_execDrop (i : Inst) (a : Acc) (g : Group) (s : State) : IsNext (execDrop i a g s) := by unfold execDrop; simp

@[simp] theorem isNext_execDeadSiteReadmit (i : Inst) (a : Acc) (k : Site) (s : State) : IsNext (execDeadSiteReadmit i a k s) := by unfold execDeadSiteReadmit; simp

@[simp] theorem isNext_execCtxReset (i : Inst) (a : Acc) (s : State) : IsNext (execCtxReset i a s) := by unfold execCtxReset; simp

@[simp] theorem isNext_execCtxDisable (i : Inst) (a : Acc) (s : State) : IsNext (execCtxDisable i a s) := by unfold execCtxDisable; simp

@[simp] theorem isNext_execCtxResume (i : Inst) (a : Acc) (s : State) : IsNext (execCtxResume i a s) := by unfold execCtxResume; simp

@[simp] theorem isNext_vdCmd (s : State) (i : Inst) (a : Acc) (c : Instr) (f : State → Nat → State) : IsNext (vdCmd s i a c f) := by unfold vdCmd; simp

@[simp] theorem isNext_execVdCreate (i : Inst) (a : Acc) (s : State) : IsNext (execVdCreate i a s) := by unfold execVdCreate; simp

@[simp] theorem isNext_execVdDestroy (i : Inst) (a : Acc) (s : State) : IsNext (execVdDestroy i a s) := by unfold execVdDestroy; simp

@[simp] theorem isNext_execVdRead (i : Inst) (a : Acc) (s : State) : IsNext (execVdRead i a s) := by unfold execVdRead; simp

@[simp] theorem isNext_execCtxEnable (i : Inst) (cp : Bool) (port : Port) (rid : BitVec 16) (s : State) : IsNext (execCtxEnable i cp port rid s) := by unfold execCtxEnable; simp

@[simp] theorem isNext_execCurtainDown (i : Inst) (a : Acc) (s : State) : IsNext (execCurtainDown i a s) := by unfold execCurtainDown; simp

@[simp] theorem isNext_execCurtainUp (i : Inst) (a : Acc) (s : State) : IsNext (execCurtainUp i a s) := by unfold execCurtainUp; simp

@[simp] theorem isNext_execSaveState (i : Inst) (a : Acc) (data : List (List Byte)) (st : VdIo) (s : State) : IsNext (execSaveState i a data st s) := by unfold execSaveState; simp

@[simp] theorem isNext_execVdRestore (i : Inst) (a : Acc) (img : List Byte) (st : VdIo) (s : State) : IsNext (execVdRestore i a img st s) := by unfold execVdRestore; simp

@[simp] theorem isNext_execMboxSend (i : Inst) (v : BitVec 12) (_a : Acc) (s : State) : IsNext (execMboxSend i v _a s) := by unfold execMboxSend; simp

@[simp] theorem isNext_execMboxRespond (i : Inst) (a : Acc) (s : State) : IsNext (execMboxRespond i a s) := by unfold execMboxRespond; simp

@[simp] theorem isNext_sptCmd (s : State) (i : Inst) (a : Acc) (c : Instr) (f : State → State) : IsNext (sptCmd s i a c f) := by unfold sptCmd; simp

@[simp] theorem isNext_execSptLoad (i : Inst) (a : Acc) (site : Fin 16) (part : Part) (leaves : List Leaf) (s : State) : IsNext (execSptLoad i a site part leaves s) := by unfold execSptLoad; simp

@[simp] theorem isNext_execSptUnload (i : Inst) (a : Acc) (site : Fin 16) (part : Part) (s : State) : IsNext (execSptUnload i a site part s) := by unfold execSptUnload; simp

@[simp] theorem isNext_execRelease (i : Inst) (a : Acc) (leaves : List Leaf) (s : State) : IsNext (execRelease i a leaves s) := by unfold execRelease; simp

@[simp] theorem isNext_partCmd (s : State) (i : Inst) (a : Acc) (c : Instr) (f : State → Nat → State) (drop : State → Nat → Bool := fun _ _ => false) : IsNext (partCmd s i a c f drop) := by unfold partCmd; simp

@[simp] theorem isNext_execCreate (i : Inst) (a : Acc) (s : State) : IsNext (execCreate i a s) := by unfold execCreate; simp

@[simp] theorem isNext_execDestroy (i : Inst) (a : Acc) (s : State) : IsNext (execDestroy i a s) := by unfold execDestroy; simp

@[simp] theorem isNext_execPartRead (i : Inst) (a : Acc) (s : State) : IsNext (execPartRead i a s) := by unfold execPartRead; simp

@[simp] theorem isNext_dirCmd (s : State) (i : Inst) (a : Acc) (c : Instr) (f : State → Nat → State) : IsNext (dirCmd s i a c f) := by unfold dirCmd; simp

@[simp] theorem isNext_execDefine (i : Inst) (a : Acc) (s : State) : IsNext (execDefine i a s) := by unfold execDefine; simp

@[simp] theorem isNext_execDelete (i : Inst) (a : Acc) (s : State) : IsNext (execDelete i a s) := by unfold execDelete; simp

@[simp] theorem isNext_execDirRead (i : Inst) (a : Acc) (s : State) : IsNext (execDirRead i a s) := by unfold execDirRead; simp

@[simp] theorem isNext_execEvict (i : Inst) (a : Acc) (s : State) : IsNext (execEvict i a s) := by unfold execEvict; simp

@[simp] theorem isNext_execToHost (i : Inst) (a : Acc) (s : State) : IsNext (execToHost i a s) := by unfold execToHost; simp

@[simp] theorem isNext_execClearDamage (i : Inst) (a : Acc) (s : State) : IsNext (execClearDamage i a s) := by unfold execClearDamage; simp

@[simp] theorem isNext_stpCmd (s : State) (k : Nat) (a : Acc) (c : Instr) (f : State → Nat → State) : IsNext (stpCmd s k a c f) := by unfold stpCmd; simp

@[simp] theorem isNext_execLinkReset (k : Site) (a : Acc) (s : State) : IsNext (execLinkReset k a s) := by unfold execLinkReset; simp

@[simp] theorem isNext_execStpCapRead (k : Site) (a : Acc) (s : State) : IsNext (execStpCapRead k a s) := by unfold execStpCapRead; simp

@[simp] theorem isNext_ensCmd (s : State) (i : Inst) (a : Acc) (c : Instr) (f : State → Nat → State) : IsNext (ensCmd s i a c f) := by unfold ensCmd; simp

@[simp] theorem isNext_execEnable (i : Inst) (a : Acc) (s : State) : IsNext (execEnable i a s) := by unfold execEnable; simp

@[simp] theorem isNext_execDisable (i : Inst) (a : Acc) (s : State) : IsNext (execDisable i a s) := by unfold execDisable; simp

@[simp] theorem isNext_execEnsCancel (i : Inst) (a : Acc) (h : Half) (s : State) : IsNext (execEnsCancel i a h s) := by unfold execEnsCancel; simp

@[simp] theorem isNext_poolCmd (s : State) (i : Inst) (a : Acc) (c : Instr) (f : State → Nat → State) : IsNext (poolCmd s i a c f) := by unfold poolCmd; simp

@[simp] theorem isNext_execPoolCreate (i : Inst) (a : Acc) (s : State) : IsNext (execPoolCreate i a s) := by unfold execPoolCreate; simp

@[simp] theorem isNext_execPoolDestroy (i : Inst) (a : Acc) (s : State) : IsNext (execPoolDestroy i a s) := by unfold execPoolDestroy; simp

@[simp] theorem isNext_execPoolRead (i : Inst) (a : Acc) (s : State) : IsNext (execPoolRead i a s) := by unfold execPoolRead; simp

@[simp] theorem isNext_execTxnBegin (i : Inst) (a : Acc) (v : W32) (s : State) : IsNext (execTxnBegin i a v s) := by unfold execTxnBegin; simp

@[simp] theorem isNext_execTxnBind (i : Inst) (a : Acc) (v : W32) (s : State) : IsNext (execTxnBind i a v s) := by unfold execTxnBind; simp

@[simp] theorem isNext_execTxnCommit (i : Inst) (a : Acc) (v : W32) (s : State) : IsNext (execTxnCommit i a v s) := by unfold execTxnCommit; simp

@[simp] theorem isNext_execTxnRollback (i : Inst) (a : Acc) (v : W32) (s : State) : IsNext (execTxnRollback i a v s) := by unfold execTxnRollback; simp

@[simp] theorem isNext_execPortCfgWrite (n : Port) (y1 : Acc) (v : W32) (s : State) : IsNext (execPortCfgWrite n y1 v s) := by unfold execPortCfgWrite; simp

@[simp] theorem isNext_execJrnlCfgWrite (i : Inst) (isSize : Bool) (y1 : Acc) (v : W64) (s : State) : IsNext (execJrnlCfgWrite i isSize y1 v s) := by unfold execJrnlCfgWrite; simp

@[simp] theorem isNext_attachCmd (a : Acc) (g : Group) (s : State) (f : State → Nat → State) : IsNext (attachCmd a g s f) := by unfold attachCmd; simp

@[simp] theorem isNext_execAttach (a : Acc) (g : Group) (s : State) : IsNext (execAttach a g s) := by unfold execAttach; simp

@[simp] theorem isNext_execReattach (a : Acc) (g : Group) (s : State) : IsNext (execReattach a g s) := by unfold execReattach; simp

@[simp] theorem isNext_execForce (a : Acc) (g : Group) (s : State) : IsNext (execForce a g s) := by unfold execForce; simp

@[simp] theorem isNext_execDepart (a : Acc) (g : Group) (s : State) : IsNext (execDepart a g s) := by unfold execDepart; simp

@[simp] theorem isNext_execDetach (a : Acc) (g : Group) (s : State) : IsNext (execDetach a g s) := by unfold execDetach; simp

@[simp] theorem isNext_execDidtCfgWrite (wave : Option Inst) (a : Acc) (v : W32) (s : State) : IsNext (execDidtCfgWrite wave a v s) := by unfold execDidtCfgWrite; split <;> simp

@[simp] theorem isNext_execPkgBudgetWrite (y1 : Acc) (v : W32) (s : State) : IsNext (execPkgBudgetWrite y1 v s) := by unfold execPkgBudgetWrite; simp

@[simp] theorem isNext_poolWrite (s : State) (a : Option Acc) (f : State → State) : IsNext (poolWrite s a f) := by unfold poolWrite; split <;> simp

@[simp] theorem isNext_execPoolTotal (a : Option Acc) (v : W32) (s : State) : IsNext (execPoolTotal a v s) := by unfold execPoolTotal; simp

@[simp] theorem isNext_execPoolConfiguration (a : Option Acc) (v : W32) (s : State) : IsNext (execPoolConfiguration a v s) := by unfold execPoolConfiguration; simp

@[simp] theorem isNext_execClearLog (y1 : Acc) (s : State) : IsNext (execClearLog y1 s) := by unfold execClearLog; simp

@[simp] theorem isNext_execRestoreFactory (a : Acc) (s : State) : IsNext (execRestoreFactory a s) := by unfold execRestoreFactory; simp

@[simp] theorem isNext_execFltAck (y1 : Acc) (v : W32) (s : State) : IsNext (execFltAck y1 v s) := by unfold execFltAck; simp

@[simp] theorem isNext_execFltWordClear (y1 : Acc) (v : W64) (s : State) : IsNext (execFltWordClear y1 v s) := by unfold execFltWordClear; simp

@[simp] theorem isNext_execFltIrqRearm (y1 : Acc) (s : State) : IsNext (execFltIrqRearm y1 s) := by unfold execFltIrqRearm; simp

@[simp] theorem isNext_execCfPop (y1 : Acc) (s : State) : IsNext (execCfPop y1 s) := by unfold execCfPop; simp

@[simp] theorem isNext_execSweep (y1 : Acc) (i : Inst) (s : State) : IsNext (execSweep y1 i s) := by unfold execSweep; simp

@[simp] theorem isNext_mirCmd (s : State) (i : Inst) (a : Acc) (c : Instr) (f : State → State) : IsNext (mirCmd s i a c f) := by unfold mirCmd; simp

@[simp] theorem isNext_execHandover (i : Inst) (a : Acc) (s : State) : IsNext (execHandover i a s) := by unfold execHandover; simp

@[simp] theorem isNext_execFull (y1 : Acc) (i : Inst) (s : State) : IsNext (execFull y1 i s) := by unfold execFull; simp

@[simp] theorem isNext_execRejoin (i : Inst) (a : Acc) (s : State) : IsNext (execRejoin i a s) := by unfold execRejoin; simp

@[simp] theorem isNext_updCmd (s : State) (i : Inst) (a : Acc) (c : Instr) (op : Nat) (f : State → State) : IsNext (updCmd s i a c op f) := by unfold updCmd; simp

@[simp] theorem isNext_execStage (i : Inst) (a : Acc) (m : ImageIn) (s : State) : IsNext (execStage i a m s) := by unfold execStage; simp

@[simp] theorem isNext_execActivate (i : Inst) (a : Acc) (s : State) : IsNext (execActivate i a s) := by unfold execActivate; simp

@[simp] theorem isNext_execDiscard (i : Inst) (a : Acc) (s : State) : IsNext (execDiscard i a s) := by unfold execDiscard; simp

@[simp] theorem isNext_execCommitSvn (i : Inst) (a : Acc) (s : State) : IsNext (execCommitSvn i a s) := by unfold execCommitSvn; simp

@[simp] theorem isNext_execLcCmd (i : Inst) (a : Acc) (v : W32) (s : State) : IsNext (execLcCmd i a v s) := by unfold execLcCmd; simp

@[simp] theorem isNext_execSplitReadLow (a : Acc) (bar : Bar) (r : ReadAt) (s : State) : IsNext (execSplitReadLow a bar r s) := by unfold execSplitReadLow; simp

@[simp] theorem isNext_execFltInject (_a : Acc) (h : Half) (s : State) : IsNext (execFltInject _a h s) := by unfold execFltInject; simp

/-- A register command answers a next state. -/
theorem isNext_actCmd (c : Instr) (s : State) : IsNext (actCmd c s) := by unfold actCmd; split <;> simp

theorem isNext_actCmds (l : List Instr) (s : State) : IsNext (actCmds l s) := isNext_foldl _ isNext_actCmd l _ (isNext_next s)

theorem isNext_badOp (s : State) (c : Instr) (a : Acc) (p : PageId) (off v : Nat) (o : Host.Outcome State Fault Refusal)
    (h : badOp s c a p off v = some o) : IsNext o := by
  unfold badOp at h
  repeat' split at h
  all_goals first
    | (simp only [reduceCtorEq] at h; done)
    | (simp only [Option.some.injEq] at h; subst h; simp)
    | (dsimp only at h; split at h <;> first | (simp only [reduceCtorEq] at h) | (simp only [Option.some.injEq] at h; subst h; simp))

theorem isNext_writeReg (s : State) (c : Instr) (a : Acc) (p : PageId) (r : RegRow) (off v : Nat) : IsNext (writeReg s c a p r off v) := by
  unfold writeReg
  split
  · exact isNext_badOp _ _ _ _ _ _ _ (by assumption)
  · split
    · exact isNext_done _ _
    · exact isNext_actCmds _ _
    · split <;> exact isNext_done _ _

theorem isNext_writeHalf (s : State) (c : Instr) (a : Acc) (p : PageId) (r : RegRow) (off : Nat) (high : Bool) (v : Nat) :
    IsNext (writeHalf s c a p r off high v) := by
  unfold writeHalf
  repeat' (first | exact isNext_actCmd _ _ | exact isNext_done _ _ | exact isNext_writeReg _ _ _ _ _ _ _ | split | (dsimp only; split))

theorem isNext_write4 (s : State) (c : Instr) (a : Acc) (p : PageId) (off v : Nat) : IsNext (write4 s c a p off v) := by
  unfold write4
  repeat' (first | exact isNext_done _ _ | exact isNext_writeReg _ _ _ _ _ _ _ | exact isNext_writeHalf _ _ _ _ _ _ _ _ | split)

theorem isNext_write8 (s : State) (c : Instr) (a : Acc) (p : PageId) (off v : Nat) : IsNext (write8 s c a p off v) := by
  have h : IsNext (thenDo (write4 s c a p off (v % 2 ^ 32)) fun s => write4 s c a p (off + 4) (v / 2 ^ 32)) :=
    isNext_thenDo (isNext_write4 _ _ _ _ _ _) fun _ => isNext_write4 _ _ _ _ _ _
  unfold write8
  dsimp only
  repeat' (first | exact h | exact isNext_writeReg _ _ _ _ _ _ _ | split)

theorem isNext_writeAll (c : Instr) (a : Acc) (p : PageId) (n : Nat) : ∀ (off : Nat) (bs : List Byte) (s : State), IsNext (writeAll c a p off n bs s) := by
  induction n with
  | zero => exact fun _ _ s => isNext_next s
  | succ n ih => exact fun off bs s => isNext_thenDo (isNext_write8 _ _ _ _ _ _) fun t => ih _ _ t

/-- A register write answers a next state (R56). -/
theorem isNext_registerWrite (c : Instr) (a : Acc) (bar4 : Bool) (off : Nat) (data : List Byte) (be : Bool) (s : State) :
    IsNext (registerWrite c a bar4 off data be s) := by
  unfold registerWrite
  repeat' (first | exact isNext_next _ | exact isNext_done _ _ | exact isNext_write4 _ _ _ _ _ _ | exact isNext_writeAll _ _ _ _ _ _ _ | split | (dsimp only; split))

theorem isNext_runHeld (h : HeldAcc) (s : State) : IsNext (runHeld h s) := by
  unfold runHeld
  split
  · exact isNext_registerWrite _ _ _ _ _ _ _
  · exact isNext_execSplitReadLow _ _ _ _
  · exact isNext_live _ _
  · exact isNext_actCmd _ _

theorem isNext_replayHeld (i : Nat) (s : State) : IsNext (replayHeld i s) := by
  unfold replayHeld
  dsimp only
  split
  · exact isNext_next _
  · exact isNext_thenDo (isNext_foldl _ isNext_runHeld _ _ (isNext_next _)) fun _ => isNext_next _

/-- What lets waiting writes act answers a next state (R69). -/
theorem isNext_withHeld {o : Host.Outcome State Fault Refusal} (h : IsNext o) : IsNext (withHeld o) :=
  isNext_thenDo (isNext_thenDo h (isNext_replayHeld 0)) (isNext_replayHeld 1)

end Sys2Proof.Machine
end

