-- ==== Sys2Proof/Laws/Gates.lean ====
section
/-! SUPPORT. What the gates of a meaning answer: with no reset held and the instance served, the meaning's effect and what follows
from it. -/
namespace Sys2Proof.Machine

@[simp] theorem State.Up.held {s : State} (h : s.Up) : s.held = false := by simp [State.held, h.1, h.2]

theorem live_up {s : State} (h : s.Up) (f : State → State) : live s f = .next (finish s (f s)) := by simp [live, h.held, done]

theorem aon_up {s : State} (h : s.Up) (f : State → State) : aon s f = .next (finish s (f s)) := by simp [aon, h.1, done]

theorem aon_por {s : State} (h : s.por = false) (f : State → State) : aon s f = .next (finish s (f s)) := by simp [aon, h, done]

theorem liveI_serves {s : State} {i : Nat} (h : s.Serves i) (f : State → State) : liveI s i f = .next (finish s (f s)) := by
  simp [liveI, live_up h.1, h.2]

/-- The work of a function that no commit holds. -/
theorem liveF_serves {s : State} {i : Nat} {ty : Pg} (h : s.Serves i) (hf : fnHeld s i ty = false) (f : State → State) :
    liveF s i ty f = .next (finish s (f s)) := by simp [liveF, liveI_serves h, hf]

theorem meets_free {s : State} {p : PageId} (h : s.Free p) (a : Acc) : meets s a p = .acts := by
  have : binder s p = none := h
  simp [meets, this]

theorem meetW_acts {s : State} {a : Acc} {p : PageId} (h : meets s a p = .acts) (c : Instr) (f : State → State) : meetW s a p c f = f s := by
  simp [meetW, h]

theorem meetW_foreign {s : State} {a : Acc} {p : PageId} (h : meets s a p = .foreign) (c : Instr) (f : State → State) :
    meetW s a p c f = foreignWrite s p := by simp [meetW, h]

theorem meetW_waits {s : State} {a : Acc} {p : PageId} (h : meets s a p = .waits) (c : Instr) (f : State → State) :
    meetW s a p c f = holdW s a p c := by simp [meetW, h]

theorem guardW_acts {s : State} {a : Acc} {p : PageId} (h : meets s a p = .acts) (c : Instr) (f : State → State) :
    guardW s a p c f = f (clearLatches s p) := meetW_acts h c _

theorem guardW_free {s : State} {p : PageId} (h : s.Free p) (a : Acc) (c : Instr) (f : State → State) :
    guardW s a p c f = f (clearLatches s p) := guardW_acts (meets_free h a) c f

theorem cmdI_acts {s : State} {i : Inst} {a : Acc} {p : PageId} (h : s.Serves i.val) (hp : meets s a p = .acts) (c : Instr) (f : State → State) :
    cmdI s i a p c f = .next (finish s (f (clearLatches s p))) := by simp [cmdI, liveI_serves h, guardW_acts hp]

theorem cmdI_serves {s : State} {i : Inst} {p : PageId} (h : s.Serves i.val) (hp : s.Free p) (a : Acc) (c : Instr) (f : State → State) :
    cmdI s i a p c f = .next (finish s (f (clearLatches s p))) := by simp [cmdI, liveI_serves h, guardW_free hp]

/-- A write that its page's state does not drop, on an unbound page. -/
theorem guardD_free {s : State} {p : PageId} (h : s.Free p) (a : Acc) (c : Instr) {drop : State → Bool} (hd : drop s = false)
    (f : State → State) : guardD s a p c drop f = f (clearLatches s p) := by
  simp [guardD, meetW_acts (meets_free h a), dropIf, hd]

/-- A command that its page's state does not drop, on an unbound page of an instance that is served. -/
theorem cmdD_serves {s : State} {i : Inst} {p : PageId} (h : s.Serves i.val) (hp : s.Free p) (a : Acc) (c : Instr) {drop : State → Bool}
    (hd : drop s = false) (f : State → State) : cmdD s i a p c drop f = .next (finish s (f (clearLatches s p))) := by
  simp [cmdD, liveI_serves h, guardD_free hp a c hd]

/-- What a step leads to ends with the pins at their levels, whatever it did (R43, R413, R431). -/
theorem finish_pins (old new : State) : (finish old new).PinsOk := by
  unfold finish drivePins State.PinsOk
  split <;> simp_all [State.held, faultLevel, alertLevel, thermLevel, spiLevel, drivenLevel, spiIoLevels, openDrain, State.r]

/-- A command that answers the state that follows from `t`. -/
theorem answers {c : Instr} {s t : State} {P : State → Prop} (h : exec c s = .next (finish s t)) (hp : P t) : Answers c s P :=
  ⟨t, _, h, .inl rfl, hp⟩

/-- A command after which waiting writes act. -/
theorem answers_held {c : Instr} {s t : State} {P : State → Prop} (h : exec c s = withHeld (.next (finish s t))) (hp : P t) : Answers c s P := by
  obtain ⟨u, hu⟩ := isNext_withHeld (isNext_next (finish s t))
  exact ⟨t, u, h.trans hu, .inr hu, hp⟩

end Sys2Proof.Machine
end

