-- ==== Sys2Proof/Laws/Tables.lean ====
section
/-! SUPPORT. Reading a table after a write, the two instances apart, and registers read after a write. -/
namespace Sys2Proof.Machine

/-! ### Tables -/

@[simp] theorem Tbl.find_put_same {α : Type} (t : Tbl α) (k : Nat) (v : α) : Tbl.find (Tbl.put t k v) k = some v := by
  induction t with
  | nil => simp [Tbl.put, Tbl.find]
  | cons e r ih =>
    obtain ⟨a, w⟩ := e
    simp only [Tbl.put]
    split
    · simp [Tbl.find]
    · split
      · simp [Tbl.find]
      · next h1 h2 => simp [Tbl.find, Ne.symm h2, ih]

theorem Tbl.find_put_ne {α : Type} (t : Tbl α) {k q : Nat} (v : α) (h : q ≠ k) : Tbl.find (Tbl.put t k v) q = Tbl.find t q := by
  induction t with
  | nil => simp [Tbl.put, Tbl.find, Ne.symm h]
  | cons e r ih =>
    obtain ⟨a, w⟩ := e
    simp only [Tbl.put]
    split
    · simp [Tbl.find, Ne.symm h]
    · split
      · next h1 h2 => subst h2; simp [Tbl.find, Ne.symm h]
      · simp [Tbl.find, ih]

theorem Tbl.find_del_ne {α : Type} (t : Tbl α) {k q : Nat} (h : q ≠ k) : Tbl.find (Tbl.del t k) q = Tbl.find t q := by
  induction t with
  | nil => rfl
  | cons e r ih =>
    obtain ⟨a, w⟩ := e
    simp only [Tbl.del] at ih
    by_cases ha : a = k
    · subst ha; simp [Tbl.del, Tbl.find, Ne.symm h, ih]
    · simp [Tbl.del, Tbl.find, ha, ih]

@[simp] theorem Tbl.find_del_same {α : Type} (t : Tbl α) (k : Nat) : Tbl.find (Tbl.del t k) k = none := by
  induction t with
  | nil => rfl
  | cons e r ih =>
    obtain ⟨a, w⟩ := e
    simp only [Tbl.del] at ih
    by_cases ha : a = k
    · subst ha; simp [Tbl.del, ih]
    · simp [Tbl.del, Tbl.find, ha, ih]

@[simp] theorem Tbl.getD_put_same {α : Type} (t : Tbl α) (k : Nat) (v d : α) : Tbl.getD (Tbl.put t k v) k d = v := by simp [Tbl.getD]

theorem Tbl.getD_put_ne {α : Type} (t : Tbl α) {k q : Nat} (v d : α) (h : q ≠ k) : Tbl.getD (Tbl.put t k v) q d = Tbl.getD t q d := by
  simp [Tbl.getD, Tbl.find_put_ne t v h]

@[simp] theorem Tbl.getD_upd_same {α : Type} (t : Tbl α) (k : Nat) (d : α) (f : α → α) : Tbl.getD (Tbl.upd t k d f) k d = f (Tbl.getD t k d) := by
  simp [Tbl.upd]

theorem Tbl.getD_upd_ne {α : Type} (t : Tbl α) {k q : Nat} (d d' : α) (f : α → α) (h : q ≠ k) :
    Tbl.getD (Tbl.upd t k d f) q d' = Tbl.getD t q d' := by simp [Tbl.upd, Tbl.getD_put_ne t _ _ h]

/-! ### Pairs -/

theorem Two.get_set_same {α : Type} (t : Two α) (i : Nat) (v : α) : (t.set i v).get i = v := by
  by_cases h : i = 0 <;> simp [Two.get, Two.set, h]

@[simp] theorem Two.get_upd_same {α : Type} (t : Two α) (i : Nat) (f : α → α) : (t.upd i f).get i = f (t.get i) := by
  simp [Two.upd, Two.get_set_same]

theorem Two.get_upd_other {α : Type} (t : Two α) {i j : Nat} (f : α → α) (h : (i = 0) ≠ (j = 0)) : (t.upd i f).get j = t.get j := by
  by_cases hi : i = 0 <;> by_cases hj : j = 0 <;> simp_all [Two.get, Two.set, Two.upd]

/-! ### Registers -/

theorem State.r_setR_same (s : State) (k v : Nat) : (s.setR k v).r k = v % 2 ^ 64 := by
  unfold State.r State.setR
  by_cases h : v % 2 ^ 64 = resetOf k
  · rw [if_pos h, Tbl.find_del_same, h]
  · rw [if_neg h, Tbl.find_put_same]; exact BitVec.toNat_ofNat _ _

theorem State.r_setR_ne (s : State) {k q : Nat} (v : Nat) (h : q ≠ k) : (s.setR k v).r q = s.r q := by
  unfold State.r State.setR
  by_cases h' : v % 2 ^ 64 = resetOf k
  · rw [if_pos h', Tbl.find_del_ne _ h]
  · rw [if_neg h', Tbl.find_put_ne _ _ h]

theorem State.r_setFld_ne (s : State) {k q : Nat} (lo w v : Nat) (h : q ≠ k) : (s.setFld k lo w v).r q = s.r q := s.r_setR_ne _ h
theorem State.r_setMask_ne (s : State) {k q : Nat} (m v : Nat) (h : q ≠ k) : (s.setMask k m v).r q = s.r q := s.r_setR_ne _ h
theorem State.r_orR_ne (s : State) {k q : Nat} (m : Nat) (h : q ≠ k) : (s.orR k m).r q = s.r q := s.r_setR_ne _ h
theorem State.r_bump_ne (s : State) {k q : Nat} (n : Nat) (h : q ≠ k) : (s.bump k n).r q = s.r q := s.r_setR_ne _ h
theorem State.r_satFld_ne (s : State) {k q : Nat} (lo w n : Nat) (h : q ≠ k) : (s.satFld k lo w n).r q = s.r q := s.r_setR_ne _ h
@[simp] theorem State.r_emit (s : State) (o : Out) (k : Nat) : (s.emit o).r k = s.r k := rfl

end Sys2Proof.Machine
end

