-- ==== Sys2Proof/Laws/Txn.lean ====
section
/-! SUPPORT. Transaction slots: what an update of one slot leaves, and what the end of a tag does (R67-R71). -/
namespace Sys2Proof.Machine

@[simp] theorem slotOf_updSlot_same (s : State) (i tag : Nat) (f : TxnSlot → TxnSlot) : slotOf (updSlot s i tag f) i tag = f (slotOf s i tag) := by
  simp [slotOf, updSlot]

theorem slotOf_txn {s t : State} (h : t.txn = s.txn) (i tag : Nat) : slotOf t i tag = slotOf s i tag := by simp [slotOf, h]

theorem foldl_setMask_txn (f : Nat → Nat) (m v : Nat) (l : List Nat) (s : State) :
    (l.foldl (fun s k => s.setMask (f k) m v) s).txn = s.txn := by
  induction l generalizing s with
  | nil => rfl
  | cons k r ih => simp [ih]

theorem foldl_setMask_r (f : Nat → Nat) (m v q : Nat) (l : List Nat) (h : ∀ k ∈ l, q ≠ f k) (s : State) :
    (l.foldl (fun s k => s.setMask (f k) m v) s).r q = s.r q := by
  induction l generalizing s with
  | nil => rfl
  | cons k r ih =>
    rw [List.foldl_cons, ih (fun j hj => h j (List.mem_cons_of_mem _ hj)), State.r_setMask_ne]
    exact h k (List.mem_cons_self ..)

/-- The registers an unbound tag leaves as they were: every one but PAGE_TXN of its pages. -/
theorem txnUnbind_r (s : State) (i tag q : Nat) (h : ∀ k ∈ (slotOf s i tag).pages, q ≠ k + 0x20) : (txnUnbind s i tag).r q = s.r q :=
  foldl_setMask_r (· + 0x20) (2 ^ 31) 0 q _ h s

@[simp] theorem slotOf_txnUnbind (s : State) (i tag : Nat) :
    slotOf (txnUnbind s i tag) i tag = { slotOf s i tag with pages := [], log := [], armed := false } := by
  have h := slotOf_updSlot_same ((slotOf s i tag).pages.foldl (fun s k => s.setMask (k + 0x20) (2 ^ 31) 0) s) i tag
    fun t => { t with pages := [], log := [], armed := false }
  rw [slotOf_txn (foldl_setMask_txn (· + 0x20) (2 ^ 31) 0 _ s)] at h
  simp only [slotOf] at h ⊢
  simp only [txnUnbind, Two.get_upd_same]
  exact h

@[simp] theorem slotOf_irq (s : State) (p : PageId) (n i tag : Nat) : slotOf (s.irq p n) i tag = slotOf s i tag := rfl

/-- The slot of a tag that ends without being applied (R67, R70, R71). -/
theorem slotOf_txnEnd (s : State) (i tag result : Nat) (fails : Bool) :
    slotOf (txnEnd s i tag result fails) i tag =
      { slotOf s i tag with pages := [], log := [], armed := false, st := .done,
                            result := if (slotOf s i tag).failed then (slotOf s i tag).result else result,
                            failed := (slotOf s i tag).failed || fails } := by
  simp [txnEnd]

/-- The registers that the end of a tag leaves as they were (R69). -/
theorem txnEnd_r (s : State) (i tag result q : Nat) (fails : Bool) (h : ∀ k ∈ (slotOf s i tag).pages, q ≠ k + 0x20)
    (hq : q ≠ (txnPage i).key + 0x18) : (txnEnd s i tag result fails).r q = s.r q := by
  unfold txnEnd State.irq
  rw [State.r_orR_ne _ _ hq]
  exact txnUnbind_r s i tag q h

end Sys2Proof.Machine
end

