-- ==== Sys2Proof/Tests/Slice0.lean ====
section
/-! SUPPORT. The model's own tests: for every statement with premises a state and operands that meet them; an ill-formed command for each
check; the manual's worked examples; and a few steps. -/
namespace Sys2Proof.Tests

open Sys2Proof.Machine

set_option linter.unusedVariables false

/-! ### Small states that meet the premises of the statements -/

/-- A machine with no reset held and nothing else changed since reset. -/
def tUp : State := { por := false }

/-- Tag 2 of instance 0 open for requester 0x4100 on port 1. -/
def tOpen : State := { tUp with txn := ⟨{ slots := [(2, { st := .opened, opener := ⟨false, 1, 0x4100⟩, armed := true })] }, {}⟩ }

/-- The same tag, with the page of channel 4 bound. -/
def tBound : State := { tUp with txn := ⟨{ slots := [(2, { st := .opened, opener := ⟨false, 1, 0x4100⟩, pages := [PageId.key ⟨.dma, 0, 4⟩] })] }, {}⟩ }

/-- The read latch of FLT holds a high half. -/
def tLatch : State := { tUp with rlatch := [(PageId.key ⟨.flt, 0, 0⟩, (0x40, 5))] }

/-- An entry of channel 4's CHAN_CFG, staged over its reset value. -/
def tEntry (v : Nat) : TxnEntry := ⟨PageId.key ⟨.dma, 0, 4⟩ + 0x40, 4, v, 0xFFFF1FF, resetOf (PageId.key ⟨.dma, 0, 4⟩ + 0x40) &&& 0xFFFF1FF⟩

/-- Tag 2 of instance 0 committing, with channel 4 bound and one entry. -/
def tStaged (v : Nat) : TxnSt :=
  { slots := [(2, { st := .committing, opener := ⟨false, 1, 0x4100⟩, pages := [PageId.key ⟨.dma, 0, 4⟩], log := [tEntry v] })], queue := [2] }

/-- max_reads 5 staged, the channel in a state. -/
def tCommit (st : ChSt) : State := { tUp with chans := [(4, { st })], txn := ⟨tStaged 0x50000, {}⟩ }

/-- The same, but the register has changed since. -/
def tConflict : State := (tCommit .idle).setR (PageId.key ⟨.dma, 0, 4⟩ + 0x40) 0x70000

/-- The same, with max_reads 0 staged. -/
def tInvalid : State := { tCommit .idle with txn := ⟨tStaged 1, {}⟩ }

/-- A commit of a tag that has failed. -/
def tFailed : State := { tUp with txn := ⟨{ slots := [(2, { st := .committing, failed := true, result := 0x11 })], queue := [2] }, {}⟩ }

/-- Port 0 UP. -/
def tPortUp : State := { tUp with ports := [(0, { link := .up, rate := 6, width := 16 })] }
/-- Port 0 retraining. -/
def tRetrain : State := { tUp with ports := [(0, { link := .retrain, rate := 6, width := 16 })] }
/-- Port 3 training. -/
def tTrain : State := { tUp with ports := [(3, { link := .training, perst := false })] }
/-- Port 2 under PERST. -/
def tPerst : State := { tUp with ports := [(2, { link := .reset, perst := true })] }
/-- Group 0 ABSENT with port 0 UP, its token 5 presented and a buffer of 4 MiB. -/
def tAbsent : State := { ((tPortUp.setR (xbarR 0x80) 5).setR (xbarR 0x98) 4096) with groups := [(0, { st := .absent, token := 5 })] }
/-- Group 0 ATTACHED with port 0 UP. -/
def tAttached : State := { tPortUp with groups := [(0, { st := .attached, token := 5 })] }
/-- A read of channel 4 on port 0. -/
def tRead : RUse := { owner := .chan 4, sp := 0, port := some 0, addr := 0x1000, len := 64, htag := 3 }
def tReads : State := { tAttached with pools := ⟨{ reads := [(3, tRead)] }, {}⟩ }
/-- An eviction under way. -/
def tEvict : HTxn := { key := lineKey 0 0x1000, work := .evict, cxl := some (0, 0) }
def tEvicting : State := { (tAttached.setR (hlcR 0 0x40) 1) with hlc := ⟨{ txns := [tEvict] }, {}⟩ }
/-- Queue 0 of instance 0. -/
def tQ (x : Queue) : State := tUp.setQ 0 0 x
/-- A context with small rings. -/
def tCtx : QCtx := { ringLog2 := 4, cqLog2 := 4, ringLoc := 1, cqLoc := 1, cqSeq := 2 }
/-- Queue 0 ENABLED. -/
def tQueue : State := tQ { ctx := { tCtx with tail := 2 }, mode := .enabled }
/-- A device unit of 64 MiB. -/
def tUnit : URec := { key := .da 0, base := 0, size := 2 ^ 26, kind := .hbm, tbase := 0, rd := true, wr := true, stamp := 0 }
/-- Queue 0 DISABLED, with a valid vector and its rings in a cached leaf of partition 0, whose home is instance 0. -/
def tEnable : State := { tQ { ctx := tCtx } with qm := ⟨{ ctxs := [(0, { ctx := tCtx })], vt := [(0, { valid := true })] }, {}⟩, sch := ⟨{ parts := [(0, { sites := 1, wbase := 0, wsize := 0 })] }, {}⟩, atu := ⟨{ tlb := [(0, [{ part := 0, base := 0, log2 := 26, hbm := 0, rd := true, wr := true, peer := false, count := false }])] }, {}⟩ }
/-- The same, the leaf not cached. -/
def tEnableMiss : State := { tEnable with atu := ⟨{}, {}⟩ }
/-- A commit holds the queue manager of instance 0. -/
def tQmHeld : State := { tUp with txn := ⟨{ slots := [(2, { st := .committing, opener := ⟨false, 1, 0x4100⟩, pages := [PageId.key ⟨.qm, 0, 0⟩] })], queue := [2] }, {}⟩ }
def tError : State := tQ { ctx := tCtx, mode := .enabled, conds := { error := true } }
def tHostWait : State := { tQ { ctx := tCtx, mode := .enabled, conds := { hostWait := true } } with groups := [(0, { st := .attached })] }
def tAhead : State := tQ { ctx := { tCtx with tail := 2 }, mode := .enabled, conds := { ahead := true }, poss := [{ pos := 0, fet := .parked }] }
/-- A raised page interrupt. -/
def tRaised : State := (tUp.setR (qmR 0 0 0x18) 1).setR (qmR 0 0 0x1C) 1
def tPendIrq : State := tQ { ctx := { tCtx with irqPending := 1, irqTimeUs := 5 }, mode := .enabled }
def tFetch : State := tQ { ctx := { tCtx with tail := 2 }, mode := .enabled, ring := some tUnit }
/-- 64 bytes with gen bit 1. -/
def tDesc : List Byte := [0x80] ++ List.replicate 63 0
def tReading : State := tQ { ctx := { tCtx with tail := 2 }, mode := .enabled, ring := some tUnit, poss := [{ pos := 0, fet := .inFlight }], ringRead := some (0, tUnit) }
def tBackoff : State := tQ { ctx := { tCtx with tail := 2, aheadTries := 1 }, mode := .enabled, ahead1 := true, poss := [{ pos := 0, fet := .backoff }] }
def tPending : State := tQ { ctx := { tCtx with tail := 2, kind := 1 }, mode := .enabled, poss := [{ pos := 0, fet := .whole, descs := [{ raw := List.replicate 64 0 }] }] }
def tPendingDma : State := tQ { ctx := { tCtx with tail := 2 }, mode := .enabled, poss := [{ pos := 0, fet := .whole, descs := [{ raw := List.replicate 64 0 }] }] }
def tPosRec : Pos := { pos := 0, ph := .ended, recs := [{ status := 0, user := 0, result := 0, time := 0 }] }
def tRecord : State := { tQ { ctx := { tCtx with tail := 2, cqLoc := 0 }, mode := .enabled, poss := [tPosRec] } with groups := [(0, { st := .absent })] }
def tDraining : State := tQ { ctx := tCtx, mode := .draining }
def tSigDesc : DescSt := { raw := [15] ++ List.replicate 63 0 }
def tSigPos : Pos := { pos := 0, ph := .started, fet := .whole, descs := [tSigDesc] }
def tSignal : State := tQ { ctx := { tCtx with tail := 2, kind := 1 }, mode := .enabled, poss := [tSigPos] }
/-- Channel 0 of instance 0 in a state of its own, with no job. -/
def tChan (ch : ChanRec) : State := { tUp with chans := [(0, ch)] }
def tChanOn (ch : ChanRec) : State := (tChan ch).setR (dmaR 0 8) 1
/-- A MEMCPY of one byte. -/
def tMove : List Byte := [1] ++ List.replicate 15 0 ++ [1] ++ List.replicate 47 0
def tMoveD : DescSt := { raw := tMove, ph := .ready, units := [tUnit] }
def tJobP : Pos := { pos := 0, ph := .started, fet := .whole, descs := [tMoveD], chan := some 0 }
/-- Queue 0 with one started job on channel 0. -/
def tJob (ch : ChanRec) : State := { tQ { ctx := { tCtx with tail := 1 }, mode := .enabled, poss := [tJobP] } with chans := [(0, { ch with queue := some 0 })] }
def tNopD : DescSt := { raw := [12] ++ List.replicate 63 0, ph := .ready }
def tNopP : Pos := { pos := 0, fet := .whole, descs := [tNopD] }
def tNop : State := tQ { ctx := { tCtx with tail := 1 }, mode := .enabled, poss := [tNopP] }
def tMoveP : Pos := { pos := 0, fet := .whole, descs := [tMoveD] }
/-- A job that waits, and channel 0 enabled and idle. -/
def tMoveS : State := { (tQ { ctx := { tCtx with tail := 1 }, mode := .enabled, poss := [tMoveP] }).setR (dmaR 0 8) 1 with chans := [(0, { st := .idle })] }
def tFailD : DescSt := { raw := tMove, ph := .failed 3 5 }
def tWr : Wr := { desc := 0, iter := 0, sp := 0, addr := 64, bytes := [7] }
def tRd : Rd := { op := 0, sp := 0, addr := 64, len := 4 }
def tUnitSt : UnitSt := { iter := 0, n := 1, rds := [tRd] }
def tUse : RUse := { owner := .chan 0, sp := 0, port := none, addr := 0, len := 4 }
def tWUse : WUse := { owner := .chan 0, port := none, sp := 0, addr := 64, taddr := 64, bytes := [7], unit := none }
def tPrg : Prg := { group := 0, pasid := none, chunk := 0, needR := true, needW := false, port := some 0, idx := 0 }
def tInv : Inv := { src := .cmd, scope := daAll 0, epoch := 1, sites := [] }
/-- One invalidation of partition 0 in progress. -/
def tInvS : State := { tUp with atu := ⟨{ epoch := 1, invs := [tInv] }, {}⟩ }
def tPrgT : Prg := { tPrg with timeout := 5 }
def tMissDa : Miss := { who := .ring 0, key := .da 0, iova := 0, sp := 0, addr := 0, needR := true, needW := false, data := false, part := 0 }
def tMissHost : Miss := { tMissDa with key := .host 0 none, sp := 1, data := true }
def tWalk : Walk := { part := 0, addr := 0, level := 3, table := 0x4000000 }
def tTreq : Treq := { group := 0, pasid := none, chunk := 0, needW := false, port := 0 }
/-- Group 0 attached through port 0, its cache port, and coherent on instance 0. -/
def tCxl (h : Hlc) : State := ({ tUp with ports := [(0, { link := .up, rate := 6, width := 16, cxl := true, cacheEn := true, ats := true })], groups := [(0, { st := .attached })], hlc := ⟨h, {}⟩ } : State).setR (hlcR 0 0x40) 1
def tLine : Line := { st := .m, data := List.replicate 64 5 }
def tLines : State := tCxl { lines := [(lineKey 0 0x1000, tLine)] }
def tOwned : State := tCxl { lines := [(lineKey 0 0x1000, { tLine with owner := some 2 })] }
def tReq : HlcReq := { src := .chan 3, kind := .read, group := 0, addr := 0x1000, left := 64, mode := 2, part := 0 }
def tFill : HTxn := { key := lineKey 0 0x1000, work := .access tReq, cxl := some (0, 1) }
/-- A window leaf of host space 0 under partition 0 with an entry of site 0's table. -/
def tSptEnt : SptEnt := { part := 0, base := 2 ^ 50, size := 2 ^ 21, kind := .hlc, tbase := 0, rd := true, wr := true }
def tStHost : State :=
  { (tCxl {}).setR (atuR 0 1 0x800) 0x1517 with spt := [(0, [tSptEnt])], sch := ⟨{ parts := [(0, { sites := 1, wbase := 0, wsize := 1 })] }, {}⟩ }
def tRing : Ring := { op := 0, tag := 7, sites := [0] }
def tRung : HTxn := { key := lineKey 0 0x1000, work := .evict, ring := some tRing }
def tRinging : State := { tCxl { lines := [(lineKey 0 0x1000, { tLine with owner := some 0 })], txns := [tRung] } with sites := [(0, { st := .up })] }
/-- A ring of site 0, which has a coherent window. -/
def tRingS : State := { tCxl { lines := [(lineKey 0 0x1000, tLine)] } with sites := [(0, { st := .up, cred := (4, 4) })], spt := [(0, [tSptEnt])] }
def tRingO : State := { tCxl { lines := [(lineKey 0 0x1000, { tLine with owner := some 0 })] } with sites := [(0, { st := .up, cred := (4, 4) })], spt := [(0, [tSptEnt])] }
/-- With the translation of the window's first page at hand. -/
def tStAtc : State := { tStHost with atu := ⟨{ atc := [(0, [{ group := 0, pasid := none, base := 0, log2 := 21, tbase := 0, rd := true, wr := true, global := false }])] }, {}⟩ }
def tCmd : Cmd := { src := .run 0 0, part := 0, tag := 0, cls := 0, lc := false, prog := 0, progKib := 1, args := 0, argsKib := 0, engines := 1, words := [], bound := 0, st := .running, site := 0, slot := 3 }
def tRunP : Pos := { pos := 0, ph := .started, fet := .whole, descs := [{ raw := [0x30] ++ List.replicate 63 0 }] }
def tPart : PartRec := { sites := 1, wbase := 0, wsize := 64 }
/-- Job 5 of partition 0 on site 0, whose link is UP. -/
def tOnSite (c : Cmd) : State :=
  { tQ { ctx := { tCtx with tail := 1, kind := 1 }, mode := .enabled, poss := [tRunP] } with sites := [(0, { st := .up, cred := (4, 4) })], sch := ⟨{ parts := [(0, tPart)], cmds := [(5, c)] }, {}⟩ }
/-- Site 0 in a state of its link. -/
def tSite (x : SiteRec) : State := { tUp with sites := [(0, x)] }
def tGrantTask : Task := { what := .none, sent := true, acts := [(0, .grant 1 0 0)] }
def tGranting : State := { tSite { st := .up, cred := (4, 4), wins := [(1, ⟨0, 1, 1, 0, false, false⟩)] } with sch := ⟨{ tasks := [tGrantTask] }, {}⟩ }
def tReadyP : Pos := { pos := 0, fet := .whole, descs := [{ raw := [0x30] ++ List.replicate 63 0, ph := .ready }] }
/-- A RUN that is ready, and site 0 with engines, slots and windows. -/
def tReady : State :=
  ({ tQ { ctx := { tCtx with tail := 1, kind := 1 }, mode := .enabled, poss := [tReadyP] } with sites := [(0, { st := .up, cred := (4, 4) })], sch := ⟨{ parts := [(0, tPart)] }, {}⟩ } : State).setR (stpR 0 0x88) 0x40008
def tCand : Cand := ⟨0, { tCmd with st := .placing, slot := 0, progKib := 0, engines := 0, words := [0, 0, 0, 0, 0, 0, 0, 0] }, 0xFFF⟩
def tHnd : Hnd := { part := 0, size := 1, host := false, hostDa := 0, st := 1, slot := some 0 }
/-- Handle 7 defined in partition 0. -/
def tDir (d : Hnd) : State := ({ tUp with sch := ⟨{ parts := [(0, tPart)], dir := [(7, d)] }, {}⟩, sites := [(0, { st := .up, cred := (4, 4), wins := [(1, ⟨0, 1, 1, 0, true, false⟩)] })] } : State).setR (schR 0 1 0x48) 7
def tBar : Barrier := { part := 0, id := 3, members := 2, jobs := [] }
def tLcCand : Cand := ⟨0, { tCmd with st := .placing, slot := 0, progKib := 0, engines := 8, words := [0, 0, 0, 0, 0, 0, 0, 0], lc := true }, 0xFFF⟩
/-- An LC command that needs all engines, which a BE command holds. -/
def tLc : State :=
  ({ tQ { ctx := { tCtx with tail := 1, kind := 1, cls := 1 }, mode := .enabled, poss := [{ tReadyP with descs := [{ raw := [0x30] ++ List.replicate 27 0 ++ [8] ++ List.replicate 35 0, ph := .ready }] }] } with sites := [(0, { st := .up, cred := (4, 4) })], sch := ⟨{ parts := [(0, tPart)], cmds := [(5, { tCmd with engines := 8, src := .run 1 0 })] }, {}⟩ } : State).setR (stpR 0 0x88) 0x40008
def tPool : PoolRec := { part := 0, base := 0, log2 := 16, btoks := 16, blocks := 8, btDa := 2 ^ 30, btLog2 := 4, tabLog2 := 4, reserve := 0, next := 1, tnext := 1, low := 8 }
/-- Ensemble 0 of partition 0, its pool 0 and one sequence. -/
def tEns (e : EnsRec) (l : Tbl SeqRec) : State :=
  ((({ tUp with sch := ⟨{ parts := [(0, tPart)] }, {}⟩, ens := ⟨{ recs := [(0, e)], seqs := l, pools := [(0, tPool)] }, {}⟩ } : State).setR (ensR 0 0x400) 0x100).setR (ensR 0 0x404) 0x40040).setR (ensR 0 0x428) 0x10001 |>.setR (ensR 0 0x418) 0x800004
def tSeq : SeqRec := { part := 0, q := 0, pos := 0, prompt := 64, ptoks := 4, maxNew := 4, out := 128, params := 0, user := 0, lc := false, st := .decode, gen := 1, cached := 4, blocks := [0], table := some 0 }
def tSeqP : Pos := { pos := 0, fet := .whole, descs := [{ raw := [0x40] ++ List.replicate 63 0, ph := .ready }] }
def tIntake : State := { tQ { ctx := { tCtx with tail := 1, kind := 2 }, mode := .enabled, poss := [tSeqP] } with ens := ⟨{ recs := [(0, { st := 1 })] }, {}⟩ }
/-- VD 1 of instance 0, selected on the VDM page. -/
def tVd (r : VdRec) : State := ({ tUp with sch := ⟨{ parts := [(0, tPart)] }, {}⟩, vdm := ⟨[(1, r)], {}⟩ } : State).setR (vdmR 0 0x40) 1
def tVdR : VdRec := { st := .active, cfg0 := 0x100000100, cfg1 := 0x100000000, cfg2 := 0x100000000, cfg3 := 0 }
def tVdNew : State := ((((tVd {}).setR (vdmR 0 0x50) 0x100000100).setR (vdmR 0 0x58) 0x100000000).setR (vdmR 0 0x60) 0x100000000)
/-- A DOWN VD that owns nothing, with a buffer of 1 KiB. -/
def tVdDown : State := (tVd { st := .down, need := 128 }).setR (vdmR 0 0x84) 1
/-- An image of a VD that owns nothing, with its CRC. -/
def tImg : List Byte := [1, 0, 42, 13, 1, 0, 1, 0, 128] ++ List.replicate 47 0 ++ [134, 190, 12, 42, 166, 67, 49, 90] ++ List.replicate 64 0
theorem tCrc0 : [1, 0, 42, 13, 1, 0, 1, 0].foldl crcByte 0 = 10323624138341098341 := by decide +kernel
theorem tCrc1 : [128, 0, 0, 0, 0, 0, 0, 0].foldl crcByte 10323624138341098341 = 15515160418698475206 := by decide +kernel
theorem tCrc2 : [0, 0, 0, 0, 0, 0, 0, 0].foldl crcByte 15515160418698475206 = 12432162700852730141 := by decide +kernel
theorem tCrc3 : [0, 0, 0, 0, 0, 0, 0, 0].foldl crcByte 12432162700852730141 = 2928983486715945153 := by decide +kernel
theorem tCrc4 : [0, 0, 0, 0, 0, 0, 0, 0].foldl crcByte 2928983486715945153 = 3347322092771258118 := by decide +kernel
theorem tCrc5 : [0, 0, 0, 0, 0, 0, 0, 0].foldl crcByte 3347322092771258118 = 13935115830815301417 := by decide +kernel
theorem tCrc6 : [0, 0, 0, 0, 0, 0, 0, 0].foldl crcByte 13935115830815301417 = 16313841713592384481 := by decide +kernel
theorem tCrc7 : [0, 0, 0, 0, 0, 0, 0, 0].foldl crcByte 16313841713592384481 = 11268288691738188829 := by decide +kernel
theorem tCrc8 : [0, 0, 0, 0, 0, 0, 0, 0].foldl crcByte 11268288691738188829 = 9663718899619105359 := by decide +kernel
theorem tCrc9 : [0, 0, 0, 0, 0, 0, 0, 0].foldl crcByte 9663718899619105359 = 1781100706422206689 := by decide +kernel
theorem tCrc10 : [0, 0, 0, 0, 0, 0, 0, 0].foldl crcByte 1781100706422206689 = 11860670726234848075 := by decide +kernel
theorem tCrc11 : [0, 0, 0, 0, 0, 0, 0, 0].foldl crcByte 11860670726234848075 = 5779650054859824602 := by decide +kernel
theorem tCrc12 : [0, 0, 0, 0, 0, 0, 0, 0].foldl crcByte 5779650054859824602 = 8570221317491749215 := by decide +kernel
theorem tCrc13 : [0, 0, 0, 0, 0, 0, 0, 0].foldl crcByte 8570221317491749215 = 6187252189062636020 := by decide +kernel
theorem tCrc14 : [0, 0, 0, 0, 0, 0, 0, 0].foldl crcByte 6187252189062636020 = 14163903520427721750 := by decide +kernel
theorem tCrc15 : [0, 0, 0, 0, 0, 0, 0, 0].foldl crcByte 14163903520427721750 = 6499050118221446790 := by decide +kernel
theorem tImg_split : tImg.take 0x38 ++ List.replicate 8 0 ++ tImg.drop 0x40 =
    [1, 0, 42, 13, 1, 0, 1, 0] ++ ([128, 0, 0, 0, 0, 0, 0, 0] ++ ([0, 0, 0, 0, 0, 0, 0, 0] ++ ([0, 0, 0, 0, 0, 0, 0, 0] ++ ([0, 0, 0, 0, 0, 0, 0, 0] ++ ([0, 0, 0, 0, 0, 0, 0, 0] ++ ([0, 0, 0, 0, 0, 0, 0, 0] ++ ([0, 0, 0, 0, 0, 0, 0, 0] ++ ([0, 0, 0, 0, 0, 0, 0, 0] ++ ([0, 0, 0, 0, 0, 0, 0, 0] ++ ([0, 0, 0, 0, 0, 0, 0, 0] ++ ([0, 0, 0, 0, 0, 0, 0, 0] ++ ([0, 0, 0, 0, 0, 0, 0, 0] ++ ([0, 0, 0, 0, 0, 0, 0, 0] ++ ([0, 0, 0, 0, 0, 0, 0, 0] ++ ([0, 0, 0, 0, 0, 0, 0, 0]))))))))))))))) := by decide
theorem tImg_crc : crc64 (tImg.take 0x38 ++ List.replicate 8 0 ++ tImg.drop 0x40) = fieldAt tImg 0x38 8 := by
  rw [tImg_split]
  simp only [crc64, List.foldl_append, tCrc0, tCrc1, tCrc2, tCrc3, tCrc4, tCrc5, tCrc6, tCrc7, tCrc8, tCrc9, tCrc10, tCrc11, tCrc12, tCrc13, tCrc14, tCrc15]
  decide
/-- The same image with 65,537 sequences. -/
def tImgS : List Byte := [1, 0, 42, 13, 1, 0, 1, 0, 128] ++ List.replicate 23 0 ++ [1, 0, 1] ++ List.replicate 21 0 ++ [14, 16, 16, 251, 24, 195, 133, 218] ++ List.replicate 64 0
theorem tCrcS4 : [1, 0, 1, 0, 0, 0, 0, 0].foldl crcByte 2928983486715945153 = 12984276248624507386 := by decide +kernel
theorem tCrcS5 : [0, 0, 0, 0, 0, 0, 0, 0].foldl crcByte 12984276248624507386 = 6162535067554637889 := by decide +kernel
theorem tCrcS6 : [0, 0, 0, 0, 0, 0, 0, 0].foldl crcByte 6162535067554637889 = 10004299883375110412 := by decide +kernel
theorem tCrcS7 : [0, 0, 0, 0, 0, 0, 0, 0].foldl crcByte 10004299883375110412 = 2764189140327348396 := by decide +kernel
theorem tCrcS8 : [0, 0, 0, 0, 0, 0, 0, 0].foldl crcByte 2764189140327348396 = 16435790245547498899 := by decide +kernel
theorem tCrcS9 : [0, 0, 0, 0, 0, 0, 0, 0].foldl crcByte 16435790245547498899 = 18397781180095568711 := by decide +kernel
theorem tCrcS10 : [0, 0, 0, 0, 0, 0, 0, 0].foldl crcByte 18397781180095568711 = 12272705536755664436 := by decide +kernel
theorem tCrcS11 : [0, 0, 0, 0, 0, 0, 0, 0].foldl crcByte 12272705536755664436 = 11938074624774050438 := by decide +kernel
theorem tCrcS12 : [0, 0, 0, 0, 0, 0, 0, 0].foldl crcByte 11938074624774050438 = 17996444697592899083 := by decide +kernel
theorem tCrcS13 : [0, 0, 0, 0, 0, 0, 0, 0].foldl crcByte 17996444697592899083 = 11069561269675177877 := by decide +kernel
theorem tCrcS14 : [0, 0, 0, 0, 0, 0, 0, 0].foldl crcByte 11069561269675177877 = 15706575505598193347 := by decide +kernel
theorem tCrcS15 : [0, 0, 0, 0, 0, 0, 0, 0].foldl crcByte 15706575505598193347 = 15746206184229572622 := by decide +kernel
theorem tImgS_split : tImgS.take 0x38 ++ List.replicate 8 0 ++ tImgS.drop 0x40 =
    [1, 0, 42, 13, 1, 0, 1, 0] ++ ([128, 0, 0, 0, 0, 0, 0, 0] ++ ([0, 0, 0, 0, 0, 0, 0, 0] ++ ([0, 0, 0, 0, 0, 0, 0, 0] ++ ([1, 0, 1, 0, 0, 0, 0, 0] ++ ([0, 0, 0, 0, 0, 0, 0, 0] ++ ([0, 0, 0, 0, 0, 0, 0, 0] ++ ([0, 0, 0, 0, 0, 0, 0, 0] ++ ([0, 0, 0, 0, 0, 0, 0, 0] ++ ([0, 0, 0, 0, 0, 0, 0, 0] ++ ([0, 0, 0, 0, 0, 0, 0, 0] ++ ([0, 0, 0, 0, 0, 0, 0, 0] ++ ([0, 0, 0, 0, 0, 0, 0, 0] ++ ([0, 0, 0, 0, 0, 0, 0, 0] ++ ([0, 0, 0, 0, 0, 0, 0, 0] ++ ([0, 0, 0, 0, 0, 0, 0, 0]))))))))))))))) := by decide
theorem tImgS_crc : crc64 (tImgS.take 0x38 ++ List.replicate 8 0 ++ tImgS.drop 0x40) = fieldAt tImgS 0x38 8 := by
  rw [tImgS_split]
  simp only [crc64, List.foldl_append, tCrc0, tCrc1, tCrc2, tCrc3, tCrcS4, tCrcS5, tCrcS6, tCrcS7, tCrcS8, tCrcS9, tCrcS10, tCrcS11, tCrcS12, tCrcS13, tCrcS14, tCrcS15]
  decide
/-- The sideband sets the budget. -/
def tSide : State := { tUp with boot := { addr := some 0x20 } }.setFld (pwrR 0x40) 8 1 0

/-- SBD with an address. -/
def tBmc : State := { tUp with boot := { addr := some 0x20 } }
/-- A pool of packages 0 and 1 with shares of 1,000 W. -/
def tPoolOn : State := { (tUp.setR (pwrR 0x200) 0x01000301).setR (pwrR 0x204) 2000 with lev := { shares := [1000, 1000], total := 2000, pending := true } }
def tMsg (m l o : Nat) : PoolMsg := ⟨0, m, 1000, 2000, [l, 0, 0, 0, 0, 0, 0, 0].rotate (8 - m), 5, o, false⟩
/-- Rail 0 measures site 0 through IMON input 0. -/
def tRail : State := tUp.setR (pwrR 0x100) 0x6410000003
/-- An incident of source 36 that waits for its acknowledgement. -/
def tInc : State :=
  { ((tUp.setR (fltR 0x40) (2 ^ 36)).setR (fltR 0x6C) 0x10007).setR (fltR 0x68) 0 with flt := { grace := true } }
def tReport : ErrReport := ⟨0, 0, 3, 1, 64, 5, .none⟩
/-- A PROTECTED pair. -/
def tPair : State := { tUp with mir := ⟨{ pair := .prot }, { pair := .prot }⟩ }
/-- Instance 0 serves for instance 1, which is in STANDBY. -/
def tUnder : State := { tUp with mir := ⟨{ pair := .serving, inst := .serving }, { pair := .standby, inst := .resetting, takenOver := true, fenced := true }⟩ }
/-- Instance 1 returns the work of instance 0 in a REJOIN. -/
def tGoBack : State := { tUp with mir := ⟨{ pair := .syncing, inst := .resetting, takenOver := true, fenced := true, handover := true }, { pair := .syncing, inst := .serving, rejoin := true }⟩ }
/-- A power master, and port 0's mailbox after its negotiation. -/
def tNeg : State := { tUp with trust := { boxes := [(0, 3)] } }
/-- With a secure session 1 of that mailbox. -/
def tSess : State := { tUp with trust := { boxes := [(0, 3)], sessions := [(1, ⟨0, true⟩)] } }
/-- The flash answers. -/
def tFlash : State := { tUp with nv := { tUp.nv with present := true } }
def tImage : ImageIn := ⟨.ok, true, 1, 1024, 1, 0x01000000, 0, 0, true, true, 9⟩
def tImg1 : Image := ⟨0x01000000, 0, 9⟩

/-! ### Witnesses -/

theorem witness_RegisterWriteTakesEffect :
    (tUp.Up) ∧
    (locate tUp false 0x1000044 = some ⟨.hpc, 0, 0⟩ ∧ dropsWrites tUp ⟨.hpc, 0, 0⟩ = false ∧ goodAccess 0x44 2 true = false) ∧
    (locate tBound false 0x104044 = some ⟨.dma, 0, 4⟩ ∧ dropsWrites tBound ⟨.dma, 0, 4⟩ = false ∧ goodAccess 0x44 4 true = true ∧
      (binder tBound (homePage tBound ⟨.dma, 0, 4⟩)).map (fun e => e.2.openedBy ⟨false, 0, 7⟩) = some false) := by
  decide

theorem witness_RegisterReadAnswers :
    (locate tUp false 0x1005040 = some ⟨.flt, 0, 0⟩ ∧ dropsWrites tUp ⟨.flt, 0, 0⟩ = false ∧ readWaits tUp ⟨false, 0, 7⟩ ⟨.flt, 0, 0⟩ = false ∧
      (regAt (homePage tUp ⟨.flt, 0, 0⟩) 0x40).map (fun e => (e.1.w, e.2)) = some (8, 0x40)) ∧
    ((regAt (homePage tLatch ⟨.flt, 0, 0⟩) 0x44).map (fun e => (e.1.w, e.2)) = some (8, 0x40) ∧
      Tbl.find tLatch.rlatch (homePage tLatch ⟨.flt, 0, 0⟩).key = some (0x40, 5)) ∧
    goodAccess 0x44 2 true = false ∧ goodAccess 0x40 0 true = false ∧ goodAccess 0x38 16 true = false ∧
    (let s := holdAcc tUp 0 0 (some (PageId.key ⟨.dma, 0, 4⟩)) (.splitReadLow ⟨false, 0, 7⟩ .bar0 ⟨0, 4, true⟩)
     locate s false 0x104044 = some ⟨.dma, 0, 4⟩ ∧ dropsWrites s ⟨.dma, 0, 4⟩ = false ∧ readWaits s ⟨false, 0, 7⟩ (homePage s ⟨.dma, 0, 4⟩) = true) ∧
    locate tUp false 0x1009000 = none := by
  decide

theorem witness_TransactionsOpenAndBind :
    (tUp.Up ∧ server tUp 0 = some 0 ∧ (slotOf tUp 0 1).st = .free ∧ (slotOf tUp 0 8).st = .free) ∧
    ((slotOf tOpen 0 2).st = .opened ∧ (slotOf tOpen 0 2).openedBy ⟨false, 1, 0x4100⟩ = true ∧ (slotOf tOpen 0 2).failed = false ∧
      (slotOf tOpen 0 2).pages.length < 64 ∧ instPageAt 0x104 = some (.dma, 4) ∧ (binder tOpen ⟨.dma, 0, 4⟩).isNone) := by
  decide

theorem witness_TransactionsEndUnapplied :
    ((slotOf tOpen 0 2).st = .opened ∧ (slotOf tOpen 0 2).openedBy ⟨false, 1, 0x4100⟩ = true ∧ (slotOf tOpen 0 2).armed = true ∧ tOpen.Serves 0) ∧
    ((tCommit .running).Serves 0 ∧ ((tCommit .running).txn.get 0).queue = [2] ∧ (slotOf (tCommit .running) 0 2).failed = false ∧
      (slotOf (tCommit .running) 0 2).pageIds.all (safePoint (tCommit .running)) = false) := by
  decide

theorem witness_CommitChecksThenApplies :
    let s := tCommit .idle
    (s.Serves 0 ∧ (s.txn.get 0).queue = [2] ∧ (slotOf s 0 2).failed = false ∧ (slotOf s 0 2).pageIds.all (safePoint s) = true ∧
      (slotOf s 0 2).log.find? (changed s) = none ∧ ((slotOf s 0 2).log.find? fun e => !entryOk s e) = none) ∧
    ((slotOf tConflict 0 2).log.find? (changed tConflict)).isSome ∧
    ((slotOf tInvalid 0 2).log.find? (changed tInvalid) = none ∧ ((slotOf tInvalid 0 2).log.find? fun e => !entryOk tInvalid e).isSome) ∧
    ((tFailed.txn.get 0).queue = [2] ∧ (slotOf tFailed 0 2).failed = true ∧ tFailed.Serves 0) := by
  decide

theorem witness_PortLinkEvents :
    (∃ (p : Port) (s : State), s.Up ∧ ((s.port p.val).link = .up ∨ (s.port p.val).link = .flr)) ∧
    (∃ (p : Port) (s : State), s.Up ∧ (s.port p.val).link = .retrain) ∧
    (∃ (p : Port) (rate : Fin 8) (width : Fin 17) (cxl : Bool) (s : State), s.Up ∧ ((s.port p.val).link = .down ∨ (s.port p.val).link = .training) ∧ (s.port p.val).perst = false ∧ rate ≠ 0 ∧ width ∈ [1, 2, 4, 8, 16]) ∧
    (∃ (p : Port) (s : State), s.Up ∧ (s.port p.val).perst = true) ∧
    (∃ (p : Port) (c : PortFn) (s : State), s.Up ∧ ((s.port p.val).link = .up ∨ (s.port p.val).link = .retrain ∨ (s.port p.val).link = .flr) ∧ cachePort s (groupOf s p.val) ≠ some p.val) ∧
    (∃ (p : Port) (v : W64) (s : State), s.Up ∧ ptmPort s = some p.val) :=
  ⟨⟨0, tPortUp, by decide⟩,
   ⟨0, tRetrain, by decide⟩,
   ⟨3, 6, 16, true, tTrain, by decide⟩,
   ⟨2, tPerst, by decide⟩,
   ⟨0, ⟨true, true, false, true, true, false, false, true, true, true, false, 0, 256, 512, 64⟩, tPortUp, by decide⟩,
   ⟨0, 7, tPortUp, by decide⟩⟩

theorem witness_PortsLeaveUp :
    (∃ (p : Port) (un : BitVec 8) (s : State), s.Up ∧ (s.port p.val).link = .retrain) ∧
    (∃ (p : Port) (un : BitVec 8) (s : State), s.Up ∧ ((s.port p.val).link = .up ∨ (s.port p.val).link = .retrain ∨ (s.port p.val).link = .flr)) ∧
    (∃ (p : Port) (un : BitVec 8) (s : State), s.Up ∧ (s.port p.val).perst = false) ∧
    (∃ (p : Port) (s : State), s.Up ∧ ((s.port p.val).link = .up ∨ (s.port p.val).link = .retrain ∨ (s.port p.val).link = .flr)) ∧
    (∃ (p : Port) (s : State), s.Up ∧ ((s.port p.val).link = .up ∨ (s.port p.val).link = .retrain ∨ (s.port p.val).link = .flr)) :=
  ⟨⟨0, 0, tRetrain, by decide⟩,
   ⟨0, 0, tPortUp, by decide⟩,
   ⟨0, 0, tPortUp, by decide⟩,
   ⟨0, tPortUp, by decide⟩,
   ⟨0, tPortUp, by decide⟩⟩

theorem witness_PresenceCommandsAct :
    (∃ (a : Acc) (g : Group) (s : State), s.Up ∧ s.fld (xbarR 0x8C) 0 1 = 0 ∧ a.cp = false ∧ groupOf s a.port.val = g.val ∧ portUp s a.port.val = true ∧ (s.group g.val).st = .detached) ∧
    (∃ (a : Acc) (g : Group) (s : State), s.Up ∧ s.fld (xbarR 0x8C) 0 1 = 0 ∧ a.cp = false ∧ groupOf s a.port.val = g.val ∧ portUp s a.port.val = true ∧ (s.group g.val).st = .absent ∧ (s.group g.val).locked = false ∧ s.r (xbarR 0x80) = (s.group g.val).token.toNat ∧ jrnlFill s 0 + jrnlFill s 1 + 2 ^ 20 ≤ s.r (xbarR 0x98) * 1024) ∧
    (∃ (a : Acc) (g : Group) (s : State), s.Up ∧ s.fld (xbarR 0x8C) 0 1 = 0 ∧ a.cp = false ∧ groupOf s a.port.val = g.val ∧ portUp s a.port.val = true ∧ (s.group g.val).st = .absent ∧ (s.group g.val).locked = false ∧ s.r (xbarR 0x80) ≠ (s.group g.val).token.toNat) ∧
    (∃ (a : Acc) (g : Group) (s : State), s.Up ∧ s.fld (xbarR 0x8C) 0 1 = 0 ∧ a.cp = false ∧ groupOf s a.port.val = g.val ∧ portUp s a.port.val = true ∧ (s.group g.val).st = .absent) ∧
    (∃ (a : Acc) (g : Group) (s : State), s.Up ∧ s.fld (xbarR 0x8C) 0 1 = 0 ∧ a.cp = false ∧ groupOf s a.port.val = g.val ∧ portUp s a.port.val = true ∧ (s.group g.val).st = .attached) ∧
    (∃ (a : Acc) (g : Group) (s : State), s.Up ∧ s.fld (xbarR 0x8C) 0 1 = 0 ∧ a.cp = false ∧ groupOf s a.port.val = g.val ∧ portUp s a.port.val = true ∧ (s.group g.val).st = .attached ∧ queuesOfGroup s 0 g.val = [] ∧ queuesOfGroup s 1 g.val = []) ∧
    (∃ (g : Group) (s : State), s.Up ∧ s.r (xbarR 0x5C) ≠ 0 ∧ (s.group g.val).st = .absent) :=
  ⟨⟨⟨false, 0, 0⟩, 0, tPortUp, by decide⟩,
   ⟨⟨false, 0, 0⟩, 0, tAbsent, by decide⟩,
   ⟨⟨false, 0, 0⟩, 0, tAbsent.setR (xbarR 0x80) 6, by decide⟩,
   ⟨⟨false, 0, 0⟩, 0, tAbsent, by decide⟩,
   ⟨⟨false, 0, 0⟩, 0, tAttached, by decide⟩,
   ⟨⟨false, 0, 0⟩, 0, tAttached, by decide⟩,
   ⟨0, tAbsent.setR (xbarR 0x5C) 9, by decide⟩⟩

theorem witness_PortAndJournalConfiguration :
    (∃ (n : Port) (a : Acc) (v : W32) (s : State), s.Up ∧ bits (s.r (xbarR (0x40 + 4 * n.val))) 4 2 = bits v.toNat 4 2 ∧ bits (s.r (xbarR (0x40 + 4 * n.val))) 0 2 ≠ bits v.toNat 0 2 ∧ (s.group (bits (s.r (xbarR (0x40 + 4 * n.val))) 0 2)).st = .detached ∧ (s.group (bits v.toNat 0 2)).st = .detached) ∧
    (∃ (i : Inst) (a : Acc) (v : W64) (s : State), s.Up ∧ (s.jrnl.get i.val).recs = [] ∧ (s.jrnl.get i.val).waiting = []) ∧
    (∃ (i : Inst) (a : Acc) (v : W64) (s : State), s.Up ∧ (s.jrnl.get i.val).recs = [] ∧ (s.jrnl.get i.val).waiting = [] ∧ bits v.toNat 0 16 % 64 = 0 ∧ 64 ≤ bits v.toNat 0 16 ∧ bits v.toNat 0 16 ≤ 2048) ∧
    (∃ (c : CopySt) (s : State), s.Up ∧ s.copy = some c ∧ copyLeft s c = [] ∧ c.ports = [] ∧ (s.jrnl.get 0).waiting = [] ∧ (s.jrnl.get 1).waiting = []) ∧
    (∃ (c : CopySt) (s : State), s.Up ∧ s.copy = some c) ∧
    (∃ (p : Port) (th : BitVec 4) (tl : BitVec 10) (i n : Nat) (u v : RUse) (c : Nat) (s : State), s.Up ∧ readByTag s p.val (th ++ tl).toNat = some (i, n, u) ∧ (s.port p.val).ctoOff = false ∧ u.owner = .chan c ∧ Tbl.find ((groupTimeout ((s.setR (hpcR p.val 0x4C) (satAdd 32 (s.r (hpcR p.val 0x4C)) 1)).irq (hpcPage p.val) 22) (groupOf s p.val)).pool i).reads n = some v) ∧
    (∃ (g : Group) (hpa : W64) (i : Nat) (x : HTxn) (s : State), s.Up ∧ goTxn s (lineKey g.val hpa.toNat) = some (i, x) ∧ (x.cxl.any fun c => (s.port c.1).ctoOff) = false ∧ x.work = .evict) :=
  ⟨⟨1, ⟨true, 0, 0⟩, 0x33, tUp, by decide⟩,
   ⟨0, ⟨true, 0, 0⟩, 0x40000000, tUp, by decide⟩,
   ⟨0, ⟨true, 0, 0⟩, 2048, tUp, by decide⟩,
   ⟨{ group := 0 }, { tAbsent with copy := some { group := 0 } }, by decide⟩,
   ⟨{ group := 0 }, { tAbsent with copy := some { group := 0 } }, by decide⟩,
   ⟨0, 0, 3, 0, 3, tRead, tRead, 4, tReads, by decide⟩,
   ⟨0, 0x1000, 0, tEvict, tEvicting, by decide⟩⟩

theorem witness_DoorbellsReachTheirQueue :
    (∃ (p : Port) (bar4 : Bool) (off : BitVec 29) (data : List Byte) (s : State), s.Up ∧ (s.port p.val).configOnly = false ∧ (s.group (groupOf s p.val)).st ≠ .absent ∧ fnHeld s (dbTarget s bar4 off.toNat (cbOwner s off.toNat)) .qm = false ∧ dbSizeOk off.toNat data.length true = true) ∧
    (∃ (p : Port) (bar4 be : Bool) (off : BitVec 29) (data : List Byte) (s : State), s.Up ∧ (s.port p.val).configOnly = false ∧ (s.group (groupOf s p.val)).st ≠ .absent ∧ fnHeld s (dbTarget s bar4 off.toNat (cbOwner s off.toNat)) .qm = true) ∧
    (∃ (i : Inst) (a : Acc) (v : W64) (s : State), s.Serves i.val ∧ s.Free ⟨.cb, i.val, 0⟩ ∧ fnHeld s i.val .qm = false) ∧
    (∃ (i : Inst) (n : BitVec 12) (a : Acc) (v : W64) (s : State), s.Serves i.val ∧ (s.vd i.val n.toNat).st ≠ .free ∧ fnHeld s i.val .qm = false) ∧
    (∃ (i : Inst) (q : Qidx) (press : NifPress) (s : State), s.Serves i.val ∧ (s.qm.get i.val).missFly.contains q.toNat = true ∧ (s.qm.get i.val).missWait = []) :=
  ⟨⟨0, false, 0, leBytes 8 5, tUp, by decide⟩,
   ⟨0, false, true, 0, leBytes 8 5, tQmHeld, by decide⟩,
   ⟨0, ⟨false, 1, 7⟩, 5, tUp, by decide⟩,
   ⟨0, 1, ⟨false, 1, 7⟩, 5, tVd tVdR, by decide⟩,
   ⟨0, 3, ⟨5, 2⟩, { tUp with qm := ⟨{ missFly := [3] }, {}⟩ }, by decide⟩⟩

theorem witness_DoorbellTakesEffect :
    let d : DbWait := ⟨3, 0, false, none⟩
    let c : DbWait := ⟨0x80000002, 0, false, none⟩
    ((tQueue.q 0 0).mode = .enabled ∧ bits d.payload.toNat 32 8 = (tQueue.q 0 0).ctx.gen ∧ bitAt d.payload.toNat 31 = false ∧
      sub24 (bits d.payload.toNat 0 24) (tQueue.q 0 0).ctx.tail ≠ 0 ∧ sub24 (bits d.payload.toNat 0 24) (tQueue.q 0 0).ctx.tail ≤ 2 ^ (tQueue.q 0 0).ctx.ringLog2 ∧
      sub24 (bits d.payload.toNat 0 24) (tQueue.q 0 0).ctx.done ≤ 2 ^ (tQueue.q 0 0).ctx.ringLog2 ∧ qmR 0 0 0xD0 ≠ qmR 0 2 0x60) ∧
    (bitAt c.payload.toNat 31 = true ∧ sub24 (bits c.payload.toNat 0 24) (tQueue.q 0 0).ctx.cqHead ≤ sub24 ((tQueue.q 0 0).ctx.cqSeq % 2 ^ 24) (tQueue.q 0 0).ctx.cqHead) ∧
    ((tUp.q 0 0).mode ≠ .enabled ∧ qmR 0 0 0xD0 ≠ qmR 0 2 0x68 ∧ qmR 0 0 0xD0 ≠ qmR 0 2 0x70) := by decide

theorem witness_ContextCommandsAct :
    (∃ (i : Inst) (a : Acc) (s : State), s.Serves i.val ∧ s.Free (qmPage i.val 0) ∧ s.fld (qmR i.val 0 0x48) 0 1 = 0) ∧
    (∃ (i : Inst) (a : Acc) (vt : NocEnd) (s : State), s.Serves i.val ∧ s.Free (qmPage i.val 0) ∧ s.fld (qmR i.val 0 0x48) 0 1 = 0 ∧ (s.q i.val (s.fld (qmR i.val 0 0x40) 0 20)).mode = .disabled) ∧
    (∃ (i : Inst) (a : Acc) (vt : NocEnd) (s : State), s.Serves i.val ∧ s.Free (qmPage i.val 0) ∧ s.fld (qmR i.val 0 0x48) 0 1 = 0 ∧ (s.q i.val (s.fld (qmR i.val 0 0x40) 0 20)).mode ≠ .disabled ∧ (s.q i.val (s.fld (qmR i.val 0 0x40) 0 20)).ctx.differs (ctxData s i.val) = true) ∧
    (∃ (i : Inst) (a : Acc) (y z : State) (r c : URec) (s : State), s.Serves i.val ∧ s.Free (qmPage i.val 0) ∧ s.fld (qmR i.val 0 0x48) 0 1 = 0 ∧ (s.q i.val (s.fld (qmR i.val 0 0x40) 0 20)).mode = .disabled ∧ ctxFieldsOk s i.val (s.q i.val (s.fld (qmR i.val 0 0x40) 0 20)) = true ∧ homeOf s i.val (s.q i.val (s.fld (qmR i.val 0 0x40) 0 20)).part = true ∧ vdQueueOk s i.val (s.fld (qmR i.val 0 0x40) 0 20) = true ∧ ringUnit (clearLatches s (qmPage i.val 0)) i.val (s.fld (qmR i.val 0 0x40) 0 20) false = (y, .unit r) ∧ ringUnit y i.val (s.fld (qmR i.val 0 0x40) 0 20) true = (z, .unit c)) ∧
    (∃ (i : Inst) (a : Acc) (y : State) (m : Miss) (s : State), s.Serves i.val ∧ s.Free (qmPage i.val 0) ∧ s.fld (qmR i.val 0 0x48) 0 1 = 0 ∧ (s.q i.val (s.fld (qmR i.val 0 0x40) 0 20)).mode = .disabled ∧ ctxFieldsOk s i.val (s.q i.val (s.fld (qmR i.val 0 0x40) 0 20)) = true ∧ homeOf s i.val (s.q i.val (s.fld (qmR i.val 0 0x40) 0 20)).part = true ∧ vdQueueOk s i.val (s.fld (qmR i.val 0 0x40) 0 20) = true ∧ ringUnit (clearLatches s (qmPage i.val 0)) i.val (s.fld (qmR i.val 0 0x40) 0 20) false = (y, .wait m)) ∧
    (∃ (i : Inst) (a : Acc) (s : State), s.Serves i.val ∧ s.Free (qmPage i.val 0) ∧ s.fld (qmR i.val 0 0x48) 0 1 = 0 ∧ (s.q i.val (s.fld (qmR i.val 0 0x40) 0 20)).mode = .enabled) ∧
    (∃ (i : Inst) (a : Acc) (s : State), s.Serves i.val ∧ s.Free (qmPage i.val 0) ∧ s.fld (qmR i.val 0 0x48) 0 1 = 0 ∧ (s.q i.val (s.fld (qmR i.val 0 0x40) 0 20)).mode ≠ .enabled) ∧
    (∃ (i : Inst) (a : Acc) (s : State), s.Serves i.val ∧ s.Free (qmPage i.val 0) ∧ s.fld (qmR i.val 0 0x48) 0 1 = 0 ∧ (s.q i.val (s.fld (qmR i.val 0 0x40) 0 20)).state = 7) ∧
    (∃ (i : Inst) (a : Acc) (s : State), s.Serves i.val ∧ s.Free (qmPage i.val 0) ∧ s.fld (qmR i.val 0 0x48) 0 1 = 0 ∧ (s.q i.val (s.fld (qmR i.val 0 0x40) 0 20)).state = 4 ∧ (s.group (s.q i.val (s.fld (qmR i.val 0 0x40) 0 20)).ctx.group).st = .attached) ∧
    (∃ (i : Inst) (a : Acc) (s : State), s.Serves i.val ∧ s.Free (qmPage i.val 0) ∧ s.fld (qmR i.val 0 0x48) 0 1 = 0 ∧ (s.q i.val (s.fld (qmR i.val 0 0x40) 0 20)).state = 3) ∧
    (∃ (i : Inst) (a : Acc) (s : State), s.Serves i.val ∧ s.Free (qmPage i.val 0) ∧ s.fld (qmR i.val 0 0x48) 0 1 = 0 ∧ (s.q i.val (s.fld (qmR i.val 0 0x40) 0 20)).mode ≠ .disabled) ∧
    (∃ (i : Inst) (a : Acc) (s : State), s.Serves i.val ∧ s.Free (qmPage i.val 0) ∧ s.fld (qmR i.val 0 0x48) 0 1 = 0 ∧ (s.q i.val (s.fld (qmR i.val 0 0x40) 0 20)).ctx.pinned = false ∧ (pinnedOf s i.val).length < 4096 ∧ ((pinnedOf s i.val).filter fun p => p % 1024 == (s.fld (qmR i.val 0 0x40) 0 20) % 1024).length < 12) ∧
    (∃ (i : Inst) (a : Acc) (s : State), s.Serves i.val ∧ s.Free (qmPage i.val 0) ∧ s.fld (qmR i.val 0 0x48) 0 1 = 0) :=
  ⟨⟨0, ⟨true, 0, 0⟩, tQueue, by decide⟩,
   ⟨0, ⟨true, 0, 0⟩, ⟨.ok, 0, 0⟩, tUp, by decide⟩,
   ⟨0, ⟨true, 0, 0⟩, ⟨.ok, 0, 0⟩, tQueue, by decide⟩,
   ⟨0, ⟨true, 0, 0⟩, _, _, _, _, tEnable, by decide, by decide, by decide, by decide, by decide, by decide, by decide, rfl, rfl⟩,
   ⟨0, ⟨true, 0, 0⟩, _, _, tEnableMiss, by decide, by decide, by decide, by decide, by decide, by decide, by decide, rfl⟩,
   ⟨0, ⟨true, 0, 0⟩, tQueue, by decide⟩,
   ⟨0, ⟨true, 0, 0⟩, tUp, by decide⟩,
   ⟨0, ⟨true, 0, 0⟩, tError, by decide⟩,
   ⟨0, ⟨true, 0, 0⟩, tHostWait, by decide⟩,
   ⟨0, ⟨true, 0, 0⟩, tAhead, by decide⟩,
   ⟨0, ⟨true, 0, 0⟩, tQueue, by decide⟩,
   ⟨0, ⟨true, 0, 0⟩, tUp, by decide⟩,
   ⟨0, ⟨true, 0, 0⟩, tQueue, by decide⟩⟩

theorem witness_VectorTableAndInterrupts :
    (∃ (i : Inst) (a : Acc) (s : State), s.Serves i.val ∧ s.Free (qmPage i.val 0) ∧ s.fld (qmR i.val 0 0xE8) 0 1 = 0) ∧
    (∃ (i : Inst) (a : Acc) (s : State), s.Serves i.val ∧ s.Free (qmPage i.val 0) ∧ s.fld (qmR i.val 0 0xE8) 0 1 = 0 ∧ (bitAt (s.r (qmR i.val 0 0xF8)) 36 = false ∨ s.r (qmR i.val 0 0xF0) % 4 = 0) ∧ (vtEntry s i.val (s.fld (qmR i.val 0 0xE0) 0 16)).mask = false) ∧
    (∃ (i : Inst) (a : Acc) (s : State), s.Serves i.val ∧ s.Free (qmPage i.val 0) ∧ s.fld (qmR i.val 0 0xE8) 0 1 = 0 ∧ bitAt (s.r (qmR i.val 0 0xF8)) 36 = true ∧ s.r (qmR i.val 0 0xF0) % 4 ≠ 0) ∧
    (∃ (i : Inst) (a : Acc) (v : W64) (s : State), s.Serves i.val ∧ s.Free (qmPage i.val 0) ∧ (queuesOf s i.val).any (fun e => !e.2.disabled) = false) ∧
    (∃ (i : Inst) (a : Acc) (v : W64) (s : State), s.Serves i.val ∧ s.Free (qmPage i.val 0) ∧ (queuesOf s i.val).any (fun e => !e.2.disabled) = false) ∧
    (∃ (i : Inst) (a : Acc) (s : State), s.Serves i.val ∧ s.Free (qmPage i.val 0) ∧ irqSummary s i.val ≠ 0) ∧
    (∃ (i : Inst) (a : Acc) (s : State), s.Serves i.val ∧ s.Free (qmPage i.val 0)) ∧
    (∃ (i : Inst) (q : Qidx) (vt : NocEnd) (s : State), s.Serves i.val ∧ (s.q i.val q.toNat).ctx.irqPending ≠ 0 ∧ (s.q i.val q.toNat).ctx.irqTimeUs ≠ 0) ∧
    (∃ (i : Inst) (vec : BitVec 16) (r : NocEnd) (n q : Nat) (s : State), s.Serves i.val ∧ r.st ≠ .ok ∧ (s.qm.get i.val).vtRetry.find? (fun e => e.1 == vec.toNat) = some (n, q)) ∧
    (∃ (i : Inst) (vec : BitVec 16) (press : NifPress) (n q : Nat) (s : State), s.Serves i.val ∧ (s.qm.get i.val).vtRetry.find? (fun e => e.1 == vec.toNat) = some (n, q)) :=
  ⟨⟨0, ⟨true, 0, 0⟩, tUp, by decide⟩,
   ⟨0, ⟨true, 0, 0⟩, tUp, by decide⟩,
   ⟨0, ⟨true, 0, 0⟩, (tUp.setR (qmR 0 0 0xF0) 2).setR (qmR 0 0 0xF8) (2 ^ 36), by decide⟩,
   ⟨0, ⟨true, 0, 0⟩, 0x100000, tUp, by decide⟩,
   ⟨0, ⟨true, 0, 0⟩, 0x4000000, tUp, by decide⟩,
   ⟨0, ⟨true, 0, 0⟩, tRaised, by decide⟩,
   ⟨0, ⟨true, 0, 0⟩, tUp, by decide⟩,
   ⟨0, 0, ⟨.ok, 0, 0⟩, tPendIrq, by decide⟩,
   ⟨0, 4, ⟨.noc, 0, 0⟩, 4, 0, { tUp with qm := ⟨{ vtRetry := [(4, 0)] }, {}⟩ }, by decide⟩,
   ⟨0, 4, ⟨5, 2⟩, 4, 0, { tUp with qm := ⟨{ vtRetry := [(4, 0)] }, {}⟩ }, by decide⟩⟩

theorem witness_DescriptorFetchActs :
    (∃ (i : Inst) (q pos : Nat) (u : URec) (y : State) (s : State), s.Serves i.val ∧ fnHeld s i.val .qm = false ∧ (cacheUse s i.val).1 < 8192 ∧ (cacheUse s i.val).2 < 32768 ∧ fetchPick s i.val = some q ∧ nextRead { s with qm := s.qm.upd i.val fun m => { m with rr := Tbl.put m.rr (fetchRank (s.q i.val q)) q } } (State.q { s with qm := s.qm.upd i.val fun m => { m with rr := Tbl.put m.rr (fetchRank (s.q i.val q)) q } } i.val q) = some (.head pos true) ∧ useRing { s with qm := s.qm.upd i.val fun m => { m with rr := Tbl.put m.rr (fetchRank (s.q i.val q)) q } } i.val q false = (y, some u)) ∧
    (∃ (i : Inst) (q : Qidx) (data : List Byte) (press : NifPress) (pos : Nat) (u : URec) (p : Pos) (s : State), s.Serves i.val ∧ (s.q i.val q.toNat).ringRead = some (pos, u) ∧ data.length = 64 ∧ (s.q i.val q.toNat).pos? pos = some p ∧ genOf data = (s.q i.val q.toNat).gen pos) ∧
    (∃ (i : Inst) (q : Qidx) (data : List Byte) (press : NifPress) (pos : Nat) (u : URec) (p : Pos) (s : State), s.Serves i.val ∧ (s.q i.val q.toNat).ringRead = some (pos, u) ∧ data.length = 64 ∧ (s.q i.val q.toNat).pos? pos = some p ∧ genOf data ≠ (s.q i.val q.toNat).gen pos) ∧
    (∃ (i : Inst) (q : Qidx) (s : State), s.Serves i.val) ∧
    (∃ (i : Inst) (q : Qidx) (s : State), s.Serves i.val) ∧
    (∃ (i : Inst) (q : Qidx) (s : State), s.Serves i.val ∧ (s.q i.val q.toNat).ahead1 = true ∧ (s.q i.val q.toNat).mode = .enabled ∧ (s.q i.val q.toNat).poss.any (fun p => p.fet == .backoff || p.fet == .due || p.fet == .inFlight) = true) ∧
    (∃ (i : Inst) (q : Qidx) (p : Pos) (s : State), s.Serves i.val ∧ (s.q i.val q.toNat).conds.ahead = true ∧ (s.q i.val q.toNat).poss.find? (fun p => p.fet == .parked || p.fet == .due || p.fet == .inFlight) = some p) ∧
    (∃ (i : Inst) (q : Qidx) (pos idx : Nat) (d : DescSt) (s : State), s.Serves i.val ∧ fnHeld s i.val .atu = false ∧ firstPending (s.q i.val q.toNat) = some (pos, idx, d) ∧ (s.q i.val q.toNat).ctx.kind = 1) ∧
    (∃ (i : Inst) (q : Qidx) (pos idx : Nat) (d : DescSt) (r : Nat) (s : State), s.Serves i.val ∧ fnHeld s i.val .atu = false ∧ firstPending (s.q i.val q.toNat) = some (pos, idx, d) ∧ (s.q i.val q.toNat).ctx.kind = 0 ∧ checkDesc d.raw idx = some r) :=
  ⟨⟨0, 0, 0, _, _, tFetch, by decide, by decide, by decide, by decide, by decide, by decide, rfl⟩,
   ⟨0, 0, tDesc, ⟨5, 2⟩, 0, tUnit, { pos := 0, fet := .inFlight }, tReading, by decide⟩,
   ⟨0, 0, List.replicate 64 0, ⟨5, 2⟩, 0, tUnit, { pos := 0, fet := .inFlight }, tReading, by decide⟩,
   ⟨0, 0, tUp, by decide⟩,
   ⟨0, 0, tUp, by decide⟩,
   ⟨0, 0, tBackoff, by decide⟩,
   ⟨0, 0, { pos := 0, fet := .parked }, tAhead, by decide⟩,
   ⟨0, 0, 0, 0, { raw := List.replicate 64 0 }, tPending, by decide⟩,
   ⟨0, 0, 0, 0, { raw := List.replicate 64 0 }, _, tPendingDma, by decide, by decide, by decide, by decide, rfl⟩⟩

theorem witness_RecordsAndEvents :
    (∃ (i : Inst) (q : Qidx) (vt : NocEnd) (p : Pos) (r : Rec) (s : State), s.Serves i.val ∧ fnHeld s i.val .qm = false ∧ (s.q i.val q.toNat).headRec = some (p, r) ∧ p.held = false ∧ (s.q i.val q.toNat).cqFull = false ∧ (s.q i.val q.toNat).cqBad = false ∧ (s.q i.val q.toNat).jwait = false ∧ (s.vd i.val (s.q i.val q.toNat).vd).st ≠ .down ∧ (s.q i.val q.toNat).ctx.cqLoc = 0 ∧ absent s (s.q i.val q.toNat).ctx.group = true ∧ jrnlFull s i.val { typ := 1, group := (s.q i.val q.toNat).ctx.group, seq := 0, time := 0, queue := hubQ i.val q.toNat, iova := (s.q i.val q.toNat).ctx.cqBase + 32 * ((s.q i.val q.toNat).ctx.cqSeq % 2 ^ (s.q i.val q.toNat).ctx.cqLog2), payload := recBytes i.val q.toNat (s.q i.val q.toNat).ctx p.pos r } = false) ∧
    (∃ (i : Inst) (q : Qidx) (s : State), s.Serves i.val ∧ (s.q i.val q.toNat).mode = .draining ∧ (s.q i.val q.toNat).poss.all (fun p => p.ph == .ended) = true) ∧
    (∃ (i : Inst) (a : Acc) (v : W32) (s : State), s.Serves i.val ∧ s.Free (qmPage i.val 1)) ∧
    (∃ (i : Inst) (a : Acc) (v : W32) (s : State), s.Serves i.val ∧ s.Free (qmPage i.val 1)) ∧
    (∃ (i : Inst) (w : BitVec 12) (a : Acc) (v : W32) (k : Nat) (s : State), s.Serves i.val ∧ (s.vd i.val w.toNat).st ≠ .free ∧ evtOf s i.val w.toNat (s.fld (reg .vd i.val w.toNat 0x58) 0 12) = some k) ∧
    (∃ (i : Inst) (q : Qidx) (p : Pos) (d : DescSt) (s : State), s.Serves i.val ∧ (s.q i.val q.toNat).poss.find? (fun p => p.ph == .started && (p.descs.head?.map fun d => opcodeOf d.raw) == some 0xF) = some p ∧ ((s.q i.val q.toNat).poss.takeWhile fun y => y.pos != p.pos).any (fun y => y.ph != .ended) = false ∧ (s.q i.val q.toNat).conds.hostWait = false ∧ (s.q i.val q.toNat).unflushed = [] ∧ p.descs.head? = some d) ∧
    (∃ (i : Inst) (n : BitVec 12) (s : State), s.Serves i.val) :=
  ⟨⟨0, 0, ⟨.ok, 0, 0⟩, tPosRec, { status := 0, user := 0, result := 0, time := 0 }, tRecord, by decide⟩,
   ⟨0, 0, tDraining, by decide⟩,
   ⟨0, ⟨true, 0, 0⟩, 9, tUp, by decide⟩,
   ⟨0, ⟨true, 0, 0⟩, 9, tUp, by decide⟩,
   ⟨0, 0, ⟨true, 0, 0⟩, 9, 0, tUp, by decide⟩,
   ⟨0, 0, tSigPos, tSigDesc, tSignal, by decide⟩,
   ⟨0, 0, tUp, by decide⟩⟩

theorem witness_ChannelControls :
    (∃ (i : Inst) (c : Chan) (a : Acc) (s : State), s.Serves i.val ∧ s.Free (dmaPage (chanId i.val c.val)) ∧ s.NoLate ∧ (s.chan (chanId i.val c.val)).st = .off) ∧
    (∃ (i : Inst) (c : Chan) (a : Acc) (s : State), s.Serves i.val ∧ s.Free (dmaPage (chanId i.val c.val)) ∧ s.NoLate) ∧
    (∃ (i : Inst) (c : Chan) (a : Acc) (v : W32) (s : State), s.Serves i.val ∧ s.Free (dmaPage (chanId i.val c.val)) ∧ s.NoLate ∧ bits v.toNat 16 12 ≠ 0) ∧
    (∃ (i : Inst) (c : Chan) (a : Acc) (v : W32) (s : State), s.Serves i.val ∧ s.Free (dmaPage (chanId i.val c.val)) ∧ s.NoLate ∧ bits v.toNat 16 12 = 0) ∧
    (∃ (i : Inst) (c : Chan) (a : Acc) (s : State), s.Serves i.val ∧ s.Free (dmaPage (chanId i.val c.val)) ∧ ((s.chan (chanId i.val c.val)).st = .idle ∨ (s.chan (chanId i.val c.val)).st = .off)) ∧
    (∃ (i : Inst) (c : Chan) (a : Acc) (s : State), s.Serves i.val ∧ s.Free (dmaPage (chanId i.val c.val)) ∧ (s.chan (chanId i.val c.val)).st = .running) ∧
    (∃ (i : Inst) (c : Chan) (s : State), s.Serves i.val ∧ (s.chan (chanId i.val c.val)).st = .pausing ∧ chanReads s (chanId i.val c.val) = 0 ∧ (s.chan (chanId i.val c.val)).wrs = [] ∧ (s.chan (chanId i.val c.val)).units = []) ∧
    (∃ (i : Inst) (c : Chan) (a : Acc) (s : State), s.Serves i.val ∧ s.Free (dmaPage (chanId i.val c.val)) ∧ (s.chan (chanId i.val c.val)).st = .paused ∧ (s.chan (chanId i.val c.val)).queue.isSome = true) ∧
    (∃ (i : Inst) (c : Chan) (a : Acc) (s : State), s.Serves i.val ∧ s.Free (dmaPage (chanId i.val c.val)) ∧ (s.chan (chanId i.val c.val)).st = .paused ∧ (s.chan (chanId i.val c.val)).queue = none) ∧
    (∃ (i : Inst) (c : Chan) (a : Acc) (q : Nat) (s : State), s.Serves i.val ∧ s.Free (dmaPage (chanId i.val c.val)) ∧ (s.chan (chanId i.val c.val)).st = .paused ∧ (s.chan (chanId i.val c.val)).queue = some q) ∧
    (∃ (i : Inst) (c : Chan) (a : Acc) (s : State), s.Serves i.val ∧ s.Free (dmaPage (chanId i.val c.val)) ∧ (s.chan (chanId i.val c.val)).st ≠ .paused) ∧
    (∃ (i : Inst) (c : Chan) (a : Acc) (s : State), s.Serves i.val ∧ s.Free (dmaPage (chanId i.val c.val)) ∧ (s.chan (chanId i.val c.val)).st = .halted) ∧
    (∃ (i : Inst) (c : Chan) (a : Acc) (s : State), s.Serves i.val ∧ s.Free (dmaPage (chanId i.val c.val)) ∧ (s.chan (chanId i.val c.val)).st ≠ .halted) ∧
    (∃ (i : Inst) (c : Chan) (s : State), s.Serves i.val ∧ (s.chan (chanId i.val c.val)).st = .idle ∧ chanEnabled s (chanId i.val c.val) = false) :=
  ⟨⟨0, 0, ⟨true, 0, 0⟩, tUp, by decide⟩,
   ⟨0, 0, ⟨true, 0, 0⟩, tUp, by decide⟩,
   ⟨0, 0, ⟨true, 0, 0⟩, 0x10000, tUp, by decide⟩,
   ⟨0, 0, ⟨true, 0, 0⟩, 0, tUp, by decide⟩,
   ⟨0, 0, ⟨true, 0, 0⟩, tUp, by decide⟩,
   ⟨0, 0, ⟨true, 0, 0⟩, tChan { st := .running }, by decide⟩,
   ⟨0, 0, tChan { st := .pausing }, by decide⟩,
   ⟨0, 0, ⟨true, 0, 0⟩, tChan { st := .paused, queue := some 0 }, by decide⟩,
   ⟨0, 0, ⟨true, 0, 0⟩, tChan { st := .paused }, by decide⟩,
   ⟨0, 0, ⟨true, 0, 0⟩, 0, tChan { st := .paused, queue := some 0 }, by decide⟩,
   ⟨0, 0, ⟨true, 0, 0⟩, tUp, by decide⟩,
   ⟨0, 0, ⟨true, 0, 0⟩, tChan { st := .halted }, by decide⟩,
   ⟨0, 0, ⟨true, 0, 0⟩, tUp, by decide⟩,
   ⟨0, 0, tChan { st := .idle }, by decide⟩⟩

theorem witness_JobsStartAndEnd :
    (∃ (i : Inst) (q : Qidx) (p : Pos) (d : DescSt) (y z : State) (s : State), s.Serves i.val ∧ fnHeld s i.val .qm = false ∧ startGate s i.val q.toNat = (y, some (p, d)) ∧ opcodeOf d.raw = 0xC ∧ chainOf d.raw = false ∧ mayStart y i.val q.toNat p.pos 0 d = (z, true)) ∧
    (∃ (i : Inst) (q : Qidx) (p : Pos) (d : DescSt) (cid : Nat) (y z : State) (s : State), s.Serves i.val ∧ fnHeld s i.val .qm = false ∧ startGate s i.val q.toNat = (y, some (p, d)) ∧ opcodeOf d.raw ∉ [0xC, 0xE, 0xF] ∧ (s.q i.val q.toNat).ctx.kind = 0 ∧ mayStart y i.val q.toNat p.pos 0 d = (z, true) ∧ leastBy (nifReads z) (chansFor z (carrier z i.val) (s.q i.val q.toNat)) = some cid) ∧
    (∃ (i : Inst) (c : Chan) (q : Nat) (d : DescSt) (y : State) (s : State), s.Serves i.val ∧ (s.chan (chanId i.val c.val)).queue = some q ∧ curDesc s (s.chan (chanId i.val c.val)) = some d ∧ (s.chan (chanId i.val c.val)).st = .running ∧ (s.chan (chanId i.val c.val)).between = true ∧ commitHeld s (dmaPage (chanId i.val c.val)) = false ∧ d.ph = .ready ∧ mayStart s (s.chan (chanId i.val c.val)).home q (s.chan (chanId i.val c.val)).pos (s.chan (chanId i.val c.val)).desc d = (y, true)) ∧
    (∃ (i : Inst) (c : Chan) (q : Nat) (d : DescSt) (st r : Nat) (s : State), s.Serves i.val ∧ (s.chan (chanId i.val c.val)).queue = some q ∧ curDesc s (s.chan (chanId i.val c.val)) = some d ∧ (s.chan (chanId i.val c.val)).st = .running ∧ (s.chan (chanId i.val c.val)).between = true ∧ commitHeld s (dmaPage (chanId i.val c.val)) = false ∧ d.ph = .failed st r ∧ (s.chan (chanId i.val c.val)).wrs = [] ∧ (s.chan (chanId i.val c.val)).held = []) ∧
    (∃ (i : Inst) (c : Chan) (x : Queue) (p : Pos) (d : DescSt) (q : Nat) (s : State), s.Serves i.val ∧ (s.chan (chanId i.val c.val)).queue = some q ∧ jobOf s (s.chan (chanId i.val c.val)) = some (x, p) ∧ curDesc s (s.chan (chanId i.val c.val)) = some d ∧ ((s.chan (chanId i.val c.val)).st = .running ∨ (s.chan (chanId i.val c.val)).st = .pausing) ∧ (s.chan (chanId i.val c.val)).between = false ∧ chainOf d.raw = false ∧ descFormed d.raw (s.chan (chanId i.val c.val)) = true ∧ (s.chan (chanId i.val c.val)).wrs = [] ∧ (s.chan (chanId i.val c.val)).held = [] ∧ (s.chan (chanId i.val c.val)).arrive.all (fun a => a.hit.isSome) = true ∧ chanReads s (chanId i.val c.val) = 0) ∧
    (∃ (i : Inst) (c : Chan) (q : Nat) (s : State), s.Serves i.val ∧ (s.chan (chanId i.val c.val)).st = .halting ∧ chanReads s (chanId i.val c.val) = 0 ∧ chanWrites s (chanId i.val c.val) = 0 ∧ (s.chan (chanId i.val c.val)).torn = false ∧ (s.chan (chanId i.val c.val)).errStatus ≠ 1 ∧ (s.chan (chanId i.val c.val)).queue = some q) ∧
    (∃ (i : Inst) (c : Chan) (a : Arrive) (d : DescSt) (s : State), s.Serves i.val ∧ (s.chan (chanId i.val c.val)).arrive.find? (fun a => a.hit.isNone) = some a ∧ curDesc s (s.chan (chanId i.val c.val)) = some d ∧ (s.chan (chanId i.val c.val)).st = .running) :=
  ⟨⟨0, 0, tNopP, tNopD, _, _, tNop, by decide, by decide, rfl, by decide, by decide, rfl⟩,
   ⟨0, 0, tMoveP, tMoveD, 0, _, _, tMoveS, by decide, by decide, rfl, by decide, by decide, rfl, by decide⟩,
   ⟨0, 0, 0, tMoveD, _, tJob { st := .running, between := true }, by decide, by decide, by decide, by decide, by decide, by decide, by decide, rfl⟩,
   ⟨0, 0, 0, tFailD, 3, 5, { tJob { st := .running, between := true } with qm := ⟨{ ctxs := [(0, { ctx := tCtx, poss := [{ tJobP with descs := [tFailD] }] })] }, {}⟩ }, by decide⟩,
   ⟨0, 0, { ctx := { tCtx with tail := 1 }, mode := .enabled, poss := [tJobP] }, tJobP, tMoveD, 0, tJob { st := .running, iter := 1 }, by decide⟩,
   ⟨0, 0, 0, tJob { st := .halting, errStatus := 2 }, by decide⟩,
   ⟨0, 0, { k := 0 }, tMoveD, tJob { st := .running, arrive := [{ k := 0 }] }, by decide⟩⟩

theorem witness_RequestsAndResponses :
    (∃ (i : Inst) (c : Chan) (d : DescSt) (w : Wr) (slot : Nat) (y : State) (s : State), s.Serves i.val ∧ (s.chan (chanId i.val c.val)).st = .running ∧ curDesc s (s.chan (chanId i.val c.val)) = some d ∧ (s.chan (chanId i.val c.val)).between = false ∧ (s.chan (chanId i.val c.val)).wrs.find? (fun w => w.slot.isNone) = some w ∧ writeLen s (chanId i.val c.val) d w = w.bytes.length ∧ w.bytes ≠ [] ∧ issueWrite s (chanId i.val c.val) d.units w ((jobOf s (s.chan (chanId i.val c.val))).elim false fun e => relaxedDesc e.2 (s.chan (chanId i.val c.val)).desc) = (y, some slot) ∧ hasTurn s (chanId i.val c.val) true = true) ∧
    (∃ (i : Inst) (c : Chan) (d : DescSt) (u : UnitSt) (r : Rd) (tag : Nat) (y : State) (s : State), s.Serves i.val ∧ (s.chan (chanId i.val c.val)).st = .running ∧ curDesc s (s.chan (chanId i.val c.val)) = some d ∧ (s.chan (chanId i.val c.val)).between = false ∧ rawWaitOf d.raw = false ∧ nextRd (s.chan (chanId i.val c.val)) = some (u, r) ∧ issueRead s (chanId i.val c.val) r.sp r.addr r.len = (y, some tag) ∧ hasTurn s (chanId i.val c.val) false = true) ∧
    (∃ (i : Inst) (tag : BitVec 14) (data : List Byte) (press : BitVec 2) (u : RUse) (cid : Nat) (s : State), s.Up ∧ alive s i.val = true ∧ Tbl.find (s.pool i.val).reads tag.toNat = some u ∧ u.port = none ∧ u.owner = .chan cid ∧ data.length = u.len ∧ (s.chan cid).st = .running) ∧
    (∃ (i : Inst) (tag : BitVec 14) (data : List Byte) (st : Rsp) (press : BitVec 2) (u : RUse) (cid : Nat) (s : State), s.Up ∧ alive s i.val = true ∧ Tbl.find (s.pool i.val).reads tag.toNat = some u ∧ u.port = none ∧ u.owner = .chan cid ∧ st ≠ .ok ∧ st ≠ .range) ∧
    (∃ (i : Inst) (slot : BitVec 14) (press : NifPress) (w : WUse) (cid : Nat) (s : State), s.Up ∧ alive s i.val = true ∧ Tbl.find (s.pool i.val).writes slot.toNat = some w ∧ w.port = none ∧ w.owner = .chan cid) ∧
    (∃ (p : Port) (th : BitVec 4) (tl : BitVec 10) (data : List Byte) (i n : Nat) (u : RUse) (cid : Nat) (s : State), s.Up ∧ alive s i = true ∧ readByTag s p.val (th ++ tl).toNat = some (i, n, u) ∧ u.owner = .chan cid ∧ data.length = u.len ∧ (s.chan cid).st = .running) ∧
    (∃ (i : Inst) (slot : BitVec 14) (press : NifPress) (st : Rsp) (s : State), s.Up ∧ alive s i.val = false) ∧
    (∃ (i : Inst) (slot : BitVec 14) (w : WUse) (cid : Nat) (s : State), s.Up ∧ alive s i.val = true ∧ Tbl.find (s.pool i.val).writes slot.toNat = some w ∧ w.port ≠ none ∧ w.owner = .chan cid) ∧
    (∃ (i : Inst) (c : Chan) (w : Wr) (r : List Wr) (x : Queue) (p : Pos) (d : DescSt) (slot : Nat) (y : State) (s : State), s.Serves i.val ∧ (s.chan (chanId i.val c.val)).held = w :: r ∧ jobOf s (s.chan (chanId i.val c.val)) = some (x, p) ∧ (s.chan (chanId i.val c.val)).st = .running ∧ (s.chan (chanId i.val c.val)).wrs = [] ∧ (jobFormed s (s.chan (chanId i.val c.val)) = true ∨ needsHeld s (chanId i.val c.val) w = true) ∧ p.descs[w.desc]? = some d ∧ p.ports = [] ∧ issueWrite s (chanId i.val c.val) d.units w false = (y, some slot)) ∧
    (∃ (i : Inst) (c : Chan) (u : UnitSt) (s : State), s.Serves i.val ∧ (s.chan (chanId i.val c.val)).units.find? (fun u => !u.granted) = some u ∧ locksFree s i.val u.granules = true) ∧
    (∃ (i : Inst) (c : Chan) (d : DescSt) (s : State), s.Serves i.val ∧ curDesc s (s.chan (chanId i.val c.val)) = some d ∧ opcodeOf d.raw = 0x12 ∧ (s.chan (chanId i.val c.val)).st = .running ∧ (s.chan (chanId i.val c.val)).between = false ∧ stagedU d.raw ≤ (s.chan (chanId i.val c.val)).iter ∧ (s.chan (chanId i.val c.val)).units = [] ∧ (s.chan (chanId i.val c.val)).wrs.any (fun w => w.desc == (s.chan (chanId i.val c.val)).desc) = false ∧ (s.chan (chanId i.val c.val)).phaseB = false ∧ (s.chan (chanId i.val c.val)).markSent = false) ∧
    (∃ (i : Inst) (c : Chan) (k : Fin 16) (s : State), s.Serves i.val) ∧
    (∃ (i : Inst) (n : Fin 8) (cls : BitVec 2) (s : State), s.Serves i.val) :=
  ⟨⟨0, 0, tMoveD, tWr, 0, _, tJob { st := .running, iter := 1, maxReads := 4, wrs := [tWr] }, by decide, by decide, by decide, by decide, by decide, by decide, by decide, rfl, by decide +kernel⟩,
   ⟨0, 0, tMoveD, tUnitSt, tRd, 0, _, tJob { st := .running, maxReads := 4, units := [tUnitSt] }, by decide, by decide, by decide, by decide, by decide, by decide, rfl, by decide +kernel⟩,
   ⟨0, 0, [1, 2, 3, 4], 0, tUse, 0, { tJob { st := .running } with pools := ⟨{ reads := [(0, tUse)] }, {}⟩ }, by decide⟩,
   ⟨0, 0, [], .noc, 0, tUse, 0, { tJob { st := .running } with pools := ⟨{ reads := [(0, tUse)] }, {}⟩ }, by decide⟩,
   ⟨0, 0, ⟨0, 0⟩, tWUse, 0, { tUp with pools := ⟨{ writes := [(0, tWUse)] }, {}⟩ }, by decide⟩,
   ⟨0, 0, 3, List.replicate 64 1, 0, 3, tRead, 4, { tReads with chans := [(4, { st := .running })] }, by decide⟩,
   ⟨0, 0, ⟨0, 0⟩, .ok, { tUp with mir := ⟨{ fenced := true }, {}⟩ }, by decide⟩,
   ⟨0, 0, { tWUse with port := some 0 }, 0, { tUp with pools := ⟨{ writes := [(0, { tWUse with port := some 0 })] }, {}⟩ }, by decide⟩,
   ⟨0, 0, tWr, [], { ctx := { tCtx with tail := 1 }, mode := .enabled, poss := [tJobP] }, tJobP, tMoveD, 0, _, tJob { st := .running, iter := 1, maxReads := 4, held := [tWr] }, by decide, by decide, by decide, by decide, by decide, by decide, by decide, by decide, rfl⟩,
   ⟨0, 0, { tUnitSt with granted := false }, tChan { st := .running, units := [{ tUnitSt with granted := false }] }, by decide⟩,
   ⟨0, 0, { raw := [0x12] ++ List.replicate 63 0 }, { tJob { st := .running, iter := 2 ^ 40 } with qm := ⟨{ ctxs := [(0, { ctx := tCtx, poss := [{ tJobP with descs := [{ raw := [0x12] ++ List.replicate 63 0 }] }] })] }, {}⟩ }, by decide⟩,
   ⟨0, 0, 0, tUp, by decide⟩,
   ⟨0, 0, 0, tUp, by decide⟩⟩

theorem witness_InvalidationCommands :
    (∃ (i : Inst) (a : Acc) (lg : BitVec 6) (s : State), s.Serves i.val ∧ s.Free (atuPage i.val 0) ∧ s.fld (atuR i.val 0 0x4C) 0 1 = 0 ∧ 26 ≤ lg.toNat ∧ lg.toNat ≤ 50) ∧
    (∃ (i : Inst) (a : Acc) (lg : BitVec 6) (s : State), s.Serves i.val ∧ s.Free (atuPage i.val 0) ∧ s.fld (atuR i.val 0 0x4C) 0 1 = 0 ∧ (lg.toNat < 26 ∨ 50 < lg.toNat)) ∧
    (∃ (i : Inst) (a : Acc) (lg : BitVec 6) (s : State), s.Serves i.val ∧ s.Free (atuPage i.val 0) ∧ s.fld (atuR i.val 0 0x4C) 0 1 = 1) ∧
    (∃ (i : Inst) (a : Acc) (s : State), s.Serves i.val ∧ s.Free (atuPage i.val 0) ∧ s.fld (atuR i.val 0 0x4C) 0 1 = 0) ∧
    (∃ (i : Inst) (a : Acc) (lg : BitVec 6) (s : State), s.Serves i.val ∧ s.Free (atuPage i.val 0) ∧ s.fld (atuR i.val 0 0x4C) 0 1 = 0 ∧ 21 ≤ lg.toNat) ∧
    (∃ (i : Inst) (a : Acc) (s : State), s.Serves i.val ∧ s.Free (atuPage i.val 0) ∧ s.fld (atuR i.val 0 0x4C) 0 1 = 0) ∧
    (∃ (i : Inst) (a : Acc) (s : State), s.Serves i.val ∧ s.Free (atuPage i.val 0) ∧ s.fld (atuR i.val 0 0x4C) 0 1 = 0) ∧
    (∃ (i : Inst) (p : Part) (a : Acc) (v : W64) (s : State), s.Serves i.val ∧ s.Free (atuPage i.val 0)) :=
  ⟨⟨0, ⟨true, 0, 0⟩, 26, tUp, by decide⟩,
   ⟨0, ⟨true, 0, 0⟩, 25, tUp, by decide⟩,
   ⟨0, ⟨true, 0, 0⟩, 25, tUp.setR (atuR 0 0 0x4C) 1, by decide⟩,
   ⟨0, ⟨true, 0, 0⟩, tUp, by decide⟩,
   ⟨0, ⟨true, 0, 0⟩, 21, tUp, by decide⟩,
   ⟨0, ⟨true, 0, 0⟩, tUp, by decide⟩,
   ⟨0, ⟨true, 0, 0⟩, tUp, by decide⟩,
   ⟨0, 0, ⟨true, 0, 0⟩, 1, tUp, by decide⟩⟩

theorem witness_AcceptedInvalidationClears : (daAll 0).site = none := by decide

theorem witness_InvalidationsRun :
    (∃ (p : Port) (tag : Fin 32) (pasid : Option (BitVec 20)) (g : Bool) (addr : W64) (lg : Fin 65) (s : State), s.Serves 0 ∧ (server (invalidate s 0 (.ats p.val tag.val) { key := .host (groupOf s p.val) (pasid.map BitVec.toNat), base := alignDown addr.toNat (2 ^ lg.val), size := 2 ^ lg.val, glob := g }) 1).isSome = true ∧ (server (invalidate (invalidate s 0 (.ats p.val tag.val) { key := .host (groupOf s p.val) (pasid.map BitVec.toNat), base := alignDown addr.toNat (2 ^ lg.val), size := 2 ^ lg.val, glob := g }) 1 (.ats p.val tag.val) { key := .host (groupOf s p.val) (pasid.map BitVec.toNat), base := alignDown addr.toNat (2 ^ lg.val), size := 2 ^ lg.val, glob := g }) 0).isSome = true) ∧
    (∃ (i : Inst) (src : InvSrc) (v : InvScope) (r : List (InvSrc × InvScope)) (s : State), s.Serves i.val ∧ (s.atu.get i.val).invWait = (src, v) :: r ∧ (s.atu.get i.val).invs.length < 64) ∧
    (∃ (i : Inst) (e : BitVec 16) (ls : List Leaf) (v : Inv) (s : State), s.Serves i.val ∧ (s.atu.get i.val).invs.find? (fun v => v.epoch == e.toNat) = some v ∧ drained s i.val v = true ∧ v.sites = [] ∧ dirtyPorts s i.val v.scope = [] ∧ v.src = .cmd ∧ v.scope.site = none ∧ (∀ p, v.scope.key ≠ .da p)) ∧
    (∃ (i : Inst) (e : BitVec 16) (v : Inv) (s : State), s.Serves i.val ∧ (s.atu.get i.val).invs.find? (fun v => v.epoch == e.toNat && !v.expired) = some v ∧ drainChans (s.updAtu i.val fun a => { a with invs := a.invs.map fun x => if x = v then { x with expired := true } else x }) i.val v = [] ∧ drainRings (s.updAtu i.val fun a => { a with invs := a.invs.map fun x => if x = v then { x with expired := true } else x }) i.val v = []) ∧
    (∃ (i : Inst) (e : BitVec 16) (v : Inv) (c : Nat) (u : URec) (s : State), s.Serves i.val ∧ (s.atu.get i.val).invs.find? (fun v => v.epoch == e.toNat && !v.expired) = some v ∧ drainChans (s.updAtu i.val fun a => { a with invs := a.invs.map fun x => if x = v then { x with expired := true } else x }) i.val v = [(c, u)] ∧ (s.chan c).st = .running ∧ drainRings (s.updAtu i.val fun a => { a with invs := a.invs.map fun x => if x = v then { x with expired := true } else x }) i.val v = []) ∧
    (∃ (k : Site) (ls : List Leaf) (i : Nat) (v : Inv) (s : State), s.Up ∧ invAwaiting s k.val = some (i, v)) ∧
    (∃ (k : Site) (ls : List Leaf) (i : Nat) (v : Inv) (s : State), s.Up ∧ invAwaiting s k.val = some (i, v)) :=
  ⟨⟨0, 0, none, false, 0, 21, tUp, by decide⟩,
   ⟨0, .other, daAll 0, [], { tUp with atu := ⟨{ invWait := [(.other, daAll 0)] }, {}⟩ }, by decide⟩,
   ⟨0, 1, [], { tInv with scope := { key := .host 0 none, base := 0, size := 2 ^ 64 } }, { tUp with atu := ⟨{ invs := [{ tInv with scope := { key := .host 0 none, base := 0, size := 2 ^ 64 } }] }, {}⟩ }, by decide, by decide, by decide, by decide, by decide, by decide, by decide, by intro p; simp⟩,
   ⟨0, 1, tInv, tInvS, by decide⟩,
   ⟨0, 1, tInv, 0, tUnit, { tJob { st := .running } with atu := ⟨{ epoch := 1, invs := [tInv] }, {}⟩ }, by decide⟩,
   ⟨0, [], 0, { tInv with sites := [0] }, { tUp with atu := ⟨{ epoch := 1, invs := [{ tInv with sites := [0] }] }, {}⟩ }, by decide⟩,
   ⟨0, [], 0, { tInv with sites := [0] }, { tUp with atu := ⟨{ epoch := 1, invs := [{ tInv with sites := [0] }] }, {}⟩ }, by decide⟩⟩

theorem witness_WindowsAndTables :
    (∃ (i : Inst) (p : Part) (w : Fin 16) (a : Acc) (v : W64) (s : State), s.Serves i.val ∧ s.Free (atuPage i.val 1) ∧ s.NoLate ∧ winOk v.toNat = true ∧ s.r (atuR i.val 1 (0x800 + 0x80 * p.val + 8 * w.val)) ≠ v.toNat &&& 0xffffffffffe03f7f) ∧
    (∃ (i : Inst) (p : Part) (w : Fin 16) (a : Acc) (v : W64) (s : State), s.Serves i.val ∧ s.Free (atuPage i.val 1) ∧ s.NoLate ∧ winOk v.toNat = false) ∧
    (∃ (i : Inst) (p : Part) (w : Fin 8) (a : Acc) (v : W64) (s : State), s.Serves i.val ∧ s.Free (atuPage i.val 2) ∧ s.NoLate ∧ peerOk s i.val v.toNat = true ∧ s.r (atuR i.val 2 (0x400 + 0x40 * p.val + 8 * w.val)) ≠ v.toNat &&& 0x3f0f77) ∧
    (∃ (i : Inst) (p : Part) (a : Acc) (v : W32) (ls : List Leaf) (s : State), s.Serves i.val ∧ s.Free (atuPage i.val 2) ∧ s.NoLate) ∧
    (∃ (i : Inst) (a : Acc) (s : State), s.Serves i.val ∧ s.Free (atuPage i.val 3) ∧ s.fld (atuR i.val 3 0x48) 0 1 = 0) ∧
    (∃ (i : Inst) (a : Acc) (s : State), s.Serves i.val ∧ s.Free (atuPage i.val 3) ∧ s.fld (atuR i.val 3 0x48) 0 1 = 0 ∧ rtOwned s i.val (s.fld (atuR i.val 3 0x40) 0 8) = true ∧ bits (s.r (atuR i.val 3 0x58)) 0 13 ≤ bits (s.r (atuR i.val 3 0x58)) 16 13 ∧ bits (s.r (atuR i.val 3 0x58)) 16 13 ≤ 6143) ∧
    (∃ (i : Inst) (n d0 d1 : Nat) (s : State), s.Serves i.val ∧ s.rtWait.get i.val = some (n, d0, d1)) ∧
    (∃ (i : Inst) (a : Acc) (v : W32) (w r : Nat) (s : State), s.Serves i.val ∧ s.Free (atuPage i.val 3) ∧ convWin s i.val (bits v.toNat 8 4) (if bitAt v.toNat 0 then some (bits v.toNat 4 2) else none) (bitAt v.toNat 0) (s.r (atuR i.val 3 0x80)) = some (w, r)) ∧
    (∃ (i : Inst) (a : Acc) (v : W32) (s : State), s.Serves i.val ∧ s.Free (atuPage i.val 3) ∧ convWin s i.val (bits v.toNat 8 4) (if bitAt v.toNat 0 then some (bits v.toNat 4 2) else none) (bitAt v.toNat 0) (s.r (atuR i.val 3 0x80)) = none) ∧
    (∃ (i : Inst) (a : Acc) (k : Fin 16) (p : Part) (ls : List Leaf) (s : State), s.Serves i.val ∧ s.Free (atuPage i.val 2) ∧ s.fld (atuR i.val 2 0x48) 0 1 = 0 ∧ sptCheck s i.val k.val p.val = none) ∧
    (∃ (i : Inst) (a : Acc) (k : Fin 16) (p : Part) (s : State), s.Serves i.val ∧ s.Free (atuPage i.val 2) ∧ s.fld (atuR i.val 2 0x48) 0 1 = 0 ∧ sptCheck s i.val k.val p.val = none) :=
  ⟨⟨0, 0, 0, ⟨true, 0, 0⟩, 2, tUp, by decide⟩,
   ⟨0, 0, 0, ⟨true, 0, 0⟩, 1, tUp, by decide⟩,
   ⟨0, 0, 0, ⟨true, 0, 0⟩, 2, tUp, by decide⟩,
   ⟨0, 0, ⟨true, 0, 0⟩, 0, [], tUp, by decide⟩,
   ⟨0, ⟨true, 0, 0⟩, tUp, by decide⟩,
   ⟨0, ⟨true, 0, 0⟩, tUp, by decide⟩,
   ⟨0, 0, 0, 0, { tUp with rtWait := ⟨some (0, 0, 0), none⟩ }, by decide⟩,
   ⟨0, ⟨true, 0, 0⟩, 0, 0, 0, (tUp.setR (atuR 0 1 0x800) 0x1501).setR (atuR 0 3 0x80) (2 ^ 50), by decide⟩,
   ⟨0, ⟨true, 0, 0⟩, 0, tUp, by decide⟩,
   ⟨0, ⟨true, 0, 0⟩, 0, 0, [], (({ tUp with sch := ⟨{ parts := [(0, { sites := 1, wbase := 0, wsize := 1 })] }, {}⟩ } : State).setR (atuR 0 2 0x58) 1), by decide⟩,
   ⟨0, ⟨true, 0, 0⟩, 0, 0, (({ tUp with sch := ⟨{ parts := [(0, { sites := 1, wbase := 0, wsize := 1 })] }, {}⟩ } : State).setR (atuR 0 2 0x58) 1), by decide⟩⟩

theorem witness_WalksAndRequests :
    (∃ (i : Inst) (m : Miss) (p : Nat) (s : State), s.Serves i.val ∧ fnHeld s i.val .atu = false ∧ (s.atu.get i.val).misses.find? (fun m => !m.sent && (match m.key with | .da _ => true | _ => false)) = some m ∧ m.key = .da p ∧ ((s.atu.get i.val).walks.any fun w => w.part == p && w.addr / 2 ^ 26 == m.iova / 2 ^ 26) = false ∧ bitAt (ptRoot s i.val p) 0 = true ∧ (s.atu.get i.val).walks.length < 32) ∧
    (∃ (i : Inst) (m : Miss) (p : Nat) (s : State), s.Serves i.val ∧ fnHeld s i.val .atu = false ∧ (s.atu.get i.val).misses.find? (fun m => !m.sent && (match m.key with | .da _ => true | _ => false)) = some m ∧ m.key = .da p ∧ ((s.atu.get i.val).walks.any fun w => w.part == p && w.addr / 2 ^ 26 == m.iova / 2 ^ 26) = false ∧ bitAt (ptRoot s i.val p) 0 = false) ∧
    (∃ (i : Inst) (p : Part) (addr ent : W64) (press : NifPress) (w : Walk) (s : State), s.Serves i.val ∧ (s.atu.get i.val).walks.find? (fun w => w.part == p.val && w.addr == addr.toNat) = some w ∧ w.redo = false ∧ bitAt ent.toNat 0 = false) ∧
    (∃ (i : Inst) (p : Part) (addr ent : W64) (st : Rsp) (press : NifPress) (w : Walk) (s : State), s.Serves i.val ∧ (s.atu.get i.val).walks.find? (fun w => w.part == p.val && w.addr == addr.toNat) = some w ∧ w.redo = false ∧ st ≠ .ok ∧ st ≠ .range) ∧
    (∃ (i : Inst) (p : Part) (addr ent : W64) (press : NifPress) (w : Walk) (s : State), s.Serves i.val ∧ (s.atu.get i.val).walks.find? (fun w => w.part == p.val && w.addr == addr.toNat) = some w ∧ w.redo = false ∧ w.level = 3 ∧ bitAt ent.toNat 0 = true ∧ bitAt ent.toNat 1 = true ∧ aligned (bits ent.toNat 12 40 * 4096) (2 ^ 26) = true) ∧
    (∃ (i : Inst) (m : Miss) (g port : Nat) (pasid : Option Nat) (s : State), s.Serves i.val ∧ fnHeld s i.val .atu = false ∧ (s.atu.get i.val).misses.find? (fun m => (missEntry s i.val m).any fun e => m.served e.rd e.wr) = none ∧ (s.atu.get i.val).misses.find? (fun m => !m.sent && m.prg.isNone && (match m.key with | .host g p => (atcFind s i.val g p m.iova).isNone && (anyPort s g).isSome | _ => false)) = some m ∧ m.key = .host g pasid ∧ (s.atu.get i.val).treqs = [] ∧ anyPort s g = some port) ∧
    (∃ (i : Inst) (g : Group) (pasid : Option (BitVec 20)) (chunk : W64) (l : HostLeaf) (st : Rsp) (r : Treq) (s : State), s.Serves i.val ∧ (s.atu.get i.val).treqs.find? (fun x => x.group == g.val && x.pasid == pasid.map BitVec.toNat && x.chunk == chunk.toNat) = some r ∧ r.redo = false ∧ st ≠ .ok) ∧
    (∃ (i : Inst) (g : Group) (pasid : Option (BitVec 20)) (chunk : W64) (l : HostLeaf) (r : Treq) (s : State), s.Serves i.val ∧ (s.atu.get i.val).treqs.find? (fun x => x.group == g.val && x.pasid == pasid.map BitVec.toNat && x.chunk == chunk.toNat) = some r ∧ r.redo = false ∧ (l.rd || l.wr) = true ∧ 21 ≤ l.log2) :=
  ⟨⟨0, tMissDa, 0, ({ tUp with atu := ⟨{ misses := [tMissDa] }, {}⟩ } : State).setR (atuR 0 0 0x80) 1, by decide⟩,
   ⟨0, tMissDa, 0, { tUp with atu := ⟨{ misses := [tMissDa] }, {}⟩ }, by decide⟩,
   ⟨0, 0, 0, 0, ⟨2, 1⟩, tWalk, { tUp with atu := ⟨{ walks := [tWalk] }, {}⟩ }, by decide⟩,
   ⟨0, 0, 0, 0, .noc, ⟨2, 1⟩, tWalk, { tUp with atu := ⟨{ walks := [tWalk] }, {}⟩ }, by decide⟩,
   ⟨0, 0, 0, 3, ⟨2, 1⟩, tWalk, { tUp with atu := ⟨{ walks := [tWalk] }, {}⟩ }, by decide⟩,
   ⟨0, tMissHost, 0, 0, none, { tAttached with atu := ⟨{ misses := [tMissHost] }, {}⟩ }, by decide⟩,
   ⟨0, 0, none, 0, { taddr := 0, log2 := 21, rd := true, wr := true, glob := false }, .ur, tTreq, { tUp with atu := ⟨{ treqs := [tTreq] }, {}⟩ }, by decide⟩,
   ⟨0, 0, none, 0, { taddr := 0, log2 := 21, rd := true, wr := true, glob := false }, tTreq, { tUp with atu := ⟨{ treqs := [tTreq] }, {}⟩ }, by decide⟩⟩

theorem witness_PageRequestsAndHolds :
    (∃ (i : Inst) (s : State), s.Serves i.val ∧ fnHeld s i.val .prq = false) ∧
    (∃ (p : Port) (pasid : Option (BitVec 20)) (idx : BitVec 9) (i n : Nat) (g : Prg) (s : State), s.Up ∧ prgMatch s p.val (pasid.map BitVec.toNat) idx.toNat = some (i, n, g) ∧ g.quarantined = false) ∧
    (∃ (p : Port) (pasid : Option (BitVec 20)) (idx : BitVec 9) (s : State), s.Up ∧ prgMatch s p.val (pasid.map BitVec.toNat) idx.toNat = none) ∧
    (∃ (i : Inst) (n : Nat) (g : Prg) (s : State), s.Serves i.val ∧ Tbl.find (s.prq.get i.val).groups n = some g ∧ g.quarantined = false ∧ g.port.isSome = true ∧ g.timeout ≠ 0) ∧
    (∃ (i : Inst) (s : State), s.Serves i.val ∧ fnHeld s i.val .acc = false) ∧
    (∃ (i : Inst) (a : Acc) (s : State), s.Serves i.val ∧ s.Free (accPage i.val) ∧ (holdOf s i.val (s.fld (accR i.val 0x100) 0 3)).st = 0 ∧ bitAt (s.r (accR i.val 0x108)) 0 = false ∧ 26 ≤ s.fld (accR i.val 0x118) 0 6 ∧ s.fld (accR i.val 0x118) 0 6 ≤ 50 ∧ bitAt (s.r (accR i.val 0x118)) 31 = false) ∧
    (∃ (i : Inst) (a : Acc) (s : State), s.Serves i.val ∧ s.Free (accPage i.val) ∧ (holdOf s i.val (s.fld (accR i.val 0x100) 0 3)).st ≠ 0) ∧
    (∃ (i : Inst) (h : Fin 8) (s : State), s.Serves i.val ∧ (holdOf s i.val h.val).st = 1 ∧ holdQuiet s i.val (holdOf s i.val h.val) = true) ∧
    (∃ (i : Inst) (h : Fin 8) (s : State), s.Serves i.val ∧ (holdOf s i.val h.val).active = true ∧ (holdOf s i.val h.val).waiters = []) ∧
    (∃ (i : Inst) (a : Acc) (ls : List Leaf) (g : Nat) (p : Option Nat) (s : State), s.Serves i.val ∧ s.Free (accPage i.val) ∧ (holdOf s i.val (s.fld (accR i.val 0x100) 0 3)).st ≠ 0 ∧ (holdOf s i.val (s.fld (accR i.val 0x100) 0 3)).key = .host g p) ∧
    (∃ (i : Inst) (a : Acc) (ls : List Leaf) (s : State), s.Serves i.val ∧ s.Free (accPage i.val) ∧ (holdOf s i.val (s.fld (accR i.val 0x100) 0 3)).st = 0) :=
  ⟨⟨0, tUp, by decide⟩,
   ⟨0, none, 0, 0, 0, tPrg, { tUp with prq := ⟨{ groups := [(0, tPrg)] }, {}⟩ }, by decide⟩,
   ⟨0, none, 0, tUp, by decide⟩,
   ⟨0, 0, tPrgT, { tUp with prq := ⟨{ groups := [(0, tPrgT)] }, {}⟩ }, by decide⟩,
   ⟨0, tUp, by decide⟩,
   ⟨0, ⟨true, 0, 0⟩, tUp.setR (accR 0 0x118) 26, by decide⟩,
   ⟨0, ⟨true, 0, 0⟩, { tUp with acc := ⟨{ holds := [(0, { st := 1 })] }, {}⟩ }, by decide⟩,
   ⟨0, 0, { tUp with acc := ⟨{ holds := [(0, { st := 1 })] }, {}⟩ }, by decide⟩,
   ⟨0, 0, { tUp with acc := ⟨{ holds := [(0, { st := 1 })] }, {}⟩ }, by decide⟩,
   ⟨0, ⟨true, 0, 0⟩, [], 0, none, { tUp with acc := ⟨{ holds := [(0, { st := 1, key := .host 0 none })] }, {}⟩ }, by decide⟩,
   ⟨0, ⟨true, 0, 0⟩, [], tUp, by decide⟩⟩

theorem witness_HostSnoopsOfALine :
    (∃ (p : Port) (hpa : W64) (i : Nat) (l : Line) (s : State), s.Up ∧ lineServer s (groupOf s p.val) = some i ∧ cachePort s (groupOf s p.val) = some p.val ∧ (s.port p.val).link = .up ∧ (s.hl i).txns = [] ∧ s.line? i (lineKey (groupOf s p.val) hpa.toNat) = some l ∧ l.ring = false ∧ l.owner = none ∧ l.st ≠ .m) ∧
    (∃ (p : Port) (hpa : W64) (i : Nat) (l : Line) (s : State), s.Up ∧ lineServer s (groupOf s p.val) = some i ∧ cachePort s (groupOf s p.val) = some p.val ∧ (s.port p.val).link = .up ∧ (s.hl i).txns = [] ∧ s.line? i (lineKey (groupOf s p.val) hpa.toNat) = some l ∧ l.owner = none) ∧
    (∃ (p : Port) (hpa : W64) (i : Nat) (l : Line) (s : State), s.Up ∧ lineServer s (groupOf s p.val) = some i ∧ cachePort s (groupOf s p.val) = some p.val ∧ (s.port p.val).link = .up ∧ (s.hl i).txns = [] ∧ s.line? i (lineKey (groupOf s p.val) hpa.toNat) = some l ∧ l.owner = none) ∧
    (∃ (p : Port) (hpa : W64) (i : Nat) (l : Line) (s : State), s.Up ∧ lineServer s (groupOf s p.val) = some i ∧ cachePort s (groupOf s p.val) = some p.val ∧ (s.port p.val).link = .up ∧ (s.hl i).txns = [] ∧ s.line? i (lineKey (groupOf s p.val) hpa.toNat) = some l ∧ (l.st = .m ∨ l.ring = true ∨ l.owner.isSome = true) ∧ ringSites s i ≠ [] ∧ ringsUp s i < 64) ∧
    (∃ (p : Port) (hpa : W64) (i : Nat) (l : Line) (s : State), s.Up ∧ lineServer s (groupOf s p.val) = some i ∧ cachePort s (groupOf s p.val) = some p.val ∧ (s.port p.val).link = .up ∧ (s.hl i).txns = [] ∧ s.line? i (lineKey (groupOf s p.val) hpa.toNat) = some l ∧ l.owner.isSome = true ∧ ringSites s i ≠ [] ∧ ringsUp s i < 64) ∧
    (∃ (p : Port) (hpa : W64) (i : Nat) (l : Line) (s : State), s.Up ∧ lineServer s (groupOf s p.val) = some i ∧ cachePort s (groupOf s p.val) = some p.val ∧ (s.port p.val).link = .up ∧ (s.hl i).txns = [] ∧ s.line? i (lineKey (groupOf s p.val) hpa.toNat) = some l ∧ l.owner.isSome = true ∧ ringSites s i ≠ [] ∧ ringsUp s i < 64) ∧
    (∃ (p : Port) (hpa : W64) (i : Nat) (s : State), s.Up ∧ lineServer s (groupOf s p.val) = some i ∧ cachePort s (groupOf s p.val) = some p.val ∧ (s.port p.val).link = .up ∧ (s.hl i).txns = [] ∧ s.line? i (lineKey (groupOf s p.val) hpa.toNat) = none ∧ Tbl.find (s.hl i).ptags (lineKey (groupOf s p.val) hpa.toNat) = none) ∧
    (∃ (p : Port) (hpa : W64) (i : Nat) (s : State), s.Up ∧ lineServer s (groupOf s p.val) = some i ∧ cachePort s (groupOf s p.val) = some p.val ∧ (s.port p.val).link = .up ∧ (s.hl i).txns = [] ∧ s.line? i (lineKey (groupOf s p.val) hpa.toNat) = none ∧ Tbl.find (s.hl i).ptags (lineKey (groupOf s p.val) hpa.toNat) = none) ∧
    (∃ (p : Port) (hpa : W64) (i : Nat) (s : State), s.Up ∧ lineServer s (groupOf s p.val) = some i ∧ cachePort s (groupOf s p.val) = some p.val ∧ (s.port p.val).link = .up ∧ (s.hl i).txns = [] ∧ s.line? i (lineKey (groupOf s p.val) hpa.toNat) = none ∧ Tbl.find (s.hl i).ptags (lineKey (groupOf s p.val) hpa.toNat) = none) ∧
    (∃ (p : Port) (hpa : W64) (s : State), s.Up ∧ cachePort s (groupOf s p.val) ≠ some p.val) ∧
    (∃ (p : Port) (hpa : W64) (s : State), s.Up ∧ cachePort s (groupOf s p.val) ≠ some p.val) ∧
    (∃ (p : Port) (hpa : W64) (s : State), s.Up ∧ cachePort s (groupOf s p.val) ≠ some p.val) :=
  ⟨⟨0, 0x1000, 0, { tLine with st := .e }, tCxl { lines := [(lineKey 0 0x1000, { tLine with st := .e })] }, by decide⟩,
   ⟨0, 0x1000, 0, tLine, tLines, by decide⟩,
   ⟨0, 0x1000, 0, tLine, tLines, by decide⟩,
   ⟨0, 0x1000, 0, tLine, tRingS, by decide⟩,
   ⟨0, 0x1000, 0, { tLine with owner := some 0 }, tRingO, by decide⟩,
   ⟨0, 0x1000, 0, { tLine with owner := some 0 }, tRingO, by decide⟩,
   ⟨0, 0, 0, tLines, by decide⟩,
   ⟨0, 0, 0, tLines, by decide⟩,
   ⟨0, 0, 0, tLines, by decide⟩,
   ⟨1, 0, tLines, by decide⟩,
   ⟨1, 0, tLines, by decide⟩,
   ⟨1, 0, tLines, by decide⟩⟩

theorem witness_CacheCommandsAct :
    (∃ (i : Inst) (a : Acc) (v : W32) (s : State), s.Serves i.val ∧ s.Free (hlcPage i.val) ∧ (∀ g : Fin 4, bitAt (v.toNat % 16) g.val = true → bitAt (s.r (hlcR (carrier s i.val) 0x40)) g.val = true ∨ cohEn s (partner (carrier s i.val)) g.val = false) ∧ (∀ g : Fin 4, bitAt (v.toNat % 16) g.val = false → bitAt (s.r (hlcR (carrier s i.val) 0x40)) g.val = false ∨ (s.hl (carrier s i.val)).lines.any (fun e => keyGroup e.1 == g.val) = false)) ∧
    (∃ (i : Inst) (a : Acc) (v : W32) (g : Fin 4) (s : State), s.Serves i.val ∧ s.Free (hlcPage i.val) ∧ bitAt (v.toNat % 16) g.val = true ∧ bitAt (s.r (hlcR (carrier s i.val) 0x40)) g.val = false ∧ cohEn s (partner (carrier s i.val)) g.val = true) ∧
    (∃ (i : Inst) (a : Acc) (v : W32) (g : Fin 4) (s : State), s.Serves i.val ∧ s.Free (hlcPage i.val) ∧ bitAt (v.toNat % 16) g.val = false ∧ bitAt (s.r (hlcR (carrier s i.val) 0x40)) g.val = true ∧ (s.hl (carrier s i.val)).lines.any (fun e => keyGroup e.1 == g.val) = true) ∧
    (∃ (i : Inst) (a : Acc) (g : Group) (s : State), s.Serves i.val ∧ s.Free (hlcPage i.val) ∧ s.fld (hlcR (carrier s i.val) 0x50) 0 1 = 0 ∧ cohEn s (carrier s i.val) g.val = true) ∧
    (∃ (i : Inst) (a : Acc) (g : Group) (s : State), s.Serves i.val ∧ s.Free (hlcPage i.val) ∧ s.fld (hlcR (carrier s i.val) 0x50) 0 1 = 0 ∧ cohEn s (carrier s i.val) g.val = false) ∧
    (∃ (i : Inst) (a : Acc) (g : Group) (s : State), s.Serves i.val ∧ s.Free (hlcPage i.val) ∧ s.fld (hlcR (carrier s i.val) 0x50) 0 1 = 1) ∧
    (∃ (i : Inst) (a : Acc) (g : Group) (s : State), s.Serves i.val ∧ s.Free (hlcPage i.val) ∧ s.fld (hlcR (carrier s i.val) 0x50) 0 1 = 0 ∧ cohEn s (carrier s i.val) g.val = true) ∧
    (∃ (i : Inst) (a : Acc) (g : Group) (s : State), s.Serves i.val ∧ s.Free (hlcPage i.val) ∧ s.fld (hlcR (carrier s i.val) 0x50) 0 1 = 0 ∧ cohEn s (carrier s i.val) g.val = false) ∧
    (∃ (i : Inst) (a : Acc) (g : Group) (s : State), s.Serves i.val ∧ s.Free (hlcPage i.val) ∧ s.fld (hlcR (carrier s i.val) 0x50) 0 1 = 1) ∧
    (∃ (i : Inst) (s : State), s.Up ∧ alive s i.val = true ∧ (s.hl i.val).flush = none) ∧
    (∃ (i : Inst) (op g : Nat) (s : State), s.Up ∧ alive s i.val = true ∧ (s.hl i.val).flush = some (op, g) ∧ (s.hl i.val).lines.any (fun e => keyGroup e.1 == g && e.2.owner.isSome) = true) ∧
    (∃ (i : Inst) (op g : Nat) (s : State), s.Up ∧ alive s i.val = true ∧ (s.hl i.val).flush = some (op, g) ∧ (op = 1 ∨ op = 2) ∧ (s.hl i.val).txns.any (fun t => keyGroup t.key == g && t.work == .flush) = false ∧ (∀ e ∈ (s.hl i.val).lines, keyGroup e.1 = g → op = 1 ∧ e.2.owner = none ∧ e.2.st ≠ .m)) ∧
    (∃ (i : Inst) (a : Acc) (k : Site) (s : State), s.Serves i.val ∧ s.Free (hlcPage i.val)) ∧
    (∃ (i : Inst) (k : Nat) (r : Tbl LineSt) (s : State), s.Up ∧ alive s i.val = true ∧ (s.hl i.val).all = [] ∧ (s.hl i.val).due = [] ∧ (∀ k : Fin 12, (s.site k.val).taking ≠ some i.val) ∧ (s.hl i.val).ptags = (k, .m) :: r) ∧
    (∃ (i : Inst) (k : Nat) (r : Tbl LineSt) (s : State), s.Up ∧ alive s i.val = true ∧ (s.hl i.val).all = [] ∧ (s.hl i.val).due = [] ∧ (∀ k : Fin 12, (s.site k.val).taking ≠ some i.val) ∧ (s.hl i.val).ptags = (k, .e) :: r) ∧
    (∃ (i : Inst) (k : Nat) (r : Tbl LineSt) (s : State), s.Up ∧ alive s i.val = true ∧ (s.hl i.val).all = [] ∧ (s.hl i.val).due = [] ∧ (∀ k : Fin 12, (s.site k.val).taking ≠ some i.val) ∧ (s.hl i.val).ptags = (k, .s) :: r) ∧
    (∃ (i : Inst) (s : State), s.Up ∧ alive s i.val = true ∧ ((s.hl i.val).ptags = [] ∨ ((s.hl i.val).all ++ (s.hl i.val).due).any (fun r => r.op == 4) = true ∨ ∃ k : Fin 12, (s.site k.val).taking = some i.val)) :=
  ⟨⟨0, ⟨true, 0, 0⟩, 0x12, tCxl {}, by decide⟩,
   ⟨1, ⟨true, 0, 0⟩, 1, 0, tCxl {}, by decide⟩,
   ⟨0, ⟨true, 0, 0⟩, 2, 0, tLines, by decide⟩,
   ⟨0, ⟨true, 0, 0⟩, 0, tCxl {}, by decide⟩,
   ⟨0, ⟨true, 0, 0⟩, 1, tCxl {}, by decide⟩,
   ⟨0, ⟨true, 0, 0⟩, 1, (tCxl {}).setR (hlcR 0 0x50) 1, by decide⟩,
   ⟨0, ⟨true, 0, 0⟩, 0, tCxl {}, by decide⟩,
   ⟨0, ⟨true, 0, 0⟩, 1, tCxl {}, by decide⟩,
   ⟨0, ⟨true, 0, 0⟩, 1, (tCxl {}).setR (hlcR 0 0x50) 1, by decide⟩,
   ⟨0, tCxl {}, by decide⟩,
   ⟨0, 1, 0, tCxl { flush := some (1, 0), lines := [(lineKey 0 0x1000, { tLine with owner := some 2 })] }, by decide⟩,
   ⟨0, 1, 0, tCxl { flush := some (1, 0) }, by decide⟩,
   ⟨0, ⟨true, 0, 0⟩, 1, tUp, by decide⟩,
   ⟨0, 5, [], tCxl { ptags := [(5, .m)] }, by decide⟩,
   ⟨0, 5, [], tCxl { ptags := [(5, .e)] }, by decide⟩,
   ⟨0, 5, [], tCxl { ptags := [(5, .s)] }, by decide⟩,
   ⟨0, tCxl {}, by decide⟩⟩

theorem witness_StationLinesAndGo :
    (∃ (i : Inst) (r : HlcReq) (rest : List HlcReq) (s : State), s.Up ∧ alive s i.val = true ∧ fnHeld s i.val .hlc = false ∧ (s.hl i.val).stWait.find? (stReady s) = none ∧ (s.hl i.val).queue = r :: rest) ∧
    (∃ (k : Site) (slot : BitVec 6) (tag ctag : BitVec 16) (addr : W64) (so : BitVec 5) (h p : Nat) (e : SptEnt) (y : State) (u : URec) (s : State), s.Up ∧ partAt s k.val = some (h, p) ∧ (Tbl.getD s.spt k.val []).find? (fun e => e.part == p && e.base ≤ alignDown addr.toNat 64 && alignDown addr.toNat 64 + 64 ≤ e.base + e.size) = some e ∧ (e.kind = .hlc ∨ e.kind = .host) ∧ fnHeld s h .hlc = false ∧ e.rd = true ∧ xlateAt s ⟨h, p, 0, pasidOf s h (ctag.toNat % 4096)⟩ 0 (alignDown addr.toNat 64) true false = (y, .unit u)) ∧
    (∃ (k : Site) (slot : BitVec 6) (tag ctag : BitVec 16) (addr : W64) (so : BitVec 5) (h p : Nat) (e : SptEnt) (y : State) (u : URec) (s : State), s.Up ∧ partAt s k.val = some (h, p) ∧ (Tbl.getD s.spt k.val []).find? (fun e => e.part == p && e.base ≤ alignDown addr.toNat 64 && alignDown addr.toNat 64 + 64 ≤ e.base + e.size) = some e ∧ (e.kind = .hlc ∨ e.kind = .host) ∧ fnHeld s h .hlc = false ∧ e.wr = true ∧ xlateAt s ⟨h, p, 0, pasidOf s h (ctag.toNat % 4096)⟩ 0 (alignDown addr.toNat 64) false true = (y, .unit u)) ∧
    (∃ (k : Site) (slot : BitVec 6) (tag ctag : BitVec 16) (addr : W64) (so : BitVec 5) (h p : Nat) (e : SptEnt) (y : State) (key : XKey) (iova : Nat) (s : State), s.Up ∧ partAt s k.val = some (h, p) ∧ (Tbl.getD s.spt k.val []).find? (fun e => e.part == p && e.base ≤ alignDown addr.toNat 64 && alignDown addr.toNat 64 + 64 ≤ e.base + e.size) = some e ∧ (e.kind = .hlc ∨ e.kind = .host) ∧ fnHeld s h .hlc = false ∧ e.rd = true ∧ xlateAt s ⟨h, p, 0, pasidOf s h (ctag.toNat % 4096)⟩ 0 (alignDown addr.toNat 64) true false = (y, .miss key iova)) ∧
    (∃ (k : Site) (slot : BitVec 6) (tag ctag : BitVec 16) (addr : W64) (so : BitVec 5) (h p : Nat) (s : State), s.Up ∧ partAt s k.val = some (h, p) ∧ (Tbl.getD s.spt k.val []).find? (fun e => e.part == p && e.base ≤ alignDown addr.toNat 64 && alignDown addr.toNat 64 + 64 ≤ e.base + e.size) = none) ∧
    (∃ (k : Site) (slot : BitVec 6) (tag ctag : BitVec 16) (addr : W64) (so : BitVec 5) (h p : Nat) (e : SptEnt) (s : State), s.Up ∧ partAt s k.val = some (h, p) ∧ (Tbl.getD s.spt k.val []).find? (fun e => e.part == p && e.base ≤ alignDown addr.toNat 64 && alignDown addr.toNat 64 + 64 ≤ e.base + e.size) = some e ∧ (e.kind = .hlc ∨ e.kind = .host) ∧ e.wr = false) ∧
    (∃ (k : Site) (g : Group) (hpa : W64) (attr : W32) (data : List Byte) (i : Nat) (l : Line) (s : State), s.Up ∧ lineServer s g.val = some i ∧ s.line? i (lineKey g.val hpa.toNat) = some l ∧ l.owner = some k.val ∧ data.length = 64) ∧
    (∃ (k : Site) (g : Group) (hpa : W64) (attr : W32) (data : List Byte) (i : Nat) (l : Line) (s : State), s.Up ∧ lineServer s g.val = some i ∧ s.line? i (lineKey g.val hpa.toNat) = some l ∧ l.owner ≠ some k.val) ∧
    (∃ (k : Site) (g : Group) (hpa : W64) (attr : W32) (i : Nat) (l : Line) (s : State), s.Up ∧ lineServer s g.val = some i ∧ s.line? i (lineKey g.val hpa.toNat) = some l ∧ l.owner = some k.val) ∧
    (∃ (k : Site) (g : Group) (hpa : W64) (attr : W32) (i : Nat) (l : Line) (s : State), s.Up ∧ lineServer s g.val = some i ∧ s.line? i (lineKey g.val hpa.toNat) = some l ∧ l.owner ≠ some k.val) ∧
    (∃ (g : Group) (hpa : W64) (sh poison : Bool) (data : List Byte) (i port op : Nat) (x : HTxn) (s : State), s.Up ∧ goTxn s (lineKey g.val hpa.toNat) = some (i, x) ∧ x.cxl = some (port, op) ∧ op < 2 ∧ data.length = 64 ∧ cohEn s i (keyGroup (lineKey g.val hpa.toNat)) = true) ∧
    (∃ (k : Site) (tag : W32) (g : Group) (hpa : W64) (x : HTxn) (r : Ring) (s : State), s.Up ∧ flits s k.val = true ∧ ownerWorks s k.val = true ∧ (s.hl (owner s k.val)).all = [] ∧ (s.hl (owner s k.val)).txns.findSome? (fun t => match t.ring with | some rg => if rg.tag == tag.toNat && rg.sites.contains k.val then some (t, rg) else none | none => none) = some (x, r)) :=
  ⟨⟨0, tReq, [], tCxl { queue := [tReq] }, by decide⟩,
   ⟨0, 0, 0, 0, 0x4000000000000, 0, 0, 0, tSptEnt, _, _, tStAtc, by decide, by decide, by decide, by decide, by decide, by decide, rfl⟩,
   ⟨0, 0, 0, 0, 0x4000000000000, 0, 0, 0, tSptEnt, _, _, tStAtc, by decide, by decide, by decide, by decide, by decide, by decide, rfl⟩,
   ⟨0, 0, 0, 0, 0x4000000000000, 0, 0, 0, tSptEnt, _, _, _, tStHost, by decide, by decide, by decide, by decide, by decide, by decide, rfl⟩,
   ⟨0, 0, 0, 0, 0, 0, 0, 0, tStHost, by decide⟩,
   ⟨0, 0, 0, 0, 0x4000000000000, 0, 0, 0, { tSptEnt with wr := false }, { tStHost with spt := [(0, [{ tSptEnt with wr := false }])] }, by decide⟩,
   ⟨2, 0, 0x1000, 0, List.replicate 64 1, 0, { tLine with owner := some 2 }, tOwned, by decide⟩,
   ⟨1, 0, 0x1000, 0, List.replicate 64 1, 0, { tLine with owner := some 2 }, tOwned, by decide⟩,
   ⟨2, 0, 0x1000, 0, 0, { tLine with owner := some 2 }, tOwned, by decide⟩,
   ⟨1, 0, 0x1000, 0, 0, { tLine with owner := some 2 }, tOwned, by decide⟩,
   ⟨0, 0x1000, true, false, List.replicate 64 9, 0, 0, 1, tFill, tCxl { txns := [tFill] }, by decide⟩,
   ⟨0, 7, 0, 0x1000, tRung, tRing, tRinging, by decide⟩⟩

theorem witness_StationAnswersAboutCommands :
    (∃ (k : Site) (slot : BitVec 6) (job : W32) (i j : Nat) (c : Cmd) (s : State), s.Up ∧ flits s k.val = true ∧ ownerWorks s k.val = true ∧ frameCmd s k.val slot.toNat job.toNat = some (i, j, c) ∧ c.st = .running ∧ c.cls = 0) ∧
    (∃ (k : Site) (slot : BitVec 6) (job : W32) (s : State), s.Up ∧ flits s k.val = true ∧ ownerWorks s k.val = true ∧ frameCmd s k.val slot.toNat job.toNat = none) ∧
    (∃ (k : Site) (slot : BitVec 6) (job : W32) (i j : Nat) (c : Cmd) (s : State), s.Up ∧ flits s k.val = true ∧ ownerWorks s k.val = true ∧ cmdAt s k.val slot.toNat = some (i, j, c)) ∧
    (∃ (k : Site) (slot : BitVec 6) (job : W32) (arg : W64) (marks : List Byte) (st : Rsp) (i j q p : Nat) (c : Cmd) (s : State), s.Up ∧ flits s k.val = true ∧ ownerWorks s k.val = true ∧ frameCmd s k.val slot.toNat job.toNat = some (i, j, c) ∧ c.dead = false ∧ c.src = .run q p) ∧
    (∃ (k : Site) (slot : BitVec 6) (job : W32) (code engine : Byte) (addr : W64) (i j q p : Nat) (c : Cmd) (s : State), s.Up ∧ flits s k.val = true ∧ ownerWorks s k.val = true ∧ frameCmd s k.val slot.toNat job.toNat = some (i, j, c) ∧ c.dead = false ∧ c.src = .run q p) ∧
    (∃ (k : Site) (slot : BitVec 6) (job : W32) (arg : W64) (i j : Nat) (c : Cmd) (w : Ask) (s : State), s.Up ∧ flits s k.val = true ∧ ownerWorks s k.val = true ∧ frameCmd s k.val slot.toNat job.toNat = some (i, j, c) ∧ c.dead = false ∧ c.ask = some w) ∧
    (∃ (k : Site) (slot : BitVec 6) (job : W32) (arg : W64) (i j : Nat) (c : Cmd) (w : Ask) (s : State), s.Up ∧ flits s k.val = true ∧ ownerWorks s k.val = true ∧ frameCmd s k.val slot.toNat job.toNat = some (i, j, c) ∧ c.dead = false ∧ c.ask = some w) ∧
    (∃ (k : Site) (slot : BitVec 6) (job : W32) (r : Byte) (arg : W64) (i j : Nat) (c : Cmd) (w : Ask) (s : State), s.Up ∧ flits s k.val = true ∧ ownerWorks s k.val = true ∧ frameCmd s k.val slot.toNat job.toNat = some (i, j, c) ∧ c.dead = false ∧ c.ask = some w ∧ r ≠ 0 ∧ r ≠ 1 ∧ r ≠ 5) ∧
    (∃ (k : Site) (slot : BitVec 6) (job : W32) (r : Byte) (arg : W64) (i j : Nat) (c : Cmd) (s : State), s.Up ∧ flits s k.val = true ∧ ownerWorks s k.val = true ∧ frameCmd s k.val slot.toNat job.toNat = some (i, j, c) ∧ c.dead = true ∧ r ≠ 2 ∧ r ≠ 3) ∧
    (∃ (k : Site) (slot : BitVec 6) (job : W32) (i j q p : Nat) (c : Cmd) (s : State), s.Up ∧ flits s k.val = true ∧ ownerWorks s k.val = true ∧ frameCmd s k.val slot.toNat job.toNat = some (i, j, c) ∧ c.st = .sent ∧ c.barrier = none ∧ c.src = .run q p) ∧
    (∃ (k : Site) (job : W32) (code : Byte) (win : BitVec 6) (i n : Nat) (a : Nat × Act) (s : State), s.Up ∧ flits s k.val = true ∧ ownerWorks s k.val = true ∧ code ≠ 10 ∧ [0, 1].findSome? (fun i => (taskFor s i k.val code.toNat win.toNat).map fun t => (i, t)) = some (i, n, a)) :=
  ⟨⟨0, 3, 5, 0, 5, tCmd, tOnSite tCmd, by decide⟩,
   ⟨0, 3, 4, tOnSite tCmd, by decide⟩,
   ⟨0, 3, 9, 0, 5, tCmd, tOnSite tCmd, by decide⟩,
   ⟨0, 3, 5, 9, [], .ok, 0, 5, 0, 0, { tCmd with st := .committing }, tOnSite { tCmd with st := .committing }, by decide⟩,
   ⟨0, 3, 5, 1, 2, 0, 0, 5, 0, 0, tCmd, tOnSite tCmd, by decide⟩,
   ⟨0, 3, 5, 0, 0, 5, { tCmd with ask := some .preempt }, .preempt, tOnSite { tCmd with ask := some .preempt }, by decide⟩,
   ⟨0, 3, 5, 0, 0, 5, { tCmd with ask := some .preempt }, .preempt, tOnSite { tCmd with ask := some .preempt }, by decide⟩,
   ⟨0, 3, 5, 2, 0, 0, 5, { tCmd with ask := some .preempt }, .preempt, tOnSite { tCmd with ask := some .preempt }, by decide⟩,
   ⟨0, 3, 5, 1, 0, 0, 5, { tCmd with dead := true }, tOnSite { tCmd with dead := true }, by decide⟩,
   ⟨0, 3, 5, 0, 5, 0, 0, { tCmd with st := .sent }, tOnSite { tCmd with st := .sent }, by decide⟩,
   ⟨0, 0, 6, 1, 0, 0, (0, .grant 1 0 0), tGranting, by decide⟩⟩

theorem witness_StationAnswersAboutTheSite :
    (∃ (k : Site) (block : List Byte) (s : State), s.Up ∧ flits s k.val = true ∧ ownerWorks s k.val = true ∧ block.length = 64 ∧ ((s.site k.val).st = .cap ∨ (s.site k.val).st = .up ∨ (s.site k.val).st = .mismatch) ∧ fieldAt block 0 8 / 2 ^ 8 % 2 ^ 8 ≠ 1) ∧
    (∃ (k : Site) (block : List Byte) (s : State), s.Up ∧ flits s k.val = true ∧ ownerWorks s k.val = true ∧ block.length = 64 ∧ ((s.site k.val).st = .cap ∨ (s.site k.val).st = .up ∨ (s.site k.val).st = .mismatch) ∧ bits (fieldAt block 0 8) 8 8 = 1 ∧ 1 ≤ bits (fieldAt block 8 8) 0 9 ∧ bits (fieldAt block 8 8) 0 9 ≤ 256 ∧ 1 ≤ bits (fieldAt block 8 8) 16 7 ∧ bits (fieldAt block 8 8) 16 7 ≤ 64 ∧ 64 ≤ bits (fieldAt block 8 8) 32 16 ∧ 8 ≤ bits (fieldAt block 8 8) 48 7 ∧ bits (fieldAt block 8 8) 48 7 ≤ 64 ∧ 1 ≤ bits (fieldAt block 16 8) 0 16 ∧ bits (fieldAt block 16 8) 0 16 ≤ 100 ∧ 1 ≤ bits (fieldAt block 16 8) 16 16 ∧ bits (fieldAt block 16 8) 16 16 ≤ 10000 ∧ 400 ≤ bits (fieldAt block 24 8) 16 16 ∧ bits (fieldAt block 24 8) 37 27 = 0 ∧ (∀ n : Fin 4, fieldAt block (32 + 8 * n.val) 8 = 0)) ∧
    (∃ (k : Site) (block : List Byte) (s : State), s.Up ∧ flits s k.val = true ∧ ownerWorks s k.val = true ∧ block.length ≠ 64) ∧
    (∃ (k : Site) (codes : List Byte) (s : State), s.Up ∧ flits s k.val = true ∧ ownerWorks s k.val = true ∧ (s.site k.val).query = true) ∧
    (∃ (k : Site) (counts : List W32) (s : State), s.Up ∧ flits s k.val = true ∧ ownerWorks s k.val = true) ∧
    (∃ (k : Site) (code : Byte) (d : W64) (s : State), s.Up ∧ flits s k.val = true ∧ ownerWorks s k.val = true) ∧
    (∃ (k : Site) (cls : Fin 3) (code : Byte) (d : W64) (s : State), s.Up ∧ flits s k.val = true ∧ ownerWorks s k.val = true ∧ cls ≠ 0) ∧
    (∃ (k : Site) (s : State), s.Up ∧ flits s k.val = true ∧ ownerWorks s k.val = true) ∧
    (∃ (k : Site) (s : State), s.por = false ∧ ((s.site k.val).st = .absent ∨ (s.site k.val).st = .down ∨ (s.site k.val).st = .training)) ∧
    (∃ (k : Site) (s : State), s.por = false ∧ (s.site k.val).st ∉ [.absent, .down, .training]) :=
  ⟨⟨0, List.replicate 64 0, tSite { st := .cap }, by decide⟩,
   ⟨0, [0, 1, 0, 0, 0, 0, 0, 0, 1, 0, 1, 0, 64, 0, 8, 0, 1, 0, 1, 0, 0, 0, 0, 0, 0, 0, 144, 1] ++ List.replicate 36 0, tSite { st := .cap }, by decide⟩,
   ⟨0, [], tSite { st := .cap }, by decide⟩,
   ⟨0, [1], tSite { st := .up, query := true }, by decide⟩,
   ⟨0, [3], tSite { st := .up }, by decide⟩,
   ⟨0, 1, 0, tSite { st := .up }, by decide⟩,
   ⟨0, 1, 1, 0, tSite { st := .up }, by decide⟩,
   ⟨0, tSite { st := .up }, by decide⟩,
   ⟨1, tSite { st := .up }, by decide⟩,
   ⟨0, tSite { st := .up }, by decide⟩⟩

theorem witness_SiteLinkEvents :
    (∃ (k : Site) (rate : Fin 3) (width : Fin 4) (s : State), s.Up ∧ ((s.site k.val).st = .absent ∨ (s.site k.val).st = .down ∨ (s.site k.val).st = .training) ∧ rate ≠ 0 ∧ trainWidth (s.site k.val) width.val ≠ 0) ∧
    (∃ (k : Site) (bytes : List Byte) (s : State), s.Up ∧ flitBad bytes = true ∧ flits s k.val = true ∧ (nakCount (s.site k.val).sent (s.site k.val).rxSeq).2 = false) ∧
    (∃ (k : Site) (bytes : List Byte) (s : State), s.Up ∧ flitBad bytes = true ∧ flits s k.val = true ∧ (s.site k.val).sent = ((s.site k.val).rxSeq, 7)) ∧
    (∃ (k : Site) (f : NakFlit) (y : SiteRec) (s : State), s.Up ∧ flits s k.val = true ∧ (addCredits (ackUpTo s k.val f.seq.toNat) k.val f.cmd.toNat f.snp.toNat).site k.val = y ∧ y.replay ≠ [] ∧ (nakCount y.naks f.seq.toNat).2 = false) ∧
    (∃ (k : Site) (f : NakFlit) (y : SiteRec) (s : State), s.Up ∧ flits s k.val = true ∧ (addCredits (ackUpTo s k.val f.seq.toNat) k.val f.cmd.toNat f.snp.toNat).site k.val = y ∧ y.replay ≠ [] ∧ (nakCount y.naks f.seq.toNat).2 = true) ∧
    (∃ (k : Site) (ack : BitVec 12) (cmd snp : Byte) (s : State), s.Up ∧ flits s k.val = true) ∧
    (∃ (k : Site) (dir half : Bool) (s : State), s.Up ∧ (s.site k.val).st = .up ∧ ((s.site k.val).width = 3 ∨ (s.site k.val).width = b2n half + 1) ∧ (s.site k.val).lanes.getD (2 * b2n dir + b2n half) 0 < 2) ∧
    (∃ (k : Site) (dir half : Bool) (s : State), s.Up ∧ (s.site k.val).st = .up ∧ (s.site k.val).width = 3 ∧ 2 ≤ (s.site k.val).lanes.getD (2 * b2n dir + b2n half) 0) ∧
    (∃ (k : Site) (dir half : Bool) (s : State), s.Up ∧ (s.site k.val).st = .up ∧ (s.site k.val).width = b2n half + 1 ∧ 2 ≤ (s.site k.val).lanes.getD (2 * b2n dir + b2n half) 0) ∧
    (∃ (k : Site) (dir half : Bool) (s : State), s.Up ∧ ((s.site k.val).st = .absent ∨ (s.site k.val).st = .training) ∧ (s.site k.val).lanes.getD (2 * b2n dir + b2n half) 0 = 2) ∧
    (∃ (k : Site) (dir half : Bool) (s : State), s.Up ∧ (s.site k.val).st = .up ∧ (s.site k.val).width ≠ 3 ∧ (s.site k.val).width ≠ b2n half + 1) ∧
    (∃ (k : Site) (s : State), s.Up ∧ (s.site k.val).st = .retrain) ∧
    (∃ (k : Site) (s : State), s.Up ∧ (s.site k.val).st = .retrain) ∧
    (∃ (k : Site) (s : State), s.Up ∧ (s.site k.val).st = .training) ∧
    (∃ (k : Site) (s : State), s.Up ∧ (s.site k.val).st ∈ [.up, .cap, .retrain, .mismatch]) ∧
    (∃ (k : Site) (a : Acc) (s : State), s.Serves (k.val / 6) ∧ s.Free (stpPage k.val) ∧ (s.site k.val).st = .down) ∧
    (∃ (k : Site) (a : Acc) (s : State), s.Serves (k.val / 6) ∧ s.Free (stpPage k.val) ∧ ((s.site k.val).st = .up ∨ (s.site k.val).st = .retrain ∨ (s.site k.val).st = .mismatch)) ∧
    (∃ (k : Site) (a : Acc) (s : State), s.Serves (k.val / 6) ∧ s.Free (stpPage k.val) ∧ ((s.site k.val).st = .cap ∨ (s.site k.val).st = .training)) ∧
    (∃ (k : Site) (a : Acc) (s : State), s.Serves (k.val / 6) ∧ s.Free (stpPage k.val) ∧ ((s.site k.val).st = .cap ∨ (s.site k.val).st = .training)) ∧
    (∃ (k : Site) (a : Acc) (s : State), s.Serves (k.val / 6) ∧ s.Free (stpPage k.val) ∧ ((s.site k.val).st = .up ∨ (s.site k.val).st = .retrain ∨ (s.site k.val).st = .mismatch)) :=
  ⟨⟨0, 1, 3, tUp, by decide⟩,
   ⟨0, [1], tSite { st := .up }, by decide⟩,
   ⟨0, [1], tSite { st := .up, rxSeq := 5, sent := (5, 7) }, by decide⟩,
   ⟨0, ⟨5, 2, 1⟩, _, tSite { st := .up, txSeq := 7, acked := 5, replay := [(6, 1, []), (7, 1, [])] }, by decide, by decide, rfl, by decide, by decide⟩,
   ⟨0, ⟨5, 2, 1⟩, _, tSite { st := .up, txSeq := 7, acked := 5, replay := [(6, 1, []), (7, 1, [])], naks := (5, 7) }, by decide, by decide, rfl, by decide, by decide⟩,
   ⟨0, 0, 1, 1, tSite { st := .up }, by decide⟩,
   ⟨0, false, true, tSite { st := .up, width := 3 }, by decide⟩,
   ⟨0, false, true, tSite { st := .up, width := 3, lanes := [0, 2, 0, 0] }, by decide⟩,
   ⟨0, false, true, tSite { st := .up, width := 2, lanes := [0, 2, 0, 0] }, by decide⟩,
   ⟨0, false, true, tSite { st := .training, lanes := [0, 2, 0, 0] }, by decide⟩,
   ⟨0, false, true, tSite { st := .up, width := 1 }, by decide⟩,
   ⟨0, tSite { st := .retrain }, by decide⟩,
   ⟨0, tSite { st := .retrain }, by decide⟩,
   ⟨0, tSite { st := .training }, by decide⟩,
   ⟨0, tSite { st := .up }, by decide⟩,
   ⟨0, ⟨true, 0, 0⟩, tSite { st := .down }, by decide⟩,
   ⟨0, ⟨true, 0, 0⟩, tSite { st := .up }, by decide⟩,
   ⟨0, ⟨true, 0, 0⟩, tSite { st := .cap }, by decide⟩,
   ⟨0, ⟨true, 0, 0⟩, tSite { st := .cap }, by decide⟩,
   ⟨0, ⟨true, 0, 0⟩, tSite { st := .up }, by decide⟩⟩

theorem witness_CommandAllowances :
    (∃ (k : Site) (slot : BitVec 6) (i j : Nat) (c : Cmd) (s : State), s.Up ∧ cmdAt s k.val slot.toNat = some (i, j, c) ∧ c.timed = true ∧ c.dead = false ∧ flits s k.val = true) ∧
    (∃ (k : Site) (slot : BitVec 6) (i j : Nat) (c : Cmd) (s : State), s.Up ∧ cmdAt s k.val slot.toNat = some (i, j, c) ∧ c.ask = some .force ∧ c.purged = false ∧ flits s k.val = true ∧ (s.site k.val).purge = none) ∧
    (∃ (k : Site) (p : Nat) (s : State), s.Up ∧ (s.site k.val).purge = some p ∧ flits s k.val = true) ∧
    (∃ (k : Site) (slot : BitVec 6) (i j : Nat) (c : Cmd) (s : State), s.Up ∧ cmdAt s k.val slot.toNat = some (i, j, c) ∧ c.flushing = true ∧ ownerWorks s k.val = true ∧ c.lost = true) ∧
    (∃ (k : Site) (slot : BitVec 6) (i j : Nat) (c : Cmd) (s : State), s.Up ∧ cmdAt s k.val slot.toNat = some (i, j, c) ∧ c.flushing = true ∧ ownerWorks s k.val = true ∧ c.lost = false ∧ hostWork s (carrier s i) k.val slot.toNat = false ∧ c.wports = []) ∧
    (∃ (k : Site) (tag : W32) (s : State), s.Up ∧ (s.site k.val).st ≠ .retrain ∧ ringWaits s (owner s k.val) k.val tag.toNat = true) :=
  ⟨⟨0, 3, 0, 5, { tCmd with st := .committing }, tOnSite { tCmd with st := .committing }, by decide⟩,
   ⟨0, 3, 0, 5, { tCmd with dead := true, ask := some .force }, tOnSite { tCmd with dead := true, ask := some .force }, by decide⟩,
   ⟨0, 0, tSite { st := .up, purge := some 0 }, by decide⟩,
   ⟨0, 3, 0, 5, { tCmd with flushing := true, lost := true }, tOnSite { tCmd with flushing := true, lost := true }, by decide⟩,
   ⟨0, 3, 0, 5, { tCmd with flushing := true }, tOnSite { tCmd with flushing := true }, by decide⟩,
   ⟨0, 7, tRinging, by decide⟩⟩

theorem witness_SchedulerActs :
    (∃ (i : Inst) (c : Cand) (ks : List Nat) (y : State) (plan : State × Cmd × List (Nat × Act)) (s : State), s.Serves i.val ∧ fnHeld s i.val .sch = false ∧ y = ((queuesOf (sendDue (copyDone s i.val) i.val) i.val).filter fun e => e.2.ctx.kind == 1 && e.1 < 2 ^ 20).foldl (fun s e => (startGate s i.val e.1).1) (sendDue (copyDone s i.val) i.val) ∧ readyCmds y i.val = [c] ∧ standing y i.val c = .goes ks ∧ keptBack y i.val c.cmd = none ∧ debtPass y i.val c [c] = none ∧ placeBest y i.val (newJob y i.val) c.cmd ks = some plan) ∧
    (∃ (i : Inst) (c : Cand) (st r : Nat) (y : State) (s : State), s.Serves i.val ∧ fnHeld s i.val .sch = false ∧ y = ((queuesOf (sendDue (copyDone s i.val) i.val) i.val).filter fun e => e.2.ctx.kind == 1 && e.1 < 2 ^ 20).foldl (fun s e => (startGate s i.val e.1).1) (sendDue (copyDone s i.val) i.val) ∧ readyCmds y i.val = [c] ∧ standing y i.val c = .ends st r) ∧
    (∃ (i : Inst) (j : W32) (c : Cmd) (s : State), s.Serves i.val ∧ fnHeld s i.val .sch = false ∧ s.cmd? i.val j.toNat = some c ∧ c.dead = false ∧ c.ask = none ∧ (c.st = .running ∨ c.st = .loaded) ∧ (overQuota s c = true ∨ rivalFits s i.val j.toNat c = true) ∧ c.cls ≠ 2 ∧ (c.cls = 0 ∨ c.st = .loaded)) ∧
    (∃ (i : Inst) (j : W32) (c : Cmd) (s : State), s.Serves i.val ∧ fnHeld s i.val .sch = false ∧ s.cmd? i.val j.toNat = some c ∧ c.dead = false ∧ c.ask = none ∧ ((c.cls = 2 ∧ (c.st = .running ∨ c.st = .loaded)) ∨ c.st = .committing) ∧ (overQuota s c = true ∨ rivalFits s i.val j.toNat c = true)) ∧
    (∃ (i : Inst) (j : W32) (c : Cmd) (s : State), s.Serves i.val ∧ fnHeld s i.val .sch = false ∧ s.cmd? i.val j.toNat = some c ∧ c.dead = false ∧ c.ask = none ∧ c.st = .running ∧ c.cls = 1 ∧ (overQuota s c = true ∨ rivalFits s i.val j.toNat c = true)) ∧
    (∃ (i : Inst) (j : W32) (c : Cmd) (s : State), s.Serves i.val ∧ fnHeld s i.val .sch = false ∧ s.cmd? i.val j.toNat = some c ∧ overQuota s c = false ∧ rivalFits s i.val j.toNat c = false) ∧
    (∃ (i : Inst) (s : State), s.Serves i.val ∧ fnHeld s i.val .sch = false ∧ stuckLc s i.val = []) ∧
    (∃ (i : Inst) (c : Cand) (ks : List Nat) (r : List (Cand × List Nat)) (v : Victim) (x : Cmd) (s : State), s.Serves i.val ∧ fnHeld s i.val .sch = false ∧ stuckLc s i.val = (c, ks) :: r ∧ ((s.sc i.val).cmds.filterMap (victimOf s i.val c ks)).foldl (fun b v => match b with | none => some v | some w => if v.before w then some v else some w) (none : Option Victim) = some v ∧ (s.updCmd i.val v.job fun x => { x with chosen := true, victim := some c.cmd.src }).cmd? i.val v.job = some x ∧ (x.cls ≠ 1 ∨ x.st ≠ .running)) ∧
    (∃ (i : Inst) (j : W32) (c : Cmd) (s : State), s.Serves i.val ∧ fnHeld s i.val .sch = false ∧ s.cmd? i.val j.toNat = some c ∧ c.st ≠ .preempted) ∧
    (∃ (i : Inst) (j : W32) (c : Cmd) (q p : Nat) (plan : State × Cmd × List (Nat × Act)) (s : State), s.Serves i.val ∧ fnHeld s i.val .sch = false ∧ s.cmd? i.val j.toNat = some c ∧ c.src = .run q p ∧ c.st = .preempted ∧ (s.q i.val q).conds.curtain = false ∧ spilling s i.val { c with privs := c.privs.map fun v => { v with win := none } } = false ∧ homeOf s i.val c.part = true ∧ (c.lc = true ∨ (stuckLc s i.val).any (fun e => e.1.cmd.part == c.part) = false) ∧ keptBack s i.val c = none ∧ placeBest s i.val j.toNat { c with restore := true, chosen := false, victim := none } ((sitesFor s i.val c.part (siteMask s i.val c (posRaw s i.val q p))).filter fun k => covers s k c) = some plan) ∧
    (∃ (i : Inst) (p : Part) (id : BitVec 12) (b : Barrier) (es now : List (Nat × Nat)) (w : Nat) (on : List Nat) (s : State), s.Serves i.val ∧ fnHeld s i.val .sch = false ∧ (s.sc i.val).barriers.find? (fun b => b.part == p.val && b.id == id.toNat && b.left.isSome) = some b ∧ b.left = some es ∧ w = max 1 (min b.wave (didtBudget s i.val)) ∧ now = (es.take w).filter (fun e => b.jobs.contains e.1) ∧ on = now.filterMap (fun e => (s.cmd? i.val e.1).map Cmd.site) ∧ (s.sc i.val).started + now.length ≤ didtBudget s i.val ∧ on.any (fun k => startsStopped s k || quota s k < startedEngines s k + (on.filter (· == k)).length) = false) ∧
    (∃ (i : Inst) (p : Part) (id : BitVec 12) (b : Barrier) (es now : List (Nat × Nat)) (w : Nat) (on : List Nat) (s : State), s.Serves i.val ∧ fnHeld s i.val .sch = false ∧ (s.sc i.val).barriers.find? (fun b => b.part == p.val && b.id == id.toNat && b.left.isSome) = some b ∧ b.left = some es ∧ w = max 1 (min b.wave (didtBudget s i.val)) ∧ now = (es.take w).filter (fun e => b.jobs.contains e.1) ∧ on = now.filterMap (fun e => (s.cmd? i.val e.1).map Cmd.site) ∧ (didtBudget s i.val < (s.sc i.val).started + now.length ∨ on.any (fun k => startsStopped s k || quota s k < startedEngines s k + (on.filter (· == k)).length) = true)) ∧
    (∃ (i : Inst) (p : Part) (id : BitVec 12) (b : Barrier) (s : State), s.Serves i.val ∧ (s.sc i.val).barriers.find? (fun b => b.part == p.val && b.id == id.toNat && b.left.isNone) = some b) ∧
    (∃ (i : Inst) (s : State), s.Serves i.val) :=
  ⟨⟨0, tCand, [0], _, _, tReady, by decide, by decide, rfl, by decide, by decide, by decide, by decide, rfl⟩,
   ⟨0, tCand, 13, 0, _, { tReady with sch := ⟨{ parts := [(0, { tPart with sites := 0 })] }, {}⟩ }, by decide, by decide, rfl, by decide, by decide⟩,
   ⟨0, 5, { tCmd with cls := 1, st := .loaded }, tOnSite { tCmd with cls := 1, st := .loaded }, by decide⟩,
   ⟨0, 5, { tCmd with st := .committing }, { tOnSite { tCmd with st := .committing } with tsu := ⟨4, 5⟩ }, by decide⟩,
   ⟨0, 5, { tCmd with cls := 1 }, tOnSite { tCmd with cls := 1 }, by decide⟩,
   ⟨0, 5, { tCmd with cls := 1 }, ({ tUp with sch := ⟨{ parts := [(0, tPart)], cmds := [(5, { tCmd with cls := 1 })] }, {}⟩ } : State).setR (stpR 0 0x88) 0x40008, by decide⟩,
   ⟨0, tUp, by decide⟩,
   ⟨0, tLcCand, [0], [], _, _, tLc, by decide, by decide, by decide, rfl, rfl, by decide⟩,
   ⟨0, 5, tCmd, tOnSite tCmd, by decide⟩,
   ⟨0, 5, { tCmd with st := .preempted, progKib := 0 }, 0, 0, _, (tOnSite { tCmd with st := .preempted, progKib := 0 }).setR (stpR 0 0x88) 0x40008, by decide, by decide, by decide, by decide, by decide, by decide, by decide, by decide, by decide, by decide, rfl⟩,
   ⟨0, 0, 3, { part := 0, id := 3, members := 1, jobs := [5], left := some [(5, 0)], wave := 1 }, [(5, 0)], [(5, 0)], 1, [0], ({ tOnSite { tCmd with st := .loaded } with sch := ⟨{ parts := [(0, tPart)], cmds := [(5, { tCmd with st := .loaded })], barriers := [{ part := 0, id := 3, members := 1, jobs := [5], left := some [(5, 0)], wave := 1 }] }, {}⟩ } : State).setR (stpR 0 0x88) 0x40008, by decide⟩,
   ⟨0, 0, 3, { part := 0, id := 3, members := 1, jobs := [5], left := some [(5, 0)], wave := 1 }, [(5, 0)], [(5, 0)], 1, [0], ({ tOnSite { tCmd with st := .loaded } with sch := ⟨{ parts := [(0, tPart)], cmds := [(5, { tCmd with st := .loaded })], barriers := [{ part := 0, id := 3, members := 1, jobs := [5], left := some [(5, 0)], wave := 1 }], started := 4000 }, {}⟩ } : State).setR (stpR 0 0x88) 0x40008, by decide⟩,
   ⟨0, 0, 3, tBar, { tUp with sch := ⟨{ barriers := [tBar] }, {}⟩ }, by decide⟩,
   ⟨0, tUp, by decide⟩⟩

theorem witness_DirectoryCommandsAct :
    (∃ (i : Inst) (a : Acc) (d : Hnd) (s : State), s.Serves i.val ∧ s.Free (schPage i.val 1) ∧ s.fld (schR i.val 1 0x50) 0 1 = 0 ∧ hnd? s i.val (s.fld (schR i.val 1 0x48) 0 16) = some d) ∧
    (∃ (i : Inst) (a : Acc) (d : Hnd) (s : State), s.Serves i.val ∧ s.Free (schPage i.val 1) ∧ s.fld (schR i.val 1 0x50) 0 1 = 0 ∧ hnd? s i.val (s.fld (schR i.val 1 0x48) 0 16) = some d) ∧
    (∃ (i : Inst) (a : Acc) (s : State), s.Serves i.val ∧ s.Free (schPage i.val 1) ∧ s.fld (schR i.val 1 0x50) 0 1 = 0 ∧ hnd? s i.val (s.fld (schR i.val 1 0x48) 0 16) = none) ∧
    (∃ (i : Inst) (a : Acc) (s : State), s.Serves i.val ∧ s.Free (schPage i.val 1) ∧ s.fld (schR i.val 1 0x50) 0 1 = 0 ∧ hnd? s i.val (s.fld (schR i.val 1 0x48) 0 16) = none) ∧
    (∃ (i : Inst) (a : Acc) (d : Hnd) (s : State), s.Serves i.val ∧ s.Free (schPage i.val 1) ∧ s.fld (schR i.val 1 0x50) 0 1 = 0 ∧ hnd? s i.val (s.fld (schR i.val 1 0x48) 0 16) = some d) ∧
    (∃ (i : Inst) (a : Acc) (w : Nat) (s : State), s.Serves i.val ∧ s.Free (schPage i.val 1) ∧ s.fld (schR i.val 1 0x50) 0 1 = 0 ∧ hnd? s i.val (s.fld (schR i.val 1 0x48) 0 16) = none ∧ (s.fld (schR i.val 1 0x48) 0 16) ≠ 0 ∧ homeOf s i.val (s.fld (schR i.val 1 0x58) 0 4) = true ∧ 1 ≤ s.fld (schR i.val 1 0x58) 8 13 ∧ s.fld (schR i.val 1 0x58) 8 13 ≤ 4096 ∧ bitAt (s.r (schR i.val 1 0x58)) 24 = false ∧ wingsFree s i.val (s.fld (schR i.val 1 0x58) 0 4) (s.fld (schR i.val 1 0x58) 8 13) [] = some w) ∧
    (∃ (i : Inst) (a : Acc) (s : State), s.Serves i.val ∧ s.Free (schPage i.val 1) ∧ s.fld (schR i.val 1 0x50) 0 1 = 0 ∧ hnd? s i.val (s.fld (schR i.val 1 0x48) 0 16) = none ∧ ((s.fld (schR i.val 1 0x48) 0 16) = 0 ∨ homeOf s i.val (s.fld (schR i.val 1 0x58) 0 4) = false ∨ (s.fld (schR i.val 1 0x58) 8 13) = 0 ∨ 4096 < (s.fld (schR i.val 1 0x58) 8 13) ∨ (bitAt (s.r (schR i.val 1 0x58)) 24 = true ∧ inHostWin s i.val (s.fld (schR i.val 1 0x58) 0 4) (bits (s.r (schR i.val 1 0x60)) 6 46 * 64) ((s.fld (schR i.val 1 0x58) 8 13) * 2 ^ 20) = false))) ∧
    (∃ (i : Inst) (a : Acc) (s : State), s.Serves i.val ∧ s.Free (schPage i.val 1) ∧ s.fld (schR i.val 1 0x50) 0 1 = 0 ∧ hnd? s i.val (s.fld (schR i.val 1 0x48) 0 16) = none ∧ (s.fld (schR i.val 1 0x48) 0 16) ≠ 0 ∧ homeOf s i.val (s.fld (schR i.val 1 0x58) 0 4) = true ∧ 1 ≤ (s.fld (schR i.val 1 0x58) 8 13) ∧ (s.fld (schR i.val 1 0x58) 8 13) ≤ 4096 ∧ bitAt (s.r (schR i.val 1 0x58)) 24 = false ∧ wingsFree s i.val (s.fld (schR i.val 1 0x58) 0 4) (s.fld (schR i.val 1 0x58) 8 13) [] = none) ∧
    (∃ (i : Inst) (a : Acc) (s : State), s.Serves i.val ∧ s.Free (schPage i.val 1) ∧ s.fld (schR i.val 1 0x50) 0 1 = 0 ∧ hnd? s i.val (s.fld (schR i.val 1 0x48) 0 16) = none ∧ (s.fld (schR i.val 1 0x48) 0 16) ≠ 0 ∧ homeOf s i.val (s.fld (schR i.val 1 0x58) 0 4) = true ∧ 1 ≤ (s.fld (schR i.val 1 0x58) 8 13) ∧ (s.fld (schR i.val 1 0x58) 8 13) ≤ 4096 ∧ bitAt (s.r (schR i.val 1 0x58)) 24 = true ∧ inHostWin s i.val (s.fld (schR i.val 1 0x58) 0 4) (bits (s.r (schR i.val 1 0x60)) 6 46 * 64) ((s.fld (schR i.val 1 0x58) 8 13) * 2 ^ 20) = true) ∧
    (∃ (i : Inst) (a : Acc) (s : State), s.Serves i.val ∧ s.Free (schPage i.val 1) ∧ s.fld (schR i.val 1 0x50) 0 1 = 0 ∧ hnd? s i.val (s.fld (schR i.val 1 0x48) 0 16) = none) ∧
    (∃ (i : Inst) (a : Acc) (d : Hnd) (s : State), s.Serves i.val ∧ s.Free (schPage i.val 1) ∧ s.fld (schR i.val 1 0x50) 0 1 = 0 ∧ hnd? s i.val (s.fld (schR i.val 1 0x48) 0 16) = some d ∧ named s i.val (s.fld (schR i.val 1 0x48) 0 16) = false ∧ d.st = 3) ∧
    (∃ (i : Inst) (a : Acc) (d : Hnd) (s : State), s.Serves i.val ∧ s.Free (schPage i.val 1) ∧ s.fld (schR i.val 1 0x50) 0 1 = 0 ∧ hnd? s i.val (s.fld (schR i.val 1 0x48) 0 16) = some d ∧ (named s i.val (s.fld (schR i.val 1 0x48) 0 16) = true ∨ d.st = 4)) ∧
    (∃ (i : Inst) (a : Acc) (d : Hnd) (s : State), s.Serves i.val ∧ s.Free (schPage i.val 1) ∧ s.fld (schR i.val 1 0x50) 0 1 = 0 ∧ hnd? s i.val (s.fld (schR i.val 1 0x48) 0 16) = some d ∧ named s i.val (s.fld (schR i.val 1 0x48) 0 16) = false ∧ (d.st = 1 ∨ d.st = 2)) ∧
    (∃ (i : Inst) (a : Acc) (d : Hnd) (s : State), s.Serves i.val ∧ s.Free (schPage i.val 1) ∧ s.fld (schR i.val 1 0x50) 0 1 = 0 ∧ hnd? s i.val (s.fld (schR i.val 1 0x48) 0 16) = some d ∧ d.st ≠ 3) ∧
    (∃ (i : Inst) (a : Acc) (d : Hnd) (s : State), s.Serves i.val ∧ s.Free (schPage i.val 1) ∧ s.fld (schR i.val 1 0x50) 0 1 = 0 ∧ hnd? s i.val (s.fld (schR i.val 1 0x48) 0 16) = some d ∧ d.st = 3 ∧ bound s i.val (s.fld (schR i.val 1 0x48) 0 16) = true) ∧
    (∃ (i : Inst) (a : Acc) (d : Hnd) (w : Nat) (s : State), s.Serves i.val ∧ s.Free (schPage i.val 1) ∧ s.fld (schR i.val 1 0x50) 0 1 = 0 ∧ hnd? s i.val (s.fld (schR i.val 1 0x48) 0 16) = some d ∧ d.st = 3 ∧ bound s i.val (s.fld (schR i.val 1 0x48) 0 16) = false ∧ d.dirty = true ∧ d.slot = some w) ∧
    (∃ (i : Inst) (a : Acc) (d : Hnd) (s : State), s.Serves i.val ∧ s.Free (schPage i.val 1) ∧ s.fld (schR i.val 1 0x50) 0 1 = 0 ∧ hnd? s i.val (s.fld (schR i.val 1 0x48) 0 16) = some d ∧ d.st = 3 ∧ bound s i.val (s.fld (schR i.val 1 0x48) 0 16) = false ∧ d.dirty = false) ∧
    (∃ (i : Inst) (a : Acc) (d : Hnd) (s : State), s.Serves i.val ∧ s.Free (schPage i.val 1) ∧ s.fld (schR i.val 1 0x50) 0 1 = 0 ∧ hnd? s i.val (s.fld (schR i.val 1 0x48) 0 16) = some d ∧ (d.host = false ∨ spillOk s i.val = false)) ∧
    (∃ (i : Inst) (a : Acc) (d : Hnd) (s : State), s.Serves i.val ∧ s.Free (schPage i.val 1) ∧ s.fld (schR i.val 1 0x50) 0 1 = 0 ∧ hnd? s i.val (s.fld (schR i.val 1 0x48) 0 16) = some d ∧ d.host = true ∧ spillOk s i.val = true ∧ (bound s i.val (s.fld (schR i.val 1 0x48) 0 16) = true ∨ d.st = 4)) ∧
    (∃ (i : Inst) (a : Acc) (d : Hnd) (s : State), s.Serves i.val ∧ s.Free (schPage i.val 1) ∧ s.fld (schR i.val 1 0x50) 0 1 = 0 ∧ hnd? s i.val (s.fld (schR i.val 1 0x48) 0 16) = some d ∧ d.host = true ∧ spillOk s i.val = true ∧ bound s i.val (s.fld (schR i.val 1 0x48) 0 16) = false ∧ d.st = 1 ∧ d.changed = true) ∧
    (∃ (i : Inst) (a : Acc) (d : Hnd) (s : State), s.Serves i.val ∧ s.Free (schPage i.val 1) ∧ s.fld (schR i.val 1 0x50) 0 1 = 0 ∧ hnd? s i.val (s.fld (schR i.val 1 0x48) 0 16) = some d ∧ d.host = true ∧ spillOk s i.val = true ∧ bound s i.val (s.fld (schR i.val 1 0x48) 0 16) = false ∧ d.st = 1 ∧ d.changed = false) ∧
    (∃ (i : Inst) (a : Acc) (s : State), s.Serves i.val ∧ s.Free (schPage i.val 1) ∧ s.fld (schR i.val 1 0x50) 0 1 = 1) :=
  ⟨⟨0, ⟨true, 0, 0⟩, tHnd, tDir tHnd, by decide⟩,
   ⟨0, ⟨true, 0, 0⟩, tHnd, tDir tHnd, by decide⟩,
   ⟨0, ⟨true, 0, 0⟩, tUp, by decide⟩,
   ⟨0, ⟨true, 0, 0⟩, tUp, by decide⟩,
   ⟨0, ⟨true, 0, 0⟩, tHnd, tDir tHnd, by decide⟩,
   ⟨0, ⟨true, 0, 0⟩, 2 ^ 20, ((tDir tHnd).setR (schR 0 1 0x48) 8).setR (schR 0 1 0x58) 0x100, by decide, by decide, by decide, by decide, by decide, by decide, by decide, by decide, by decide⟩,
   ⟨0, ⟨true, 0, 0⟩, tUp, by decide⟩,
   ⟨0, ⟨true, 0, 0⟩, (((tDir tHnd).setR (schR 0 1 0x48) 8).setR (schR 0 1 0x58) 0x100).updSch 0 fun x => { x with parts := [(0, { tPart with wsize := 0 })] }, by decide⟩,
   ⟨0, ⟨true, 0, 0⟩, ((((tDir tHnd).setR (schR 0 1 0x48) 8).setR (schR 0 1 0x58) 0x1000100).setR (reg .atu 0 1 0x800) 0x2001).setR (schR 0 1 0x60) (2 ^ 50), by decide⟩,
   ⟨0, ⟨true, 0, 0⟩, tUp, by decide⟩,
   ⟨0, ⟨true, 0, 0⟩, { tHnd with st := 3, win := 1 }, tDir { tHnd with st := 3, win := 1 }, by decide⟩,
   ⟨0, ⟨true, 0, 0⟩, { tHnd with st := 4 }, tDir { tHnd with st := 4 }, by decide⟩,
   ⟨0, ⟨true, 0, 0⟩, tHnd, tDir tHnd, by decide⟩,
   ⟨0, ⟨true, 0, 0⟩, tHnd, tDir tHnd, by decide⟩,
   ⟨0, ⟨true, 0, 0⟩, { tHnd with st := 3, win := 1 }, (tDir { tHnd with st := 3, win := 1 }).updSch 0 fun x => { x with cmds := [(5, { tCmd with words := [7] })] }, by decide⟩,
   ⟨0, ⟨true, 0, 0⟩, { tHnd with st := 3, win := 1, dirty := true, slot := some 0x100000 }, 0x100000, tDir { tHnd with st := 3, win := 1, dirty := true, slot := some 0x100000 }, by decide⟩,
   ⟨0, ⟨true, 0, 0⟩, { tHnd with st := 3, win := 1 }, tDir { tHnd with st := 3, win := 1 }, by decide⟩,
   ⟨0, ⟨true, 0, 0⟩, tHnd, tDir tHnd, by decide⟩,
   ⟨0, ⟨true, 0, 0⟩, { tHnd with host := true, st := 4 }, (tDir { tHnd with host := true, st := 4 }).setR (schR 0 1 0x70) (2 ^ 31), by decide⟩,
   ⟨0, ⟨true, 0, 0⟩, { tHnd with host := true, changed := true }, (tDir { tHnd with host := true, changed := true }).setR (schR 0 1 0x70) (2 ^ 31), by decide⟩,
   ⟨0, ⟨true, 0, 0⟩, { tHnd with host := true }, (tDir { tHnd with host := true }).setR (schR 0 1 0x70) (2 ^ 31), by decide⟩,
   ⟨0, ⟨true, 0, 0⟩, tUp.setR (schR 0 1 0x50) 1, by decide⟩⟩

theorem witness_PartitionCommandsAct :
    (∃ (i : Inst) (a : Acc) (s : State), s.Serves i.val ∧ s.Free (schPage i.val 0) ∧ s.fld (schR i.val 0 0x48) 0 1 = 0 ∧ (partHome s (s.fld (schR i.val 0 0x40) 0 4)).isSome = true) ∧
    (∃ (i : Inst) (a : Acc) (s : State), s.Serves i.val ∧ s.Free (schPage i.val 0) ∧ s.fld (schR i.val 0 0x48) 0 1 = 0 ∧ partHome s (s.fld (schR i.val 0 0x40) 0 4) = none ∧ s.fld (schR i.val 0 0x4C) 0 12 = 0) ∧
    (∃ (i : Inst) (a : Acc) (s : State), s.Serves i.val ∧ s.Free (schPage i.val 0) ∧ s.fld (schR i.val 0 0x48) 0 1 = 0 ∧ partHome s (s.fld (schR i.val 0 0x40) 0 4) = none ∧ s.fld (schR i.val 0 0x4C) 0 12 ≠ 0 ∧ s.fld (schR i.val 0 0x58) 0 16 ≠ 0 ∧ aligned (s.r (schR i.val 0 0x50)) (2 ^ 26) = true ∧ s.r (schR i.val 0 0x50) + s.fld (schR i.val 0 0x58) 0 16 * 2 ^ 26 ≤ 2 ^ 50 ∧ (onesOf (s.fld (schR i.val 0 0x4C) 0 12) 12).any (fun k => (partAt s k).isSome || (s.site k).st != .up) = false ∧ ((onesOf (s.fld (schR i.val 0 0x4C) 0 12) 12).map (siteKind s)).eraseDups.length = 1) ∧
    (∃ (i : Inst) (a : Acc) (s : State), s.Serves i.val ∧ s.Free (schPage i.val 0) ∧ s.fld (schR i.val 0 0x48) 0 1 = 0 ∧ partHome s (s.fld (schR i.val 0 0x40) 0 4) = none ∧ s.fld (schR i.val 0 0x4C) 0 12 ≠ 0 ∧ s.fld (schR i.val 0 0x58) 0 16 ≠ 0 ∧ aligned (s.r (schR i.val 0 0x50)) (2 ^ 26) = true ∧ s.r (schR i.val 0 0x50) + s.fld (schR i.val 0 0x58) 0 16 * 2 ^ 26 ≤ 2 ^ 50 ∧ (onesOf (s.fld (schR i.val 0 0x4C) 0 12) 12).any (fun k => (partAt s k).isSome || (s.site k).st != .up) = true) ∧
    (∃ (i : Inst) (a : Acc) (s : State), s.Serves i.val ∧ s.Free (schPage i.val 0) ∧ s.fld (schR i.val 0 0x48) 0 1 = 0 ∧ partHome s (s.fld (schR i.val 0 0x40) 0 4) = none ∧ s.fld (schR i.val 0 0x4C) 0 12 ≠ 0 ∧ s.fld (schR i.val 0 0x58) 0 16 ≠ 0 ∧ aligned (s.r (schR i.val 0 0x50)) (2 ^ 26) = true ∧ s.r (schR i.val 0 0x50) + s.fld (schR i.val 0 0x58) 0 16 * 2 ^ 26 ≤ 2 ^ 50 ∧ (onesOf (s.fld (schR i.val 0 0x4C) 0 12) 12).any (fun k => (partAt s k).isSome || (s.site k).st != .up) = false ∧ ((onesOf (s.fld (schR i.val 0 0x4C) 0 12) 12).map (siteKind s)).eraseDups.length ≠ 1) ∧
    (∃ (i : Inst) (a : Acc) (s : State), s.Serves i.val ∧ s.Free (schPage i.val 0) ∧ s.fld (schR i.val 0 0x48) 0 1 = 0 ∧ partHome s (s.fld (schR i.val 0 0x40) 0 4) = none) ∧
    (∃ (i : Inst) (a : Acc) (s : State), s.Serves i.val ∧ s.Free (schPage i.val 0) ∧ s.fld (schR i.val 0 0x48) 0 1 = 0 ∧ part? s i.val (s.fld (schR i.val 0 0x40) 0 4) = none ∧ (partHome s (s.fld (schR i.val 0 0x40) 0 4)).isSome = true) ∧
    (∃ (i : Inst) (a : Acc) (s : State), s.Serves i.val ∧ s.Free (schPage i.val 0) ∧ s.fld (schR i.val 0 0x48) 0 1 = 1) ∧
    (∃ (i : Inst) (a : Acc) (h : Nat) (r : PartRec) (s : State), s.Serves i.val ∧ s.Free (schPage i.val 0) ∧ s.fld (schR i.val 0 0x48) 0 1 = 0 ∧ partHome s (s.fld (schR i.val 0 0x40) 0 4) = some h ∧ part? s h (s.fld (schR i.val 0 0x40) 0 4) = some r) ∧
    (∃ (i : Inst) (a : Acc) (s : State), s.Serves i.val ∧ s.Free (schPage i.val 0) ∧ s.fld (schR i.val 0 0x48) 0 1 = 0 ∧ partHome s (s.fld (schR i.val 0 0x40) 0 4) = none) ∧
    (∃ (i : Inst) (a : Acc) (r : PartRec) (s : State), s.Serves i.val ∧ s.Free (schPage i.val 0) ∧ s.fld (schR i.val 0 0x48) 0 1 = 0 ∧ part? s i.val (s.fld (schR i.val 0 0x40) 0 4) = some r) ∧
    (∃ (k : Site) (s : State), s.Up ∧ (s.site k.val).txq = [] ∧ (s.site k.val).taking = none ∧ (s.site k.val).moving = true) ∧
    (∃ (k : Site) (u : Nat) (s : State), s.Up ∧ (s.site k.val).txq = [] ∧ (s.site k.val).taking = some u) ∧
    (∃ (k : Site) (s : State), s.Up ∧ (s.site k.val).txq ≠ []) :=
  ⟨⟨0, ⟨true, 0, 0⟩, tOnSite tCmd, by decide⟩,
   ⟨0, ⟨true, 0, 0⟩, tUp, by decide⟩,
   ⟨0, ⟨true, 0, 0⟩, ((tSite { st := .up }).setR (schR 0 0 0x4C) 1).setR (schR 0 0 0x58) 1, by decide⟩,
   ⟨0, ⟨true, 0, 0⟩, (tUp.setR (schR 0 0 0x4C) 1).setR (schR 0 0 0x58) 1, by decide⟩,
   ⟨0, ⟨true, 0, 0⟩, ((({ tSite { st := .up } with sites := [(0, { st := .up }), (1, { st := .up })] } : State).setR (schR 0 0 0x4C) 3).setR (schR 0 0 0x58) 1).setR (stpR 0 0x80) 0x10000, by decide⟩,
   ⟨0, ⟨true, 0, 0⟩, tUp, by decide⟩,
   ⟨1, ⟨true, 0, 0⟩, tOnSite tCmd, by decide⟩,
   ⟨0, ⟨true, 0, 0⟩, tUp.setR (schR 0 0 0x48) 1, by decide⟩,
   ⟨0, ⟨true, 0, 0⟩, 0, tPart, tOnSite tCmd, by decide⟩,
   ⟨0, ⟨true, 0, 0⟩, tUp, by decide⟩,
   ⟨0, ⟨true, 0, 0⟩, tPart, tOnSite tCmd, by decide⟩,
   ⟨0, tSite { st := .up, moving := true }, by decide⟩,
   ⟨0, 1, tSite { st := .up, taking := some 1 }, by decide⟩,
   ⟨0, tSite { st := .up, moving := true, txq := [(1, [])] }, by decide⟩⟩

theorem witness_EnsembleCommandsAct :
    (∃ (i : Inst) (a : Acc) (s : State), s.Serves i.val ∧ s.Free (ensPage i.val) ∧ s.fld (ensR i.val 0x48) 0 1 = 0 ∧ homeOf s i.val (s.fld (ensR i.val 0x40) 0 4) = true ∧ (s.ensemble i.val (s.fld (ensR i.val 0x40) 0 4)).st = 0 ∧ enableBad s i.val (s.fld (ensR i.val 0x40) 0 4) = false) ∧
    (∃ (i : Inst) (a : Acc) (s : State), s.Serves i.val ∧ s.Free (ensPage i.val) ∧ s.fld (ensR i.val 0x48) 0 1 = 0 ∧ (homeOf s i.val (s.fld (ensR i.val 0x40) 0 4) = false ∨ (s.ensemble i.val (s.fld (ensR i.val 0x40) 0 4)).st ≠ 0)) ∧
    (∃ (i : Inst) (a : Acc) (s : State), s.Serves i.val ∧ s.Free (ensPage i.val) ∧ s.fld (ensR i.val 0x48) 0 1 = 0 ∧ homeOf s i.val (s.fld (ensR i.val 0x40) 0 4) = true ∧ (s.ensemble i.val (s.fld (ensR i.val 0x40) 0 4)).st = 0 ∧ enableBad s i.val (s.fld (ensR i.val 0x40) 0 4) = true) ∧
    (∃ (i : Inst) (a : Acc) (s : State), s.Serves i.val ∧ s.Free (ensPage i.val) ∧ s.fld (ensR i.val 0x48) 0 1 = 0 ∧ ((s.ensemble i.val (s.fld (ensR i.val 0x40) 0 4)).st = 0 ∨ (s.ensemble i.val (s.fld (ensR i.val 0x40) 0 4)).st = 2)) ∧
    (∃ (i : Inst) (a : Acc) (s : State), s.Serves i.val ∧ s.Free (ensPage i.val) ∧ s.fld (ensR i.val 0x48) 0 1 = 1) ∧
    (∃ (i : Inst) (a : Acc) (s : State), s.Serves i.val ∧ s.Free (ensPage i.val) ∧ s.fld (ensR i.val 0x48) 0 1 = 0 ∧ ((s.ensemble i.val (s.fld (ensR i.val 0x40) 0 4)).st = 1 ∨ (s.ensemble i.val (s.fld (ensR i.val 0x40) 0 4)).st = 3) ∧ (s.ensemble i.val (s.fld (ensR i.val 0x40) 0 4)).lanes = []) ∧
    (∃ (i : Inst) (a : Acc) (s : State), s.Serves i.val ∧ s.Free (ensPage i.val) ∧ s.fld (ensR i.val 0x48) 0 1 = 0 ∧ ((s.ensemble i.val (s.fld (ensR i.val 0x40) 0 4)).st = 1 ∨ (s.ensemble i.val (s.fld (ensR i.val 0x40) 0 4)).st = 3) ∧ (s.ensemble i.val (s.fld (ensR i.val 0x40) 0 4)).lanes ≠ []) ∧
    (∃ (i : Inst) (a : Acc) (h : Half) (v : Nat) (x s : State), s.Serves i.val ∧ fnHeld s i.val .ens = false ∧ s.Free (ensPage i.val) ∧ takeHalf s (ensPage i.val) 0x58 h = (x, some (some v)) ∧ ((x.en i.val).seqs.find? (fun e => e.2.q == bits v 0 20 && e.2.pos == bits v 32 24 && e.2.late != some 6) = none ∨ bits v 20 1 ≠ i.val)) ∧
    (∃ (i : Inst) (a : Acc) (h : Half) (x s : State), s.Serves i.val ∧ fnHeld s i.val .ens = false ∧ s.Free (ensPage i.val) ∧ takeHalf s (ensPage i.val) 0x58 h = (x, none)) ∧
    (∃ (i : Inst) (a : Acc) (h : Half) (v n : Nat) (e : SeqRec) (x s : State), s.Serves i.val ∧ fnHeld s i.val .ens = false ∧ s.Free (ensPage i.val) ∧ takeHalf s (ensPage i.val) 0x58 h = (x, some (some v)) ∧ (x.en i.val).seqs.find? (fun e => e.2.q == bits v 0 20 && e.2.pos == bits v 32 24 && e.2.late != some 6) = some (n, e) ∧ bits v 20 1 = i.val ∧ e.lane = none) ∧
    (∃ (i : Inst) (a : Acc) (h : Half) (v n : Nat) (e : SeqRec) (x s : State), s.Serves i.val ∧ fnHeld s i.val .ens = false ∧ s.Free (ensPage i.val) ∧ takeHalf s (ensPage i.val) 0x58 h = (x, some (some v)) ∧ (x.en i.val).seqs.find? (fun e => e.2.q == bits v 0 20 && e.2.pos == bits v 32 24 && e.2.late != some 6) = some (n, e) ∧ bits v 20 1 = i.val ∧ e.lane.isSome = true) ∧
    (∃ (i : Inst) (a : Acc) (s : State), s.Serves i.val ∧ s.Free (kvaPage i.val) ∧ s.fld (kvaR i.val 0x48) 0 1 = 0 ∧ pool? s i.val (s.fld (kvaR i.val 0x40) 0 4) = none ∧ homeOf s i.val (poolRegs s i.val).part = true ∧ (poolRegs s i.val).bad = false) ∧
    (∃ (i : Inst) (a : Acc) (s : State), s.Serves i.val ∧ s.Free (kvaPage i.val) ∧ s.fld (kvaR i.val 0x48) 0 1 = 0 ∧ ((pool? s i.val (s.fld (kvaR i.val 0x40) 0 4)).isSome = true ∨ homeOf s i.val (poolRegs s i.val).part = false)) ∧
    (∃ (i : Inst) (a : Acc) (s : State), s.Serves i.val ∧ s.Free (kvaPage i.val) ∧ s.fld (kvaR i.val 0x48) 0 1 = 0 ∧ pool? s i.val (s.fld (kvaR i.val 0x40) 0 4) = none ∧ homeOf s i.val (poolRegs s i.val).part = true ∧ (poolRegs s i.val).bad = true) ∧
    (∃ (i : Inst) (a : Acc) (k : PoolRec) (s : State), s.Serves i.val ∧ s.Free (kvaPage i.val) ∧ s.fld (kvaR i.val 0x48) 0 1 = 0 ∧ pool? s i.val (s.fld (kvaR i.val 0x40) 0 4) = some k ∧ ((s.en i.val).seqs.any (fun e => e.2.pool == (s.fld (kvaR i.val 0x40) 0 4) && !e.2.blocks.isEmpty) = true ∨ (s.en i.val).recs.any (fun e => e.2.st != 0 && poolNo s i.val e.1 == (s.fld (kvaR i.val 0x40) 0 4)) = true)) ∧
    (∃ (i : Inst) (a : Acc) (k : PoolRec) (s : State), s.Serves i.val ∧ s.Free (kvaPage i.val) ∧ s.fld (kvaR i.val 0x48) 0 1 = 0 ∧ pool? s i.val (s.fld (kvaR i.val 0x40) 0 4) = some k ∧ (s.en i.val).seqs.any (fun e => e.2.pool == (s.fld (kvaR i.val 0x40) 0 4) && !e.2.blocks.isEmpty) = false ∧ (s.en i.val).recs.any (fun e => e.2.st != 0 && poolNo s i.val e.1 == (s.fld (kvaR i.val 0x40) 0 4)) = false) ∧
    (∃ (i : Inst) (a : Acc) (s : State), s.Serves i.val ∧ s.Free (kvaPage i.val) ∧ s.fld (kvaR i.val 0x48) 0 1 = 0 ∧ pool? s i.val (s.fld (kvaR i.val 0x40) 0 4) = none) ∧
    (∃ (i : Inst) (a : Acc) (k : PoolRec) (s : State), s.Serves i.val ∧ s.Free (kvaPage i.val) ∧ s.fld (kvaR i.val 0x48) 0 1 = 0 ∧ pool? s i.val (s.fld (kvaR i.val 0x40) 0 4) = some k) ∧
    (∃ (i : Inst) (q : Qidx) (p : Pos) (d : DescSt) (n : Nat) (x s : State), s.Serves i.val ∧ fnHeld s i.val .ens = false ∧ startGate s i.val q.toNat = (x, some (p, d)) ∧ (x.q i.val q.toNat).ctx.kind = 2 ∧ d.ph = .ready ∧ opcodeOf d.raw = 0x40 ∧ (x.ensemble i.val (x.q i.val q.toNat).part).st = 1 ∧ seqHeld x i.val q.toNat d.raw = [] ∧ letFirst x i.val (.desc q.toNat p.pos 0) = false ∧ Tbl.freshFrom (x.en i.val).seqs 65536 0 = some n) ∧
    (∃ (i : Inst) (q : Qidx) (x s : State), s.Serves i.val ∧ fnHeld s i.val .ens = false ∧ startGate s i.val q.toNat = (x, none)) ∧
    (∃ (i : Inst) (p : Part) (lane : Fin 12) (st : Rsp) (k : PoolRec) (s : State), s.Serves i.val ∧ (s.ensemble i.val p.val).st = 1 ∧ lane.val < ensF s i.val p.val 0x400 8 4 ∧ Tbl.has (s.ensemble i.val p.val).lanes lane.val = false ∧ homeOf s i.val p.val = true ∧ fnHeld s i.val .ens = false ∧ pool? s i.val (poolNo s i.val p.val) = some k ∧ (composed s i.val p.val).ents = []) ∧
    (∃ (i : Inst) (p : Part) (lane : Fin 12) (k : PoolRec) (s : State), s.Serves i.val ∧ (s.ensemble i.val p.val).st = 1 ∧ lane.val < ensF s i.val p.val 0x400 8 4 ∧ Tbl.has (s.ensemble i.val p.val).lanes lane.val = false ∧ homeOf s i.val p.val = true ∧ fnHeld s i.val .ens = false ∧ pool? s i.val (poolNo s i.val p.val) = some k ∧ (composed s i.val p.val).ents ≠ []) ∧
    (∃ (i : Inst) (p : Part) (lane : Fin 12) (st : Rsp) (k : PoolRec) (s : State), s.Serves i.val ∧ (s.ensemble i.val p.val).st = 1 ∧ lane.val < ensF s i.val p.val 0x400 8 4 ∧ Tbl.has (s.ensemble i.val p.val).lanes lane.val = false ∧ homeOf s i.val p.val = true ∧ fnHeld s i.val .ens = false ∧ pool? s i.val (poolNo s i.val p.val) = some k ∧ (composed s i.val p.val).ents ≠ [] ∧ st ≠ .ok) ∧
    (∃ (i : Inst) (p : Part) (lane : Fin 12) (st : Rsp) (s : State), s.Serves i.val ∧ ((s.ensemble i.val p.val).st ≠ 1 ∨ ensF s i.val p.val 0x400 8 4 ≤ lane.val ∨ Tbl.has (s.ensemble i.val p.val).lanes lane.val = true ∨ homeOf s i.val p.val = false)) :=
  ⟨⟨0, ⟨true, 0, 0⟩, tEns {} [], by decide⟩,
   ⟨0, ⟨true, 0, 0⟩, tEns { st := 1 } [], by decide⟩,
   ⟨0, ⟨true, 0, 0⟩, (tEns {} []).updEns 0 fun e => { e with pools := [] }, by decide⟩,
   ⟨0, ⟨true, 0, 0⟩, tEns {} [], by decide⟩,
   ⟨0, ⟨true, 0, 0⟩, tUp.setR (ensR 0 0x48) 1, by decide⟩,
   ⟨0, ⟨true, 0, 0⟩, tEns { st := 1 } [], by decide⟩,
   ⟨0, ⟨true, 0, 0⟩, tEns { st := 1, lanes := [(0, ⟨1, [], false, tCmd, none⟩)] } [], by decide⟩,
   ⟨0, ⟨true, 0, 0⟩, .full 0, 0, _, tUp, by decide, by decide, by decide, rfl, by decide⟩,
   ⟨0, ⟨true, 0, 0⟩, .low 0, _, tUp, by decide, by decide, by decide, rfl⟩,
   ⟨0, ⟨true, 0, 0⟩, .full 0, 0, 2, tSeq, _, tEns { st := 1 } [(2, tSeq)], by decide, by decide, by decide, rfl, by decide, by decide, by decide⟩,
   ⟨0, ⟨true, 0, 0⟩, .full 0, 0, 2, { tSeq with lane := some 0 }, _, tEns { st := 1 } [(2, { tSeq with lane := some 0 })], by decide, by decide, by decide, rfl, by decide, by decide, by decide⟩,
   ⟨0, ⟨true, 0, 0⟩, ((({ tUp with sch := ⟨{ parts := [(0, tPart)] }, {}⟩ } : State).setR (kvaR 0 0x58) 0x100010).setR (kvaR 0 0x5C) 8).setR (kvaR 0 0x68) 0x404, by decide⟩,
   ⟨0, ⟨true, 0, 0⟩, tEns {} [], by decide⟩,
   ⟨0, ⟨true, 0, 0⟩, { tUp with sch := ⟨{ parts := [(0, tPart)] }, {}⟩ }, by decide⟩,
   ⟨0, ⟨true, 0, 0⟩, tPool, tEns { st := 1 } [], by decide⟩,
   ⟨0, ⟨true, 0, 0⟩, tPool, tEns {} [], by decide⟩,
   ⟨0, ⟨true, 0, 0⟩, tUp, by decide⟩,
   ⟨0, ⟨true, 0, 0⟩, tPool, tEns {} [], by decide⟩,
   ⟨0, 0, tSeqP, { raw := [0x40] ++ List.replicate 63 0, ph := .ready }, 0, _, tIntake, by decide, by decide, rfl, by decide, by decide, by decide, by decide, by decide, by decide, by decide⟩,
   ⟨0, 0, _, tUp, by decide, by decide, rfl⟩,
   ⟨0, 0, 0, .ok, tPool, tEns { st := 1 } [], by decide⟩,
   ⟨0, 0, 0, tPool, tEns { st := 1 } [(2, tSeq)], by decide⟩,
   ⟨0, 0, 0, .noc, tPool, tEns { st := 1 } [(2, tSeq)], by decide⟩,
   ⟨0, 0, 0, .ok, tUp, by decide⟩⟩

theorem witness_StepsKeepBudgetAndOrder : (((tEns { st := 1 } [(2, tSeq)]).en 0).seqs.map Prod.fst).Pairwise (· < ·) ∧ (composed (tEns { st := 1 } [(2, tSeq)]) 0 0).ents.length = 1 := by decide

theorem witness_VirtualDeviceCommandsAct :
    (∃ (i : Inst) (a : Acc) (r : VdRec) (s : State), s.Serves i.val ∧ s.Free (vdmPage i.val) ∧ s.fld (vdmR i.val 0x48) 0 1 = 0 ∧ (s.fld (vdmR i.val 0x40) 0 12) ≠ 0 ∧ (s.vd i.val (s.fld (vdmR i.val 0x40) 0 12)).st = .free ∧ r = cfgRec s i.val ∧ homeOf s i.val r.part = true ∧ vdBadField s i.val r = false ∧ ([0, 1].any fun h => (vdsOf s h).any fun e => e.2.group == r.group && bits e.2.cfg0 8 20 == bits r.cfg0 8 20) = false ∧ (vdsOf s i.val).any (fun e => r.overlaps e.2) = false ∧ (vdQueues s i.val r).any (fun e => !e.2.disabled) = false ∧ (r.mem && bitAt (Tbl.getD s.rt (bits r.cfg4 32 8) (0, 0)).1 0) = false) ∧
    (∃ (i : Inst) (a : Acc) (s : State), s.Serves i.val ∧ s.Free (vdmPage i.val) ∧ s.fld (vdmR i.val 0x48) 0 1 = 0 ∧ ((s.fld (vdmR i.val 0x40) 0 12) = 0 ∨ (s.vd i.val (s.fld (vdmR i.val 0x40) 0 12)).st ≠ .free ∨ homeOf s i.val (cfgRec s i.val).part = false)) ∧
    (∃ (i : Inst) (a : Acc) (s : State), s.Serves i.val ∧ s.Free (vdmPage i.val) ∧ s.fld (vdmR i.val 0x48) 0 1 = 0 ∧ (s.fld (vdmR i.val 0x40) 0 12) ≠ 0 ∧ (s.vd i.val (s.fld (vdmR i.val 0x40) 0 12)).st = .free ∧ homeOf s i.val (cfgRec s i.val).part = true ∧ vdBadField s i.val (cfgRec s i.val) = true) ∧
    (∃ (i : Inst) (a : Acc) (s : State), s.Serves i.val ∧ s.Free (vdmPage i.val) ∧ s.fld (vdmR i.val 0x48) 0 1 = 0 ∧ (s.fld (vdmR i.val 0x40) 0 12) ≠ 0 ∧ (s.vd i.val (s.fld (vdmR i.val 0x40) 0 12)).st = .free ∧ homeOf s i.val (cfgRec s i.val).part = true ∧ vdBadField s i.val (cfgRec s i.val) = false ∧ ([0, 1].any fun h => (vdsOf s h).any fun e => e.2.group == (cfgRec s i.val).group && bits e.2.cfg0 8 20 == bits (cfgRec s i.val).cfg0 8 20) = true) ∧
    (∃ (i : Inst) (a : Acc) (s : State), s.Serves i.val ∧ s.Free (vdmPage i.val) ∧ s.fld (vdmR i.val 0x48) 0 1 = 0 ∧ (s.fld (vdmR i.val 0x40) 0 12) ≠ 0 ∧ (s.vd i.val (s.fld (vdmR i.val 0x40) 0 12)).st = .free ∧ homeOf s i.val (cfgRec s i.val).part = true ∧ vdBadField s i.val (cfgRec s i.val) = false ∧ ([0, 1].any fun h => (vdsOf s h).any fun e => e.2.group == (cfgRec s i.val).group && bits e.2.cfg0 8 20 == bits (cfgRec s i.val).cfg0 8 20) = false ∧ ((vdsOf s i.val).any (fun e => (cfgRec s i.val).overlaps e.2) = true ∨ (vdQueues s i.val (cfgRec s i.val)).any (fun e => !e.2.disabled) = true ∨ ((cfgRec s i.val).mem && bitAt (Tbl.getD s.rt (bits (cfgRec s i.val).cfg4 32 8) (0, 0)).1 0) = true)) ∧
    (∃ (i : Inst) (a : Acc) (s : State), s.Serves i.val ∧ s.Free (vdmPage i.val) ∧ s.fld (vdmR i.val 0x48) 0 1 = 0 ∧ ((s.fld (vdmR i.val 0x40) 0 12) = 0 ∨ (s.vd i.val (s.fld (vdmR i.val 0x40) 0 12)).st = .free)) ∧
    (∃ (i : Inst) (a : Acc) (s : State), s.Serves i.val ∧ s.Free (vdmPage i.val) ∧ s.fld (vdmR i.val 0x48) 0 1 = 0 ∧ (s.fld (vdmR i.val 0x40) 0 12) ≠ 0 ∧ (s.vd i.val (s.fld (vdmR i.val 0x40) 0 12)).st ≠ .free ∧ ((vdQueues s i.val (s.vd i.val (s.fld (vdmR i.val 0x40) 0 12))).any (fun e => !e.2.disabled) = true ∨ vdSaved s i.val (s.vd i.val (s.fld (vdmR i.val 0x40) 0 12)) ≠ [])) ∧
    (∃ (i : Inst) (a : Acc) (s : State), s.Serves i.val ∧ s.Free (vdmPage i.val) ∧ s.fld (vdmR i.val 0x48) 0 1 = 1) ∧
    (∃ (i : Inst) (a : Acc) (s : State), s.Serves i.val ∧ s.Free (vdmPage i.val) ∧ s.fld (vdmR i.val 0x48) 0 1 = 0 ∧ ((s.fld (vdmR i.val 0x40) 0 12) = 0 ∨ (s.vd i.val (s.fld (vdmR i.val 0x40) 0 12)).st ≠ .active)) ∧
    (∃ (i : Inst) (a : Acc) (s : State), s.Serves i.val ∧ s.Free (vdmPage i.val) ∧ s.fld (vdmR i.val 0x48) 0 1 = 0 ∧ ((s.fld (vdmR i.val 0x40) 0 12) = 0 ∨ ((s.vd i.val (s.fld (vdmR i.val 0x40) 0 12)).st ≠ .closing ∧ (s.vd i.val (s.fld (vdmR i.val 0x40) 0 12)).st ≠ .down))) ∧
    (∃ (i : Inst) (v : BitVec 12) (s : State), s.Serves i.val ∧ (v.toNat = 0 ∨ (s.vd i.val v.toNat).st ≠ .closing ∨ curtainRest s i.val (s.vd i.val v.toNat) = false)) ∧
    (∃ (i : Inst) (a : Acc) (data : List (List Byte)) (st : VdIo) (s : State), s.Serves i.val ∧ s.Free (vdmPage i.val) ∧ s.fld (vdmR i.val 0x48) 0 1 = 0 ∧ ((s.fld (vdmR i.val 0x40) 0 12) = 0 ∨ (s.vd i.val (s.fld (vdmR i.val 0x40) 0 12)).st ≠ .down)) ∧
    (∃ (i : Inst) (a : Acc) (data : List (List Byte)) (r : Rsp) (s : State), s.Serves i.val ∧ s.Free (vdmPage i.val) ∧ s.fld (vdmR i.val 0x48) 0 1 = 0 ∧ (s.fld (vdmR i.val 0x40) 0 12) ≠ 0 ∧ (s.vd i.val (s.fld (vdmR i.val 0x40) 0 12)).st = .down ∧ (s.vd i.val (s.fld (vdmR i.val 0x40) 0 12)).need ≤ s.r (vdmR i.val 0x84) * 1024 ∧ data.map List.length = (vdSaved s i.val (s.vd i.val (s.fld (vdmR i.val 0x40) 0 12))).map (fun e => savedBytes e.2 - 128) ∧ r ≠ .ok) ∧
    (∃ (i : Inst) (a : Acc) (img : List Byte) (st : VdIo) (s : State), s.Serves i.val ∧ s.Free (vdmPage i.val) ∧ s.fld (vdmR i.val 0x48) 0 1 = 0 ∧ ((s.fld (vdmR i.val 0x40) 0 12) = 0 ∨ ((s.vd i.val (s.fld (vdmR i.val 0x40) 0 12)).st ≠ .active ∧ (s.vd i.val (s.fld (vdmR i.val 0x40) 0 12)).st ≠ .down))) ∧
    (∃ (i : Inst) (a : Acc) (s : State), s.Serves i.val ∧ s.Free (vdmPage i.val) ∧ s.fld (vdmR i.val 0x48) 0 1 = 0 ∧ (s.fld (vdmR i.val 0x40) 0 12) ≠ 0 ∧ (s.vd i.val (s.fld (vdmR i.val 0x40) 0 12)).st ≠ .free ∧ (vdQueues s i.val (s.vd i.val (s.fld (vdmR i.val 0x40) 0 12))).any (fun e => !e.2.disabled) = false ∧ vdSaved s i.val (s.vd i.val (s.fld (vdmR i.val 0x40) 0 12)) = []) ∧
    (∃ (i : Inst) (a : Acc) (s : State), s.Serves i.val ∧ s.Free (vdmPage i.val) ∧ s.fld (vdmR i.val 0x48) 0 1 = 0) ∧
    (∃ (i : Inst) (a : Acc) (s : State), s.Serves i.val ∧ s.Free (vdmPage i.val) ∧ s.fld (vdmR i.val 0x48) 0 1 = 0 ∧ (s.fld (vdmR i.val 0x40) 0 12) ≠ 0 ∧ (s.vd i.val (s.fld (vdmR i.val 0x40) 0 12)).st = .active) ∧
    (∃ (i : Inst) (a : Acc) (s : State), s.Serves i.val ∧ s.Free (vdmPage i.val) ∧ s.fld (vdmR i.val 0x48) 0 1 = 0 ∧ (s.fld (vdmR i.val 0x40) 0 12) ≠ 0 ∧ ((s.vd i.val (s.fld (vdmR i.val 0x40) 0 12)).st = .closing ∨ (s.vd i.val (s.fld (vdmR i.val 0x40) 0 12)).st = .down)) ∧
    (∃ (i : Inst) (v : BitVec 12) (s : State), s.Serves i.val ∧ v.toNat ≠ 0 ∧ (s.vd i.val v.toNat).st = .closing ∧ curtainRest s i.val (s.vd i.val v.toNat) = true) ∧
    (∃ (i : Inst) (v : BitVec 12) (s : State), s.Serves i.val ∧ (s.vd i.val v.toNat).st = .closing ∧ (s.vd i.val v.toNat).late = false) ∧
    (∃ (i : Inst) (v : BitVec 12) (s : State), s.Serves i.val ∧ ((s.vd i.val v.toNat).st ≠ .closing ∨ (s.vd i.val v.toNat).late = true)) ∧
    (∃ (i : Inst) (a : Acc) (data : List (List Byte)) (st : VdIo) (s : State), s.Serves i.val ∧ s.Free (vdmPage i.val) ∧ s.fld (vdmR i.val 0x48) 0 1 = 0 ∧ (s.fld (vdmR i.val 0x40) 0 12) ≠ 0 ∧ (s.vd i.val (s.fld (vdmR i.val 0x40) 0 12)).st = .down ∧ s.r (vdmR i.val 0x84) * 1024 < (s.vd i.val (s.fld (vdmR i.val 0x40) 0 12)).need) ∧
    (∃ (i : Inst) (a : Acc) (data : List (List Byte)) (s : State), s.Serves i.val ∧ s.Free (vdmPage i.val) ∧ s.fld (vdmR i.val 0x48) 0 1 = 0 ∧ (s.fld (vdmR i.val 0x40) 0 12) ≠ 0 ∧ (s.vd i.val (s.fld (vdmR i.val 0x40) 0 12)).st = .down ∧ (s.vd i.val (s.fld (vdmR i.val 0x40) 0 12)).need ≤ s.r (vdmR i.val 0x84) * 1024 ∧ data.map List.length = (vdSaved s i.val (s.vd i.val (s.fld (vdmR i.val 0x40) 0 12))).map (fun e => savedBytes e.2 - 128)) ∧
    (∃ (i : Inst) (a : Acc) (img : List Byte) (st : VdIo) (s : State), s.Serves i.val ∧ s.Free (vdmPage i.val) ∧ s.fld (vdmR i.val 0x48) 0 1 = 0 ∧ (s.fld (vdmR i.val 0x40) 0 12) ≠ 0 ∧ ((s.vd i.val (s.fld (vdmR i.val 0x40) 0 12)).st = .active ∨ (s.vd i.val (s.fld (vdmR i.val 0x40) 0 12)).st = .down) ∧ ((vdQueues s i.val (s.vd i.val (s.fld (vdmR i.val 0x40) 0 12))).any (fun e => !e.2.disabled) = true ∨ vdSaved s i.val (s.vd i.val (s.fld (vdmR i.val 0x40) 0 12)) ≠ [])) ∧
    (∃ (i : Inst) (a : Acc) (img : List Byte) (r : Rsp) (s : State), s.Serves i.val ∧ s.Free (vdmPage i.val) ∧ s.fld (vdmR i.val 0x48) 0 1 = 0 ∧ (s.fld (vdmR i.val 0x40) 0 12) ≠ 0 ∧ ((s.vd i.val (s.fld (vdmR i.val 0x40) 0 12)).st = .active ∨ (s.vd i.val (s.fld (vdmR i.val 0x40) 0 12)).st = .down) ∧ (vdQueues s i.val (s.vd i.val (s.fld (vdmR i.val 0x40) 0 12))).any (fun e => !e.2.disabled) = false ∧ vdSaved s i.val (s.vd i.val (s.fld (vdmR i.val 0x40) 0 12)) = [] ∧ (r ≠ .ok ∨ img.length < 64 ∨ (fieldAt img 8 8 ≤ s.r (vdmR i.val 0x84) * 1024 ∧ img.length < fieldAt img 8 8))) ∧
    (∃ (i : Inst) (a : Acc) (img b : List Byte) (s : State), s.Serves i.val ∧ s.Free (vdmPage i.val) ∧ s.fld (vdmR i.val 0x48) 0 1 = 0 ∧ (s.fld (vdmR i.val 0x40) 0 12) ≠ 0 ∧ ((s.vd i.val (s.fld (vdmR i.val 0x40) 0 12)).st = .active ∨ (s.vd i.val (s.fld (vdmR i.val 0x40) 0 12)).st = .down) ∧ (vdQueues s i.val (s.vd i.val (s.fld (vdmR i.val 0x40) 0 12))).any (fun e => !e.2.disabled) = false ∧ vdSaved s i.val (s.vd i.val (s.fld (vdmR i.val 0x40) 0 12)) = [] ∧ 64 ≤ img.length ∧ (fieldAt img 8 8 ≤ img.length ∨ s.r (vdmR i.val 0x84) * 1024 < fieldAt img 8 8) ∧ b = img.take (fieldAt img 8 8) ∧ (fieldAt img 0 2 ≠ 1 ∨ fieldAt img 2 2 ≠ 0x0D2A ∨ s.r (vdmR i.val 0x84) * 1024 < fieldAt img 8 8 ∨ crc64 (b.take 0x38 ++ List.replicate 8 0 ++ b.drop 0x40) ≠ fieldAt b 0x38 8 ∨ (s.vd i.val (s.fld (vdmR i.val 0x40) 0 12)).qcount < fieldAt b 0x10 4 % 2 ^ 21 ∨ (s.vd i.val (s.fld (vdmR i.val 0x40) 0 12)).ecount < fieldAt b 0x14 4 % 2 ^ 13 ∨ (s.vd i.val (s.fld (vdmR i.val 0x40) 0 12)).vcount < fieldAt b 0x18 4 % 2 ^ 17)) ∧
    (∃ (i : Inst) (a : Acc) (data : List (List Byte)) (c : Bool) (s : State), s.Serves i.val ∧ s.Free (vdmPage i.val) ∧ s.fld (vdmR i.val 0x48) 0 1 = 0 ∧ (s.fld (vdmR i.val 0x40) 0 12) ≠ 0 ∧ (s.vd i.val (s.fld (vdmR i.val 0x40) 0 12)).st = .down ∧ (s.vd i.val (s.fld (vdmR i.val 0x40) 0 12)).need ≤ s.r (vdmR i.val 0x84) * 1024) ∧
    (∃ (i : Inst) (a : Acc) (img : List Byte) (s : State), s.Serves i.val ∧ s.Free (vdmPage i.val) ∧ s.fld (vdmR i.val 0x48) 0 1 = 0 ∧ (s.fld (vdmR i.val 0x40) 0 12) ≠ 0 ∧ ((s.vd i.val (s.fld (vdmR i.val 0x40) 0 12)).st = .active ∨ (s.vd i.val (s.fld (vdmR i.val 0x40) 0 12)).st = .down) ∧ (vdQueues s i.val (s.vd i.val (s.fld (vdmR i.val 0x40) 0 12))).any (fun e => !e.2.disabled) = false ∧ vdSaved s i.val (s.vd i.val (s.fld (vdmR i.val 0x40) 0 12)) = []) ∧
    (∃ (i : Inst) (a : Acc) (img b : List Byte) (qs : List ImgQ) (o eo vo co : Nat) (y s : State), s.Serves i.val ∧ s.Free (vdmPage i.val) ∧ s.fld (vdmR i.val 0x48) 0 1 = 0 ∧ (s.fld (vdmR i.val 0x40) 0 12) ≠ 0 ∧ ((s.vd i.val (s.fld (vdmR i.val 0x40) 0 12)).st = .active ∨ (s.vd i.val (s.fld (vdmR i.val 0x40) 0 12)).st = .down) ∧ (vdQueues s i.val (s.vd i.val (s.fld (vdmR i.val 0x40) 0 12))).any (fun e => !e.2.disabled) = false ∧ vdSaved s i.val (s.vd i.val (s.fld (vdmR i.val 0x40) 0 12)) = [] ∧ 64 ≤ img.length ∧ fieldAt img 8 8 ≤ img.length ∧ b = img.take (fieldAt img 8 8) ∧ fieldAt img 8 8 ≤ s.r (vdmR i.val 0x84) * 1024 ∧ fieldAt img 0 2 = 1 ∧ fieldAt img 2 2 = 0x0D2A ∧ crc64 (b.take 0x38 ++ List.replicate 8 0 ++ b.drop 0x40) = fieldAt b 0x38 8 ∧ fieldAt b 0x10 4 % 2 ^ 21 ≤ (s.vd i.val (s.fld (vdmR i.val 0x40) 0 12)).qcount ∧ fieldAt b 0x14 4 % 2 ^ 13 ≤ (s.vd i.val (s.fld (vdmR i.val 0x40) 0 12)).ecount ∧ fieldAt b 0x18 4 % 2 ^ 17 ≤ (s.vd i.val (s.fld (vdmR i.val 0x40) 0 12)).vcount ∧ imgQueues b (fieldAt b 0x10 4 % 2 ^ 21) 128 = (qs, o) ∧ eo = alignUp o 64 ∧ vo = alignUp (eo + 8 * (fieldAt b 0x14 4 % 2 ^ 13)) 64 ∧ co = alignUp (vo + 16 * (fieldAt b 0x18 4 % 2 ^ 17)) 64 ∧ ((imgCmds b (fieldAt b 0x1C 4 % 2 ^ 16) co).1.any fun c => ((sitesFor s i.val (s.vd i.val (s.fld (vdmR i.val 0x40) 0 12)).part 0xFFF).map (siteKind s)).any fun k => k != areaKind c.save) = false ∧ (s.en i.val).seqs.length + fieldAt b 0x20 4 ≤ 65536 ∧ vdRestored (clearLatches s (vdmPage i.val)) i.val (s.fld (vdmR i.val 0x40) 0 12) b qs eo vo co = some y) ∧
    (∃ (i : Inst) (a : Acc) (img b : List Byte) (qs : List ImgQ) (o eo vo co : Nat) (y s : State), s.Serves i.val ∧ s.Free (vdmPage i.val) ∧ s.fld (vdmR i.val 0x48) 0 1 = 0 ∧ (s.fld (vdmR i.val 0x40) 0 12) ≠ 0 ∧ ((s.vd i.val (s.fld (vdmR i.val 0x40) 0 12)).st = .active ∨ (s.vd i.val (s.fld (vdmR i.val 0x40) 0 12)).st = .down) ∧ (vdQueues s i.val (s.vd i.val (s.fld (vdmR i.val 0x40) 0 12))).any (fun e => !e.2.disabled) = false ∧ vdSaved s i.val (s.vd i.val (s.fld (vdmR i.val 0x40) 0 12)) = [] ∧ 64 ≤ img.length ∧ fieldAt img 8 8 ≤ img.length ∧ b = img.take (fieldAt img 8 8) ∧ fieldAt img 8 8 ≤ s.r (vdmR i.val 0x84) * 1024 ∧ fieldAt img 0 2 = 1 ∧ fieldAt img 2 2 = 0x0D2A ∧ crc64 (b.take 0x38 ++ List.replicate 8 0 ++ b.drop 0x40) = fieldAt b 0x38 8 ∧ fieldAt b 0x10 4 % 2 ^ 21 ≤ (s.vd i.val (s.fld (vdmR i.val 0x40) 0 12)).qcount ∧ fieldAt b 0x14 4 % 2 ^ 13 ≤ (s.vd i.val (s.fld (vdmR i.val 0x40) 0 12)).ecount ∧ fieldAt b 0x18 4 % 2 ^ 17 ≤ (s.vd i.val (s.fld (vdmR i.val 0x40) 0 12)).vcount ∧ imgQueues b (fieldAt b 0x10 4 % 2 ^ 21) 128 = (qs, o) ∧ eo = alignUp o 64 ∧ vo = alignUp (eo + 8 * (fieldAt b 0x14 4 % 2 ^ 13)) 64 ∧ co = alignUp (vo + 16 * (fieldAt b 0x18 4 % 2 ^ 17)) 64 ∧ ((imgCmds b (fieldAt b 0x1C 4 % 2 ^ 16) co).1.any fun c => ((sitesFor s i.val (s.vd i.val (s.fld (vdmR i.val 0x40) 0 12)).part 0xFFF).map (siteKind s)).any fun k => k != areaKind c.save) = false ∧ (s.en i.val).seqs.length + fieldAt b 0x20 4 ≤ 65536 ∧ vdRestored (clearLatches s (vdmPage i.val)) i.val (s.fld (vdmR i.val 0x40) 0 12) b qs eo vo co = some y) ∧
    (∃ (i : Inst) (a : Acc) (img b : List Byte) (qs : List ImgQ) (o eo vo co : Nat) (s : State), s.Serves i.val ∧ s.Free (vdmPage i.val) ∧ s.fld (vdmR i.val 0x48) 0 1 = 0 ∧ (s.fld (vdmR i.val 0x40) 0 12) ≠ 0 ∧ ((s.vd i.val (s.fld (vdmR i.val 0x40) 0 12)).st = .active ∨ (s.vd i.val (s.fld (vdmR i.val 0x40) 0 12)).st = .down) ∧ (vdQueues s i.val (s.vd i.val (s.fld (vdmR i.val 0x40) 0 12))).any (fun e => !e.2.disabled) = false ∧ vdSaved s i.val (s.vd i.val (s.fld (vdmR i.val 0x40) 0 12)) = [] ∧ 64 ≤ img.length ∧ fieldAt img 8 8 ≤ img.length ∧ b = img.take (fieldAt img 8 8) ∧ fieldAt img 8 8 ≤ s.r (vdmR i.val 0x84) * 1024 ∧ fieldAt img 0 2 = 1 ∧ fieldAt img 2 2 = 0x0D2A ∧ crc64 (b.take 0x38 ++ List.replicate 8 0 ++ b.drop 0x40) = fieldAt b 0x38 8 ∧ fieldAt b 0x10 4 % 2 ^ 21 ≤ (s.vd i.val (s.fld (vdmR i.val 0x40) 0 12)).qcount ∧ fieldAt b 0x14 4 % 2 ^ 13 ≤ (s.vd i.val (s.fld (vdmR i.val 0x40) 0 12)).ecount ∧ fieldAt b 0x18 4 % 2 ^ 17 ≤ (s.vd i.val (s.fld (vdmR i.val 0x40) 0 12)).vcount ∧ imgQueues b (fieldAt b 0x10 4 % 2 ^ 21) 128 = (qs, o) ∧ eo = alignUp o 64 ∧ vo = alignUp (eo + 8 * (fieldAt b 0x14 4 % 2 ^ 13)) 64 ∧ co = alignUp (vo + 16 * (fieldAt b 0x18 4 % 2 ^ 17)) 64 ∧ ((imgCmds b (fieldAt b 0x1C 4 % 2 ^ 16) co).1.any fun c => ((sitesFor s i.val (s.vd i.val (s.fld (vdmR i.val 0x40) 0 12)).part 0xFFF).map (siteKind s)).any fun k => k != areaKind c.save) = false ∧ (65536 < (s.en i.val).seqs.length + fieldAt b 0x20 4 ∨ vdRestored (clearLatches s (vdmPage i.val)) i.val (s.fld (vdmR i.val 0x40) 0 12) b qs eo vo co = none)) ∧
    (∃ (s : State), s.Up) ∧
    (∃ (i : Inst) (v : BitVec 12) (a : Acc) (s : State), s.Serves i.val ∧ (s.vdm.get i.val).any (fun e => e.1 == v.toNat && e.2.st != .free && !e.2.mbox) = true) ∧
    (∃ (i : Inst) (v : BitVec 12) (a : Acc) (s : State), s.Serves i.val ∧ (s.vdm.get i.val).any (fun e => e.1 == v.toNat && e.2.st != .free && !e.2.mbox) = false) ∧
    (∃ (i : Inst) (a : Acc) (s : State), s.Serves i.val ∧ s.Free (vdmPage i.val) ∧ (s.vd i.val (s.fld (vdmR i.val 0x40) 0 12)).mbox = true) ∧
    (∃ (i : Inst) (a : Acc) (s : State), s.Serves i.val ∧ s.Free (vdmPage i.val) ∧ (s.vd i.val (s.fld (vdmR i.val 0x40) 0 12)).mbox = false) :=
  ⟨⟨0, ⟨true, 0, 0⟩, _, tVdNew, by decide, by decide, by decide, by decide, by decide, rfl, by decide, by decide, by decide, by decide, by decide, by decide⟩,
   ⟨0, ⟨true, 0, 0⟩, tVd tVdR, by decide⟩,
   ⟨0, ⟨true, 0, 0⟩, tVdNew.setR (vdmR 0 0x50) 0, by decide⟩,
   ⟨0, ⟨true, 0, 0⟩, { tVdNew with vdm := ⟨[(9, cfgRec tVdNew 0)], []⟩ }, by decide⟩,
   ⟨0, ⟨true, 0, 0⟩, { tVdNew with vdm := ⟨[(9, { cfgRec tVdNew 0 with cfg0 := (cfgRec tVdNew 0).cfg0 ^^^ 0x100 })], []⟩ }, by decide⟩,
   ⟨0, ⟨true, 0, 0⟩, tUp, by decide⟩,
   ⟨0, ⟨true, 0, 0⟩, { tVd tVdR with qm := (tQ { ctx := tCtx, mode := .enabled }).qm }, by decide⟩,
   ⟨0, ⟨true, 0, 0⟩, tUp.setR (vdmR 0 0x48) 1, by decide⟩,
   ⟨0, ⟨true, 0, 0⟩, tUp, by decide⟩,
   ⟨0, ⟨true, 0, 0⟩, tUp, by decide⟩,
   ⟨0, 1, tVd tVdR, by decide⟩,
   ⟨0, ⟨true, 0, 0⟩, [], .ends .ok, tVd tVdR, by decide⟩,
   ⟨0, ⟨true, 0, 0⟩, [], .ur, tVdDown, by decide⟩,
   ⟨0, ⟨true, 0, 0⟩, [], .ends .ok, tUp, by decide⟩,
   ⟨0, ⟨true, 0, 0⟩, tVd tVdR, by decide⟩,
   ⟨0, ⟨true, 0, 0⟩, tVd tVdR, by decide⟩,
   ⟨0, ⟨true, 0, 0⟩, { tVd tVdR with qm := (tQ { ctx := tCtx, mode := .enabled }).qm }, by decide⟩,
   ⟨0, ⟨true, 0, 0⟩, tVdDown, by decide⟩,
   ⟨0, 1, tVd { tVdR with st := .closing }, by decide⟩,
   ⟨0, 1, tVd { tVdR with st := .closing }, by decide⟩,
   ⟨0, 1, tVd tVdR, by decide⟩,
   ⟨0, ⟨true, 0, 0⟩, [], .ends .ok, tVd { tVdR with st := .down, need := 256 }, by decide⟩,
   ⟨0, ⟨true, 0, 0⟩, [], tVdDown, by decide⟩,
   ⟨0, ⟨true, 0, 0⟩, [], .ends .ok, { tVd tVdR with qm := (tQ { ctx := tCtx, mode := .enabled }).qm }, by decide⟩,
   ⟨0, ⟨true, 0, 0⟩, [], .ur, tVdDown, by decide⟩,
   ⟨0, ⟨true, 0, 0⟩, List.replicate 8 0 ++ [64] ++ List.replicate 55 0, _, tVdDown, by decide, by decide, by decide, by decide, by decide, by decide, by decide, by decide, by decide, rfl, by decide⟩,
   ⟨0, ⟨true, 0, 0⟩, [], false, tVdDown, by decide⟩,
   ⟨0, ⟨true, 0, 0⟩, [], tVdDown, by decide⟩,
   ⟨0, ⟨true, 0, 0⟩, tImg, tImg, [], 128, 128, 128, 128, _, tVdDown, by decide, by decide, by decide, by decide, by decide, by decide, by decide, by decide, by decide, by decide, by decide, by decide, by decide, tImg_crc, by decide, by decide, by decide, by decide, by decide, by decide, by decide, by decide, by decide, rfl⟩,
   ⟨0, ⟨true, 0, 0⟩, tImg, tImg, [], 128, 128, 128, 128, _, tVdDown, by decide, by decide, by decide, by decide, by decide, by decide, by decide, by decide, by decide, by decide, by decide, by decide, by decide, tImg_crc, by decide, by decide, by decide, by decide, by decide, by decide, by decide, by decide, by decide, rfl⟩,
   ⟨0, ⟨true, 0, 0⟩, tImgS, tImgS, [], 128, 128, 128, 128, tVdDown, by decide, by decide, by decide, by decide, by decide, by decide, by decide, by decide, by decide, by decide, by decide, by decide, by decide, tImgS_crc, by decide, by decide, by decide, by decide, by decide, by decide, by decide, by decide, by decide⟩,
   ⟨tVd tVdR, by decide⟩,
   ⟨0, 1, ⟨false, 0, 0⟩, tVd tVdR, by decide⟩,
   ⟨0, 1, ⟨false, 0, 0⟩, tVd { tVdR with mbox := true }, by decide⟩,
   ⟨0, ⟨true, 0, 0⟩, tVd { tVdR with mbox := true }, by decide⟩,
   ⟨0, ⟨true, 0, 0⟩, tVd tVdR, by decide⟩⟩

theorem witness_SavedImagesPassTheirChecks : (vdImage tVdDown 0 1 []).length < 2 ^ 64 := by decide +kernel

theorem witness_PowerLevelCommandsAct :
    (∃ (d : Fin 13) (s : State), s.por = false ∧ wanted s d.val < levelOf s d.val) ∧
    (∃ (d : Fin 13) (s : State), s.por = false ∧ levelOf s d.val ≤ wanted s d.val) ∧
    (∃ (z : List Byte) (s : State), s.por = false) ∧
    (∃ (z : List Byte) (s : State), s.por = false ∧ (∀ k < 8, ((z.map BitVec.toNat).getD k 0) + 3 < s.fld (thrR 0x58) 0 8) ∧ s.fld (thrR 0x58) 0 8 ≤ s.fld (thrR 0x58) 8 8) ∧
    (∃ (k : Fin 8) (z : List Byte) (s : State), s.por = false ∧ z.length = 8 ∧ s.fld (thrR 0x58) 8 8 ≤ ((z.map BitVec.toNat).getD k.val 0) ∧ s.fld (thrR 0x58) 0 8 ≤ s.fld (thrR 0x58) 8 8) ∧
    (∃ (s : State), s.por = false) ∧
    (∃ (s : State), s.Up ∧ s.nv.inhibit = true) ∧
    (∃ (s : State), s.Up ∧ s.nv.inhibit = false) ∧
    (∃ (s : State), s.por = false ∧ s.held = true) ∧
    (∃ (s : State), s.Up ∧ s.lev.brake = false) ∧
    (∃ (s : State), s.por = false ∧ s.held = true) ∧
    (∃ (s : State), s.Up ∧ s.lev.brake = true) ∧
    (∃ (d : Fin 13) (s : State), s.por = false) ∧
    (∃ (d : Fin 13) (s : State), s.por = false ∧ s.lev.droopOn.contains d.val = false) ∧
    (∃ (d : Fin 13) (s : State), s.por = false ∧ s.lev.droopOn.contains d.val = true) ∧
    (∃ (d : Fin 13) (s : State), s.por = false) ∧
    (∃ (s : State), s.por = false) ∧
    (∃ (k : Site) (s : State), s.por = false) ∧
    (∃ (rail : Fin 16) (on : Bool) (s : State), s.por = false ∧ railRole s rail.val = 0) ∧
    (∃ (rail : Fin 16) (s : State), s.por = false ∧ railRole s rail.val ≠ 0) ∧
    (∃ (rail : Fin 16) (s : State), s.por = false ∧ railRole s rail.val ≠ 0 ∧ (∀ e ∈ s.lev.warned, e.2 = railDom s rail.val → e.1 = rail.val)) ∧
    (∃ (rail : Fin 16) (e : Nat × Nat) (s : State), s.por = false ∧ railRole s rail.val ≠ 0 ∧ e ∈ s.lev.warned ∧ e.2 = railDom s rail.val ∧ e.1 ≠ rail.val) ∧
    (∃ (a : Acc) (v : W32) (s : State), s.Up) ∧
    (∃ (i : Inst) (a : Acc) (v : W32) (s : State), s.Serves i.val ∧ s.Free ⟨.sch, i.val, 0⟩ ∧ s.NoLate) ∧
    (∃ (s : State), s.por = false ∧ s.lev.sensorBad = false) ∧
    (∃ (s : State), s.por = false ∧ s.lev.sensorBad = true) :=
  ⟨⟨0, { tUp with lev := { site := [(0, 2)] } }, by decide⟩,
   ⟨0, tUp, by decide⟩,
   ⟨[], tUp, by decide⟩,
   ⟨[], tUp, by decide⟩,
   ⟨0, [110, 0, 0, 0, 0, 0, 0, 0], tUp, by decide⟩,
   ⟨tUp, by decide⟩,
   ⟨{ tUp with nv := { tUp.nv with inhibit := true } }, by decide⟩,
   ⟨tUp, by decide⟩,
   ⟨{ tUp with warm := true }, by decide⟩,
   ⟨{ tUp with brakeLow := true }, by decide⟩,
   ⟨{ tUp with brakeLow := true, warm := true }, by decide⟩,
   ⟨{ tUp with brakeLow := true, lev := { brake := true } }, by decide⟩,
   ⟨0, tUp, by decide⟩,
   ⟨0, tUp, by decide⟩,
   ⟨0, { tUp with lev := { droopOn := [0] } }, by decide⟩,
   ⟨0, tUp, by decide⟩,
   ⟨tUp, by decide⟩,
   ⟨0, tUp, by decide⟩,
   ⟨0, true, tUp, by decide⟩,
   ⟨0, tRail, by decide⟩,
   ⟨0, tRail, by decide⟩,
   ⟨0, (1, railDom tRail 0), { tRail with lev := { tRail.lev with warned := [(1, railDom tRail 0)] } }, by decide⟩,
   ⟨⟨false, 0, 0⟩, 0, tUp, by decide⟩,
   ⟨0, ⟨false, 0, 0⟩, 0, tUp, by decide⟩,
   ⟨tUp, by decide⟩,
   ⟨{ tUp with lev := { sensorBad := true } }, by decide⟩⟩

theorem witness_PowerMeasuresAndBudgets :
    (∃ (raws : List (BitVec 12)) (s : State), s.Up ∧ s.lev.pmiLost = true) ∧
    (∃ (raws : List (BitVec 12)) (s : State), s.por = false ∧ s.held = true) ∧
    (∃ (raws : List (BitVec 12)) (w : Nat) (s : State), s.Up ∧ s.lev.pmiLost = false ∧ w = max 1 (s.fld (pwrR 0x68) 16 8)) ∧
    (∃ (raws : List (BitVec 12)) (n : Nat) (s : State), s.Up ∧ s.lev.pmiLost = false ∧ railsUsed s = [n] ∧ pkgModel s = false ∧ pkgRails s = [n]) ∧
    (∃ (m : Nat) (s : State), s.por = false ∧ powerMaster s = some m) ∧
    (∃ (s : State), s.por = false ∧ powerMaster s = none) ∧
    (∃ (r : PwrRead) (s : State), s.por = false ∧ s.held = true) ∧
    (∃ (r : PwrRead) (m : Nat) (s : State), s.Up ∧ powerMaster s = some m) ∧
    (∃ (a : Acc) (v : W32) (s : State), s.Up ∧ inBand s = true ∧ 800 ≤ bits v.toNat 0 12 ∧ bits v.toNat 0 12 ≤ 2800) ∧
    (∃ (a : Acc) (v : W32) (s : State), s.Up ∧ (inBand s = false ∨ bits v.toNat 0 12 < 800 ∨ 2800 < bits v.toNat 0 12)) ∧
    (∃ (v : W32) (s : State), s.por = false ∧ s.boot.addr.isSome = true ∧ inBand s = false ∧ 800 ≤ v.toNat ∧ v.toNat ≤ 2800) ∧
    (∃ (v : W32) (s : State), s.por = false ∧ s.boot.addr = none) ∧
    (∃ (b : Bool) (s : State), s.por = false ∧ s.boot.addr = none) ∧
    (∃ (id : BitVec 16) (s : State), s.por = false ∧ s.boot.addr = none) ∧
    (∃ (v : W32) (s : State), s.por = false ∧ s.boot.addr.isSome = true ∧ (inBand s = true ∨ v.toNat < 800 ∨ 2800 < v.toNat)) ∧
    (∃ (b : Bool) (s : State), s.por = false ∧ s.boot.addr.isSome = true) ∧
    (∃ (s : State), s.por = false ∧ s.boot.addr.isSome = true) ∧
    (∃ (s : State), s.por = false ∧ s.boot.addr.isSome = true) ∧
    (∃ (s : State), s.por = false ∧ s.boot.addr.isSome = true) ∧
    (∃ (s : State), s.por = false ∧ s.boot.addr.isSome = true) ∧
    (∃ (id : BitVec 16) (s : State), s.por = false ∧ s.boot.addr.isSome = true ∧ id ≠ 0x200 ∧ id ≠ 0x201 ∧ id ≠ 0x202 ∧ id ≠ 0x203) :=
  ⟨⟨[], { tUp with lev := { pmiLost := true } }, by decide⟩,
   ⟨[], { tUp with warm := true }, by decide⟩,
   ⟨[100], _, tRail, by decide, by decide, rfl⟩,
   ⟨[100], 0, tRail, by decide⟩,
   ⟨0, tUp, by decide⟩,
   ⟨{ tUp with mir := ⟨{ tUp.mir.a with fenced := true }, { tUp.mir.b with fenced := true }⟩ }, by decide⟩,
   ⟨⟨[], 0, 0, 0⟩, { tUp with warm := true }, by decide⟩,
   ⟨⟨[], 0, 0, 0⟩, 0, tUp, by decide⟩,
   ⟨⟨false, 0, 0⟩, 1000, tUp, by decide⟩,
   ⟨⟨false, 0, 0⟩, 1000, tSide, by decide⟩,
   ⟨1000, tSide, by decide⟩,
   ⟨1000, tUp, by decide⟩,
   ⟨true, tUp, by decide⟩,
   ⟨0x200, tUp, by decide⟩,
   ⟨1000, tBmc, by decide⟩,
   ⟨true, tBmc, by decide⟩,
   ⟨tBmc, by decide⟩,
   ⟨tBmc, by decide⟩,
   ⟨tBmc, by decide⟩,
   ⟨tBmc, by decide⟩,
   ⟨0, tBmc, by decide⟩⟩

theorem witness_BrakeAndTripHoldLevels : ({ tUp with lev := { brake := true } } : State).lev.brake = true ∧ tUp.por = false ∧ tUp.held = false := by decide

theorem witness_AllotmentsSumToTheBudget :
    (let s := tOnSite tCmd; bits (s.r (pwrR 0x50)) 0 10 + bits (s.r (pwrR 0x50)) 10 10 + bits (s.r (pwrR 0x50)) 20 10 + s.fld (pwrR 0x54) 0 8 * (12 - (partSites s).length) ≤ budget s ∧ ((partSites s).map (weightOf s)).sum ≠ 0) ∧
    (let s := { tOnSite tCmd with lev := { power := [(0, 16 * Tbl.getD (baseAllot (tOnSite tCmd)) 0 0)] } }
     (((partSites s).filter fun k => let v := Tbl.getD (baseAllot s) k 0
      v * 16 * 98 ≤ Tbl.getD s.lev.power k 0 * 100 && Tbl.getD s.lev.power k 0 * 100 ≤ v * 16 * 102).map (weightOf s)).sum ≠ 0) := by decide

theorem witness_PoolActs :
    (∃ (a : Acc) (v : W32) (s : State), s.Up ∧ inBand s = true) ∧
    (∃ (a : Acc) (v : W32) (s : State), s.Up ∧ inBand s = false) ∧
    (∃ (v : W32) (s : State), s.por = false ∧ s.boot.addr.isSome = true ∧ inBand s = false) ∧
    (∃ (v : W32) (s : State), s.por = false ∧ s.boot.addr = none) ∧
    (∃ (v : W32) (s : State), s.por = false ∧ s.boot.addr = none) ∧
    (∃ (v : W32) (s : State), s.por = false ∧ s.boot.addr.isSome = true ∧ inBand s = true) ∧
    (∃ (a : Acc) (v : W32) (s : State), s.Up ∧ inBand s = true) ∧
    (∃ (v : W32) (s : State), s.por = false ∧ s.boot.addr.isSome = true ∧ inBand s = false) ∧
    (∃ (m : Nat) (s : State), s.Up ∧ powerMaster s = some m ∧ poolOn s = true) ∧
    (∃ (s : State), s.Up ∧ poolOn s = false) ∧
    (∃ (rs : List PoolMsg) (r d m : Nat) (s : State), s.Up ∧ powerMaster s = some m ∧ poolOn s = true ∧ s.lev.pending = true ∧ (poolMembers s).all (fun m => rs.any fun r => r.member == m && r.epoch == s.fld (pwrR 0x21C) 0 16) = true ∧ rs.length = (poolMembers s).length ∧ rs.all (fun r => some r.total == rs.head?.map PoolMsg.total) = true ∧ poolTransfer rs (poolMembers s) s.lev.shares (s.fld (pwrR 0x208) 0 8) = some (r, d)) ∧
    (∃ (rs : List PoolMsg) (m : Nat) (s : State), s.Up ∧ powerMaster s = some m ∧ poolOn s = true ∧ s.lev.pending = true ∧ (poolMembers s).all (fun m => rs.any fun r => r.member == m && r.epoch == s.fld (pwrR 0x21C) 0 16) = true ∧ rs.length = (poolMembers s).length ∧ rs.all (fun r => some r.total == rs.head?.map PoolMsg.total) = true ∧ poolTransfer rs (poolMembers s) s.lev.shares (s.fld (pwrR 0x208) 0 8) = none) ∧
    (∃ (rs : List PoolMsg) (s : State), s.Up ∧ ((poolMembers s).all (fun m => rs.any fun r => r.member == m && r.epoch == s.fld (pwrR 0x21C) 0 16) = false ∨ rs.all (fun r => some r.total == rs.head?.map PoolMsg.total) = false)) ∧
    (∃ (rs : List PoolMsg) (s : State), s.Up ∧ s.lev.pending = false) ∧
    (∃ (m : Nat) (s : State), s.Up ∧ powerMaster s = some m ∧ poolOn s = true ∧ s.lev.pending = true) ∧
    (∃ (s : State), s.Up ∧ (poolOn s = false ∨ s.lev.pending = false)) ∧
    (∃ (ns : List PaceMsg) (m : Nat) (s : State), s.Up ∧ powerMaster s = some m) ∧
    (∃ (ns : List PaceMsg) (s : State), s.Up ∧ powerMaster s = none) :=
  ⟨⟨⟨false, 0, 0⟩, 2000, tUp, by decide⟩,
   ⟨⟨false, 0, 0⟩, 2000, tSide, by decide⟩,
   ⟨2000, tSide, by decide⟩,
   ⟨2000, tUp, by decide⟩,
   ⟨2000, tUp, by decide⟩,
   ⟨2000, tBmc, by decide⟩,
   ⟨⟨false, 0, 0⟩, 0x01000301, tUp, by decide⟩,
   ⟨0x01000301, tSide, by decide⟩,
   ⟨0, tPoolOn, by decide⟩,
   ⟨tUp, by decide⟩,
   ⟨[tMsg 0 7 0, tMsg 1 0 0], 0, 1, 0, tPoolOn, by decide⟩,
   ⟨[tMsg 0 0 0, tMsg 1 0 0], 0, tPoolOn, by decide⟩,
   ⟨[tMsg 0 0 0], tPoolOn, by decide⟩,
   ⟨[], tUp, by decide⟩,
   ⟨0, tPoolOn, by decide⟩,
   ⟨tUp, by decide⟩,
   ⟨[], 0, tUp, by decide⟩,
   ⟨[], { tUp with mir := ⟨{ tUp.mir.a with fenced := true }, { tUp.mir.b with fenced := true }⟩ }, by decide⟩⟩

theorem witness_TransfersKeepThePool : ([0, 1] : List Nat) ≠ [] ∧ [0, 1].Nodup ∧ (∀ m ∈ [0, 1], m < 8) ∧ ([1000, 1000, 0, 0, 0, 0, 0, 0] : List Nat).length = 8 ∧
    [1000, 1000, 0, 0, 0, 0, 0, 0].sum ≠ 0 ∧ poolTransfer [tMsg 0 7 0, tMsg 1 0 0] [0, 1] [1000, 1000] 10 = some (0, 1) := by decide

theorem witness_EventsOpenOrMerge : tUp.r (fltR 0x40) = 0 ∧ tInc.r (fltR 0x40) ≠ 0 := by decide

theorem witness_FaultsAreReported :
    (∃ (src : Fin 64) (r : ErrReport) (s : State), s.por = false ∧ (40 ≤ src.val ∨ islandHeld s src.val = false)) ∧
    (∃ (src : Fin 64) (r : ErrReport) (s : State), s.por = false ∧ src.val < 40 ∧ islandHeld s src.val = true) ∧
    (∃ (k : Island) (r : ErrReport) (s : State), s.por = false ∧ islandHeld s k.val = false) ∧
    (∃ (k : Island) (r : ErrReport) (s : State), s.por = false ∧ islandHeld s k.val = true) ∧
    (∃ (k : Island) (s : State), s.por = false ∧ islandHeld s k.val = false ∧ sharedIsland k.val = true) ∧
    (∃ (k : Island) (s : State), s.por = false ∧ islandHeld s k.val = false ∧ sharedIsland k.val = false) ∧
    (∃ (k : Island) (s : State), s.por = false ∧ islandHeld s k.val = true) ∧
    (∃ (k : Island) (s : State), s.Up ∧ (k.val = 36 ∨ k.val = 37 ∨ k.val = 39 ∨ islandHeld s k.val = true ∨ s.flt.cond.contains k.val = true)) ∧
    (∃ (k : Island) (s : State), s.Up ∧ monitored k.val = true ∧ islandHeld s k.val = false ∧ s.flt.cond.contains k.val = false ∧ k.val < 32 ∧ sharedIsland k.val = false) ∧
    (∃ (k : Island) (s : State), s.Up ∧ monitored k.val = true ∧ islandHeld s k.val = false ∧ s.flt.cond.contains k.val = false ∧ k.val < 32 ∧ sharedIsland k.val = true) ∧
    (∃ (k : Island) (s : State), s.Up ∧ monitored k.val = true ∧ islandHeld s k.val = false ∧ s.flt.cond.contains k.val = false ∧ 32 ≤ k.val ∧ k.val < 36) ∧
    (∃ (s : State), s.Up ∧ islandHeld s 38 = false ∧ s.flt.cond.contains 38 = false) ∧
    (∃ (k : Island) (s : State), s.por = false ∧ k.val ≠ 38) ∧
    (∃ (s : State), s.por = false) ∧
    (∃ (i : Inst) (b : Bool) (s : State), s.Up ∧ alive s i.val = false) ∧
    (∃ (i : Inst) (isl : Fin 16) (addr : W64) (b : Bool) (s : State), s.Up ∧ alive s i.val = false) ∧
    (∃ (i : Inst) (w : Fin 9) (n : Fin 16) (s : State), s.Up ∧ alive s i.val = false ∧ booting s i.val = false) ∧
    (∃ (i : Inst) (w : Fin 9) (n : Fin 16) (s : State), s.Up ∧ alive s i.val = false ∧ booting s i.val = true) ∧
    (∃ (i : Inst) (b : Bool) (s : State), s.Up ∧ alive s i.val = true) ∧
    (∃ (i : Inst) (isl : Fin 16) (addr : W64) (s : State), s.Up ∧ alive s i.val = true) ∧
    (∃ (i : Inst) (isl : Fin 16) (addr : W64) (s : State), s.Up) ∧
    (∃ (i : Inst) (w : Fin 9) (n : Fin 16) (s : State), s.Up ∧ alive s i.val = true) ∧
    (∃ (i : Inst) (w : Fin 9) (n : Fin 16) (s : State), s.Up ∧ alive s i.val = true ∧ s.flt.banks.contains (i.val, w.val, n.val) = true) :=
  ⟨⟨3, tReport, tUp, by decide⟩,
   ⟨3, tReport, { tUp with warm := true }, by decide⟩,
   ⟨3, tReport, tUp, by decide⟩,
   ⟨3, tReport, { tUp with warm := true }, by decide⟩,
   ⟨36, tUp, by decide⟩,
   ⟨3, tUp, by decide⟩,
   ⟨3, { tUp with warm := true }, by decide⟩,
   ⟨36, tUp, by decide⟩,
   ⟨0, tUp, by decide⟩,
   ⟨8, tUp, by decide⟩,
   ⟨32, tUp, by decide⟩,
   ⟨tUp, by decide⟩,
   ⟨0, { tUp with flt := { cond := [0] } }, by decide⟩,
   ⟨tUp, by decide⟩,
   ⟨1, true, tUnder, by decide⟩,
   ⟨1, 3, 64, true, tUnder, by decide⟩,
   ⟨1, 4, 2, tUnder, by decide⟩,
   ⟨0, 4, 2, ({ tUp with mir := ⟨{ tUp.mir.a with inst := .resetting }, tUp.mir.b⟩ } : State).setR (reg .dbg 0 0 0x44) 2, by decide⟩,
   ⟨0, true, tUp, by decide⟩,
   ⟨0, 3, 64, tUp, by decide⟩,
   ⟨0, 3, 64, tUp, by decide⟩,
   ⟨0, 4, 2, tUp, by decide⟩,
   ⟨0, 4, 2, { tUp with flt := { banks := [(0, 4, 2)] } }, by decide⟩⟩

theorem witness_FaultPageCommandsAct :
    (∃ (a : Acc) (v : W32) (s : State), s.Up ∧ s.fld (fltR 0x6C) 16 1 = 1 ∧ s.fld (fltR 0x6C) 0 16 = bits v.toNat 0 16) ∧
    (∃ (a : Acc) (v : W32) (s : State), s.Up ∧ (s.fld (fltR 0x6C) 16 1 = 0 ∨ s.fld (fltR 0x6C) 0 16 ≠ bits v.toNat 0 16)) ∧
    (∃ (a : Acc) (v : W64) (s : State), s.Up) ∧
    (∃ (a : Acc) (v : W64) (s : State), s.Up) ∧
    (∃ (a : Acc) (s : State), s.Up ∧ s.fld (fltR 0x6C) 16 1 = 1) ∧
    (∃ (a : Acc) (s : State), s.Up ∧ s.fld (fltR 0x6C) 16 1 = 0) ∧
    (∃ (a : Acc) (s : State), s.Up) ∧
    (∃ (a : Acc) (h : Half) (v : Nat) (x s : State), s.Up ∧ takeHalf s fltPage 0xD0 h = (x, some (some v)) ∧ s.fw.lifecycle ≠ 0) ∧
    (∃ (a : Acc) (h : Half) (v : Nat) (x s : State), s.Up ∧ takeHalf s fltPage 0xD0 h = (x, some (some v)) ∧ s.fw.lifecycle = 0 ∧ bits v 8 2 ≠ 3) ∧
    (∃ (a : Acc) (h : Half) (v : Nat) (x s : State), s.Up ∧ takeHalf s fltPage 0xD0 h = (x, some (some v)) ∧ s.fw.lifecycle = 0 ∧ bits v 8 2 = 3) ∧
    (∃ (a : Acc) (h : Half) (x s : State), s.Up ∧ takeHalf s fltPage 0xD0 h = (x, none)) ∧
    (∃ (a : Acc) (i : Inst) (s : State), s.Up ∧ s.flt.bist = none ∧ alive s i.val = false) ∧
    (∃ (a : Acc) (i : Inst) (s : State), s.Up ∧ s.flt.bist = none ∧ handoverOk s i.val = false) ∧
    (∃ (a : Acc) (i : Inst) (s : State), s.Up ∧ s.flt.bist ≠ none) ∧
    (∃ (ok : Bool) (s : State), s.Up ∧ s.flt.bist = none) ∧
    (∃ (a : Acc) (i : Inst) (s : State), s.Up ∧ s.flt.bist = none ∧ alive s i.val = true) ∧
    (∃ (a : Acc) (i : Inst) (s : State), s.Up ∧ s.flt.bist ≠ none) ∧
    (∃ (a : Acc) (i : Inst) (s : State), s.Up ∧ s.flt.bist = none ∧ handoverOk s i.val = true) ∧
    (∃ (ok : Bool) (i : Nat) (s : State), s.Up ∧ s.flt.bist = some (i, 1)) ∧
    (∃ (s : State), s.por = false ∧ s.flt.grace = false) ∧
    (∃ (s : State), s.por = false ∧ s.flt.grace = true ∧ s.fld (fltR 0x6C) 17 2 ≠ 2) ∧
    (∃ (s : State), s.por = false ∧ s.flt.grace = true ∧ s.fld (fltR 0x6C) 17 2 = 2) :=
  ⟨⟨⟨false, 0, 0⟩, 7, tInc, by decide⟩,
   ⟨⟨false, 0, 0⟩, 8, tInc, by decide⟩,
   ⟨⟨false, 0, 0⟩, 0x1000000000, tInc, by decide⟩,
   ⟨⟨false, 0, 0⟩, 0x1000000000, tInc, by decide⟩,
   ⟨⟨false, 0, 0⟩, tInc, by decide⟩,
   ⟨⟨false, 0, 0⟩, tUp, by decide⟩,
   ⟨⟨false, 0, 0⟩, tUp, by decide⟩,
   ⟨⟨false, 0, 0⟩, .full 0, 0, _, { tUp with fw := { tUp.fw with lifecycle := 1 } }, by decide, rfl, by decide⟩,
   ⟨⟨false, 0, 0⟩, .full 36, 36, _, { tUp with fw := { tUp.fw with lifecycle := 0 } }, by decide, rfl, by decide, by decide⟩,
   ⟨⟨false, 0, 0⟩, .full 0x300, 0x300, _, { tUp with fw := { tUp.fw with lifecycle := 0 } }, by decide, rfl, by decide, by decide⟩,
   ⟨⟨false, 0, 0⟩, .low 1, _, tUp, by decide, rfl⟩,
   ⟨⟨false, 0, 0⟩, 1, tUnder, by decide⟩,
   ⟨⟨false, 0, 0⟩, 1, tUnder, by decide⟩,
   ⟨⟨false, 0, 0⟩, 0, { tUp with flt := { bist := some (0, 1) } }, by decide⟩,
   ⟨true, tUp, by decide⟩,
   ⟨⟨false, 0, 0⟩, 0, tUp, by decide⟩,
   ⟨⟨false, 0, 0⟩, 0, { tUp with flt := { bist := some (0, 1) } }, by decide⟩,
   ⟨⟨false, 0, 0⟩, 0, tPair, by decide⟩,
   ⟨true, 0, { tUp with flt := { bist := some (0, 1) } }, by decide⟩,
   ⟨tUp, by decide⟩,
   ⟨tInc, by decide⟩,
   ⟨tInc.setR (fltR 0x6C) 0x50007, by decide⟩⟩

theorem witness_PairCommandsAct :
    (∃ (i : Inst) (s : State), s.Up ∧ protected_ s i.val = true ∧ alive s i.val = true ∧ (s.mir.get i.val).failed = true) ∧
    (∃ (i : Inst) (s : State), s.Up ∧ protected_ s i.val = true ∧ alive s i.val = true ∧ (s.mir.get i.val).failed = false ∧ (s.mir.get i.val).handover = true ∧ switchReady s i.val i.val ((List.range 12).filter fun k => owner s k == i.val) (onesOf (s.r (hlcR i.val 0x40)) 4) = true) ∧
    (∃ (i : Inst) (s : State), s.Up ∧ protected_ s i.val = true ∧ alive s i.val = true ∧ (s.mir.get i.val).failed = false ∧ (s.mir.get i.val).handover = true ∧ switchReady s i.val i.val ((List.range 12).filter fun k => owner s k == i.val) (onesOf (s.r (hlcR i.val 0x40)) 4) = false) ∧
    (∃ (i : Inst) (s : State), s.Up ∧ (s.mir.get i.val).failed = false ∧ (s.mir.get i.val).handover = false) ∧
    (∃ (i : Inst) (a : Acc) (s : State), s.Serves i.val ∧ s.Free (mirPage i.val) ∧ s.fld (mirR i.val 0x48) 0 1 = 0 ∧ handoverOk s i.val = true) ∧
    (∃ (i : Inst) (a : Acc) (s : State), s.Serves i.val ∧ s.Free (mirPage i.val) ∧ alive s i.val = true ∧ s.fld (mirR i.val 0x48) 0 1 = 0 ∧ handoverOk s i.val = false) ∧
    (∃ (i : Inst) (s : State), s.Up ∧ (s.mir.get i.val).handover = true ∧ (s.mir.get (partner i.val)).rejoin = false ∧ (s.mir.get i.val).why = 4 ∧ s.fw.upd = none) ∧
    (∃ (i : Inst) (a : Acc) (s : State), s.Serves i.val ∧ s.Free (mirPage i.val) ∧ alive s i.val = true ∧ s.fld (mirR i.val 0x48) 0 1 = 0 ∧ rejoinOk s i.val = true) ∧
    (∃ (i : Inst) (a : Acc) (s : State), s.Serves i.val ∧ s.Free (mirPage i.val) ∧ alive s i.val = true ∧ s.fld (mirR i.val 0x48) 0 1 = 0 ∧ rejoinOk s i.val = false) ∧
    (∃ (i : Inst) (a : Acc) (s : State), s.Serves i.val ∧ s.Free (mirPage i.val) ∧ alive s i.val = true ∧ s.fld (mirR i.val 0x48) 0 1 = 1) ∧
    (∃ (i : Inst) (s : State), s.Up ∧ (s.mir.get i.val).handover = false) ∧
    (∃ (i : Inst) (s : State), s.Up ∧ (s.mir.get i.val).handover = true ∧ (s.mir.get (partner i.val)).rejoin = true) ∧
    (∃ (s : State), s.Up ∧ ((s.mir.get 0).pair ≠ .syncing ∨ (s.mir.get 1).pair ≠ .syncing)) ∧
    (∃ (u : Inst) (s : State), s.Up ∧ (s.mir.get 0).pair = .syncing ∧ (s.mir.get 1).pair = .syncing ∧ [0, 1].find? (fun u => (s.mir.get u).rejoin) = some u.val) ∧
    (∃ (s : State), s.Up ∧ (s.mir.get 0).pair = .syncing ∧ (s.mir.get 1).pair = .syncing ∧ (s.mir.get 0).rejoin = false ∧ (s.mir.get 1).rejoin = false) ∧
    (∃ (s : State), s.Up ∧ (s.mir.get 0).pair = .syncing ∧ (s.mir.get 1).pair = .syncing ∧ (s.mir.get 0).rejoin = false ∧ (s.mir.get 1).rejoin = false ∧ (s.mir.get 0).wait = [] ∧ (s.mir.get 1).wait = []) ∧
    (∃ (s : State), s.Up ∧ pairMode s = true ∧ (∀ i : Inst, alive s i.val = true ∧ (s.mir.get i.val).inst = .active ∧ (s.mir.get i.val).pair = .linkLost)) ∧
    (∃ (s : State), s.Up ∧ (pairMode s = false ∨ ∃ i : Inst, alive s i.val = false ∨ (s.mir.get i.val).inst ≠ .active ∨ (s.mir.get i.val).pair ≠ .linkLost)) ∧
    (∃ (s : State), s.Up ∧ (s.mir.get 0).pair ≠ .syncing ∧ (s.mir.get 0).pair ≠ .prot) ∧
    (∃ (s : State), s.Up ∧ (s.mir.get 0).pair = .prot ∧ (s.mir.get 1).pair = .prot ∧ (s.mir.get 0).rejoin = false ∧ (s.mir.get 1).rejoin = false) ∧
    (∃ (i : Inst) (s : State), s.Up ∧ (alive s i.val = false ∨ (s.mir.get i.val).pair ≠ .prot ∨ (s.mir.get i.val).wait = [])) ∧
    (∃ (i : Inst) (r : Report) (rest : List Report) (s : State), s.Up ∧ alive s i.val = true ∧ (s.mir.get i.val).pair = .prot ∧ (s.mir.get i.val).wait = r :: rest) ∧
    (∃ (i : Inst) (ok : Bool) (s : State), s.Up ∧ ((s.mir.get i.val).inst ≠ .resetting ∨ (s.mir.get i.val).resetRun = false)) ∧
    (∃ (i : Inst) (s : State), s.Up ∧ (s.mir.get i.val).inst = .resetting ∧ (s.mir.get i.val).resetRun = true ∧ (s.mir.get i.val).takenOver = true ∧ (s.mir.get i.val).why = 5) ∧
    (∃ (i : Inst) (ok : Bool) (s : State), s.Up ∧ (s.mir.get i.val).inst = .resetting ∧ (s.mir.get i.val).resetRun = true ∧ (s.mir.get i.val).takenOver = false) ∧
    (∃ (i : Inst) (ok : Bool) (s : State), s.Up ∧ (s.mir.get i.val).inst = .resetting ∧ (s.mir.get i.val).resetRun = true ∧ (s.mir.get i.val).takenOver = true ∧ (s.mir.get i.val).why = 3) :=
  ⟨⟨0, { tPair with mir := ⟨{ tPair.mir.a with failed := true }, tPair.mir.b⟩ }, by decide⟩,
   ⟨0, { tPair with mir := ⟨{ tPair.mir.a with handover := true }, tPair.mir.b⟩ }, by decide⟩,
   ⟨0, { tPair with mir := ⟨{ tPair.mir.a with handover := true }, tPair.mir.b⟩, qm := (tQ { ctx := tCtx, mode := .enabled, recFly := [(0, 0)] }).qm }, by decide⟩,
   ⟨0, tPair, by decide⟩,
   ⟨0, ⟨false, 0, 0⟩, tPair, by decide⟩,
   ⟨0, ⟨false, 0, 0⟩, tUp, by decide⟩,
   ⟨0, { tPair with mir := ⟨{ tPair.mir.a with handover := true, why := 4 }, tPair.mir.b⟩ }, by decide⟩,
   ⟨0, ⟨false, 0, 0⟩, tUnder, by decide⟩,
   ⟨0, ⟨false, 0, 0⟩, tPair, by decide⟩,
   ⟨0, ⟨false, 0, 0⟩, tPair.setR (mirR 0 0x48) 1, by decide⟩,
   ⟨0, tPair, by decide⟩,
   ⟨0, tGoBack, by decide⟩,
   ⟨tPair, by decide⟩,
   ⟨1, tGoBack, by decide⟩,
   ⟨{ tPair with mir := ⟨{ tPair.mir.a with pair := .syncing }, { tPair.mir.b with pair := .syncing }⟩ }, by decide⟩,
   ⟨{ tPair with mir := ⟨{ tPair.mir.a with pair := .syncing }, { tPair.mir.b with pair := .syncing }⟩ }, by decide⟩,
   ⟨({ tUp with mir := ⟨{ pair := .linkLost }, { pair := .linkLost }⟩ } : State).setR (dbgR 0 0x40) 0x3100, by decide⟩,
   ⟨tPair, by decide⟩,
   ⟨tUp, by decide⟩,
   ⟨tPair, by decide⟩,
   ⟨0, tUp, by decide⟩,
   ⟨0, .txn 0, [], { tPair with mir := ⟨{ tPair.mir.a with wait := [.txn 0] }, tPair.mir.b⟩ }, by decide⟩,
   ⟨0, true, tUp, by decide⟩,
   ⟨0, { tUp with mir := ⟨{ inst := .resetting, resetRun := true, takenOver := true, why := 5 }, {}⟩ }, by decide⟩,
   ⟨0, true, { tUp with mir := ⟨{ inst := .resetting, resetRun := true }, {}⟩ }, by decide⟩,
   ⟨0, true, { tUp with mir := ⟨{ inst := .resetting, resetRun := true, takenOver := true }, {}⟩ }, by decide⟩⟩

theorem witness_ControlProcessorEvents :
    (∃ (i : Inst) (s : State), s.Up ∧ alive s i.val = true) ∧
    (∃ (i : Inst) (s : State), s.Up ∧ alive s i.val = true) ∧
    (∃ (i : Inst) (s : State), s.Up ∧ alive s i.val = true) ∧
    (∃ (i : Inst) (c : CpCore) (n : Nat) (s : State), s.Up ∧ alive s i.val = true ∧ c.mask = false ∧ urgent (coreSet s i.val c) i.val = some n) ∧
    (∃ (i : Inst) (c : CpCore) (s : State), s.Up ∧ alive s i.val = true ∧ (c.mask = true ∨ urgent (coreSet s i.val c) i.val = none)) ∧
    (∃ (i : Inst) (p : Nat) (r : List Nat) (s : State), s.Up ∧ alive s i.val = true ∧ (s.cpu i.val).stack = p :: r) ∧
    (∃ (i : Inst) (s : State), s.Up ∧ alive s i.val = true ∧ (s.cpu i.val).stack = []) ∧
    (∃ (i : Inst) (c : CpCore) (s : State), s.Up ∧ alive s i.val = true) ∧
    (∃ (i : Inst) (c : CpCore) (s : State), s.Up ∧ alive s i.val = true ∧ ready (coreSet s i.val c) i.val ≠ []) ∧
    (∃ (i : Inst) (c : CpCore) (s : State), s.Up ∧ alive s i.val = true ∧ ready (coreSet s i.val c) i.val = []) ∧
    (∃ (i : Inst) (s : State), s.Up ∧ alive s i.val = true) ∧
    (∃ (i : Inst) (s : State), s.Up ∧ alive s i.val = false) ∧
    (∃ (i : Inst) (s : State), s.Up ∧ alive s i.val = false) ∧
    (∃ (i : Inst) (s : State), s.Up ∧ alive s i.val = false) ∧
    (∃ (i : Inst) (s : State), s.Up ∧ alive s i.val = false) ∧
    (∃ (i : Inst) (s : State), s.Up ∧ alive s i.val = false) ∧
    (∃ (i : Inst) (c : CpCore) (s : State), s.Up ∧ alive s i.val = false) ∧
    (∃ (i : Inst) (c : CpCore) (s : State), s.Up ∧ alive s i.val = false) ∧
    (∃ (i : Inst) (c : CpCore) (s : State), s.Up ∧ alive s i.val = false) :=
  ⟨⟨0, tUp, by decide⟩,
   ⟨0, tUp, by decide⟩,
   ⟨0, tUp, by decide⟩,
   ⟨0, ⟨2 ^ 46, 0, false⟩, 46, { tUp with cp := ⟨{ lines := [46] }, {}⟩ }, by decide⟩,
   ⟨0, ⟨0, 0, true⟩, tUp, by decide⟩,
   ⟨0, 0, [], { tUp with cp := ⟨{ rp := 1, stack := [0], active := [46] }, {}⟩ }, by decide⟩,
   ⟨0, tUp, by decide⟩,
   ⟨0, ⟨0, 0, true⟩, tUp, by decide⟩,
   ⟨0, ⟨2 ^ 46, 0, true⟩, { tUp with cp := ⟨{ lines := [46], asleep := true }, {}⟩ }, by decide⟩,
   ⟨0, ⟨0, 0, true⟩, tUp, by decide⟩,
   ⟨0, tUp, by decide⟩,
   ⟨1, tUnder, by decide⟩,
   ⟨1, tUnder, by decide⟩,
   ⟨1, tUnder, by decide⟩,
   ⟨1, tUnder, by decide⟩,
   ⟨1, tUnder, by decide⟩,
   ⟨1, ⟨0, 0, true⟩, tUnder, by decide⟩,
   ⟨1, ⟨0, 0, true⟩, tUnder, by decide⟩,
   ⟨1, ⟨0, 0, true⟩, tUnder, by decide⟩⟩

theorem witness_InterruptsNestByPriority : (let s : State := { tUp with cp := ⟨{ lines := [46] }, {}⟩ }; s.Up ∧ alive s 0 = true ∧
    urgent (coreSet s 0 ⟨2 ^ 46, 0, false⟩) 0 = some 46) := by decide

theorem witness_SpdmRequestsAreAnswered :
    (∃ (p : Port) (r : Nat) (s : State), s.Up ∧ powerMaster s = some r) ∧
    (∃ (p : Port) (v : Byte) (r : Nat) (s : State), s.Up ∧ powerMaster s = some r ∧ boxOf s p.val ≠ 0 ∧ (v = 0x12 ∨ v = 0x13)) ∧
    (∃ (p : Port) (v : Byte) (r : Nat) (s : State), s.Up ∧ powerMaster s = some r ∧ boxOf s p.val = 0) ∧
    (∃ (p : Port) (v : Byte) (r : Nat) (s : State), s.Up ∧ powerMaster s = some r ∧ boxOf s p.val ≠ 0 ∧ v ≠ 0x12 ∧ v ≠ 0x13) ∧
    (∃ (p : Port) (r : Nat) (s : State), s.Up ∧ powerMaster s = some r ∧ 2 ≤ boxOf s p.val) ∧
    (∃ (p : Port) (r : Nat) (s : State), s.Up ∧ powerMaster s = some r ∧ boxOf s p.val ≠ 3) ∧
    (∃ (p : Port) (k : BitVec 4) (o n : BitVec 16) (r : Nat) (s : State), s.Up ∧ powerMaster s = some r ∧ boxOf s p.val ≠ 3) ∧
    (∃ (p : Port) (k : BitVec 4) (n : Nat) (r : Nat) (s : State), s.Up ∧ powerMaster s = some r ∧ boxOf s p.val ≠ 3) ∧
    (∃ (p : Port) (x : Byte) (b : Bool) (k : BitVec 4) (n : Nat) (r : Nat) (s : State), s.Up ∧ powerMaster s = some r ∧ boxOf s p.val ≠ 3) ∧
    (∃ (p : Port) (k : BitVec 4) (q : BitVec 16) (r : Nat) (s : State), s.Up ∧ powerMaster s = some r ∧ boxOf s p.val ≠ 3) ∧
    (∃ (p : Port) (k : BitVec 4) (n : Nat) (r : Nat) (s : State), s.Up ∧ powerMaster s = some r ∧ boxOf s p.val = 3 ∧ decommissioned s = false ∧ k ≠ 0) ∧
    (∃ (p : Port) (k : BitVec 4) (q : BitVec 16) (r : Nat) (s : State), s.Up ∧ powerMaster s = some r ∧ boxOf s p.val = 3 ∧ decommissioned s = false ∧ k ≠ 0) ∧
    (∃ (p : Port) (k : BitVec 4) (q : BitVec 16) (r : Nat) (s : State), s.Up ∧ powerMaster s = some r ∧ boxOf s p.val = 3 ∧ decommissioned s = true) ∧
    (∃ (p : Port) (sid : W32) (b : Bool) (r : Nat) (s : State), s.Up ∧ powerMaster s = some r ∧ Tbl.find s.trust.sessions sid.toNat = none) ∧
    (∃ (p : Port) (sid : W32) (b : Bool) (x : Session) (r : Nat) (s : State), s.Up ∧ powerMaster s = some r ∧ Tbl.find s.trust.sessions sid.toNat = some x ∧ (x.port ≠ p.val ∨ x.ready = true)) ∧
    (∃ (p : Port) (sid : W32) (op : Byte) (r : Nat) (s : State), s.Up ∧ powerMaster s = some r ∧ Tbl.find s.trust.sessions sid.toNat = some ⟨p.val, true⟩ ∧ (op.toNat = 0 ∨ 3 < op.toNat)) ∧
    (∃ (p : Port) (sid : W32) (op : Byte) (r : Nat) (s : State), s.Up ∧ powerMaster s = some r ∧ ((Tbl.find s.trust.sessions sid.toNat).any fun x => x.port == p.val && x.ready) = false) ∧
    (∃ (p : Port) (sid : W32) (r : Nat) (s : State), s.Up ∧ powerMaster s = some r ∧ ((Tbl.find s.trust.sessions sid.toNat).any fun x => x.port == p.val && x.ready) = false) ∧
    (∃ (p : Port) (s : State), s.Up ∧ powerMaster s = none) ∧
    (∃ (p : Port) (r : Nat) (s : State), s.Up ∧ powerMaster s = some r ∧ 2 ≤ boxOf s p.val) ∧
    (∃ (p : Port) (b : Bool) (r : Nat) (s : State), s.Up ∧ powerMaster s = some r ∧ boxOf s p.val < 2) ∧
    (∃ (p : Port) (r : Nat) (s : State), s.Up ∧ powerMaster s = some r ∧ boxOf s p.val = 3) ∧
    (∃ (p : Port) (o n : BitVec 16) (r : Nat) (s : State), s.Up ∧ powerMaster s = some r ∧ boxOf s p.val = 3) ∧
    (∃ (p : Port) (k : BitVec 4) (o n : BitVec 16) (r : Nat) (s : State), s.Up ∧ powerMaster s = some r ∧ boxOf s p.val = 3 ∧ k ≠ 0) ∧
    (∃ (p : Port) (n : Nat) (r : Nat) (s : State), s.Up ∧ powerMaster s = some r ∧ boxOf s p.val = 3 ∧ decommissioned s = false) ∧
    (∃ (p : Port) (k : BitVec 4) (n : Nat) (r : Nat) (s : State), s.Up ∧ powerMaster s = some r ∧ boxOf s p.val = 3 ∧ decommissioned s = true) ∧
    (∃ (p : Port) (idx : Byte) (k : BitVec 4) (n : Nat) (ms : List Nat) (r : Nat) (s : State), s.Up ∧ powerMaster s = some r ∧ boxOf s p.val = 3 ∧ ms = (if idx.toNat = 0xFF then measured s else if idx.toNat = 0 then [] else (measured s).filter (· == idx.toNat)) ∧ (ms ≠ [] ∨ idx = 0)) ∧
    (∃ (p : Port) (idx : Byte) (n : Nat) (ms : List Nat) (r : Nat) (s : State), s.Up ∧ powerMaster s = some r ∧ boxOf s p.val = 3 ∧ decommissioned s = false ∧ ms = (if idx.toNat = 0xFF then measured s else if idx.toNat = 0 then [] else (measured s).filter (· == idx.toNat)) ∧ (ms ≠ [] ∨ idx = 0)) ∧
    (∃ (p : Port) (idx : Byte) (b : Bool) (k : BitVec 4) (n : Nat) (ms : List Nat) (r : Nat) (s : State), s.Up ∧ powerMaster s = some r ∧ boxOf s p.val = 3 ∧ (b = false ∨ decommissioned s = false) ∧ ms = (if idx.toNat = 0xFF then measured s else if idx.toNat = 0 then [] else (measured s).filter (· == idx.toNat)) ∧ ((b = true ∧ k ≠ 0) ∨ (idx ≠ 0 ∧ ms = []))) ∧
    (∃ (p : Port) (x : Byte) (k : BitVec 4) (n : Nat) (r : Nat) (s : State), s.Up ∧ powerMaster s = some r ∧ boxOf s p.val = 3 ∧ decommissioned s = true) ∧
    (∃ (p : Port) (q : BitVec 16) (n : Nat) (r : Nat) (s : State), s.Up ∧ powerMaster s = some r ∧ boxOf s p.val = 3 ∧ decommissioned s = false ∧ ((List.range 8).find? fun n => !(s.trust.sessions.map fun e => e.1 / 2 ^ 16).contains n) = some n) ∧
    (∃ (p : Port) (q : BitVec 16) (r : Nat) (s : State), s.Up ∧ powerMaster s = some r ∧ boxOf s p.val = 3 ∧ decommissioned s = false ∧ ((List.range 8).find? fun n => !(s.trust.sessions.map fun e => e.1 / 2 ^ 16).contains n) = none) ∧
    (∃ (p : Port) (sid : W32) (r : Nat) (s : State), s.Up ∧ powerMaster s = some r ∧ Tbl.find s.trust.sessions sid.toNat = some ⟨p.val, false⟩) ∧
    (∃ (p : Port) (sid : W32) (r : Nat) (s : State), s.Up ∧ powerMaster s = some r ∧ Tbl.find s.trust.sessions sid.toNat = some ⟨p.val, false⟩) ∧
    (∃ (p : Port) (sid : W32) (r : Nat) (s : State), s.Up ∧ powerMaster s = some r ∧ Tbl.find s.trust.sessions sid.toNat = some ⟨p.val, true⟩) ∧
    (∃ (p : Port) (sid : W32) (r : Nat) (s : State), s.Up ∧ powerMaster s = some r ∧ ((Tbl.find s.trust.sessions sid.toNat).any fun x => x.port == p.val && x.ready) = false) ∧
    (∃ (p : Port) (sid : W32) (op : Byte) (r : Nat) (s : State), s.Up ∧ powerMaster s = some r ∧ Tbl.find s.trust.sessions sid.toNat = some ⟨p.val, true⟩ ∧ 1 ≤ op.toNat ∧ op.toNat ≤ 3) ∧
    (∃ (p : Port) (sid : W32) (r : Nat) (s : State), s.Up ∧ powerMaster s = some r ∧ Tbl.find s.trust.sessions sid.toNat = some ⟨p.val, true⟩) :=
  ⟨⟨0, 0, tUp, by decide⟩,
   ⟨0, 0x12, 0, tNeg, by decide⟩,
   ⟨0, 0x12, 0, tUp, by decide⟩,
   ⟨0, 0x11, 0, tNeg, by decide⟩,
   ⟨0, 0, tNeg, by decide⟩,
   ⟨0, 0, tUp, by decide⟩,
   ⟨0, 0, 0, 8, 0, tUp, by decide⟩,
   ⟨0, 0, 7, 0, tUp, by decide⟩,
   ⟨0, 0, false, 0, 7, 0, tUp, by decide⟩,
   ⟨0, 0, 1, 0, tUp, by decide⟩,
   ⟨0, 1, 7, 0, tNeg, by decide⟩,
   ⟨0, 1, 1, 0, tNeg, by decide⟩,
   ⟨0, 0, 1, 0, { tNeg with fw := { tNeg.fw with lifecycle := 2 } }, by decide⟩,
   ⟨0, 1, true, 0, tNeg, by decide⟩,
   ⟨0, 1, true, ⟨0, true⟩, 0, tSess, by decide⟩,
   ⟨0, 1, 0, 0, tSess, by decide⟩,
   ⟨0, 2, 1, 0, tSess, by decide⟩,
   ⟨0, 2, 0, tSess, by decide⟩,
   ⟨0, { tUp with mir := ⟨{ tUp.mir.a with fenced := true }, { tUp.mir.b with fenced := true }⟩ }, by decide⟩,
   ⟨0, 0, tNeg, by decide⟩,
   ⟨0, true, 0, tUp, by decide⟩,
   ⟨0, 0, tNeg, by decide⟩,
   ⟨0, 0, 8, 0, tNeg, by decide⟩,
   ⟨0, 1, 0, 8, 0, tNeg, by decide⟩,
   ⟨0, 7, 0, tNeg, by decide⟩,
   ⟨0, 0, 7, 0, { tNeg with fw := { tNeg.fw with lifecycle := 2 } }, by decide⟩,
   ⟨0, 0xFF, 0, 7, _, 0, tNeg, by decide, by decide, by decide, rfl, by decide⟩,
   ⟨0, 5, 7, _, 0, tNeg, by decide, by decide, by decide, by decide, rfl, by decide⟩,
   ⟨0, 9, false, 0, 7, _, 0, tNeg, by decide, by decide, by decide, by decide, rfl, by decide⟩,
   ⟨0, 1, 0, 7, 0, { tNeg with fw := { tNeg.fw with lifecycle := 2 } }, by decide⟩,
   ⟨0, 1, 0, 0, tNeg, by decide⟩,
   ⟨0, 1, 0, { tNeg with trust := { boxes := [(0, 3)], sessions := (List.range 8).map fun n => (65536 * n, ⟨0, true⟩) } }, by decide⟩,
   ⟨0, 1, 0, { tNeg with trust := { boxes := [(0, 3)], sessions := [(1, ⟨0, false⟩)] } }, by decide⟩,
   ⟨0, 1, 0, { tNeg with trust := { boxes := [(0, 3)], sessions := [(1, ⟨0, false⟩)] } }, by decide⟩,
   ⟨0, 1, 0, tSess, by decide⟩,
   ⟨0, 1, 0, tNeg, by decide⟩,
   ⟨0, 1, 1, 0, tSess, by decide⟩,
   ⟨0, 1, 0, tSess, by decide⟩⟩

theorem witness_IdeKeysAndLifecycle :
    (∃ (p : Port) (sid : W32) (n : Byte) (r : Nat) (s : State), s.Up ∧ powerMaster s = some r ∧ Tbl.find s.trust.sessions sid.toNat = some ⟨p.val, true⟩ ∧ n ≠ 0) ∧
    (∃ (p : Port) (sid : W32) (n : Byte) (r : Nat) (s : State), s.Up ∧ powerMaster s = some r ∧ ((Tbl.find s.trust.sessions sid.toNat).any fun x => x.port == p.val && x.ready) = false) ∧
    (∃ (p : Port) (sid : W32) (stream : Fin 9) (kset rx : Bool) (sub : Fin 3) (r : Nat) (s : State), s.Up ∧ powerMaster s = some r ∧ ((Tbl.find s.trust.sessions sid.toNat).any fun x => x.port == p.val && x.ready) = false) ∧
    (∃ (p : Port) (sid : W32) (stream : Fin 9) (kset rx : Bool) (sub : Fin 3) (r : Nat) (s : State), s.Up ∧ powerMaster s = some r ∧ ((Tbl.find s.trust.sessions sid.toNat).any fun x => x.port == p.val && x.ready) = false) ∧
    (∃ (p : Port) (sid : W32) (stream : Fin 9) (kset rx : Bool) (sub : Fin 3) (r : Nat) (s : State), s.Up ∧ powerMaster s = some r ∧ ((Tbl.find s.trust.sessions sid.toNat).any fun x => x.port == p.val && x.ready) = false) ∧
    (∃ (p : Port) (sid : W32) (r : Nat) (s : State), s.Up ∧ powerMaster s = some r ∧ Tbl.find s.trust.sessions sid.toNat = some ⟨p.val, true⟩) ∧
    (∃ (p : Port) (sid : W32) (stream : Fin 9) (kset rx : Bool) (sub : Fin 3) (r : Nat) (s : State), s.Up ∧ powerMaster s = some r ∧ Tbl.find s.trust.sessions sid.toNat = some ⟨p.val, true⟩ ∧ s.trust.lost = true) ∧
    (∃ (p : Port) (sid : W32) (stream : Fin 9) (kset rx : Bool) (sub : Fin 3) (r : Nat) (s : State), s.Up ∧ powerMaster s = some r ∧ Tbl.find s.trust.sessions sid.toNat = some ⟨p.val, true⟩ ∧ s.trust.lost = false) ∧
    (∃ (p : Port) (sid : W32) (stream : Fin 9) (kset rx : Bool) (sub : Fin 3) (r : Nat) (s : State), s.Up ∧ powerMaster s = some r ∧ Tbl.find s.trust.sessions sid.toNat = some ⟨p.val, true⟩ ∧ (ideOf s p.val stream.val).keys.contains (keyNo kset rx sub) = false) ∧
    (∃ (p : Port) (sid : W32) (stream : Fin 9) (kset rx : Bool) (sub : Fin 3) (r : Nat) (s : State), s.Up ∧ powerMaster s = some r ∧ Tbl.find s.trust.sessions sid.toNat = some ⟨p.val, true⟩ ∧ (ideOf s p.val stream.val).keys.contains (keyNo kset rx sub) = true) ∧
    (∃ (p : Port) (sid : W32) (stream : Fin 9) (kset rx : Bool) (sub : Fin 3) (r : Nat) (s : State), s.Up ∧ powerMaster s = some r ∧ Tbl.find s.trust.sessions sid.toNat = some ⟨p.val, true⟩) ∧
    (∃ (p : Port) (stream : Fin 9) (un : BitVec 8) (s : State), s.Up ∧ (ideOf s p.val stream.val).secure = false) ∧
    (∃ (p : Port) (stream : Fin 9) (un : BitVec 8) (s : State), s.Up ∧ (ideOf s p.val stream.val).secure = true) ∧
    (∃ (i : Inst) (a : Acc) (s : State), s.Serves i.val ∧ s.Free ⟨.sec, i.val, 0⟩ ∧ alive s i.val = true ∧ s.fw.lifecycle = 1) ∧
    (∃ (i : Inst) (a : Acc) (n : Nat) (s : State), s.Serves i.val ∧ s.Free ⟨.sec, i.val, 0⟩ ∧ alive s i.val = true ∧ s.fw.lifecycle = 1 ∧ s.fw.lcArm = some (n, portCode a) ∧ s.hubTime ≤ n + 1000000) ∧
    (∃ (i : Inst) (a : Acc) (v : W32) (s : State), s.Serves i.val ∧ s.Free ⟨.sec, i.val, 0⟩ ∧ s.fw.lifecycle ≠ 1) ∧
    (∃ (i : Inst) (a : Acc) (v : W32) (s : State), s.Serves i.val ∧ s.Free ⟨.sec, i.val, 0⟩ ∧ alive s i.val = true ∧ s.fw.lifecycle = 1 ∧ v ≠ 0x5EC00001 ∧ (v ≠ 0x5EC00002 ∨ (s.fw.lcArm.any fun x => x.2 == portCode a && decide (s.hubTime ≤ x.1 + 1000000)) = false)) :=
  ⟨⟨0, 1, 1, 0, tSess, by decide⟩,
   ⟨0, 2, 0, 0, tSess, by decide⟩,
   ⟨0, 2, 0, false, false, 0, 0, tSess, by decide⟩,
   ⟨0, 2, 0, false, false, 0, 0, tSess, by decide⟩,
   ⟨0, 2, 0, false, false, 0, 0, tSess, by decide⟩,
   ⟨0, 1, 0, tSess, by decide⟩,
   ⟨0, 1, 0, false, false, 0, 0, { tSess with trust := { tSess.trust with lost := true } }, by decide⟩,
   ⟨0, 1, 0, false, false, 0, 0, tSess, by decide⟩,
   ⟨0, 1, 0, false, false, 0, 0, tSess, by decide⟩,
   ⟨0, 1, 0, false, false, 0, 0, { tSess with trust := { tSess.trust with ide := [(0, { keys := [0] })] } }, by decide⟩,
   ⟨0, 1, 0, false, false, 0, 0, tSess, by decide⟩,
   ⟨0, 0, 0, tUp, by decide⟩,
   ⟨0, 0, 0, { tUp with trust := { ide := [(0, { keys := [0, 1, 2, 3, 4, 5], use := [0, 1, 2, 3, 4, 5] })] } }, by decide⟩,
   ⟨0, ⟨false, 0, 0⟩, { tUp with fw := { tUp.fw with lifecycle := 1 } }, by decide⟩,
   ⟨0, ⟨false, 0, 0⟩, 0, { tUp with fw := { tUp.fw with lifecycle := 1, lcArm := some (0, 0) } }, by decide⟩,
   ⟨0, ⟨false, 0, 0⟩, 0, { tUp with fw := { tUp.fw with lifecycle := 2 } }, by decide⟩,
   ⟨0, ⟨false, 0, 0⟩, 0, { tUp with fw := { tUp.fw with lifecycle := 1, lcArm := some (0, 0) } }, by decide⟩⟩

theorem witness_NvStoreCommandsAct :
    (∃ (a : Acc) (g : BitVec 4) (s : State), s.Up ∧ s.nv.cmd = none ∧ s.nv.present = true ∧ g.toNat ∈ [0, 1, 4, 5, 6, 7] ∧ s.fld (nvsR 0x4C) 0 17 ≤ 65536 ∧ s.fld (nvsR 0x48) 0 24 + s.fld (nvsR 0x4C) 0 17 ≤ regionSize g.toNat ∧ s.r (nvsR 0x50) % 64 = 0) ∧
    (∃ (a : Acc) (g : BitVec 4) (st : Rsp) (s : State), s.Up ∧ s.nv.cmd = none ∧ s.nv.present = true ∧ (g.toNat ∉ [0, 1, 4, 5, 6, 7] ∨ 65536 < s.fld (nvsR 0x4C) 0 17 ∨ regionSize g.toNat < s.fld (nvsR 0x48) 0 24 + s.fld (nvsR 0x4C) 0 17 ∨ s.r (nvsR 0x50) % 64 ≠ 0)) ∧
    (∃ (a : Acc) (g : BitVec 4) (st : Rsp) (s : State), s.Up ∧ s.nv.cmd = none ∧ s.nv.present = true ∧ g.toNat ∈ [0, 1, 4, 5, 6, 7] ∧ s.fld (nvsR 0x4C) 0 17 ≤ 65536 ∧ s.fld (nvsR 0x48) 0 24 + s.fld (nvsR 0x4C) 0 17 ≤ regionSize g.toNat ∧ s.r (nvsR 0x50) % 64 = 0 ∧ st ≠ .ok) ∧
    (∃ (a : Acc) (g : BitVec 4) (st : Rsp) (s : State), s.Up ∧ s.nv.cmd ≠ none) ∧
    (∃ (a : Acc) (g : BitVec 4) (st : Rsp) (s : State), s.Up ∧ s.nv.cmd = none ∧ s.nv.present = false) ∧
    (∃ (a : Acc) (g : BitVec 4) (body : List Byte) (st : Rsp) (s : State), s.Up ∧ s.nv.cmd = none ∧ s.nv.present = true ∧ g.toNat = 0 ∧ s.fw.lifecycle ≠ 0) ∧
    (∃ (a : Acc) (g : BitVec 4) (body : List Byte) (st : Rsp) (s : State), s.Up ∧ s.nv.cmd = none ∧ s.nv.present = true ∧ (g.toNat ≠ 0 ∨ s.fw.lifecycle = 0) ∧ ((g.toNat ≠ 5 ∧ g.toNat ≠ 6) ∨ 131008 < s.fld (nvsR 0x4C) 0 17 ∨ s.r (nvsR 0x50) % 64 ≠ 0)) ∧
    (∃ (a : Acc) (g : BitVec 4) (body : List Byte) (st : Rsp) (s : State), s.Up ∧ s.nv.cmd = none ∧ s.nv.present = true ∧ (g.toNat = 5 ∨ g.toNat = 6) ∧ s.fld (nvsR 0x4C) 0 17 ≤ 131008 ∧ s.r (nvsR 0x50) % 64 = 0 ∧ st ≠ .ok) ∧
    (∃ (a : Acc) (g : BitVec 4) (body : List Byte) (s : State), s.Up ∧ s.nv.cmd = none ∧ s.nv.present = true ∧ (g.toNat = 5 ∨ g.toNat = 6) ∧ s.fld (nvsR 0x4C) 0 17 ≤ 131008 ∧ s.r (nvsR 0x50) % 64 = 0 ∧ body.length = s.fld (nvsR 0x4C) 0 17) ∧
    (∃ (a : Acc) (s : State), s.Up ∧ s.nv.cmd = none ∧ s.nv.present = true) ∧
    (∃ (a : Acc) (s : State), s.Up ∧ s.nv.cmd = none ∧ s.nv.present = true ∧ s.nv.confirm = some (portCode a)) ∧
    (∃ (a : Acc) (s : State), s.Up ∧ s.nv.cmd = none ∧ s.nv.present = true ∧ s.nv.confirm ≠ some (portCode a)) ∧
    (∃ (a : Acc) (s : State), s.Up ∧ s.nv.cmd ≠ none) ∧
    (∃ (a : Acc) (s : State), s.Up ∧ s.nv.cmd = none ∧ s.nv.present = false) ∧
    (∃ (ok : Bool) (s : State), s.por = false ∧ s.nv.ops = []) ∧
    (∃ (o : NvOp) (r : List NvOp) (s : State), s.por = false ∧ s.nv.inhibit = false ∧ s.nv.ops = o :: r) ∧
    (∃ (o : NvOp) (r : List NvOp) (s : State), s.por = false ∧ s.nv.inhibit = false ∧ s.nv.ops = o :: r) ∧
    (∃ (ok : Bool) (s : State), s.por = false ∧ s.nv.inhibit = true) ∧
    (∃  (s : State), s.por = false ∧ s.nv.inhibit = true ∧ s.lev.brake = false) ∧
    (∃ (body : List Byte) (s : State), s.por = false ∧ s.nv.inhibit = true ∧ s.nv.cmd = some 2 ∧ s.nv.ops = [.record 5 body]) ∧
    (∃  (s : State), s.por = false ∧ s.nv.inhibit = true) ∧
    (∃  (s : State), s.por = false ∧ s.nv.inhibit = false) ∧
    (∃  (s : State), s.por = false ∧ (s.nv.inhibit = false ∨ s.lev.brake = true)) :=
  ⟨⟨⟨false, 0, 0⟩, 5, tFlash, by decide⟩,
   ⟨⟨false, 0, 0⟩, 2, .ok, tFlash, by decide⟩,
   ⟨⟨false, 0, 0⟩, 5, .uncorr, tFlash, by decide⟩,
   ⟨⟨false, 0, 0⟩, 5, .ok, { tFlash with nv := { tFlash.nv with cmd := some 2 } }, by decide⟩,
   ⟨⟨false, 0, 0⟩, 5, .ok, { tUp with nv := { tUp.nv with present := false } }, by decide⟩,
   ⟨⟨false, 0, 0⟩, 0, [], .ok, { tFlash with fw := { tFlash.fw with lifecycle := 1 } }, by decide⟩,
   ⟨⟨false, 0, 0⟩, 2, [], .ok, tFlash, by decide⟩,
   ⟨⟨false, 0, 0⟩, 5, [], .noc, tFlash, by decide⟩,
   ⟨⟨false, 0, 0⟩, 5, [], tFlash, by decide⟩,
   ⟨⟨false, 0, 0⟩, tFlash, by decide⟩,
   ⟨⟨false, 0, 0⟩, { tFlash with nv := { tFlash.nv with confirm := some 0 } }, by decide⟩,
   ⟨⟨false, 0, 0⟩, tFlash, by decide⟩,
   ⟨⟨false, 0, 0⟩, { tFlash with nv := { tFlash.nv with cmd := some 2 } }, by decide⟩,
   ⟨⟨false, 0, 0⟩, { tUp with nv := { tUp.nv with present := false } }, by decide⟩,
   ⟨true, tFlash, by decide⟩,
   ⟨.clearLog, [], { tFlash with nv := { tFlash.nv with ops := [.clearLog] } }, by decide⟩,
   ⟨.clearLog, [], { tFlash with nv := { tFlash.nv with ops := [.clearLog] } }, by decide⟩,
   ⟨true, { tFlash with nv := { tFlash.nv with inhibit := true } }, by decide⟩,
   ⟨{ tFlash with nv := { tFlash.nv with inhibit := true } }, by decide⟩,
   ⟨[], { tFlash with nv := { tFlash.nv with inhibit := true, cmd := some 2, ops := [.record 5 []] } }, by decide⟩,
   ⟨{ tFlash with nv := { tFlash.nv with inhibit := true, cmd := some 2, ops := [.record 5 []] } }, by decide⟩,
   ⟨tFlash, by decide⟩,
   ⟨tFlash, by decide⟩⟩

theorem witness_FirmwareCommandsAct :
    (∃ (i : Inst) (a : Acc) (m : ImageIn) (s : State), s.Serves i.val ∧ s.Free (cpiPage i.val) ∧ alive s i.val = true ∧ s.fw.upd = none ∧ s.fw.staged = none ∧ s.nv.present = true ∧ 1 ≤ s.r (cpiR i.val 0x58) ∧ s.r (cpiR i.val 0x58) ≤ 1537 ∧ 256 + m.body ≤ 1024 * s.r (cpiR i.val 0x58) ∧ imageBad s m = none) ∧
    (∃ (i : Inst) (a : Acc) (m : ImageIn) (r : Nat) (s : State), s.Serves i.val ∧ s.Free (cpiPage i.val) ∧ alive s i.val = true ∧ s.fw.upd = none ∧ s.fw.staged = none ∧ 1 ≤ s.r (cpiR i.val 0x58) ∧ s.r (cpiR i.val 0x58) ≤ 1537 ∧ imageBad s m = some r) ∧
    (∃ (i : Inst) (a : Acc) (m : ImageIn) (s : State), s.Serves i.val ∧ s.Free (cpiPage i.val) ∧ alive s i.val = true ∧ s.fw.upd = none ∧ s.fw.staged = none ∧ 1 ≤ s.r (cpiR i.val 0x58) ∧ s.r (cpiR i.val 0x58) ≤ 1537 ∧ 1024 * s.r (cpiR i.val 0x58) < 256 + m.body ∧ imageBad s m = none) ∧
    (∃ (i : Inst) (a : Acc) (m : ImageIn) (x : Image) (s : State), s.Serves i.val ∧ s.Free (cpiPage i.val) ∧ alive s i.val = true ∧ s.fw.upd = none ∧ s.fw.staged = some x) ∧
    (∃ (i : Inst) (a : Acc) (m : ImageIn) (s : State), s.Serves i.val ∧ s.Free (cpiPage i.val) ∧ alive s i.val = true ∧ s.fw.upd = none ∧ s.fw.staged = none ∧ (s.r (cpiR i.val 0x58) = 0 ∨ 1537 < s.r (cpiR i.val 0x58))) ∧
    (∃ (i : Inst) (a : Acc) (m : ImageIn) (s : State), s.Serves i.val ∧ s.Free (cpiPage i.val) ∧ alive s i.val = true ∧ s.fw.upd = none ∧ s.fw.staged = none ∧ s.nv.present = false ∧ 1 ≤ s.r (cpiR i.val 0x58) ∧ s.r (cpiR i.val 0x58) ≤ 1537 ∧ 256 + m.body ≤ 1024 * s.r (cpiR i.val 0x58) ∧ imageBad s m = none) ∧
    (∃ (i : Inst) (a : Acc) (m : Image) (s : State), s.Serves i.val ∧ s.Free (cpiPage i.val) ∧ alive s i.val = true ∧ s.fw.upd = none ∧ s.fw.staged = some m ∧ protected_ s i.val = true ∧ s.flt.bist = none ∧ m.version / 2 ^ 24 ≠ majorOf s i.val) ∧
    (∃ (i : Inst) (a : Acc) (m : Image) (s : State), s.Serves i.val ∧ s.Free (cpiPage i.val) ∧ alive s i.val = true ∧ s.fw.upd = none ∧ s.fw.staged = some m ∧ (protected_ s i.val = false ∨ s.flt.bist ≠ none ∨ (m.version / 2 ^ 24 = majorOf s i.val ∧ handoverOk s 1 = false))) ∧
    (∃ (i : Inst) (a : Acc) (s : State), s.Serves i.val ∧ s.Free (cpiPage i.val) ∧ alive s i.val = true ∧ s.fw.upd = none ∧ s.fw.staged = none) ∧
    (∃ (i : Inst) (a : Acc) (m : Image) (s : State), s.Serves i.val ∧ s.Free (cpiPage i.val) ∧ alive s i.val = true ∧ s.fw.upd = none ∧ s.fw.staged = some m ∧ s.nv.present = false) ∧
    (∃ (i : Inst) (a : Acc) (s : State), s.Serves i.val ∧ s.Free (cpiPage i.val) ∧ alive s i.val = true ∧ s.fw.upd = none ∧ (runActive s = false ∨ s.fw.staged ≠ none)) ∧
    (∃ (i : Inst) (a : Acc) (s : State), s.Serves i.val ∧ s.Free (cpiPage i.val) ∧ alive s i.val = false) ∧
    (∃ (i : Inst) (a : Acc) (m : ImageIn) (s : State), s.Serves i.val ∧ s.Free (cpiPage i.val) ∧ alive s i.val = true ∧ s.fw.upd ≠ none) ∧
    (∃ (i : Inst) (a : Acc) (m : Image) (s : State), s.Serves i.val ∧ s.Free (cpiPage i.val) ∧ alive s i.val = true ∧ s.fw.upd = none ∧ s.fw.staged = some m ∧ protected_ s i.val = true ∧ s.flt.bist = none ∧ m.version / 2 ^ 24 = majorOf s i.val ∧ handoverOk s 1 = true) ∧
    (∃ (i : Inst) (a : Acc) (s : State), s.Serves i.val ∧ s.Free (cpiPage i.val) ∧ alive s i.val = true ∧ s.fw.upd = none ∧ s.fw.staged = none) ∧
    (∃ (i : Inst) (a : Acc) (m : Image) (s : State), s.Serves i.val ∧ s.Free (cpiPage i.val) ∧ alive s i.val = true ∧ s.fw.upd = none ∧ s.fw.staged = some m ∧ s.nv.present = true) ∧
    (∃ (i : Inst) (a : Acc) (m : Image) (k : Nat) (s : State), s.Serves i.val ∧ s.Free (cpiPage i.val) ∧ alive s i.val = true ∧ s.fw.upd = none ∧ s.fw.staged = none ∧ runActive s = true ∧ Tbl.find s.fw.run i.val = some (m, k)) :=
  ⟨⟨0, ⟨false, 0, 0⟩, tImage, tFlash.setR (cpiR 0 0x58) 64, by decide⟩,
   ⟨0, ⟨false, 0, 0⟩, { tImage with sigOk := false }, 0x12, tFlash.setR (cpiR 0 0x58) 64, by decide⟩,
   ⟨0, ⟨false, 0, 0⟩, { tImage with body := 100000 }, tFlash.setR (cpiR 0 0x58) 64, by decide⟩,
   ⟨0, ⟨false, 0, 0⟩, tImage, tImg1, { tFlash with fw := { tFlash.fw with staged := some tImg1 } }, by decide⟩,
   ⟨0, ⟨false, 0, 0⟩, tImage, tFlash, by decide⟩,
   ⟨0, ⟨false, 0, 0⟩, tImage, ({ tUp with nv := { tUp.nv with present := false } } : State).setR (cpiR 0 0x58) 64, by decide⟩,
   ⟨0, ⟨false, 0, 0⟩, tImg1, { tPair with fw := { tPair.fw with staged := some tImg1, run := [(0, ({ tImg1 with version := 0x02000000 }, 0))] } }, by decide⟩,
   ⟨0, ⟨false, 0, 0⟩, tImg1, { tFlash with fw := { tFlash.fw with staged := some tImg1 } }, by decide⟩,
   ⟨0, ⟨false, 0, 0⟩, tFlash, by decide⟩,
   ⟨0, ⟨false, 0, 0⟩, tImg1, { tUp with nv := { tUp.nv with present := false }, fw := { tUp.fw with staged := some tImg1 } }, by decide⟩,
   ⟨0, ⟨false, 0, 0⟩, { tFlash with fw := { tFlash.fw with staged := some tImg1 } }, by decide⟩,
   ⟨1, ⟨false, 0, 0⟩, tUnder, by decide⟩,
   ⟨0, ⟨false, 0, 0⟩, tImage, { tFlash with fw := { tFlash.fw with upd := some (0, 1) } }, by decide⟩,
   ⟨0, ⟨false, 0, 0⟩, tImg1, { tPair with fw := { tPair.fw with staged := some tImg1, run := [(0, (tImg1, 0)), (1, (tImg1, 0))] } }, by decide⟩,
   ⟨0, ⟨false, 0, 0⟩, tFlash, by decide⟩,
   ⟨0, ⟨false, 0, 0⟩, tImg1, { tFlash with fw := { tFlash.fw with staged := some tImg1 } }, by decide⟩,
   ⟨0, ⟨false, 0, 0⟩, tImg1, 0, { tFlash with fw := { tFlash.fw with run := [(0, (tImg1, 0)), (1, (tImg1, 0))] } }, by decide⟩⟩

theorem witness_ResetsAndBootRun :
    (∃ (boot en : BitVec 2) (pair : Bool) (s : State), s.por = true) ∧
    (∃ (boot en : BitVec 2) (pair : Bool) (s : State), s.por = false) ∧
    (∃  (s : State), s.Up) ∧
    (∃  (s : State), s.por = true) ∧
    (∃  (s : State), s.warm = true) ∧
    (∃  (s : State), s.por = false ∧ s.warm = true) ∧
    (∃  (s : State), s.warm = false) ∧
    (∃  (s : State), s.Up) ∧
    (∃ (i : Inst) (ok flash : Bool) (s : State), s.Up ∧ phaseOf s i.val = 1 ∧ (ok = true ∨ s.boot.warm = true)) ∧
    (∃ (i : Inst) (flash : Bool) (s : State), s.Up ∧ phaseOf s i.val = 1 ∧ s.boot.warm = false) ∧
    (∃ (i : Inst) (ok flash : Bool) (s : State), s.Up ∧ phaseOf s i.val ≠ 1) ∧
    (∃ (i : Inst) (m : ImageIn) (k : Nat) (s : State), s.Up ∧ phaseOf s i.val = 2 ∧ imageBad s m = none ∧ k = s.fld (dbgR i.val 0x44) 8 1) ∧
    (∃ (i : Inst) (m : ImageIn) (r : Nat) (s : State), s.Up ∧ phaseOf s i.val = 2 ∧ imageBad s m = some r ∧ s.boot.tried.contains i.val = false) ∧
    (∃ (i : Inst) (m : ImageIn) (r : Nat) (s : State), s.Up ∧ phaseOf s i.val = 2 ∧ imageBad s m = some r ∧ s.boot.tried.contains i.val = true) ∧
    (∃ (i : Inst) (m : ImageIn) (s : State), s.Up ∧ phaseOf s i.val ≠ 2) ∧
    (∃ (m : ImageIn) (s : State), s.Up ∧ (s.boot.addr = none ∨ (phaseOf s 0 ≠ 6 ∧ phaseOf s 1 ≠ 6))) ∧
    (∃ (m : ImageIn) (is : List Nat) (s : State), s.Up ∧ s.boot.addr.isSome = true ∧ is = [0, 1].filter (fun i => phaseOf s i == 6) ∧ is ≠ [] ∧ imageBad s m = none) ∧
    (∃ (m : ImageIn) (r : Nat) (s : State), s.Up ∧ s.boot.addr.isSome = true ∧ (phaseOf s 0 = 6 ∨ phaseOf s 1 = 6) ∧ imageBad s m = some r) ∧
    (∃ (i : Inst) (fixed : List (BitVec 2 × BitVec 4)) (cal : List W64) (s : State), s.Up ∧ phaseOf s i.val = 4 ∧ s.boot.hbm = true) ∧
    (∃ (i : Inst) (fixed : List (BitVec 2 × BitVec 4)) (cal : List W64) (s : State), s.Up ∧ (phaseOf s i.val ≠ 4 ∨ s.boot.hbm = false)) ∧
    (∃ (x : BitVec 7) (s : State), s.por = false ∧ s.boot.i3c = false) ∧
    (∃ (x : BitVec 7) (s : State), s.por = false ∧ s.boot.i3c = true) ∧
    (∃ (x : BitVec 7) (s : State), s.por = false ∧ s.boot.i3c = false) ∧
    (∃  (s : State), s.por = false ∧ s.boot.i3c = false) ∧
    (∃ (x : BitVec 7) (s : State), s.por = false ∧ s.boot.i3c = true) ∧
    (∃  (s : State), s.por = false ∧ s.boot.i3c = true) :=
  ⟨⟨1, 3, true, State.reset, by decide⟩,
   ⟨1, 3, true, tUp, by decide⟩,
   ⟨tUp, by decide⟩,
   ⟨State.reset, by decide⟩,
   ⟨{ tUp with warm := true }, by decide⟩,
   ⟨{ tUp with warm := true }, by decide⟩,
   ⟨tUp, by decide⟩,
   ⟨tUp, by decide⟩,
   ⟨0, true, true, setPhase tUp 0 1, by decide⟩,
   ⟨0, true, setPhase tUp 0 1, by decide⟩,
   ⟨0, true, true, tUp, by decide⟩,
   ⟨0, tImage, 0, setPhase tUp 0 2, by decide⟩,
   ⟨0, { tImage with sigOk := false }, 0x12, setPhase tUp 0 2, by decide⟩,
   ⟨0, { tImage with sigOk := false }, 0x12, { setPhase tUp 0 2 with boot := { tried := [0] } }, by decide⟩,
   ⟨0, tImage, tUp, by decide⟩,
   ⟨tImage, tUp, by decide⟩,
   ⟨tImage, [0], setPhase tBmc 0 6, by decide⟩,
   ⟨{ tImage with sigOk := false }, 0x12, setPhase tBmc 0 6, by decide⟩,
   ⟨0, [], [], { setPhase tUp 0 4 with boot := { hbm := true } }, by decide⟩,
   ⟨0, [], [], tUp, by decide⟩,
   ⟨5, tUp, by decide⟩,
   ⟨5, { tUp with boot := { i3c := true } }, by decide⟩,
   ⟨5, tUp, by decide⟩,
   ⟨tUp, by decide⟩,
   ⟨5, { tUp with boot := { i3c := true } }, by decide⟩,
   ⟨{ tUp with boot := { i3c := true } }, by decide⟩⟩

theorem witness_StepRunsTheFrontCommand : State.reset.pending = [] ∧ State.reset.held = true ∧ tUp.pending = [] ∧ tUp.held = false := by decide

theorem witness_EveryCommandCompletes : State.reset.NoLate ∧ (∃ t, step State.reset = .next t) ∧ tUp.NoLate ∧ ∃ t, exec .hbmReady tUp = .next t := ⟨by decide, ⟨_, rfl⟩, by decide, ⟨_, rfl⟩⟩

theorem witness_HeldResetStopsEverything : State.reset.por = true ∧ (State.reset.txn.get 0).held = [] ∧ (State.reset.txn.get 1).held = [] ∧
    Instr.hbmReady ≠ .hubPorAssert ∧ (Instr.hbmReady ≠ .warmResetAssert) ∧ Instr.hbmReady ≠ .warmResetRelease ∧ Instr.hbmReady ≠ .brake ∧ Instr.hbmReady ≠ .brakeRelease ∧ ({ State.reset with warm := true } : State).held = true ∧ (∀ b e p, Instr.hbmReady ≠ .hubPorRelease b e p) ∧
    (∀ p u, Instr.hbmReady ≠ .perstAssert p u) ∧ (∀ p, Instr.hbmReady ≠ .perstRelease p) := by
  refine ⟨by decide, by decide, by decide, by decide, by decide, by decide, by decide, by decide, by decide, ?_, ?_, ?_⟩
  · intro b e p h; cases h
  · intro p u h; cases h
  · intro p h; cases h

theorem witness_PinsFollowTheirSources : (finish tUp tUp).PinsOk ∧ (finish tUp tUp).held = false ∧ (∃ t, step (finish tUp tUp) = .next t) := ⟨⟨by decide, by decide, by decide, by decide, rfl, rfl, rfl, rfl⟩, by decide, ⟨_, rfl⟩⟩

/-! ### Ill-formed commands, one for each check -/

/-- A requester of the control processor that names a port. -/
def tBadAcc : Acc := ⟨true, 1, 0⟩
/-- A host mapping of half a page. -/
def tBadLeaf : HostLeaf := ⟨11, 0, true, true, false⟩
/-- A device leaf at an unaligned base. -/
def tBadDev : Leaf := ⟨0x1000, 26, 0⟩

theorem test_wf_acc : (Instr.txnBegin 0 tBadAcc 0x1).wf = false := by decide
theorem test_wf_acc_full : (Instr.registerWrite tBadAcc false 0 [0] true).wf = false := by decide
theorem test_wf_no_data : (Instr.registerWrite ⟨false, 0, 0⟩ false 0 [] true).wf = false := by decide
theorem test_wf_beyond_bar0 : (Instr.registerWrite ⟨false, 0, 0⟩ false 0x2000000 [0] true).wf = false := by decide
theorem test_wf_beyond_bar4 : (Instr.splitReadLow ⟨false, 0, 0⟩ .bar4 ⟨0x20000000, 4, true⟩).wf = false := by decide
theorem test_wf_access : (Instr.registerWrite ⟨false, 0, 0⟩ false 0x40 [0, 0, 0, 0] true).wf = true := by decide
theorem test_wf_read_nothing : (Instr.splitReadLow ⟨false, 0, 0⟩ .bar0 ⟨0x40, 0, true⟩).wf = false := by decide
theorem test_wf_enable : (Instr.ctxEnable 0 tBadAcc.cp tBadAcc.port tBadAcc.rid).wf = false := by decide
theorem test_wf_device_leaf : (Instr.sptLoad 0 ⟨false, 0, 0⟩ 0 0 [tBadDev]).wf = false := by decide
theorem test_wf_tag_zero : (Instr.txnTimeout 0 0).wf = false := by decide
theorem test_wf_tag_nine : (Instr.txnTimeout 0 9).wf = false := by decide
theorem test_wf_rate : (Instr.linkUp 0 0 16 false).wf = false := by decide
theorem test_wf_width : (Instr.linkUp 0 7 3 false).wf = false := by decide
theorem test_wf_doorbell_bar : (Instr.doorbell 0 false 0x1000000 [0] true).wf = false := by decide
theorem test_wf_flit : (Instr.flitCrcError 0 [1]).wf = false := by decide

theorem test_wf_descriptor : (Instr.descriptorReadReturn 0 0 [0] ⟨.ok, ⟨0, 0⟩⟩).wf = false := by decide
theorem test_wf_completion : (Instr.translationCompletion 0 0 none 0 tBadLeaf .ok).wf = false := by decide
theorem test_wf_invalidate_size : (Instr.atsInvalidateRequest 0 0 none false 0 11).wf = false := by decide
theorem test_wf_station_request : (Instr.hlcAccess 0 (some ⟨0, 0, 0, 0, 0, .rd 0, 0, 0⟩)).wf = false := by decide
theorem test_wf_line : (Instr.wbDirty 0 0 ⟨0, 0⟩ [0]).wf = false := by decide
theorem test_wf_snoop_line : (Instr.snpRsp 0 0 0 0 0 [0]).wf = false := by decide
theorem test_wf_capability : (Instr.capData 0 []).wf = false := by decide
theorem test_wf_slots : (Instr.stateRsp 0 []).wf = false := by decide
theorem test_wf_counts : (Instr.activity 0 []).wf = false := by decide
theorem test_wf_rails : (Instr.imonSample (List.replicate 17 0)).wf = false := by decide
theorem test_wf_zones : (Instr.tempUpdate []).wf = false := by decide

/-! ### The manual's worked examples -/

/-- The addresses of "Worked example: forming addresses" in the page index. -/
theorem test_addresses :
    [reg .qm 1 2 0x50, reg .atu 0 1 0x918, reg .ens 0 0 0x544, reg .dma 0 200 0x88, reg .vd 1 37 0x98 - 0x100000000] =
      [0x806050, 0x9918, 0x1A544, 0x1C8088, 0x1025F098] := by decide

/-- Their names and types: the same example. -/
theorem test_page_ids :
    [(⟨.qm, 1, 2⟩ : PageId), ⟨.atu, 0, 1⟩, ⟨.dma, 0, 200⟩, ⟨.thr, 0, 0⟩, ⟨.vd, 1, 37⟩].map pageIdWord =
      [0x00101001, 0x00140001, 0x00120001, 0x0021F001, 0x001C1001] := by decide

/-- THR.DUR5 through the IGX1 alias: the same example. -/
theorem test_alias : (locate tUp false 0x18070A0).map (fun p => (p.ty, p.idx)) = some (.thr, 0) := by decide

/-- BITPLANE of 3-bit integers to planes (R147): the worked example "3-bit weights to planes". -/
def tPlanes : List Byte := [0x86, 0, 4, 0] ++ List.replicate 12 0 ++ leBytes 8 0x10000 ++ leBytes 8 4096 ++ leBytes 8 0x200 ++ List.replicate 24 0

theorem test_bitplane :
    (List.range 3).map (fun j => byteOfBits ((List.range 8).map fun k => bpBit [0xDD, 0x11, 0x8B] 3 k j)) = [0x17, 0x66, 0xA5] := by decide

theorem test_bitplane_addresses :
    [opcodeOf tPlanes, bpWidth tPlanes, planeAddr tPlanes 0x10000 1 0, planeAddr tPlanes 0x10000 2 0, totalIter tPlanes] =
      [6, 3, 0x10200, 0x10400, 4096] ∧ checkDesc tPlanes 0 = none := by decide

/-- INTERLEAVE of three streams of 2 B elements: the example at R148. -/
def tWeave : List Byte := [0x87, 0, 0x12, 0] ++ List.replicate 20 0 ++ leBytes 8 4 ++ leBytes 8 0x1000 ++ List.replicate 24 0

theorem test_interleave :
    (unitForm tWeave 0 1 1 none [[0x01, 0xA0], [0x01, 0xB0], [0x01, 0xC0]] (fun _ => none)).wrs =
      [⟨0, 6, [0x01, 0xA0, 0x01, 0xB0, 0x01, 0xC0], true⟩] ∧
    (unitRds tWeave 1 1 none).map LRd.addr = [0x2, 0x1002, 0x2002] := by decide

/-- GATHER: the descriptor and the index entries of "Worked example: an embedding gather". -/
def tGather : List Byte :=
  leBytes 8 0x00000C41022A0083 ++ leBytes 8 0x20000000000 ++ leBytes 8 0x10000080000 ++ leBytes 8 0x4000000006 ++ leBytes 8 0x10000040000 ++
  List.replicate 24 0

theorem test_gather_fields :
    [opcodeOf tGather, regionLog2 tGather, count25 tGather, elemSize tGather, linPitch tGather, idxWidth tGather] = [3, 34, 6, 256, 256, 4] ∧
    checkDesc tGather 0 = none := by decide

theorem test_gather_entries :
    [0x11, 0x3, 0xFFFFFFFF, 0x042C1D80, 0x5].map (entKind tGather) = [.off 0x1100, .off 0x300, .pad, .skip, .off 0x500] := by decide

/-- The MX reduction of "Worked example: an MX reduction with re-blocking": its sums, scale and codes. -/
def tSum (a b : Nat) : Fv := addW (mxValue 7 0x7F a) (mxValue 7 0x80 b)

def tSums : List Fv := [tSum 0x7E 0x6C, tSum 0x44 0x28, tSum 0xB0 0x30, tSum 0x38 0x10] ++ List.replicate 28 (.fin false 0 0)

theorem test_mx_scale : mxScale 7 tSums = 0x80 := by decide

theorem test_mx_codes : (tSums.take 4).map (fun v => (mxCode 7 0x80 v none).1) = [0x7A, 0x3E, 0x28, 0x30] := by decide

/-- The canonical NaN codes of R172. -/
theorem test_nan_codes :
    [0, 1, 2, 3, 4].filterMap (fun f => (plainFmt f).map fun b => (b.encode .nan none false false false).1) =
      [0x7FC00000, 0x7FC0, 0x7E00, 0x7F, 0x7E] := by decide

/-- A pointer through window 3 of partition 2: the example at R195. -/
def tWindow : State := tUp.setR (atuR 0 1 0x918) 0x00007F0000002803

theorem test_window_forward : (convWin tWindow 0 2 (some 0) false 0x0004C01234567800).map Prod.snd = some 0x7F1234567800 := by decide

theorem test_window_back : (convWin tWindow 0 2 (some 0) true 0x7F1234567800).map Prod.snd = some 0x0004C01234567800 := by decide

/-- TXN.BEGIN of "Worked example: handing work from one channel to another": tag 2 opens with its cookie. -/
theorem test_begin_opens :
    (match exec (.txnBegin 1 ⟨false, 1, 0x4100⟩ 0x5A170002) tUp with
     | .next t => some ((slotOf t 1 2).st, (slotOf t 1 2).cookie, (slotOf t 1 2).opener.rid)
     | _ => none) = some (.opened, 0x5A17, 0x4100) := by decide

/-! ### The block -/

/-- The table gives no row any bits, so no word spells a command. -/
theorem test_no_words : decodeTableWord 8 0 = none ∧ decodeTableWord 64 1 = none := by decide

/-- An empty queue idles: TSU time goes on, and the queue stays empty. -/
theorem test_idle : (match step tUp with | .next t => some (t.tsu, t.pending) | _ => none) = some (⟨1, 1⟩, []) := by decide

/-- A step takes the front command alone. -/
theorem test_front :
    (match step { tUp with pending := [.txnBegin 0 ⟨false, 0, 7⟩ 1, .housekeepingTick 0] } with
     | .next t => some ((slotOf t 0 1).st, t.pending.length)
     | _ => none) = some (.opened, 1) := by decide

/-- A held MSI-X message goes out when its vector is unmasked (R24, R121). -/
theorem test_pending_message :
    let s := ((({ tUp with ports := [(0, { link := .up, msix := true })] } : State).setR (hpcR 0 0x80C) 0).setR (hpcR 0 0xC00) 1)
    (match (sendPending s 0).out with | [.msix 0 0 a] => !a.ro | _ => false) = true ∧ (sendPending s 0).r (hpcR 0 0xC00) = 0 := by decide

end Sys2Proof.Tests
end

/-! SUPPORT. Commands behind a reset gate alone, bits of numbers and registers, and what the accesses of the register pages meet. -/
namespace Sys2Proof.Machine

/-! ### Commands behind a reset gate -/

/-- A command that a held reset alone stops answers what follows from its effect. -/
theorem answers_live {c : Instr} {s : State} {f : State → State} {P : State → Prop} (h : s.Up) (hc : exec c s = live s f) (hp : P (f s)) :
    Answers c s P := answers (hc.trans (live_up h f)) hp

/-- A command of AON, with power-on reset released. -/
theorem answers_aon {c : Instr} {s : State} {f : State → State} {P : State → Prop} (h : s.por = false) (hc : exec c s = aon s f) (hp : P (f s)) :
    Answers c s P := answers (hc.trans (aon_por h f)) hp

/-! ### Bits of numbers -/

theorem bitAt_eq_testBit (n k : Nat) : bitAt n k = n.testBit k := by
  rw [bitAt, Nat.testBit_eq_decide_div_mod_eq, Nat.shiftRight_eq_div_pow]; rfl

theorem ldiff_add_and (x m : Nat) : Nat.ldiff x m + (x &&& m) = x := by
  induction x using Nat.binaryRec generalizing m with
  | zero => simp [Nat.ldiff]
  | bit b n ih =>
    induction m using Nat.bitCasesOn with
    | bit b' m' =>
      have hn := ih m'
      rw [Nat.ldiff_bit, Nat.land_bit]
      cases b <;> cases b' <;> simp [Nat.bit_val] <;> omega

/-- Clearing the bits of a mask (R17). -/
theorem testBit_sub_and (x m k : Nat) : (x - (x &&& m)).testBit k = (x.testBit k && !m.testBit k) := by
  have h : x - (x &&& m) = Nat.ldiff x m := Nat.sub_eq_of_eq_add (ldiff_add_and x m).symm
  rw [h, Nat.testBit_ldiff]

theorem bits_mod_two_pow (n : Nat) {lo w m : Nat} (h : lo + w ≤ m) : bits (n % 2 ^ m) lo w = bits n lo w := by
  refine Nat.eq_of_testBit_eq fun j => ?_
  simp only [bits, Nat.testBit_mod_two_pow, Nat.testBit_shiftRight]
  by_cases hj : j < w
  · simp [hj, show lo + j < m by omega]
  · simp [hj]

theorem bits_setBits_same (n lo w v : Nat) : bits (setBits n lo w v) lo w = v % 2 ^ w := by
  have h : setBits n lo w v = n % 2 ^ lo + 2 ^ lo * (v % 2 ^ w + 2 ^ w * (n / 2 ^ (lo + w))) := by rw [setBits, pow_add]; ring
  rw [h, bits, Nat.shiftRight_eq_div_pow, Nat.add_mul_div_left _ _ (Nat.two_pow_pos lo), Nat.div_eq_of_lt (Nat.mod_lt _ (Nat.two_pow_pos lo)),
    Nat.zero_add, Nat.add_mul_mod_self_left, Nat.mod_mod]

/-- A number is that of its little-endian bytes (R12). -/
theorem leNat_leBytes (k n : Nat) : leNat (leBytes k n) = n % 256 ^ k := by
  induction k generalizing n with
  | zero => simp [leBytes, leNat, Nat.mod_one]
  | succ k ih =>
    rw [leBytes, leNat, ih, BitVec.toNat_ofNat, pow_succ' 256 k]
    exact Nat.mod_mul.symm

theorem length_leBytes (k n : Nat) : (leBytes k n).length = k := by
  induction k generalizing n with
  | zero => rfl
  | succ k ih => simp [leBytes, ih]

/-! ### Registers -/

theorem State.fld_setFld_same (s : State) {k lo w v : Nat} (h : lo + w ≤ 64) : (s.setFld k lo w v).fld k lo w = v % 2 ^ w := by
  rw [State.fld, State.setFld, State.r_setR_same, bits_mod_two_pow _ h, bits_setBits_same]

theorem State.setMask_zero (s : State) (k m : Nat) : s.setMask k m 0 = s.setR k (s.r k - (s.r k &&& m)) := by simp [State.setMask]

theorem State.testBit_r_setMask_zero (s : State) (k m : Nat) {b : Nat} (hb : b < 64) :
    ((s.setMask k m 0).r k).testBit b = ((s.r k).testBit b && !m.testBit b) := by
  rw [State.setMask_zero, State.r_setR_same, Nat.testBit_mod_two_pow, testBit_sub_and, decide_eq_true hb, Bool.true_and]

@[simp] theorem State.r_withFlt (s : State) (f : FltSt) (k : Nat) : ({ s with flt := f } : State).r k = s.r k := rfl

/-! ### Accesses to pages (R47, R66) -/

@[simp] theorem homePage_ty (s : State) (p : PageId) : (homePage s p).ty = p.ty := by unfold homePage; split <;> rfl

theorem homePage_eq_self {s : State} {p : PageId} (h : p.ty ≠ .hlc) : homePage s p = p := by simp [homePage, h]

theorem unconfirm_eq_self {s : State} {p : PageId} (h : p.ty ≠ .nvs) : unconfirm s p = s := by simp [unconfirm, h]

theorem free_of_shared (s : State) {p : PageId} (h : p.ty.shared = true) : s.Free p := by simp [State.Free, binder, h]

theorem shared_eq_false_of_binder {s : State} {p : PageId} {e : Nat × TxnSlot} (h : binder s p = some e) : p.ty.shared = false := by
  cases hs : p.ty.shared with
  | false => rfl
  | true => exact absurd (h.symm.trans (free_of_shared s hs)) (Option.some_ne_none e)

theorem dropsWrites_of_shared (s : State) {p : PageId} (h : p.ty.shared = true) : dropsWrites s p = false := by simp [dropsWrites, h]

/-- A host write to a bound page by another than the opener of its tag is foreign (R66). -/
theorem meets_eq_foreign {s : State} {a : Acc} {p : PageId} {tag : Nat} {x : TxnSlot} (hb : binder s p = some (tag, x)) (ha : a.cp = false)
    (ho : x.openedBy a = false) : meets s a p = .foreign := by simp [meets, hb, ha, ho]

end Sys2Proof.Machine

/-! What a register write does: of a bad access, a foreign one, and one to a register that has no command of its own (O1). -/
namespace Sys2Proof.Machine

theorem exec_registerWrite (a : Acc) (bar4 be : Bool) (off : BitVec 32) (data : List Byte) (s : State) :
    exec (.registerWrite a bar4 off data be) s = registerWrite (.registerWrite a bar4 off data be) a bar4 off.toNat data be s := rfl

section
variable {s : State} {a : Acc} {bar4 be : Bool} {off : Nat} {data : List Byte} {p : PageId}

/-- A wrong size, alignment or byte enable sets bad_access and empties the read latch (R56). -/
theorem registerWrite_badAccess (c : Instr) (hup : s.Up) (hl : locate s bar4 off = some p) (hd : dropsWrites s p = false) (hn : p.ty ≠ .nvs)
    (hg : goodAccess (off % 0x1000) data.length be = false) : registerWrite c a bar4 off data be s =
      done s (({ s with rlatch := Tbl.del s.rlatch (homePage s p).key } : State).perr (homePage s p) 0) := by
  simp [registerWrite, hup.held, hl, hd, hg, unconfirm_eq_self (s := s) (p := homePage s p) (by simpa using hn)]

/-- A good access that is foreign to its page sets foreign_write (R66). -/
theorem registerWrite_foreign (c : Instr) (hup : s.Up) (hl : locate s bar4 off = some p) (hd : dropsWrites s p = false) (hn : p.ty ≠ .nvs)
    (hg : goodAccess (off % 0x1000) data.length be = true) (hm : meets s a (homePage s p) = .foreign) :
    registerWrite c a bar4 off data be s = done s (foreignWrite s (homePage s p)) := by
  simp [registerWrite, hup.held, hl, hd, hg, hm, unconfirm_eq_self (s := s) (p := homePage s p) (by simpa using hn)]

/-- A good 4-byte access to an unbound page reaches its register (R56). -/
theorem registerWrite_four (c : Instr) (hup : s.Up) (hl : locate s bar4 off = some p) (hd : dropsWrites s p = false) (hn : p.ty ≠ .nvs)
    (hlen : data.length = 4) (hg : goodAccess (off % 0x1000) 4 be = true) (hf : s.Free (homePage s p)) :
    registerWrite c a bar4 off data be s = write4 s c a (homePage s p) (off % 0x1000) (leNat data) := by
  simp [registerWrite, hup.held, hl, hd, hlen, hg, meets_free hf, hn, unconfirm_eq_self (s := s) (p := homePage s p) (by simpa using hn)]

/-- A register without commands takes a value on a page that stages nothing and that no transaction binds (R59, R66). -/
theorem writeReg_stores (c : Instr) {r : RegRow} {v : Nat} (hb : badOp s c a p off v = none) (hc : rowCmds s a p off v = none)
    (hro : allRo r off = false) (hs : p.stageable = false) (hf : s.Free p) (hr : storeRefused s p r off v = false) :
    writeReg s c a p r off v = done s (storeReg (clearLatches s p) a p r off v) := by
  have hbind : binder s p = none := hf
  have hbind' : binder (clearLatches s p) p = none := hf
  simp [writeReg, hb, hc, hro, hs, stageDrops, stageW, hbind, hbind', hr, dropIf]

end

/-! ### HPC.LINK_CTL (R82) -/

/-- The row of HPC.LINK_CTL in the register table. -/
def linkCtlRow : RegRow := { name := "HPC.LINK_CTL", off := 0x44, ns := 0xF07, rst := 0xA03 }

theorem regAt_linkCtl (n : Port) : regAt ⟨.hpc, 0, n.val⟩ 0x44 = some (linkCtlRow, 0x44) := by
  fin_cases n <;> rfl

/-- The BAR0 offset of HPC.LINK_CTL of a port (R47). -/
theorem linkCtl_offset (n : Port) : (BitVec.ofNat 32 (0x1000000 + 0x1000 * n.val + 0x44)).toNat = 0x1000000 + 0x1000 * n.val + 0x44 := by
  rw [BitVec.toNat_ofNat, Nat.mod_eq_of_lt (by omega)]

theorem locate_linkCtl (s : State) (n : Port) : locate s false (0x1000000 + 0x1000 * n.val + 0x44) = some ⟨.hpc, 0, n.val⟩ := by
  have h : bar0Page (0x1000000 + 0x1000 * n.val + 0x44) = some ⟨.hpc, 0, n.val⟩ := by fin_cases n <;> rfl
  have hlt : 0x1000000 + 0x1000 * n.val + 0x44 < 0x2000000 := by omega
  simp [locate, h, hlt, present, Pg.shared]

/-- HPC.LINK_CTL takes its writable bits from the value and keeps the others. -/
theorem storeReg_linkCtl (s : State) (a : Acc) (n : Port) (v : Nat) :
    storeReg s a ⟨.hpc, 0, n.val⟩ linkCtlRow 0x44 v = s.setMask (reg .hpc 0 n.val 0x44) 0xF07 v := by
  simp [storeReg, busyReg, refusedW, linkCtlRow, afterW, enginesOwn, State.setMask, reg]

theorem write4_linkCtl (s : State) (c : Instr) (a : Acc) (n : Port) (v : Nat) :
    write4 s c a ⟨.hpc, 0, n.val⟩ 0x44 v = done s ((clearLatches s ⟨.hpc, 0, n.val⟩).setMask (reg .hpc 0 n.val 0x44) 0xF07 v) := by
  have hfree : s.Free ⟨.hpc, 0, n.val⟩ := free_of_shared s rfl
  have hro : allRo linkCtlRow 0x44 = false := by decide
  have hr : storeRefused s ⟨.hpc, 0, n.val⟩ linkCtlRow 0x44 v = false := by simp [storeRefused, busyReg, refusedW]
  rw [write4, regAt_linkCtl]
  exact (writeReg_stores (a := a) c rfl rfl hro rfl hfree hr).trans (by rw [storeReg_linkCtl])

/-- A 4-byte write of HPC.LINK_CTL (R82): the register has neither a command nor bits to stage. -/
theorem registerWrite_linkCtl {s : State} (c : Instr) (a : Acc) (n : Port) (v : W32) (hup : s.Up) :
    registerWrite c a false (0x1000000 + 0x1000 * n.val + 0x44) (leBytes 4 v.toNat) true s =
      done s ((clearLatches s ⟨.hpc, 0, n.val⟩).setMask (reg .hpc 0 n.val 0x44) 0xF07 v.toNat) := by
  have hoff : (0x1000000 + 0x1000 * n.val + 0x44) % 0x1000 = 0x44 := by omega
  have hhome : homePage s ⟨.hpc, 0, n.val⟩ = ⟨.hpc, 0, n.val⟩ := homePage_eq_self (by simp)
  have hgood : goodAccess ((0x1000000 + 0x1000 * n.val + 0x44) % 0x1000) 4 true = true := by rw [hoff]; rfl
  have hfree : s.Free (homePage s ⟨.hpc, 0, n.val⟩) := hhome.symm ▸ free_of_shared s rfl
  have hv : leNat (leBytes 4 v.toNat) = v.toNat := (leNat_leBytes 4 _).trans (Nat.mod_eq_of_lt v.isLt)
  rw [registerWrite_four c hup (locate_linkCtl s n) (dropsWrites_of_shared s rfl) (by simp) (length_leBytes 4 _) hgood hfree, hhome, hoff, hv,
    write4_linkCtl]

/-- Settles O1: each access follows its branch of R56 and R66. -/
theorem registerWriteTakesEffect : Obligations.RegisterWriteTakesEffect := by
  refine ⟨fun a n v s hup => ?linkCtl, fun a bar4 be off data p s hup hl hd hn hg => ?badAccess,
    fun a bar4 be off data p tag x s hup hl hd hg hb ha ho => ?foreign⟩
  case linkCtl =>
    refine answers ?_ rfl
    rw [exec_registerWrite, linkCtl_offset]
    exact registerWrite_linkCtl _ a n v hup
  case badAccess => exact answers (registerWrite_badAccess _ hup hl hd hn hg) rfl
  case foreign =>
    have hn : p.ty ≠ .nvs := fun h => by simpa [h, Pg.shared] using shared_eq_false_of_binder hb
    exact answers (registerWrite_foreign _ hup hl hd hn hg (meets_eq_foreign hb ha ho)) rfl

end Sys2Proof.Machine

/-! Link events that end no transaction, configuration and PTM (O6). -/
namespace Sys2Proof.Machine

/-- LINK_UP takes effect on a port that is DOWN or TRAINING, with PERST released, at a rate and width that links have (R76, R82). -/
theorem linkUp_trains {s : State} {p rate width : Nat} (cxl : Bool) (hl : (s.port p).link = .down ∨ (s.port p).link = .training)
    (hp : (s.port p).perst = false) (hr : rate ≠ 0) (hw : width ∈ [1, 2, 4, 8, 16]) :
    linkUp s p rate width cxl =
      let c := cxl && s.fld (hpcR p 0x44) 2 1 == 1
      let r := min rate (rateCap s p c)
      wakeMsgs (sendPending (linkEvent (s.updPort p fun x =>
        { x with link := .up, rate := r, width, cxl := c, configOnly := decide (r < 5) || decide (width < 4) }) p 4 17) p) := by
  have hlink : ((s.port p).link == .down || (s.port p).link == .training) = true := by simpa using hl
  have hwidth : (width == 1 || width == 2 || width == 4 || width == 8 || width == 16) = true := by simpa [or_assoc] using hw
  simp only [linkUp, hp, hlink, hwidth, hr, decide_false, Bool.not_true, Bool.or_self, Bool.false_eq_true, if_false]

/-- A configuration write of a trained port that is not its group's cache port: no line is lost (R264, R277). -/
theorem configWrite_of_not_cachePort {s : State} {p : Nat} (c : PortFn)
    (hl : (s.port p).link = .up ∨ (s.port p).link = .retrain ∨ (s.port p).link = .flr) (hc : cachePort s (groupOf s p) ≠ some p) :
    configWrite s p c = wakeMsgs (sendPending (s.updPort p fun x =>
      { x with link := if x.link == .flr then .up else x.link, ats := c.ats, pri := c.pri, respFail := c.respFail, uprgi := c.uprgi, msix := c.msix,
               cacheEn := c.cacheEn, relaxed := c.relaxed, idoReq := c.idoReq, idoCpl := c.idoCpl, ctoOff := c.ctoOff, ctoRange := c.ctoRange,
               busMaster := c.busMaster, mps := c.mps, mrrs := c.mrrs, alloc := c.alloc }) p) := by
  have hlink : ((s.port p).link == .up || (s.port p).link == .retrain || (s.port p).link == .flr) = true := by simpa [or_assoc] using hl
  have hcache : (cachePort s (groupOf s p) == some p) = false := by simpa using hc
  simp only [configWrite, hlink, hcache, Bool.not_true, Bool.false_eq_true, if_false, Bool.false_and]

theorem exec_linkRetrainStart (p : Port) (s : State) : exec (.linkRetrainStart p) s = live s fun s =>
    if (s.port p.val).link == .up || (s.port p.val).link == .flr then
      (linkEvent (setLink s p.val .retrain) p.val 1 18).satFld (hpcR p.val 0x48) 0 16 1
    else s := rfl

theorem exec_linkRetrainEnd (p : Port) (s : State) : exec (.linkRetrainEnd p) s = live s fun s =>
    if (s.port p.val).link == .retrain then
      bothInst (wakeMsgs (sendPending (linkEvent (setLink s p.val .up) p.val 2 19) p.val)) fun s i => cxlResume s i p.val
    else s := rfl

theorem exec_linkUp (p : Port) (rate : Fin 8) (width : Fin 17) (cxl : Bool) (s : State) :
    exec (.linkUp p rate width cxl) s = live s fun s => linkUp s p.val rate.val width.val cxl := rfl

theorem exec_configurationWrite (p : Port) (c : PortFn) (s : State) :
    exec (.configurationWrite p c) s = live s fun s => configWrite s p.val c := rfl

theorem exec_ptmInterval (p : Port) (t : W64) (s : State) : exec (.ptmInterval p t) s = live s fun s =>
    if ptmPort s = some p.val then ({ s with tsu := tsuSet s fun _ => t.toNat } : State).emit (.ptm p.val) else s := rfl

theorem exec_perstRelease_up {s : State} (p : Port) (h : s.Up) : exec (.perstRelease p) s = live s fun s =>
    if (s.port p.val).perst then
      ((s.updPort p.val fun x => { x with perst := false, link := .training }).setR (hpcR p.val 0x58) 6).setR (hpcR p.val 0x50) s.hubTime
    else s := by
  show execPerstRelease p s = _
  rw [execPerstRelease, h.held]
  rfl

/-- Settles O6: each event's meaning behind the reset gate, its guard met. -/
theorem portLinkEvents : Obligations.PortLinkEvents := by
  refine ⟨fun p s hup hl => ?retrainStart, fun p s hup hl => ?retrainEnd, fun p rate width cxl s hup hl hp hr hw => ?linkUp,
    fun p s hup hp => ?perstRelease, fun p c s hup hl hc => ?configuration, fun p v s hup hp => ?ptm⟩
  case retrainStart =>
    have hlink : ((s.port p.val).link == .up || (s.port p.val).link == .flr) = true := by simpa using hl
    exact answers_live hup (exec_linkRetrainStart p s) (if_pos hlink)
  case retrainEnd =>
    have hlink : ((s.port p.val).link == .retrain) = true := by simpa using hl
    exact answers_live hup (exec_linkRetrainEnd p s) (if_pos hlink)
  case linkUp =>
    have hr' : rate.val ≠ 0 := fun h => hr (Fin.ext h)
    have hw' : width.val ∈ [1, 2, 4, 8, 16] := by simpa [Fin.ext_iff] using hw
    exact answers_live hup (exec_linkUp p rate width cxl s) (linkUp_trains cxl hl hp hr' hw')
  case perstRelease => exact answers_live hup (exec_perstRelease_up p hup) (if_pos hp)
  case configuration => exact answers_live hup (exec_configurationWrite p c s) (configWrite_of_not_cachePort c hl hc)
  case ptm => exact answers_live hup (exec_ptmInterval p v s) (if_pos hp)

end Sys2Proof.Machine

/-! The commands of the FLT page and the expiry of the grace timer (O47). -/
namespace Sys2Proof.Machine

/-! ### The meanings of the commands -/

theorem exec_fltAck (a : Acc) (v : W32) (s : State) : exec (.fltAck a v) s = live s fun s =>
    dropIf (!ackFits s v.toNat) s (fltAck (clearLatches s fltPage) v.toNat) := rfl

theorem exec_fltWordClear (a : Acc) (v : W64) (s : State) :
    exec (.fltWordClear a v) s = live s fun s => wordClear (clearLatches s fltPage) v.toNat := rfl

theorem exec_fltIrqRearm (a : Acc) (s : State) : exec (.fltIrqRearm a) s = live s fun s => fltRearm (clearLatches s fltPage) := rfl

theorem exec_cfPop (a : Acc) (s : State) : exec (.cfPop a) s = live s fun s => cfPop (clearLatches s fltPage) := rfl

theorem exec_fltInject (a : Acc) (h : Half) (s : State) : exec (.fltInject a h) s = live s fun s =>
    match takeHalf s fltPage 0xD0 h with
    | (s, some (some v)) => fltInject s v
    | (s, _) => s := rfl

theorem exec_sweep (a : Acc) (i : Inst) (s : State) : exec (.sweep a i) s = live s fun s => bistCmd s i.val 1 (alive s i.val) id := rfl

theorem exec_full (a : Acc) (i : Inst) (s : State) : exec (.full a i) s = live s fun s =>
    bistCmd s i.val 2 (handoverOk s i.val) fun s => handoverBegin s i.val 5 := rfl

theorem exec_sweepDone (ok : Bool) (s : State) : exec (.sweepDone ok) s = live s fun s =>
    match s.flt.bist with
    | some (i, 1) => bistEnd s (if ok then 1 else 2) (onesOf (s.fld (fltR 0xC8) (8 * i) 8) 8).length
    | _ => s := rfl

theorem exec_graceExpiry (s : State) : exec .graceExpiry s = aon s graceExpiry := rfl

/-! ### FLT_WORD_CLEAR (R431) -/

theorem fltR_ne {off off' : Nat} (h : off ≠ off') : fltR off ≠ fltR off' := by simpa [fltR, reg] using h

/-- WORD, UCE and FATAL with the bits of `m` cleared. -/
def wordsCleared (s : State) (m : Nat) : State := ((s.setMask (fltR 0x40) m 0).setMask (fltR 0x48) m 0).setMask (fltR 0x50) m 0

theorem testBit_wordsCleared (s : State) (m : Nat) {off b : Nat} (ho : off ∈ [0x40, 0x48, 0x50]) (hb : b < 64) :
    ((wordsCleared s m).r (fltR off)).testBit b = ((s.r (fltR off)).testBit b && !m.testBit b) := by
  unfold wordsCleared
  simp only [List.mem_cons, List.not_mem_nil, or_false] at ho
  obtain rfl | rfl | rfl := ho
  · rw [State.r_setMask_ne _ _ _ (fltR_ne (by decide)), State.r_setMask_ne _ _ _ (fltR_ne (by decide)), State.testBit_r_setMask_zero _ _ _ hb]
  · rw [State.r_setMask_ne _ _ _ (fltR_ne (by decide)), State.testBit_r_setMask_zero _ _ _ hb, State.r_setMask_ne _ _ _ (fltR_ne (by decide))]
  · rw [State.testBit_r_setMask_zero _ _ _ hb, State.r_setMask_ne _ _ _ (fltR_ne (by decide)), State.r_setMask_ne _ _ _ (fltR_ne (by decide))]

/-- The words cleared, and what the loss of trust leaves with its bit. -/
def wordsTrustCleared (s : State) (m : Nat) : State :=
  let x := wordsCleared s m
  if bitAt m 54 then { x with trust := { x.trust with lost := false } } else x

@[simp] theorem wordsTrustCleared_r (s : State) (m k : Nat) : (wordsTrustCleared s m).r k = (wordsCleared s m).r k := by
  unfold wordsTrustCleared; dsimp only; split <;> rfl

/-- The incident closed (R427). -/
def incidentClosed (s : State) : State := { s.setFld (fltR 0x6C) 16 1 0 with flt := { s.flt with grace := false } }

theorem incidentClosed_r (s : State) (k : Nat) : (incidentClosed s).r k = (s.setFld (fltR 0x6C) 16 1 0).r k := State.r_withFlt _ _ k

theorem incidentClosed_r_ne (s : State) {k : Nat} (h : k ≠ fltR 0x6C) : (incidentClosed s).r k = s.r k :=
  (incidentClosed_r s k).trans (s.r_setFld_ne 16 1 0 h)

theorem incidentClosed_fld (s : State) : (incidentClosed s).fld (fltR 0x6C) 16 1 = 0 := by
  rw [State.fld, incidentClosed_r]
  exact s.fld_setFld_same (k := fltR 0x6C) (lo := 16) (w := 1) (v := 0) (by decide)

theorem wordClear_eq (s : State) (v : Nat) :
    wordClear s v =
      let y := wordsTrustCleared s (v - (v &&& condBits s))
      if y.r (fltR 0x40) = 0 then incidentClosed y else y := by
  simp only [wordsTrustCleared, wordsCleared, State.setMask_zero]; rfl

theorem wordClear_r (s : State) (v : Nat) {off : Nat} (h : off ≠ 0x6C) :
    (wordClear s v).r (fltR off) = (wordsCleared s (v - (v &&& condBits s))).r (fltR off) := by
  rw [wordClear_eq]; dsimp only; split
  · rw [incidentClosed_r_ne _ (fltR_ne h), wordsTrustCleared_r]
  · rw [wordsTrustCleared_r]

/-- The incident closes once the word is 0 (R427). -/
theorem wordClear_closes {s : State} {v : Nat} (h : (wordClear s v).r (fltR 0x40) = 0) :
    (wordClear s v).fld (fltR 0x6C) 16 1 = 0 ∧ (wordClear s v).flt.grace = false := by
  rw [wordClear_r _ _ (by decide), ← wordsTrustCleared_r] at h
  rw [wordClear_eq, if_pos h]
  exact ⟨incidentClosed_fld _, rfl⟩

theorem bitAt_wordClear (s : State) (v : Nat) {off b : Nat} (ho : off ∈ [0x40, 0x48, 0x50]) (hb : b < 64) :
    bitAt ((wordClear s v).r (fltR off)) b = (bitAt (s.r (fltR off)) b && !(bitAt v b && !bitAt (condBits s) b)) := by
  have hne : off ≠ 0x6C := by rintro rfl; simp at ho
  simp only [bitAt_eq_testBit]
  rw [wordClear_r _ _ hne, testBit_wordsCleared _ _ ho hb, testBit_sub_and]

/-! ### FLT_INJECT and the self-tests -/

/-- Taking a half leaves the firmware and its life cycle as they were: it touches latches only (R57). -/
theorem takeHalf_fw {s x : State} {p : PageId} {off : Nat} {h : Half} {o : Option (Option Nat)} (ht : takeHalf s p off h = (x, o)) :
    x.fw = s.fw := by
  have hx : (takeHalf s p off h).1.fw = s.fw := by
    unfold takeHalf; repeat' split
    all_goals rfl
  rwa [ht] at hx

/-- A write of FLT.INJECT by what its half takes from the split latch (R57, R452). -/
theorem answers_fltInject {s x : State} {h : Half} {o : Option (Option Nat)} {P : State → Prop} (a : Acc) (hup : s.Up)
    (ht : takeHalf s fltPage 0xD0 h = (x, o)) (hp : P (match o with | some (some v) => fltInject x v | _ => x)) : Answers (.fltInject a h) s P := by
  refine answers_live hup (exec_fltInject a h s) ?_
  rw [ht]
  rcases o with _ | _ | v <;> exact hp

theorem fltInject_refused {s : State} {v : Nat} (h : s.fw.lifecycle ≠ 0) : fltInject s v = s.perr fltPage 16 := if_pos (by simpa using h)

theorem fltInject_manufacture {s : State} {v : Nat} (h : s.fw.lifecycle = 0) :
    fltInject s v = if bits v 8 2 = 3 then s else errorEvent s (bits v 0 6) (bits v 8 2)
      { idx := if bits v 0 6 < 40 then bits v 0 6 else 0, detail := 2 ^ 31 + (bits v 0 31 - (bits v 0 31 &&& 0x33F)) } .none := by
  simp [fltInject, h]

/-- A self-test begun while none runs: at once at its end where it may not run (R451, R454). -/
theorem bistCmd_idle {s : State} (i op : Nat) (ok : Bool) (f : State → State) (h : s.flt.bist = none) :
    bistCmd s i op ok f = if ok then f ({ clearLatches s fltPage with flt := { s.flt with bist := some (i, op) } }.setR (fltR 0xC4) 1)
      else bistEnd (clearLatches s fltPage) 0x10 0 := by
  cases ok <;> simp [bistCmd, h]

/-- A self-test begun while another runs is refused, and leaves the split latch (R57, R454). -/
theorem bistCmd_busy {s : State} (i op : Nat) (ok : Bool) (f : State → State) (h : s.flt.bist ≠ none) :
    bistCmd s i op ok f = { (clearLatches s fltPage).perr fltPage 17 with wlatch := s.wlatch } := by
  have h' : s.flt.bist.isSome = true := Option.isSome_iff_ne_none.mpr h
  simp only [bistCmd, h', if_true]; rfl

/-! ### FLT_ACK (R430) -/

theorem ackFits_iff (s : State) (v : Nat) : ackFits s v = true ↔ s.fld (fltR 0x6C) 16 1 = 1 ∧ s.fld (fltR 0x6C) 0 16 = bits v 0 16 := by
  simp [ackFits]

theorem fltAck_of_fits {s : State} {v : Nat} (h : ackFits s v = true) :
    fltAck s v = { s.setFld (fltR 0x6C) 19 1 1 with flt := { s.flt with grace := false } } := if_pos h

theorem fltAck_of_not_fits {s : State} {v : Nat} (h : ackFits s v = false) : fltAck s v = s := if_neg (by simp [h])

/-! ### GRACE_EXPIRY (R430) -/

/-- An incident escalated: the timer stops, FLT.INCIDENT and the interrupt tell of it, and the log takes it where log_en is set. -/
def escalated (s : State) : State :=
  let x := (({ s with flt := { s.flt with grace := false } } : State).setFld (fltR 0x6C) 20 1 1).irq fltPage 17
  if bitAt (x.r (fltR 0x68)) 1 then pushLog x (incidentEntry x) else x

theorem graceExpiry_idle {s : State} (h : s.flt.grace = false) : graceExpiry s = s := if_pos (by simp [h])

/-- What an incident leads to after it has escalated: the event for the BMC, and the reset that a FATAL one needs. -/
theorem graceExpiry_running {s : State} (h : s.flt.grace = true) :
    graceExpiry s =
      let cls := s.fld (fltR 0x6C) 17 2
      let y := (escalated s).emit (.pldmEvent ((escalated s).fld (fltR 0x80) 0 6) cls)
      if cls != 2 then y else
        let z := bothInst y fun s i =>
          if (s.mir.get i).fenced && (s.mir.get i).inst == .resetting && !(s.mir.get i).takenOver && (s.mir.get i).failed && !(s.mir.get i).resetRun then
            s.updMir i fun m => { m with resetRun := true } else s
        if z.flt.hubFatal && bitAt (z.r (fltR 0x68)) 0 then { z with boot := { z.boot with asked := true } }.emit .warmReq else z := by
  have hcls : ({ s with flt := { s.flt with grace := false } } : State).fld (fltR 0x6C) 17 2 = s.fld (fltR 0x6C) 17 2 := rfl
  simp only [graceExpiry, h, Bool.not_true, Bool.false_eq_true, if_false, escalated, hcls]

/-- Settles O47: each command's meaning behind its reset gate, branch by branch. -/
theorem faultPageCommandsAct : Obligations.FaultPageCommandsAct := by
  refine ⟨fun a v s hup ho hn => ?ack, fun a v s hup hn => ?ackOther, fun a v s hup => ?wordBits, fun a v s hup => ?wordClear,
    fun a s hup ho => ?rearm, fun a s hup ho => ?rearmClosed, fun a s hup => ?cfPop, fun a h v x s hup ht hl => ?injectRefused,
    fun a h v x s hup ht hl hc => ?inject, fun a h v x s hup ht hl hc => ?injectNone, fun a h x s hup ht => ?injectHalf,
    fun a i s hup hb ha => ?sweepBad, fun a i s hup hb ha => ?fullBad, fun a i s hup hb => ?fullBusy, fun ok s hup hb => ?sweepDoneIdle,
    fun a i s hup hb ha => ?sweep, fun a i s hup hb => ?sweepBusy, fun a i s hup hb ha => ?full, fun ok i s hup hb => ?sweepDone,
    fun s hpor hg => ?graceIdle, fun s hpor hg hc => ?grace, fun s hpor hg hc => ?graceFatal⟩
  case ack =>
    have hf : ackFits s v.toNat = true := (ackFits_iff _ _).2 ⟨ho, hn⟩
    refine answers_live hup (exec_fltAck a v s) ?_
    rw [hf]
    exact fltAck_of_fits (s := clearLatches s fltPage) hf
  case ackOther =>
    have hf : ackFits s v.toNat = false := by
      rw [Bool.eq_false_iff, Ne, ackFits_iff]
      rintro ⟨ho, hn'⟩
      exact hn.elim (by simp [ho]) (· hn')
    refine answers_live hup (exec_fltAck a v s) ?_
    rw [hf, fltAck_of_not_fits (s := clearLatches s fltPage) hf]
    rfl
  case wordBits =>
    refine answers_live hup (exec_fltWordClear a v s) ⟨fun off ho b hb => ?_, wordClear_closes⟩
    exact bitAt_wordClear (clearLatches s fltPage) v.toNat ho hb
  case wordClear => exact answers_live hup (exec_fltWordClear a v s) rfl
  case rearm => exact answers_live hup (exec_fltIrqRearm a s) (if_pos ho)
  case rearmClosed => exact answers_live hup (exec_fltIrqRearm a s) (if_neg fun h => absurd (ho.symm.trans h) (by decide))
  case cfPop => exact answers_live hup (exec_cfPop a s) rfl
  case injectRefused => exact answers_fltInject a hup ht (fltInject_refused ((takeHalf_fw ht).symm ▸ hl))
  case inject => exact answers_fltInject a hup ht ((fltInject_manufacture ((takeHalf_fw ht).symm ▸ hl)).trans (if_neg hc))
  case injectNone => exact answers_fltInject a hup ht ((fltInject_manufacture ((takeHalf_fw ht).symm ▸ hl)).trans (if_pos hc))
  case injectHalf => exact answers_fltInject a hup ht rfl
  case sweepBad => exact answers_live hup (exec_sweep a i s) ((bistCmd_idle i.val 1 _ id hb).trans (by rw [ha]; rfl))
  case fullBad => exact answers_live hup (exec_full a i s) ((bistCmd_idle i.val 2 _ _ hb).trans (by rw [ha]; rfl))
  case fullBusy => exact answers_live hup (exec_full a i s) (bistCmd_busy i.val 2 _ _ hb)
  case sweepDoneIdle =>
    refine answers_live hup (exec_sweepDone ok s) ?_
    rw [hb]
  case sweep => exact answers_live hup (exec_sweep a i s) ((bistCmd_idle i.val 1 _ id hb).trans (by rw [ha]; rfl))
  case sweepBusy => exact answers_live hup (exec_sweep a i s) (bistCmd_busy i.val 1 _ id hb)
  case full => exact answers_live hup (exec_full a i s) ((bistCmd_idle i.val 2 _ _ hb).trans (by rw [ha]; rfl))
  case sweepDone =>
    refine answers_live hup (exec_sweepDone ok s) ?_
    rw [hb]
    rfl
  case graceIdle => exact answers_aon hpor (exec_graceExpiry s) (graceExpiry_idle hg)
  case grace =>
    refine answers_aon hpor (exec_graceExpiry s) ?_
    have hc' : (s.fld (fltR 0x6C) 17 2 != 2) = true := by simpa using hc
    rw [graceExpiry_running hg]
    exact if_pos hc'
  case graceFatal =>
    refine answers_aon hpor (exec_graceExpiry s) ?_
    rw [graceExpiry_running hg, hc]
    exact if_neg (by decide)

end Sys2Proof.Machine

/-! Every command stands behind a reset gate; some let the writes that waited act afterwards (O57, O58). -/
namespace Sys2Proof.Machine

/-! ### Marks of late writes -/

/-- Which instances have their current write marked as late. -/
def State.lates (s : State) : Bool × Bool := (s.txn.a.late, s.txn.b.late)

theorem noLate_iff_lates (s : State) : s.NoLate ↔ s.lates = (false, false) := by simp [State.lates]

/-- The outcome is a next state whose marks are those of `s`. -/
def KeepsLate (s : State) (o : Host.Outcome State Fault Refusal) : Prop := ∃ t, o = .next t ∧ t.lates = s.lates

/-- The outcome of a command that power-on reset stops and that carries out no write that waited. -/
def Gated (s : State) (o : Host.Outcome State Fault Refusal) : Prop := KeepsLate s o ∧ (s.por = true → o = .next s)

theorem keepsLate_next {s t : State} (h : t.lates = s.lates) : KeepsLate s (.next t) := ⟨t, rfl, h⟩

theorem keepsLate_done (s t : State) : KeepsLate s (done s t) := ⟨_, rfl, rfl⟩

theorem KeepsLate.of_lates {s t : State} {o : Host.Outcome State Fault Refusal} (h : KeepsLate t o) (ht : t.lates = s.lates) : KeepsLate s o :=
  h.imp fun _ hu => ⟨hu.1, hu.2.trans ht⟩

theorem keepsLate_thenDo {s : State} {o : Host.Outcome State Fault Refusal} {f : State → Host.Outcome State Fault Refusal}
    (h : KeepsLate s o) (hf : ∀ t, KeepsLate t (f t)) : KeepsLate s (thenDo o f) := by
  obtain ⟨t, rfl, ht⟩ := h
  exact (hf t).of_lates ht

theorem keepsLate_foldl {α : Type} {g : α → State → Host.Outcome State Fault Refusal} (hg : ∀ c t, KeepsLate t (g c t)) (s : State) (l : List α) :
    ∀ o, KeepsLate s o → KeepsLate s (l.foldl (fun o c => thenDo o (g c)) o) := by
  induction l with
  | nil => exact fun o h => h
  | cons c r ih => exact fun o h => ih _ (keepsLate_thenDo h (hg c))

/-! ### The gates -/

theorem gated_next (s : State) : Gated s (.next s) := ⟨keepsLate_next rfl, fun _ => rfl⟩

/-- Behind the gate of power-on and warm reset: every gate of an instance or a page is this one. -/
theorem gated_live (s : State) (f : State → State) : Gated s (live s f) := by
  unfold live
  split
  case isTrue => exact gated_next s
  case isFalse h => exact ⟨keepsLate_done s _, fun hp => absurd (by simp [State.held, hp]) h⟩

theorem gated_aon (s : State) (f : State → State) : Gated s (aon s f) := by
  unfold aon
  split
  case isTrue => exact gated_next s
  case isFalse h => exact ⟨keepsLate_done s _, fun hp => absurd hp h⟩

theorem gated_execEvtAdd (i : Inst) (vd : Option (BitVec 12)) (a : Acc) (v : W32) (s : State) : Gated s (execEvtAdd i vd a v s) := by
  unfold execEvtAdd
  split
  · exact gated_live s _
  · exact gated_live s _

theorem gated_execDidtCfgWrite (w : Option Inst) (a : Acc) (v : W32) (s : State) : Gated s (execDidtCfgWrite w a v s) := by
  unfold execDidtCfgWrite
  split
  · exact gated_live s _
  · exact gated_live s _

theorem gated_poolWrite (s : State) (a : Option Acc) (f : State → State) : Gated s (poolWrite s a f) := by
  unfold poolWrite
  split
  · exact gated_live s _
  · exact gated_aon s _

theorem gated_attachCmd (a : Acc) (g : Group) (s : State) (f : State → Nat → State) : Gated s (attachCmd a g s f) := by
  unfold attachCmd
  exact gated_live s _

theorem gated_execHlcAccess (i : Inst) (q : Option StReq) (s : State) : Gated s (execHlcAccess i q s) := by
  unfold execHlcAccess
  cases q with
  | none => dsimp only; exact gated_live s _
  | some q => dsimp only; exact gated_live s _

/-! ### Register commands and accesses -/

theorem keepsLate_actCmd (c : Instr) (s : State) : KeepsLate s (actCmd c s) := by
  unfold actCmd
  split
  case h_20 => exact (gated_execEvtAdd _ _ _ _ s).1
  case h_74 => exact (gated_execDidtCfgWrite _ _ _ s).1
  case h_84 | h_85 | h_86 | h_87 | h_88 => exact (gated_attachCmd _ _ s _).1
  case h_90 | h_91 => exact (gated_poolWrite s _ _).1
  case h_101 => exact keepsLate_next rfl
  all_goals exact (gated_live s _).1

theorem keepsLate_actCmds (l : List Instr) (s : State) : KeepsLate s (actCmds l s) :=
  keepsLate_foldl keepsLate_actCmd s l _ (keepsLate_next rfl)

/-- An op that the table does not list is answered behind the gate of its page's commands. -/
theorem keepsLate_badOp {s : State} {c : Instr} {a : Acc} {p : PageId} {off v : Nat} {o : Host.Outcome State Fault Refusal}
    (h : badOp s c a p off v = some o) : KeepsLate s o := by
  unfold badOp at h
  dsimp only at h
  repeat' split at h
  all_goals cases h
  all_goals exact (gated_live s _).1

theorem keepsLate_writeReg (s : State) (c : Instr) (a : Acc) (p : PageId) (r : RegRow) (off v : Nat) : KeepsLate s (writeReg s c a p r off v) := by
  unfold writeReg
  split
  case h_1 o ho => exact keepsLate_badOp ho
  case h_2 =>
    split
    · exact keepsLate_done s _
    · exact keepsLate_actCmds _ s
    · split <;> exact keepsLate_done s _

theorem keepsLate_writeHalf (s : State) (c : Instr) (a : Acc) (p : PageId) (r : RegRow) (off : Nat) (high : Bool) (v : Nat) :
    KeepsLate s (writeHalf s c a p r off high v) := by
  unfold writeHalf
  dsimp only
  split
  · exact keepsLate_actCmd _ s
  split
  · exact keepsLate_done s _
  split
  · exact keepsLate_done s _
  split
  · exact keepsLate_writeReg s c a p r off _
  split
  · exact keepsLate_done s _
  · exact keepsLate_writeReg s c a p r off _

theorem keepsLate_write4 (s : State) (c : Instr) (a : Acc) (p : PageId) (off v : Nat) : KeepsLate s (write4 s c a p off v) := by
  unfold write4
  split
  · exact keepsLate_done s _
  · split
    · exact keepsLate_writeReg s c a p _ _ v
    · exact keepsLate_writeHalf s c a p _ _ _ v

theorem keepsLate_write8 (s : State) (c : Instr) (a : Acc) (p : PageId) (off v : Nat) : KeepsLate s (write8 s c a p off v) := by
  have two : KeepsLate s (thenDo (write4 s c a p off (v % 2 ^ 32)) fun s => write4 s c a p (off + 4) (v / 2 ^ 32)) :=
    keepsLate_thenDo (keepsLate_write4 s c a p off _) fun t => keepsLate_write4 t c a p _ _
  unfold write8
  dsimp only
  split
  · split
    · exact keepsLate_writeReg s c a p _ _ v
    · exact two
  · exact two

theorem keepsLate_writeAll (c : Instr) (a : Acc) (p : PageId) (n : Nat) : ∀ (off : Nat) (bs : List Byte) (s : State),
    KeepsLate s (writeAll c a p off n bs s) := by
  induction n with
  | zero => exact fun _ _ s => keepsLate_next rfl
  | succ n ih => exact fun off bs s => keepsLate_thenDo (keepsLate_write8 s c a p off _) fun t => ih _ _ t

@[simp] theorem lates_unconfirm (s : State) (p : PageId) : (unconfirm s p).lates = s.lates := by unfold unconfirm; split <;> rfl

/-- A register write stops at a held reset, and leaves the marks (R45, R56). -/
theorem gated_registerWrite (c : Instr) (a : Acc) (bar4 : Bool) (off : Nat) (data : List Byte) (be : Bool) (s : State) :
    Gated s (registerWrite c a bar4 off data be s) := by
  unfold registerWrite
  split
  case isTrue => exact gated_next s
  case isFalse h =>
    refine ⟨?_, fun hp => absurd (by simp [State.held, hp]) h⟩
    split
    · exact keepsLate_next rfl
    split
    · exact keepsLate_next rfl
    dsimp only
    split
    · exact keepsLate_done s _
    split
    · exact keepsLate_done s _
    · exact keepsLate_done s _
    · split
      · exact (keepsLate_write4 _ c a _ _ _).of_lates (by split <;> simp)
      · exact (keepsLate_writeAll c a _ _ _ _ _).of_lates (by split <;> simp)

theorem keepsLate_runHeld (h : HeldAcc) (s : State) : KeepsLate s (runHeld h s) := by
  unfold runHeld
  split
  · exact (gated_registerWrite _ _ _ _ _ _ s).1
  · exact (gated_live s _).1
  · exact (gated_live s _).1
  · exact keepsLate_actCmd _ s

/-! ### Writes that waited -/

/-- The outcome is a next state, without a late write where `s` has none. -/
def Completes (s : State) (o : Host.Outcome State Fault Refusal) : Prop := ∃ t, o = .next t ∧ (s.NoLate → t.NoLate)

theorem KeepsLate.completes {s : State} {o : Host.Outcome State Fault Refusal} (h : KeepsLate s o) : Completes s o :=
  h.imp fun t ht => ⟨ht.1, fun hs => (noLate_iff_lates t).2 (ht.2.trans ((noLate_iff_lates s).1 hs))⟩

theorem completes_thenDo {s : State} {o : Host.Outcome State Fault Refusal} {f : State → Host.Outcome State Fault Refusal}
    (h : Completes s o) (hf : ∀ t, Completes t (f t)) : Completes s (thenDo o f) := by
  obtain ⟨t, rfl, ht⟩ := h
  exact (hf t).imp fun u hu => ⟨hu.1, hu.2 ∘ ht⟩

/-- The writes that waited at instance `i` begin: they are late. -/
def replayBegin (i : Nat) (s : State) : State := { s with txn := s.txn.upd i fun x => { x with held := [], late := true } }

/-- The writes that waited at instance `i` have acted. -/
def replayEnd (i : Nat) (s : State) : State := { s with txn := s.txn.upd i fun x => { x with late := false } }

theorem replayHeld_nil {i : Nat} {s : State} (h : (s.txn.get i).held = []) : replayHeld i s = .next s := by simp [replayHeld, h]

theorem replayHeld_cons {i : Nat} {s : State} (h : (s.txn.get i).held ≠ []) :
    replayHeld i s = thenDo ((s.txn.get i).held.foldl (fun o h => thenDo o (runHeld h)) (.next (replayBegin i s))) fun s => .next (replayEnd i s) := by
  simp [replayHeld, h, replayBegin, replayEnd]

/-- Between the beginning and the end of a replay only the mark of its instance stands. -/
theorem noLate_replayEnd {i : Nat} {s t : State} (hs : s.NoLate) (ht : t.lates = (replayBegin i s).lates) : (replayEnd i t).NoLate := by
  rw [noLate_iff_lates] at hs ⊢
  by_cases hi : i = 0 <;> simp_all [State.lates, replayBegin, replayEnd, Two.upd, Two.set, Two.get]

theorem completes_replayHeld (i : Nat) (s : State) : Completes s (replayHeld i s) := by
  by_cases h : (s.txn.get i).held = []
  · exact ⟨s, replayHeld_nil h, id⟩
  · obtain ⟨t, ho, ht⟩ := keepsLate_foldl keepsLate_runHeld (replayBegin i s) (s.txn.get i).held _ (keepsLate_next rfl)
    exact ⟨replayEnd i t, by rw [replayHeld_cons h, ho]; rfl, fun hs => noLate_replayEnd hs ht⟩

theorem completes_withHeld {s : State} {o : Host.Outcome State Fault Refusal} (h : Completes s o) : Completes s (withHeld o) :=
  completes_thenDo (completes_thenDo h (completes_replayHeld 0)) (completes_replayHeld 1)

/-- Where no write waits, none acts. -/
theorem withHeld_next {s : State} (ha : (s.txn.get 0).held = []) (hb : (s.txn.get 1).held = []) : withHeld (.next s) = .next s := by
  rw [withHeld, thenDo, replayHeld_nil ha, thenDo, replayHeld_nil hb]

/-! ### Every command -/

/-- The commands of the pins that act while power-on reset is held (R43, R492). -/
def movesPin : Instr → Bool
  | .hubPorAssert | .hubPorRelease .. | .warmResetAssert | .warmResetRelease | .perstAssert .. | .perstRelease .. | .brake | .brakeRelease => true
  | _ => false

/-- Every other command stands behind a gate, or behind one with the writes that waited after it. -/
theorem exec_gated_or_held (c : Instr) (s : State) (h : movesPin c = false) :
    Gated s (exec c s) ∨ ∃ o, Gated s o ∧ exec c s = withHeld o := by
  cases c
  all_goals dsimp only [exec]
  case hubPorAssert | hubPorRelease | warmResetAssert | warmResetRelease | perstAssert | perstRelease | brake | brakeRelease => cases h
  case txnCommitProcess | txnSafeWaitExpiry | retrainLimitExpiry | linkDown | flr | d3hotEntry | ideCheckFailure | clockLost | takeover |
      instanceResetEnd | mirrorSynced => exact .inr ⟨_, gated_live s _, rfl⟩
  case faultEvent | islandErrorPin | islandReportTimeout => exact .inr ⟨_, gated_aon s _, rfl⟩
  all_goals refine .inl ?_
  case registerWrite => exact gated_registerWrite _ _ _ _ _ _ s
  case attach | reattach | force | depart | detach => exact gated_attachCmd _ _ s _
  case evtAdd => exact gated_execEvtAdd _ _ _ _ s
  case didtCfgWrite => exact gated_execDidtCfgWrite _ _ _ s
  case hlcAccess => exact gated_execHlcAccess _ _ s
  case poolTotal | poolConfiguration => exact gated_poolWrite s _ _
  case siteErr | siteDroop | ioutWarning | calCheck | levelRampStep | hubDroop | droopHoldExpiry | droopStormExpiry | tempUpdate | thermtrip |
      packageBudget | budgetSource | pldmSensorRead | graceExpiry | flashOpDone | nvInhibitLift | nvInhibitTimeout | smbusArp | entdaa |
      i3cBroadcast | clockReturn | droopEnd | sensorRecovery => exact gated_aon s _
  all_goals exact gated_live s _

theorem completes_pin (c : Instr) (s : State) (h : movesPin c = true) : Completes s (exec c s) := by
  cases c
  case hubPorAssert | hubPorRelease | warmResetAssert | warmResetRelease => exact (keepsLate_done s _).completes
  case perstAssert p un =>
    dsimp only [exec, execPerstAssert]
    split
    · exact (keepsLate_next rfl).completes
    · exact completes_withHeld (gated_live s _).1.completes
  case perstRelease p =>
    dsimp only [exec, execPerstRelease]
    split
    · exact (keepsLate_next rfl).completes
    · exact (gated_live s _).1.completes
  case brake => exact (KeepsLate.of_lates (gated_live { s with brakeLow := true } brakeOn).1 rfl).completes
  case brakeRelease => exact (KeepsLate.of_lates (gated_live { s with brakeLow := false } brakeOff).1 rfl).completes
  all_goals cases h

theorem exec_completes (c : Instr) (s : State) : Completes s (exec c s) := by
  cases h : movesPin c with
  | true => exact completes_pin c s h
  | false =>
    obtain hg | ⟨o, hg, ho⟩ := exec_gated_or_held c s h
    · exact hg.1.completes
    · exact ho ▸ completes_withHeld hg.1.completes

theorem durTick_txn (s : State) : (durTick s).txn = s.txn :=
  List.foldlRecOn (motive := fun t : State => t.txn = s.txn) _ _ rfl fun _ ht _ _ => ht

theorem idle_lates (s : State) : (idle s).lates = s.lates := by
  unfold idle
  split
  · rfl
  · dsimp only
    split
    · simp only [State.lates, durTick_txn]
    · rfl

theorem step_completes (s : State) : Completes s (step s) := by
  unfold step
  split
  · exact (keepsLate_next (idle_lates s)).completes
  · exact (exec_completes _ _).imp fun t h => h

/-- Settles O57: every command is behind gates that answer, and only a replay marks writes, which takes its marks back. -/
theorem everyCommandCompletes : Obligations.EveryCommandCompletes := by
  refine ⟨fun c s => ?_, fun s t hs ht => ?_, rfl, rfl⟩
  · obtain ⟨t, ht, _⟩ := exec_completes c s
    exact ⟨t, ht⟩
  · obtain ⟨u, hu, hl⟩ := step_completes s
    cases ht.symm.trans hu
    exact hl hs

end Sys2Proof.Machine

/-! What power-on reset leaves alone while it is held, and the pins at its assertion and release (O58, O60). -/
namespace Sys2Proof.Machine

/-! ### Registers listed beside their reset values -/

/-- Only the registers `ks` may differ from their reset values. -/
def ListsOnly (ks : List Nat) (s : State) : Prop := ∀ e ∈ s.regs, e.1 ∈ ks

theorem Tbl.mem_put {α : Type} {t : Tbl α} {k : Nat} {v : α} {e : Nat × α} (h : e ∈ Tbl.put t k v) : e = (k, v) ∨ e ∈ t := by
  induction t with
  | nil => simpa [Tbl.put] using h
  | cons x r ih =>
    simp only [Tbl.put] at h
    split at h
    · simpa using h
    · split at h
      · exact (List.mem_cons.1 h).imp_right (List.mem_cons_of_mem x)
      · obtain rfl | h := List.mem_cons.1 h
        · exact .inr (List.mem_cons_self ..)
        · exact (ih h).imp_right (List.mem_cons_of_mem x)

theorem Tbl.find_eq_none {α : Type} {t : Tbl α} {k : Nat} (h : ∀ e ∈ t, e.1 ≠ k) : Tbl.find t k = none := by
  induction t with
  | nil => rfl
  | cons x r ih => simp [Tbl.find, h x (List.mem_cons_self ..), ih fun e he => h e (List.mem_cons_of_mem x he)]

theorem ListsOnly.setR {ks : List Nat} {s : State} (h : ListsOnly ks s) {k : Nat} (hk : k ∈ ks) (v : Nat) : ListsOnly ks (s.setR k v) := by
  intro e he
  unfold State.setR at he
  dsimp only at he
  split at he
  · exact h e (List.mem_filter.1 he).1
  · obtain rfl | he := Tbl.mem_put he
    · exact hk
    · exact h e he

theorem ListsOnly.r {ks : List Nat} {s : State} (h : ListsOnly ks s) {k : Nat} (hk : k ∉ ks) : s.r k = resetOf k := by
  have hf : Tbl.find s.regs k = none := Tbl.find_eq_none fun e he hek => hk (hek ▸ h e he)
  simp [State.r, hf]

/-- With no event register listed no page raises an interrupt (R55). -/
theorem ListsOnly.eventPages {ks : List Nat} {s : State} (h : ListsOnly ks s) (hk : ∀ k ∈ ks, k % 0x1000 ≠ 0x10 ∧ k % 0x1000 ≠ 0x18) :
    eventPages s = [] := by
  refine List.filterMap_eq_nil_iff.2 fun e he => ?_
  obtain ⟨h1, h2⟩ := hk _ (h e he)
  simp [h1, h2]

/-! ### What follows from a step -/

theorem messages_of_no_eventPages {old new : State} (h : eventPages new = []) : messages old new = new := by
  have hr (i : Nat) : regInterrupt old new i = new := by simp [regInterrupt, irqSummary, h]
  simp [messages, vdRises, hr, h]

@[simp] theorem drivePins_por (s : State) : (drivePins s).por = s.por := by unfold drivePins; split <;> rfl
@[simp] theorem drivePins_warm (s : State) : (drivePins s).warm = s.warm := by unfold drivePins; split <;> rfl
@[simp] theorem drivePins_txn (s : State) : (drivePins s).txn = s.txn := by unfold drivePins; split <;> rfl
@[simp] theorem drivePins_regs (s : State) : (drivePins s).regs = s.regs := by unfold drivePins; split <;> rfl
@[simp] theorem drivePins_thermTrip (s : State) : (drivePins s).thermTrip = s.thermTrip := by unfold drivePins; split <;> rfl
@[simp] theorem drivePins_nv (s : State) : (drivePins s).nv = s.nv := by unfold drivePins; split <;> rfl

theorem State.PinsOk.released {s : State} (h : s.PinsOk) (hs : s.held = true) :
    s.pinFault = none ∧ s.pinAlert = none ∧ s.pinTherm = none ∧ s.pinSpiCs = none ∧ s.pinSpiClk = none ∧ s.pinSpiIo = [none, none, none, none] ∧
    s.pinScl = none ∧ s.pinSda = none := by
  simpa only [State.PinsOk, hs, if_true] using h

/-! ### Power-on reset held -/

theorem held_of_por {s : State} (h : s.por = true) : s.held = true := by simp [State.held, h]

/-- A command that is none of the pins' does nothing while power-on reset is held (R37, R45). -/
theorem exec_of_por {c : Instr} {s : State} (hs : s.por = true) (ha : (s.txn.get 0).held = []) (hb : (s.txn.get 1).held = [])
    (hc : movesPin c = false) : exec c s = .next s := by
  obtain hg | ⟨o, hg, ho⟩ := exec_gated_or_held c s hc
  · exact hg.2 hs
  · rw [ho, hg.2 hs, withHeld_next ha hb]

theorem movesPin_eq_false {c : Instr} (h1 : c ≠ .hubPorAssert) (h2 : ∀ b e p, c ≠ .hubPorRelease b e p) (h3 : c ≠ .warmResetAssert)
    (h4 : c ≠ .warmResetRelease) (h5 : ∀ p u, c ≠ .perstAssert p u) (h6 : ∀ p, c ≠ .perstRelease p) (h7 : c ≠ .brake) (h8 : c ≠ .brakeRelease) :
    movesPin c = false := by
  cases c
  case hubPorRelease b e p => exact absurd rfl (h2 b e p)
  case perstAssert p u => exact absurd rfl (h5 p u)
  case perstRelease p => exact absurd rfl (h6 p)
  case hubPorAssert | warmResetAssert | warmResetRelease | brake | brakeRelease => contradiction
  all_goals rfl

theorem exec_brake_of_held {s : State} (h : s.held = true) : exec .brake s = .next { s with brakeLow := true } := if_pos h

theorem exec_brakeRelease_of_held {s : State} (h : s.held = true) : exec .brakeRelease s = .next { s with brakeLow := false } := if_pos h

theorem exec_perstAssert_of_held (p : Port) (u : BitVec 8) {s : State} (h : s.held = true) :
    exec (.perstAssert p u) s = .next (s.updPort p.val fun x => { x with perst := true, link := .reset }) := if_pos h

theorem exec_perstRelease_of_held (p : Port) {s : State} (h : s.held = true) :
    exec (.perstRelease p) s = .next (s.updPort p.val fun x => { x with perst := false, link := .training }) := if_pos h

/-! ### The assertion of power-on reset -/

theorem messages_porAssert (s : State) : messages s (porAssert s) = porAssert s :=
  messages_of_no_eventPages (ListsOnly.eventPages (ks := []) (fun _ he => absurd he List.not_mem_nil) (by simp))

/-- Settles O58: the gates stop every command but the pins', and an assertion leaves no register and no write that waits. -/
theorem heldResetStopsEverything : Obligations.HeldResetStopsEverything := by
  refine ⟨fun c s hs ha hb h1 h2 h3 h4 h5 h6 h7 h8 => exec_of_por hs ha hb (movesPin_eq_false h1 h2 h3 h4 h5 h6 h7 h8),
    fun s hs => ⟨exec_brake_of_held hs, exec_brakeRelease_of_held hs⟩, fun p u s hs => exec_perstAssert_of_held p u (held_of_por hs),
    fun p s hs => exec_perstRelease_of_held p (held_of_por hs), fun s => ⟨finish s (porAssert s), rfl, ?_⟩⟩
  have hpor : (finish s (porAssert s)).por = true := by simp [finish, messages_porAssert]; rfl
  refine ⟨hpor, ?_, ?_, (finish_pins _ _).released (held_of_por hpor)⟩
  · simp [finish, messages_porAssert, Two.get]; rfl
  · simp [finish, messages_porAssert, Two.get]; rfl

/-! ### The release of power-on reset -/

/-- The registers that a release of power-on reset writes: straps, phase and cause of each boot, and the log's place. -/
def bootRegs : List Nat := [dbgR 0 0x40, dbgR 1 0x40, dbgR 0 0x44, dbgR 1 0x44, dbgR 0 0x48, dbgR 1 0x48, nvsR 0x60, nvsR 0x64]

/-- Only those registers, the pair's side and the boot side are beyond the reset state, and power-on reset is not held. -/
def Booted (s : State) : Prop :=
  ListsOnly bootRegs s ∧ ∃ r m b, s = { State.reset with por := false, regs := r, mir := m, boot := b }

theorem Booted.setR {s : State} (h : Booted s) {k : Nat} (hk : k ∈ bootRegs) (v : Nat) : Booted (s.setR k v) := by
  obtain ⟨hl, r, m, b, rfl⟩ := h
  exact ⟨hl.setR hk v, _, _, _, rfl⟩

theorem Booted.bootBegin {s : State} (h : Booted s) (i : Inst) (on : Bool) (cause : Nat) : Booted (bootBegin s i.val on cause) := by
  obtain ⟨hl, r, m, b, rfl⟩ := h
  have hp : dbgR i.val 0x44 ∈ bootRegs := by fin_cases i <;> decide
  have hc : dbgR i.val 0x48 ∈ bootRegs := by fin_cases i <;> decide
  have hm (f : MirSt → MirSt) : Booted (({ State.reset with por := false, regs := r, mir := m, boot := b } : State).updMir i.val f) :=
    ⟨hl, _, _, _, rfl⟩
  unfold Machine.bootBegin
  dsimp only
  split
  · exact ((hm _).setR hp _).setR hc _
  · exact hm _

theorem sampleBrake_idle {s : State} (hb : s.brakeLow = false) (hl : s.lev.brake = false) : sampleBrake s = s := by
  simp [sampleBrake, brakeOff, hb, hl]

theorem Booted.sampleBrake {s : State} (h : Booted s) : Booted (sampleBrake s) := by
  obtain ⟨hl, r, m, b, rfl⟩ := h
  rw [sampleBrake_idle rfl rfl]
  exact ⟨hl, r, m, b, rfl⟩

theorem Booted.showLog {s : State} (h : Booted s) : Booted (showLog s) := (h.setR (by decide) _).setR (by decide) _

theorem Booted.straps {s : State} (h : Booted s) (v : Nat) : Booted (bothInst s fun s i => s.setR (dbgR i 0x40) v) :=
  (h.setR (by decide) v).setR (by decide) v

theorem Booted.bothBegin {s : State} (h : Booted s) (on : Nat → Bool) (cause : Nat) :
    Booted (bothInst s fun s i => Machine.bootBegin s i (on i) cause) := (h.bootBegin 0 (on 0) cause).bootBegin 1 (on 1) cause

theorem booted_porRelease (boot en : Nat) (pair : Bool) : Booted (porRelease State.reset boot en pair) := by
  have h0 (f : BootSt → BootSt) : Booted (({ State.reset with por := false } : State).updBoot f) :=
    ⟨fun _ he => absurd he List.not_mem_nil, _, _, _, rfl⟩
  exact (((h0 _).straps _).bothBegin (bitAt _) 0).showLog.sampleBrake

/-! ### The levels of the pins -/

/-- The pins of a state without faults, alerts, trips or flash operations (R411, R413, R431). -/
theorem State.PinsOk.inactive {s : State} (h : s.PinsOk) (hs : s.held = false) (hf : s.r (fltR 0x40) = 0) (ha : s.r (thrR 0x44) = 0)
    (ht : s.thermTrip = false) (hn : s.nv.ops = []) :
    s.pinFault = some true ∧ s.pinAlert = some true ∧ s.pinTherm = some true ∧ s.pinSpiCs = some true ∧ s.pinSpiClk.isSome = true ∧
    s.pinScl ≠ some true ∧ s.pinSda ≠ some true := by
  obtain ⟨h1, h2, h3, h4, h5, -, h7, h8⟩ := h
  have open_ne (n : Nat) : openDrain s n ≠ some true := by unfold openDrain; split <;> simp
  simp only [hs] at *
  refine ⟨?_, ?_, ?_, ?_, ?_, ?_, ?_⟩
  · simp [h1, faultLevel, hf]
  · simp [h2, alertLevel, show s.r (reg .thr 0 0 0x44) = 0 from ha]
  · simp [h3, thermLevel, ht]
  · simp [h4, spiLevel, hn]
  · simp [h5]
  · simpa [h7] using open_ne 1
  · simpa [h8] using open_ne 2

theorem Booted.finish {s t : State} (h : Booted t) : (finish s t).held = false ∧ (finish s t).r (fltR 0x40) = 0 ∧ (finish s t).r (thrR 0x44) = 0 ∧
    (finish s t).thermTrip = false ∧ (finish s t).nv.ops = [] := by
  have hm : messages s t = t := messages_of_no_eventPages (h.1.eventPages (by decide))
  have hr (k : Nat) : (Machine.finish s t).r k = t.r k := by simp [Machine.finish, State.r, hm]
  have hf : t.r (fltR 0x40) = 0 := (h.1.r (by decide)).trans (by decide)
  have ha : t.r (thrR 0x44) = 0 := (h.1.r (by decide)).trans (by decide)
  obtain ⟨-, r, m, b, rfl⟩ := h
  exact ⟨by simp [Machine.finish, State.held, hm]; rfl, (hr _).trans hf, (hr _).trans ha, by simp [Machine.finish, hm]; rfl, by simp [Machine.finish, hm]; rfl⟩

/-- Settles O60: reset lists no register, and a release none that a pin shows. -/
theorem resetShowsThePins : Obligations.ResetShowsThePins := by
  refine ⟨⟨rfl, rfl, rfl, rfl, rfl, rfl, rfl, rfl⟩, rfl, rfl, rfl, rfl, rfl, rfl, rfl, rfl, fun boot en pair => ⟨_, rfl, finish_pins _ _, ?_⟩⟩
  obtain ⟨hh, hf, ha, ht, hn⟩ := (booted_porRelease boot.toNat en.toNat pair).finish (s := State.reset)
  exact (finish_pins _ _).inactive hh hf ha ht hn

end Sys2Proof.Machine

/-! Events of the sources, silent pins, clocks, heartbeats, the patrol scrubber and failing banks (O46). -/
namespace Sys2Proof.Machine

/-! ### Commands after which waiting writes act -/

theorem answers_heldLive {c : Instr} {s : State} {f : State → State} {P : State → Prop} (h : s.Up) (hc : exec c s = withHeld (live s f))
    (hp : P (f s)) : Answers c s P := answers_held (hc.trans (congrArg withHeld (live_up h f))) hp

theorem answers_heldAon {c : Instr} {s : State} {f : State → State} {P : State → Prop} (h : s.por = false) (hc : exec c s = withHeld (aon s f))
    (hp : P (f s)) : Answers c s P := answers_held (hc.trans (congrArg withHeld (aon_por h f))) hp

/-! ### The meanings of the commands -/

theorem exec_faultEvent (src : Fin 64) (r : ErrReport) (s : State) : exec (.faultEvent src r) s = withHeld (aon s fun s =>
    if src.val < 40 && islandHeld s src.val then s else errorEvent s src.val r.cls.val (reportOf r) r.hit) := rfl

theorem exec_islandErrorPin (k : Island) (r : ErrReport) (s : State) : exec (.islandErrorPin k r) s = withHeld (aon s fun s =>
    if islandHeld s k.val then s else errorEvent s k.val r.cls.val (reportOf r) r.hit) := rfl

theorem exec_islandReportTimeout (k : Island) (s : State) : exec (.islandReportTimeout k) s = withHeld (aon s fun s =>
    if islandHeld s k.val then s else faultEvent s k.val 2 { idx := k.val } (if sharedIsland k.val then none else srcInst k.val)) := rfl

theorem exec_clockLost (k : Island) (s : State) : exec (.clockLost k) s = withHeld (live s fun s => clockLost s k.val) := rfl

theorem exec_clockReturn (k : Island) (s : State) : exec (.clockReturn k) s = aon s fun s =>
    if k.val = 38 then ({ s with flt := { s.flt with cond := s.flt.cond.filter (· != k.val) } } : State).updLev fun l => { l with pmiLost := false }
    else { s with flt := { s.flt with cond := s.flt.cond.filter (· != k.val) } } := rfl

theorem exec_heartbeatLoss (i : Inst) (b : Bool) (s : State) : exec (.heartbeatLoss i b) s = live s fun s =>
    if alive s i.val then livenessEvent s (16 * i.val + if b then 4 else 2) 2 (some i.val) else s := rfl

theorem exec_patrolScrub (i : Inst) (isl : Fin 16) (addr : W64) (b : Bool) (s : State) : exec (.patrolScrub i isl addr b) s = live s fun s =>
    if alive s i.val && b then faultEvent s (16 * i.val + isl.val) 0 { idx := 16 * i.val + isl.val, access := 3, addr := addr.toNat } none else s := rfl

theorem exec_bankFailure (i : Inst) (w : Fin 9) (n : Fin 16) (s : State) : exec (.bankFailure i w n) s = live s fun s =>
    if alive s i.val then bankFails s i.val w.val n.val
    else if booting s i.val then bankFails { s with flt := { s.flt with banks := banksJoined s.nv.repair s.flt.banks } } i.val w.val n.val
    else s := rfl

/-! ### CLOCK_LOST (R41) -/

/-- The clock condition of an island stands. -/
def clockCond (s : State) (k : Nat) : State := { s with flt := { s.flt with cond := k :: s.flt.cond } }

theorem clockLost_idle {s : State} {k : Nat} (h : monitored k = false ∨ islandHeld s k = true ∨ s.flt.cond.contains k = true) : clockLost s k = s := by
  refine if_pos ?_
  obtain h | h | h := h <;> simp only [h, Bool.not_false, Bool.true_or, Bool.or_true]

theorem clockLost_new {s : State} {k : Nat} (hm : monitored k = true) (hh : islandHeld s k = false) (hc : s.flt.cond.contains k = false) :
    clockLost s k =
      if k < 32 then
        if 8 ≤ k % 16 && k % 16 ≤ 13 then siteDown (livenessEvent (clockCond s k) k 1 none) (6 * (k / 16) + (k % 16 - 8))
        else livenessEvent (clockCond s k) k 2 (some (k / 16))
      else if k < 36 then portFails (livenessEvent (clockCond s k) k 1 none) (k - 32)
      else (livenessEvent (clockCond s k) k 0 none).updLev fun l => { l with pmiLost := true } :=
  if_neg (by rw [hm, hh, hc]; decide)

/-- Of the islands of an instance the STP islands are the shared ones (R37). -/
theorem sharedIsland_of_lt {k : Nat} (h : k < 32) : sharedIsland k = (8 ≤ k % 16 && k % 16 ≤ 13) := by
  simp [sharedIsland, Nat.not_le.2 h]

theorem clockLost_instance {s : State} {k : Nat} (hm : monitored k = true) (hh : islandHeld s k = false) (hc : s.flt.cond.contains k = false)
    (hk : k < 32) (hs : sharedIsland k = false) : clockLost s k = livenessEvent (clockCond s k) k 2 (some (k / 16)) := by
  rw [sharedIsland_of_lt hk] at hs
  rw [clockLost_new hm hh hc, if_pos hk, hs]
  exact if_neg (by decide)

theorem clockLost_site {s : State} {k : Nat} (hm : monitored k = true) (hh : islandHeld s k = false) (hc : s.flt.cond.contains k = false)
    (hk : k < 32) (hs : sharedIsland k = true) :
    clockLost s k = siteDown (livenessEvent (clockCond s k) k 1 none) (6 * (k / 16) + (k % 16 - 8)) := by
  rw [sharedIsland_of_lt hk] at hs
  rw [clockLost_new hm hh hc, if_pos hk, hs]
  exact if_pos rfl

theorem clockLost_port {s : State} {k : Nat} (hm : monitored k = true) (hh : islandHeld s k = false) (hc : s.flt.cond.contains k = false)
    (hk : 32 ≤ k) (hk' : k < 36) : clockLost s k = portFails (livenessEvent (clockCond s k) k 1 none) (k - 32) := by
  rw [clockLost_new hm hh hc, if_neg (Nat.not_lt.2 hk), if_pos hk']

theorem clockLost_pmi {s : State} (hh : islandHeld s 38 = false) (hc : s.flt.cond.contains 38 = false) :
    clockLost s 38 = (livenessEvent (clockCond s 38) 38 0 none).updLev fun l => { l with pmiLost := true } :=
  (clockLost_new (by decide) hh hc).trans ((if_neg (by decide)).trans (if_neg (by decide)))

/-! ### BANK_FAILURE (R450) -/

theorem bankFails_again {s : State} {i w n : Nat} (h : s.flt.banks.contains (i, w, n) = true) : bankFails s i w n = s := if_pos h

/-- Settles O46: each event's meaning behind its gate, branch by branch. -/
theorem faultsAreReported : Obligations.FaultsAreReported := by
  refine ⟨fun src r s hp h => ?event, fun src r s hp hlt h => ?eventHeld, fun k r s hp h => ?pin, fun k r s hp h => ?pinHeld,
    fun k s hp h hs => ?silentShared, fun k s hp h hs => ?silent, fun k s hp h => ?silentHeld, fun k s hup h => ?clockIdle,
    fun k s hup hm hh hc hk hs => ?clockInst, fun k s hup hm hh hc hk hs => ?clockSite, fun k s hup hm hh hc hk hk' => ?clockPort,
    fun s hup hh hc => ?clockPmi, fun k s hp hk => ?clockBack, fun s hp => ?clockBackPmi, fun i b s hup ha => ?beatDead,
    fun i isl addr b s hup ha => ?scrubDead, fun i w n s hup ha hb => ?bankDead, fun i w n s hup ha hb => ?bankBoot, fun i b s hup ha => ?beat,
    fun i isl addr s hup ha => ?scrub, fun i isl addr s hup => ?scrubClean, fun i w n s hup ha => ?bank, fun i w n s hup ha hb => ?bankAgain⟩
  case event =>
    refine answers_heldAon hp (exec_faultEvent src r s) (if_neg ?_)
    obtain h | h := h
    · simp [Nat.not_lt.2 h]
    · simp [h]
  case eventHeld => exact answers_heldAon hp (exec_faultEvent src r s) (if_pos (by simp [hlt, h]))
  case pin => exact answers_heldAon hp (exec_islandErrorPin k r s) (if_neg (by simp [h]))
  case pinHeld => exact answers_heldAon hp (exec_islandErrorPin k r s) (if_pos h)
  case silentShared => exact answers_heldAon hp (exec_islandReportTimeout k s) (by simp [h, hs])
  case silent => exact answers_heldAon hp (exec_islandReportTimeout k s) (by simp [h, hs])
  case silentHeld => exact answers_heldAon hp (exec_islandReportTimeout k s) (if_pos h)
  case clockIdle =>
    refine answers_heldLive hup (exec_clockLost k s) (clockLost_idle ?_)
    obtain h | h | h | h := h
    · exact .inl (by simp [monitored, h])
    · exact .inl (by simp [monitored, h])
    · exact .inl (by simp [monitored, h])
    · exact .inr h
  case clockInst => exact answers_heldLive hup (exec_clockLost k s) (clockLost_instance hm hh hc hk hs)
  case clockSite => exact answers_heldLive hup (exec_clockLost k s) (clockLost_site hm hh hc hk hs)
  case clockPort => exact answers_heldLive hup (exec_clockLost k s) (clockLost_port hm hh hc hk hk')
  case clockPmi => exact answers_heldLive hup (exec_clockLost 38 s) (clockLost_pmi hh hc)
  case clockBack => exact answers_aon hp (exec_clockReturn k s) (if_neg hk)
  case clockBackPmi => exact answers_aon hp (exec_clockReturn 38 s) (if_pos rfl)
  case beatDead => exact answers_live hup (exec_heartbeatLoss i b s) (if_neg (by simp [ha]))
  case scrubDead => exact answers_live hup (exec_patrolScrub i isl addr b s) (if_neg (by simp [ha]))
  case bankDead => exact answers_live hup (exec_bankFailure i w n s) (by simp [ha, hb])
  case bankBoot => exact answers_live hup (exec_bankFailure i w n s) (by simp [ha, hb])
  case beat => exact answers_live hup (exec_heartbeatLoss i b s) (if_pos ha)
  case scrub => exact answers_live hup (exec_patrolScrub i isl addr true s) (if_pos (by simp [ha]))
  case scrubClean => exact answers_live hup (exec_patrolScrub i isl addr false s) (if_neg (by simp))
  case bank => exact answers_live hup (exec_bankFailure i w n s) (if_pos ha)
  case bankAgain => exact answers_live hup (exec_bankFailure i w n s) ((if_pos ha).trans (bankFails_again hb))

end Sys2Proof.Machine

/-! PART_CMD and the change of a site's owner (O34). -/
namespace Sys2Proof.Machine

/-! ### The gates -/

/-- A command that its page's state drops leaves the split latch, on an unbound page of an instance that is served. -/
theorem cmdD_drops {s : State} {i : Inst} {p : PageId} (h : s.Serves i.val) (hp : s.Free p) (a : Acc) (c : Instr) {drop : State → Bool}
    (hd : drop s = true) (f : State → State) :
    cmdD s i a p c drop f = .next (finish s { f (clearLatches s p) with wlatch := s.wlatch }) := by
  simp [cmdD, liveI_serves h, guardD, meetW_acts (meets_free hp a), dropIf, hd]

section PartCmd

variable {s : State} {i : Inst} {f : State → Nat → State} {drop : State → Nat → Bool}

/-- The partition that SCH selects for PART_CMD. -/
abbrev selPart (s : State) (i : Nat) : Nat := s.fld (schR i 0 0x40) 0 4

/-- A partition command with none in progress (R348). -/
theorem partCmd_serves (h : s.Serves i.val) (hp : s.Free (schPage i.val 0)) (hb : s.fld (schR i.val 0 0x48) 0 1 = 0) (a : Acc) (c : Instr)
    (hd : drop s (selPart s i.val) = false) :
    partCmd s i a c f drop = .next (finish s (f (clearLatches s (schPage i.val 0)) (selPart s i.val))) := by
  refine (cmdD_serves h hp a c (by simp [hb, hd]) _).trans ?_
  have hb' : (clearLatches s (schPage i.val 0)).fld (schR i.val 0 0x48) 0 1 ≠ 1 := fun hc => absurd (hb.symm.trans hc) (by decide)
  rw [if_neg hb']
  rfl

/-- With a partition command in progress another is refused (R348). -/
theorem partCmd_busy (h : s.Serves i.val) (hp : s.Free (schPage i.val 0)) (hb : s.fld (schR i.val 0 0x48) 0 1 = 1) (a : Acc) (c : Instr) :
    partCmd s i a c f drop =
      .next (finish s { (clearLatches s (schPage i.val 0)).perr (schPage i.val 0) 16 with wlatch := s.wlatch }) := by
  refine (cmdD_drops h hp a c (by simp [hb]) _).trans ?_
  have hb' : (clearLatches s (schPage i.val 0)).fld (schR i.val 0 0x48) 0 1 = 1 := hb
  rw [if_pos hb']

/-- A partition command that the state of its partition drops. -/
theorem partCmd_drops (h : s.Serves i.val) (hp : s.Free (schPage i.val 0)) (hb : s.fld (schR i.val 0 0x48) 0 1 = 0) (a : Acc) (c : Instr)
    (hd : drop s (selPart s i.val) = true) :
    partCmd s i a c f drop =
      .next (finish s { f (clearLatches s (schPage i.val 0)) (selPart s i.val) with wlatch := s.wlatch }) := by
  refine (cmdD_drops h hp a c (by simp [hb, hd]) _).trans ?_
  have hb' : (clearLatches s (schPage i.val 0)).fld (schR i.val 0 0x48) 0 1 ≠ 1 := fun hc => absurd (hb.symm.trans hc) (by decide)
  rw [if_neg hb']
  rfl

end PartCmd

/-! ### CREATE (R317) -/

/-- The fields of a CREATE are in range: sites, a size, an aligned base, an end in the address space. -/
def createFits (s : State) (i : Nat) : Prop :=
  s.fld (schR i 0 0x4C) 0 12 ≠ 0 ∧ s.fld (schR i 0 0x58) 0 16 ≠ 0 ∧ aligned (s.r (schR i 0 0x50)) (2 ^ 26) = true ∧
  s.r (schR i 0 0x50) + s.fld (schR i 0 0x58) 0 16 * 2 ^ 26 ≤ 2 ^ 50

/-- The sites that a CREATE names. -/
abbrev createSites (s : State) (i : Nat) : List Nat := onesOf (s.fld (schR i 0 0x4C) 0 12) 12

/-- Whether a site is in a partition or not UP. -/
def siteBusy (s : State) (k : Nat) : Bool := (partAt s k).isSome || (s.site k).st != .up

/-- The record of the partition that a CREATE makes. -/
def createRec (s : State) (i : Nat) : PartRec :=
  { sites := s.fld (schR i 0 0x4C) 0 12, wbase := s.r (schR i 0 0x50), wsize := s.fld (schR i 0 0x58) 0 16 }

/-- The partition stands, and its sites of the other owner move. -/
def created (s : State) (i p : Nat) : State :=
  (createSites s i).foldl (fun s k => if owner s k != i then s.updSite k fun x => { x with moving := true } else s)
    (s.updSch i fun x => { x with parts := Tbl.put x.parts p (createRec s i) })

theorem partCreate_exists {s : State} {i p : Nat} (h : (partHome s p).isSome = true) : partCreate s i p = partEnd s i 0x10 false := if_pos h

theorem partCreate_noSite {s : State} {i p : Nat} (h : partHome s p = none) (hm : s.fld (schR i 0 0x4C) 0 12 = 0) :
    partCreate s i p = partEnd s i 0x11 false := by
  simp [partCreate, h, hm]

theorem partCreate_fits {s : State} {i p : Nat} (h : partHome s p = none) (hf : createFits s i) :
    partCreate s i p =
      if (createSites s i).any (siteBusy s) then partEnd s i 0x12 false
      else if ((createSites s i).map (siteKind s)).eraseDups.length != 1 then partEnd s i 0x13 false
      else createEnd (created s i p) i p := by
  obtain ⟨hm, hz, ha, he⟩ := hf
  refine (if_neg (by simp [h])).trans ((if_neg ?_).trans rfl)
  simpa [hm, hz] using And.intro ha he

theorem partCreate_siteBusy {s : State} {i p : Nat} (h : partHome s p = none) (hf : createFits s i)
    (hb : (createSites s i).any (siteBusy s) = true) : partCreate s i p = partEnd s i 0x12 false := by
  rw [partCreate_fits h hf, if_pos hb]

theorem partCreate_siteKind {s : State} {i p : Nat} (h : partHome s p = none) (hf : createFits s i)
    (hb : (createSites s i).any (siteBusy s) = false) (hk : ((createSites s i).map (siteKind s)).eraseDups.length ≠ 1) :
    partCreate s i p = partEnd s i 0x13 false := by
  rw [partCreate_fits h hf, hb, if_neg (by decide), if_pos (by simpa using hk)]

theorem partCreate_stands {s : State} {i p : Nat} (h : partHome s p = none) (hf : createFits s i)
    (hb : (createSites s i).any (siteBusy s) = false) (hk : ((createSites s i).map (siteKind s)).eraseDups.length = 1) :
    partCreate s i p = createEnd (created s i p) i p := by
  rw [partCreate_fits h hf, hb, if_neg (by decide), if_neg (by simp [hk])]

/-! ### READ and DESTROY (R319, R348) -/

theorem part?_none_of_partHome {s : State} {p : Nat} (h : partHome s p = none) (i : Inst) : part? s i.val p = none := by
  have hn := List.find?_eq_none.1 h i.val (by fin_cases i <;> simp)
  simpa using hn

theorem partRead_none {s : State} {i p : Nat} (h : partHome s p = none) :
    partRead s i p = ((s.setR (schR i 0 0x4C) 0).setR (schR i 0 0x48) 0x100).irq (schPage i 0) 16 := by simp [partRead, h]

theorem partRead_some {s : State} {i p h : Nat} {r : PartRec} (hh : partHome s p = some h) (hr : part? s h p = some r) :
    partRead s i p = ((s.setR (schR i 0 0x4C) r.sites).setR (schR i 0 0x48) (fields [(8, 1), (16, h), (17, 1)])).irq (schPage i 0) 16 := by
  simp [partRead, hh, hr]

theorem partDestroy_none {s : State} {i p : Nat} (h : part? s i p = none) :
    partDestroy s i p = if (partHome s p).isSome then s.perr (schPage i 0) 16 else partEnd s i 0x10 false := by simp [partDestroy, h]

/-- A partition is dying: its commands that have not started are taken back, and PURGE goes to its sites whose links work. -/
def destroyBegin (s : State) (i p : Nat) (r : PartRec) : State :=
  let ks := (onesOf r.sites 12).filter (linkOk s)
  let t := s.updSch i fun z => { z with parts := Tbl.put z.parts p { r with dying := some ks } }
  let t := ((t.sc i).cmds.filter fun e => e.2.part == p && (e.2.st == .placing || e.2.st == .due)).foldl (fun s e => unplace s i e.1) t
  ks.foldl (fun s k => if (s.site k).purge.isSome then s else (sendFrame s k 10 [0, p, 0, 0, 0]).updSite k fun x => { x with purge := some p }) t

theorem partDestroy_some {s : State} {i p : Nat} {r : PartRec} (h : part? s i p = some r) :
    partDestroy s i p = settleDestroy ((destroyBegin s i p r).setR (schR i 0 0x48) 1) := by
  simp only [partDestroy, h, destroyBegin]

theorem exec_create (i : Inst) (a : Acc) (s : State) : exec (.create i a) s = partCmd s i a (.create i a) fun s p => partCreate s i.val p := rfl

theorem exec_partRead (i : Inst) (a : Acc) (s : State) : exec (.partRead i a) s = partCmd s i a (.partRead i a) fun s p => partRead s i.val p := rfl

theorem exec_destroy (i : Inst) (a : Acc) (s : State) : exec (.destroy i a) s =
    partCmd s i a (.destroy i a) (fun s p => partDestroy s i.val p) fun s p => (part? s i.val p).isNone && (partHome s p).isSome := rfl

/-! ### SITE_OWNER_CHANGE (R30) -/

theorem exec_siteOwnerChange (k : Site) (s : State) : exec (.siteOwnerChange k) s = live s fun s => siteOwnerChange s k.val := rfl

theorem siteOwnerChange_waits {s : State} {k : Nat} (h : (s.site k).txq ≠ []) : siteOwnerChange s k = s := by simp [siteOwnerChange, h]

theorem siteOwnerChange_takes {s : State} {k u : Nat} (h : (s.site k).txq = []) (ht : (s.site k).taking = some u) :
    siteOwnerChange s k = siteMoves s u k := by simp [siteOwnerChange, h, ht]

/-- The steering bit of a site moves. -/
def steered (s : State) (k : Nat) : State :=
  let x := s.updSite k fun x => { x with moving := false, swapped := !x.swapped }
  x.emit (.steer k (owner x k))

/-- A CREATE that waits for a site's owner goes on. -/
def createGoesOn (s : State) (k : Nat) : State :=
  match partAt s k with
  | some (i, p) => if s.fld (schR i 0 0x48) 0 1 = 1 then createEnd s i p else s
  | none => s

theorem siteOwnerChange_moves {s : State} {k : Nat} (h : (s.site k).txq = []) (ht : (s.site k).taking = none) (hm : (s.site k).moving = true) :
    siteOwnerChange s k = createGoesOn (steered s k) k := by
  unfold siteOwnerChange
  rw [if_neg (by simp [h]), ht]
  exact if_pos hm

/-- Settles O34: each command's meaning behind its gate, branch by branch. -/
theorem partitionCommandsAct : Obligations.PartitionCommandsAct := by
  refine ⟨fun i a s hs hp hb h => ?present, fun i a s hs hp hb h hm => ?noSite, fun i a s hs hp hb h hm hz ha he hn hk => ?stands,
    fun i a s hs hp hb h hm hz ha he hn => ?siteBusy, fun i a s hs hp hb h hm hz ha he hn hk => ?siteKind, fun i a s hs hp hb h => ?readNone,
    fun i a s hs hp hb hn h => ?destroyOther, fun i a s hs hp hb => ?busy, fun i a h r s hs hp hb hh hr => ?read,
    fun i a s hs hp hb h => ?destroyNone, fun i a r s hs hp hb hr => ?destroy, fun k s hup h ht hm => ?moves, fun k u s hup h ht => ?takes,
    fun k s hup h => ?waits⟩
  case present => exact answers ((exec_create i a s).trans (partCmd_serves hs hp hb a _ rfl)) (partCreate_exists h)
  case noSite => exact answers ((exec_create i a s).trans (partCmd_serves hs hp hb a _ rfl)) (partCreate_noSite h hm)
  case stands => exact answers ((exec_create i a s).trans (partCmd_serves hs hp hb a _ rfl)) (partCreate_stands h ⟨hm, hz, ha, he⟩ hn hk)
  case siteBusy => exact answers ((exec_create i a s).trans (partCmd_serves hs hp hb a _ rfl)) (partCreate_siteBusy h ⟨hm, hz, ha, he⟩ hn)
  case siteKind => exact answers ((exec_create i a s).trans (partCmd_serves hs hp hb a _ rfl)) (partCreate_siteKind h ⟨hm, hz, ha, he⟩ hn hk)
  case readNone => exact answers ((exec_partRead i a s).trans (partCmd_serves hs hp hb a _ rfl)) (partRead_none h)
  case read => exact answers ((exec_partRead i a s).trans (partCmd_serves hs hp hb a _ rfl)) (partRead_some hh hr)
  case destroyOther =>
    refine answers ((exec_destroy i a s).trans (partCmd_drops hs hp hb a _ (by simp [hn, h]))) ?_
    exact congrArg (fun t : State => { t with wlatch := s.wlatch }) ((partDestroy_none (s := clearLatches s _) hn).trans (if_pos h))
  case busy => exact answers ((exec_create i a s).trans (partCmd_busy hs hp hb a _)) rfl
  case destroyNone =>
    refine answers ((exec_destroy i a s).trans (partCmd_serves hs hp hb a _ (by simp [h]))) ?_
    have hh : ¬(partHome s (selPart s i.val)).isSome = true := by simp [h]
    exact (partDestroy_none (s := clearLatches s _) (part?_none_of_partHome h i)).trans (if_neg hh)
  case destroy =>
    refine answers ((exec_destroy i a s).trans (partCmd_serves hs hp hb a _ (by simp [hr]))) ?_
    exact partDestroy_some hr
  case moves =>
    refine answers_live hup (exec_siteOwnerChange k s) ?_
    rw [siteOwnerChange_moves h ht hm]
    rfl
  case takes => exact answers_live hup (exec_siteOwnerChange k s) (siteOwnerChange_takes h ht)
  case waits => exact answers_live hup (exec_siteOwnerChange k s) (siteOwnerChange_waits h)

end Sys2Proof.Machine

/-! Host snoops of a line of a coherent group (O25). -/
namespace Sys2Proof.Machine

/-! ### What a change of a line leaves -/

theorem report_nil_ports (s : State) (i : Nat) : (s.report i []).ports = s.ports := by unfold State.report; split <;> rfl

theorem dropLine_ports (s : State) (i k : Nat) : (dropLine s i k).ports = s.ports := by
  unfold dropLine
  split
  · exact report_nil_ports _ i
  · rfl

theorem putLine_ports (s : State) (i k : Nat) (l : Line) : (putLine s i k l).ports = s.ports := by
  unfold putLine
  dsimp only
  split
  · rfl
  · exact report_nil_ports _ i

theorem port_of_ports {s t : State} (h : t.ports = s.ports) (p : Nat) : t.port p = s.port p := by simp [State.port, h]

theorem hlcR_ne (i j : Nat) {off off' : Nat} (h : off < 0x1000) (h' : off' < 0x1000) (hne : off ≠ off') : hlcR i off ≠ hlcR j off' := by
  simp [hlcR, reg, PageId.key, Pg.shared, Pg.base]
  omega

/-! ### An instance that answers a snoop of a line it does not hold (R34, R271) -/

/-- An instance counts a host snoop where it is alive (R279). -/
def missed (i : Nat) (s : State) : State := if alive s i then s.bump (hlcR i 0x70) 1 else s

/-- Beside that count an instance that misses changes nothing. -/
theorem missed_eq (i : Nat) (s : State) : ∃ r, missed i s = { s with regs := r } := by
  unfold missed
  split
  · exact ⟨_, rfl⟩
  · exact ⟨_, rfl⟩

@[simp] theorem missed_hl (i j : Nat) (s : State) : (missed i s).hl j = s.hl j := by obtain ⟨r, h⟩ := missed_eq i s; rw [h]; rfl
@[simp] theorem missed_line? (i j k : Nat) (s : State) : (missed i s).line? j k = s.line? j k := by simp [State.line?]
@[simp] theorem missed_port (i p : Nat) (s : State) : (missed i s).port p = s.port p := by obtain ⟨r, h⟩ := missed_eq i s; rw [h]; rfl
@[simp] theorem missed_alive (i j : Nat) (s : State) : alive (missed i s) j = alive s j := by obtain ⟨r, h⟩ := missed_eq i s; rw [h]; rfl
@[simp] theorem missed_ringsUp (i j : Nat) (s : State) : ringsUp (missed i s) j = ringsUp s j := by simp [ringsUp]

theorem missed_r (i : Nat) (s : State) {k : Nat} (h : k ≠ hlcR i 0x70) : (missed i s).r k = s.r k := by
  unfold missed
  split
  · exact s.r_bump_ne 1 h
  · rfl

@[simp] theorem missed_ringSites (i j : Nat) (s : State) : ringSites (missed i s) j = ringSites s j := by
  have hr : (missed i s).r (hlcR j 0x5C) = s.r (hlcR j 0x5C) := missed_r i s (hlcR_ne j i (by decide) (by decide) (by decide))
  obtain ⟨r, h⟩ := missed_eq i s
  rw [h] at hr ⊢
  simp only [ringSites, hr]
  rfl

/-! ### Where a snoop goes (R34, R271) -/

theorem anySnoop_served {s : State} {p hpa i : Nat} (op : Nat) (hi : lineServer s (groupOf s p) = some i) (hp : cachePort s (groupOf s p) = some p) :
    anySnoop s p hpa op = hostSnoop (missed (partner i) s) i (lineKey (groupOf s p) hpa) p op := by
  have hf : ((lineServer s (groupOf s p)).filter fun _ => cachePort s (groupOf s p) == some p) = some i := by simp [hi, hp]
  simp only [anySnoop, hf]
  rfl

theorem anySnoop_elsewhere {s : State} {p hpa : Nat} (op : Nat) (hp : cachePort s (groupOf s p) ≠ some p) :
    anySnoop s p hpa op = (if alive s 1 then (missed 0 s).bump (hlcR 1 0x70) 1 else missed 0 s).emit
      (.snpRsp p 0 (keyAddr (lineKey (groupOf s p) hpa)) [] false) := by
  have hn : ((lineServer s (groupOf s p)).filter fun _ => cachePort s (groupOf s p) == some p) = none := by simp [hp]
  simp only [anySnoop, hn, ← missed_alive 0 1 s]
  rfl

/-! ### The answer (R271, R275) -/

/-- An answer leaves at once on a port that is UP. -/
theorem saySnoop_up {s : State} {p : Nat} (h : (s.port p).link = .up) (i k a : Nat) (bs : List Byte) (poison : Bool) :
    saySnoop s i k p a bs poison = (s.bump (hlcR i 0x70) 1).emit (.snpRsp p a (keyAddr k) bs poison) := by
  have hp : ((s.bump (hlcR i 0x70) 1).port p).link = .up := h
  simp [saySnoop, cxlOut, hp]

theorem snoopAnswer_none {s : State} {i k : Nat} (h : s.line? i k = none) (p op : Nat) : snoopAnswer s i k p op = saySnoop s i k p 0 [] false := by
  simp [snoopAnswer, h]

theorem snoopAnswer_inv {s : State} {i k : Nat} {l : Line} (h : s.line? i k = some l) (hm : l.st ≠ .m) (p : Nat) :
    snoopAnswer s i k p 0 = saySnoop (dropLine s i k) i k p 1 [] false := by
  simp [snoopAnswer, h, hm]

theorem snoopAnswer_data {s : State} {i k : Nat} {l : Line} (h : s.line? i k = some l) (p : Nat) :
    snoopAnswer s i k p 1 = saySnoop (putLine s i k { l with st := .s }) i k p (if l.st = .m then 4 else 3) (if l.st = .m then l.data else [])
      (l.st == .m && l.poison) := by
  by_cases hm : l.st = .m
  · simp [snoopAnswer, h, hm]
  · have hb : (l.st == .m) = false := beq_eq_false_iff_ne.2 hm
    simp [snoopAnswer, h, hm, hb]

theorem snoopAnswer_cur {s : State} {i k : Nat} {l : Line} (h : s.line? i k = some l) (p : Nat) :
    snoopAnswer s i k p 2 = saySnoop s i k p (if l.st = .m then 6 else 5) (if l.st = .m then l.data else []) (l.st == .m && l.poison) := by
  by_cases hm : l.st = .m
  · simp [snoopAnswer, h, hm]
  · have hb : (l.st == .m) = false := beq_eq_false_iff_ne.2 hm
    simp [snoopAnswer, h, hm, hb]

/-! ### A host snoop of a line that is not busy (R270, R271) -/

theorem hostSnoop_none {s : State} {i k : Nat} (ht : (s.hl i).txns = []) (h : s.line? i k = none) (hg : Tbl.find (s.hl i).ptags k = none)
    (p op : Nat) : hostSnoop s i k p op = snoopAnswer s i k p op := by
  simp [hostSnoop, ht, h, hg]

theorem hostSnoop_alone {s : State} {i k op : Nat} {l : Line} (ht : (s.hl i).txns = []) (h : s.line? i k = some l) (hr : snoopRing l op = false)
    (p : Nat) : hostSnoop s i k p op = snoopAnswer s i k p op := by
  simp [hostSnoop, ht, h, hr]

/-- The line of a ring snoop is busy with the host snoop that needs it. -/
def snoopRings (s : State) (i k p op : Nat) : State :=
  (sendRing s i op k).1.updHlc i fun h => { h with txns := h.txns ++ [{ key := k, work := .snoop p op, ring := some (sendRing s i op k).2 }] }

theorem hostSnoop_ring {s : State} {i k op : Nat} {l : Line} (ht : (s.hl i).txns = []) (h : s.line? i k = some l) (hr : snoopRing l op = true)
    (hs : ringSites s i ≠ []) (hu : ringsUp s i < 64) (p : Nat) : hostSnoop s i k p op = snoopRings s i k p op := by
  have hx : (sendRing s i op k).2.sites.isEmpty = false := by simpa [sendRing, sendRingTo] using hs
  simp [hostSnoop, ht, h, hr, Nat.not_le.2 hu, hx, snoopRings]

/-! ### The commands -/

theorem exec_snpInv (p : Port) (hpa : W64) (s : State) : exec (.snpInv p hpa) s = live s fun s => anySnoop s p.val hpa.toNat 0 := rfl
theorem exec_snpData (p : Port) (hpa : W64) (s : State) : exec (.snpData p hpa) s = live s fun s => anySnoop s p.val hpa.toNat 1 := rfl
theorem exec_snpCur (p : Port) (hpa : W64) (s : State) : exec (.snpCur p hpa) s = live s fun s => anySnoop s p.val hpa.toNat 2 := rfl

section Served

variable {s : State} {p hpa i : Nat} (op : Nat) (hi : lineServer s (groupOf s p) = some i) (hp : cachePort s (groupOf s p) = some p)
  (ht : (s.hl i).txns = [])
include hi hp ht

/-- A snoop of a line that needs a ring snoop. -/
theorem anySnoop_ring {l : Line} (hl : s.line? i (lineKey (groupOf s p) hpa) = some l) (hr : snoopRing l op = true) (hs : ringSites s i ≠ [])
    (hu : ringsUp s i < 64) : anySnoop s p hpa op = snoopRings (missed (partner i) s) i (lineKey (groupOf s p) hpa) p op := by
  rw [anySnoop_served op hi hp]
  exact hostSnoop_ring (by simpa using ht) (by simpa using hl) hr (by simpa using hs) (by simpa using hu) p

/-- A snoop of a line that needs none. -/
theorem anySnoop_alone {l : Line} (hl : s.line? i (lineKey (groupOf s p) hpa) = some l) (hr : snoopRing l op = false) :
    anySnoop s p hpa op = snoopAnswer (missed (partner i) s) i (lineKey (groupOf s p) hpa) p op := by
  rw [anySnoop_served op hi hp]
  exact hostSnoop_alone (by simpa using ht) (by simpa using hl) hr p

/-- A snoop of a line that the instance does not know. -/
theorem anySnoop_unknown (hu : (s.port p).link = .up) (hl : s.line? i (lineKey (groupOf s p) hpa) = none)
    (hg : Tbl.find (s.hl i).ptags (lineKey (groupOf s p) hpa) = none) :
    anySnoop s p hpa op =
      ((missed (partner i) s).bump (hlcR i 0x70) 1).emit (.snpRsp p 0 (keyAddr (lineKey (groupOf s p) hpa)) [] false) := by
  have hl' : (missed (partner i) s).line? i (lineKey (groupOf s p) hpa) = none := by simpa using hl
  rw [anySnoop_served op hi hp, hostSnoop_none (by simpa using ht) hl' (by simpa using hg), snoopAnswer_none hl', saySnoop_up (by simpa using hu)]

end Served

/-- Settles O25: which snoops need the ring, and what the table of R271 answers to the others. -/
theorem hostSnoopsOfALine : Obligations.HostSnoopsOfALine := by
  refine ⟨fun p hpa i l s hup hi hp hu ht hl hr ho hm => ?inv, fun p hpa i l s hup hi hp hu ht hl ho => ?data,
    fun p hpa i l s hup hi hp hu ht hl ho => ?cur, fun p hpa i l s hup hi hp hu ht hl hr hs hn => ?invRing,
    fun p hpa i l s hup hi hp hu ht hl hr hs hn => ?dataRing, fun p hpa i l s hup hi hp hu ht hl hr hs hn => ?curRing,
    fun p hpa i s hup hi hp hu ht hl hg => ?invNone, fun p hpa i s hup hi hp hu ht hl hg => ?dataNone,
    fun p hpa i s hup hi hp hu ht hl hg => ?curNone, fun p hpa s hup hp => ?invElse, fun p hpa s hup hp => ?dataElse,
    fun p hpa s hup hp => ?curElse⟩
  case inv =>
    refine answers_live hup (exec_snpInv p hpa s) ?_
    have hl' : (missed (partner i) s).line? i (lineKey (groupOf s p.val) hpa.toNat) = some l := by simpa using hl
    rw [anySnoop_alone 0 hi hp ht hl (by simp [snoopRing, Line.shared, hr, ho, hm]), snoopAnswer_inv hl' hm, saySnoop_up]
    · rfl
    · rw [port_of_ports (dropLine_ports _ _ _)]; simpa using hu
  case data =>
    refine answers_live hup (exec_snpData p hpa s) ?_
    have hl' : (missed (partner i) s).line? i (lineKey (groupOf s p.val) hpa.toNat) = some l := by simpa using hl
    rw [anySnoop_alone 1 hi hp ht hl (by simp [snoopRing, ho]), snoopAnswer_data hl', saySnoop_up]
    · rfl
    · rw [port_of_ports (putLine_ports _ _ _ _)]; simpa using hu
  case cur =>
    refine answers_live hup (exec_snpCur p hpa s) ?_
    have hl' : (missed (partner i) s).line? i (lineKey (groupOf s p.val) hpa.toNat) = some l := by simpa using hl
    rw [anySnoop_alone 2 hi hp ht hl (by simp [snoopRing, ho]), snoopAnswer_cur hl', saySnoop_up (by simpa using hu)]
    rfl
  case invRing =>
    refine answers_live hup (exec_snpInv p hpa s) (anySnoop_ring 0 hi hp ht hl ?_ hs hn)
    obtain hr | hr | hr := hr <;> simp [snoopRing, Line.shared, hr]
  case dataRing => exact answers_live hup (exec_snpData p hpa s) (anySnoop_ring 1 hi hp ht hl hr hs hn)
  case curRing => exact answers_live hup (exec_snpCur p hpa s) (anySnoop_ring 2 hi hp ht hl hr hs hn)
  case invNone => exact answers_live hup (exec_snpInv p hpa s) (anySnoop_unknown 0 hi hp ht hu hl hg)
  case dataNone => exact answers_live hup (exec_snpData p hpa s) (anySnoop_unknown 1 hi hp ht hu hl hg)
  case curNone => exact answers_live hup (exec_snpCur p hpa s) (anySnoop_unknown 2 hi hp ht hu hl hg)
  case invElse => exact answers_live hup (exec_snpInv p hpa s) (anySnoop_elsewhere 0 hp)
  case dataElse => exact answers_live hup (exec_snpData p hpa s) (anySnoop_elsewhere 1 hp)
  case curElse => exact answers_live hup (exec_snpCur p hpa s) (anySnoop_elsewhere 2 hp)

end Sys2Proof.Machine

/-! What a station answers about its site, and SITE_ERR_N (O29). -/
namespace Sys2Proof.Machine

/-! ### A frame received on a link that works (R284, R285, R288) -/

@[simp] theorem State.site_updSite_same (s : State) (k : Nat) (f : SiteRec → SiteRec) : (s.updSite k f).site k = f (s.site k) := by
  simp [State.site, State.updSite]

theorem ownerWorks_rxFlit (s : State) (k : Nat) : ownerWorks (rxFlit s k) k = ownerWorks s k := by
  have ho : owner (rxFlit s k) k = owner s k := by simp [owner, rxFlit]
  simp only [ownerWorks, ho]
  rfl

/-- The frame's flit is taken, with the credit that it gives back. -/
abbrev taken (s : State) (k : Nat) (f : Frame) : State := takeCredit (rxFlit s k) k f

theorem taken_st (s : State) (k : Nat) (f : Frame) : ((taken s k f).site k).st = (s.site k).st := by simp [takeCredit, rxFlit]

theorem taken_query (s : State) (k : Nat) (f : Frame) : ((taken s k f).site k).query = (s.site k).query := by simp [takeCredit, rxFlit]

theorem frameIn_works {s : State} {k : Nat} (hf : flits s k = true) (f : Frame) : frameIn s k f = frameEnds (onFrame (rxFlit s k) k f) k :=
  if_neg (by simp [hf])

/-- A frame of a site whose owner works acts, in a flit that is then acknowledged. -/
theorem answers_frame {c : Instr} {s : State} {k : Nat} {f : Frame} {P : State → Prop} (hup : s.Up) (hf : flits s k = true)
    (hc : exec c s = live s fun s => frameIn s k f) (hp : P (frameEnds (onFrame (rxFlit s k) k f) k)) : Answers c s P :=
  answers_live hup hc (frameIn_works hf f ▸ hp)

section OnFrame

variable {s : State} {k : Nat} (h : ownerWorks s k = true)
include h

theorem onFrame_capData (b : List Byte) : onFrame (rxFlit s k) k (.capData b) = onCapData (taken s k (.capData b)) k b :=
  if_neg (by simp [ownerWorks_rxFlit, h])

theorem onFrame_stateRsp (cs : List Nat) : onFrame (rxFlit s k) k (.stateRsp cs) = onStateRsp (taken s k (.stateRsp cs)) k cs :=
  if_neg (by simp [ownerWorks_rxFlit, h])

theorem onFrame_activity (cs : List Nat) : onFrame (rxFlit s k) k (.activity cs) = onActivity (taken s k (.activity cs)) k cs :=
  if_neg (by simp [ownerWorks_rxFlit, h])

theorem onFrame_fault (c code d : Nat) :
    onFrame (rxFlit s k) k (.fault c code d) = onStationFault (taken s k (.fault c code d)) k c code d :=
  if_neg (by simp [ownerWorks_rxFlit, h])

theorem onFrame_unknown :
    onFrame (rxFlit s k) k .unknown = faultEvent (taken s k .unknown) (stpSrc k) 0 { kind := 2, idx := k } none :=
  if_neg (by simp [ownerWorks_rxFlit, h])

end OnFrame

/-! ### Registers written in turn -/

section FoldSetR

variable (f g : Nat → Nat)

theorem foldl_setR_r_ne {q : Nat} (l : List Nat) (h : ∀ n ∈ l, q ≠ f n) (s : State) : (l.foldl (fun z n => z.setR (f n) (g n)) s).r q = s.r q := by
  induction l generalizing s with
  | nil => rfl
  | cons n r ih => rw [List.foldl_cons, ih (fun j hj => h j (List.mem_cons_of_mem n hj)), s.r_setR_ne _ (h n (List.mem_cons_self ..))]

theorem foldl_setR_r_same (hf : Function.Injective f) {m : Nat} {l : List Nat} (hl : l.Nodup) (hm : m ∈ l) (s : State) :
    (l.foldl (fun z n => z.setR (f n) (g n)) s).r (f m) = g m % 2 ^ 64 := by
  induction l generalizing s with
  | nil => exact absurd hm List.not_mem_nil
  | cons n r ih =>
    obtain ⟨hn, hr⟩ := List.nodup_cons.1 hl
    rw [List.foldl_cons]
    obtain rfl | hm := List.mem_cons.1 hm
    · rw [foldl_setR_r_ne f g r fun j hj he => hn (by rwa [hf he]), State.r_setR_same]
    · exact ih hr hm _

end FoldSetR

/-! ### CAP_DATA (R290, R291) -/

/-- The capability block kept in STP.CAP0-7. -/
def capKept (s : State) (k : Nat) (block : List Byte) : State :=
  (List.range 8).foldl (fun z n => z.setR (stpR k (0x80 + 8 * n)) (fieldAt block (8 * n) 8)) s

/-- A field of the block is read from the registers that keep it. -/
theorem capF_capKept (s : State) (k : Nat) (block : List Byte) {off lo w : Nat} (ho : off / 8 < 8) (hw : off % 8 * 8 + lo + w ≤ 64) :
    capF (capKept s k block) k off lo w = bits (fieldAt block (8 * (off / 8)) 8) (off % 8 * 8 + lo) w := by
  have hinj : Function.Injective fun n => stpR k (0x80 + 8 * n) := fun a b h => by
    simp only [stpR, reg] at h
    omega
  have hr := foldl_setR_r_same _ (fun n => fieldAt block (8 * n) 8) hinj List.nodup_range (List.mem_range.2 ho) s
  rw [capF, Nat.mul_comm (off / 8) 8]
  exact (congrArg (bits · _ _) hr).trans (bits_mod_two_pow _ hw)

/-- The protocol fits and every field of the capability block is in its range. -/
def capFits (s : State) (k : Nat) : Bool :=
  let f (off lo w : Nat) : Nat := capF s k off lo w
  let inR (v lo hi : Nat) : Bool := lo ≤ v && v ≤ hi
  f 0 8 8 == 1 && inR (f 8 0 9) 1 256 && inR (f 8 16 7) 1 64 && inR (f 0xC 0 16) 64 65535 && inR (f 0xC 16 7) 8 64 &&
    inR (f 0x10 0 16) 1 100 && inR (f 0x10 16 16) 1 10000 && 400 ≤ f 0x18 16 16 && f 0x1C 5 27 == 0 && f 0x20 0 64 == 0 && f 0x28 0 64 == 0 &&
    f 0x30 0 64 == 0 && f 0x38 0 64 == 0

theorem onCapData_short {s : State} {k : Nat} {block : List Byte} (h : block.length ≠ 64) : onCapData s k block = s := if_pos (by simp [h])

section CapData

variable {s : State} {k : Nat} {block : List Byte} (hl : block.length = 64)
  (hs : (s.site k).st = .cap ∨ (s.site k).st = .up ∨ (s.site k).st = .mismatch)
include hl hs

theorem onCapData_keeps : onCapData s k block =
    if capFits (capKept s k block) k then
      flushFrames (((capKept s k block).updSite k fun x => { x with st := if capFits (capKept s k block) k then .up else .mismatch }).irq (stpPage k) 16) k
    else
      (((capKept s k block).updSite k fun x => { x with st := if capFits (capKept s k block) k then .up else .mismatch }).irq (stpPage k) 16).irq
        (stpPage k) 19 := by
  refine if_neg ?_
  obtain hs | hs | hs := hs <;> simp [hl, hs]

theorem onCapData_fits (h : capFits (capKept s k block) k = true) :
    onCapData s k block = flushFrames (((capKept s k block).updSite k fun x => { x with st := .up }).irq (stpPage k) 16) k := by
  simp only [onCapData_keeps hl hs, h, if_true]

theorem onCapData_mismatch (h : capFits (capKept s k block) k = false) :
    onCapData s k block = (((capKept s k block).updSite k fun x => { x with st := .mismatch }).irq (stpPage k) 16).irq (stpPage k) 19 := by
  simp only [onCapData_keeps hl hs, h, Bool.false_eq_true, if_false]

end CapData

theorem capFits_version {s : State} {k : Nat} {block : List Byte} (h : fieldAt block 0 8 / 2 ^ 8 % 2 ^ 8 ≠ 1) :
    capFits (capKept s k block) k = false := by
  have hv : capF (capKept s k block) k 0 8 8 ≠ 1 := by
    rw [capF_capKept s k block (by decide) (by decide), bits, Nat.shiftRight_eq_div_pow]
    simpa using h
  simp [capFits, hv]

/-- A block with protocol version 1 and every field in its range (R290). -/
theorem capFits_ok {s : State} {k : Nat} {block : List Byte} (hv : bits (fieldAt block 0 8) 8 8 = 1)
    (he : 1 ≤ bits (fieldAt block 8 8) 0 9 ∧ bits (fieldAt block 8 8) 0 9 ≤ 256) (hw : 1 ≤ bits (fieldAt block 8 8) 16 7 ∧ bits (fieldAt block 8 8) 16 7 ≤ 64)
    (ha : 64 ≤ bits (fieldAt block 8 8) 32 16) (hs : 8 ≤ bits (fieldAt block 8 8) 48 7 ∧ bits (fieldAt block 8 8) 48 7 ≤ 64)
    (hp : 1 ≤ bits (fieldAt block 16 8) 0 16 ∧ bits (fieldAt block 16 8) 0 16 ≤ 100)
    (hk : 1 ≤ bits (fieldAt block 16 8) 16 16 ∧ bits (fieldAt block 16 8) 16 16 ≤ 10000) (hm : 400 ≤ bits (fieldAt block 24 8) 16 16)
    (hz : bits (fieldAt block 24 8) 37 27 = 0) (hr : ∀ n : Fin 4, fieldAt block (32 + 8 * n.val) 8 = 0) : capFits (capKept s k block) k = true := by
  have hb : bits (fieldAt block 8 8) 32 16 ≤ 65535 := Nat.le_of_lt_succ (Nat.mod_lt _ (by decide))
  have h0 (w : Nat) : bits 0 0 w = 0 := by simp [bits]
  have h1 : fieldAt block 32 8 = 0 := hr 0
  have h2 : fieldAt block 40 8 = 0 := hr 1
  have h3 : fieldAt block 48 8 = 0 := hr 2
  have h4 : fieldAt block 56 8 = 0 := hr 3
  simp (disch := decide) only [capFits, capF_capKept]
  simp [*]

/-! ### STATE_RSP (R312) -/

theorem onStateRsp_awaited {s : State} {k : Nat} (h : (s.site k).query = true) (codes : List Nat) :
    onStateRsp s k codes =
      ((codes.zipIdx.filter fun e => e.1 != 0 && (cmdAt s k e.2).isNone).map Prod.snd).foldl (fun s n => sendFrame s k 2 [n, 1, 0, 0, 0])
        ((codes.zipIdx.filterMap fun e => if e.1 = 0 then (cmdAt s k e.2).map fun c => (c.1, c.2.1) else none).foldl
          (fun s e => stepGone s e.1 e.2) (s.updSite k fun x => { x with query := false })) := if_neg (by simp [h])

/-! ### STATION_FAULT (R288, R314) -/

/-- What STP.FAULT keeps of a STATION_FAULT, with its interrupt. -/
abbrev faultKept (s : State) (k cls code : Nat) : State := (s.setR (stpR k 0x68) (fields [(0, cls), (8, code), (31, 1)])).irq (stpPage k) 18

theorem onStationFault_eq (s : State) (k cls code d : Nat) : onStationFault s k cls code d =
    if cls = 0 then faultEvent (faultKept s k cls code) (40 + k) (if cls = 0 then 0 else 1) { kind := 2, idx := k, detail := fields [(16, d % 2 ^ 15)] } none
    else stationFailed (faultEvent (faultKept s k cls code) (40 + k) (if cls = 0 then 0 else 1)
      { kind := 2, idx := k, detail := fields [(16, d % 2 ^ 15)] } none) k := rfl

theorem onStationFault_ce (s : State) (k code d : Nat) : onStationFault s k 0 code d =
    faultEvent (faultKept s k 0 code) (40 + k) 0 { kind := 2, idx := k, detail := fields [(16, d % 2 ^ 15)] } none := by
  rw [onStationFault_eq, if_pos rfl, if_pos rfl]

theorem onStationFault_higher {cls : Nat} (h : cls ≠ 0) (s : State) (k code d : Nat) : onStationFault s k cls code d =
    stationFailed (faultEvent (faultKept s k cls code) (40 + k) 1 { kind := 2, idx := k, detail := fields [(16, d % 2 ^ 15)] } none) k := by
  rw [onStationFault_eq, if_neg h, if_neg h]

/-! ### An event leaves the sites (R427) -/

theorem sendMsix_sites (s : State) (mask v : Nat) : (sendMsix s mask v).sites = s.sites := by
  unfold sendMsix
  split
  · rfl
  · exact List.foldlRecOn (motive := fun t : State => t.sites = s.sites) _ _ rfl fun _ ht _ _ => ht

theorem cpBoth_sites (s : State) (src : Nat) : (cpBoth s src).sites = s.sites := rfl

/-- The fault interrupt and the control processors' lines of an event that opens or raises an incident (R429, R458). -/
def incidentTold (s : State) : State := cpBoth (faultIrq s) 4

theorem incidentTold_sites (s : State) : (incidentTold s).sites = s.sites := (cpBoth_sites _ 4).trans (sendMsix_sites s _ 2)

/-- FLT.WORD, FLT.UCE and FLT.FATAL with the count of CEs after an event (R427). -/
def eventShown (s : State) (src cls : Nat) : State :=
  let s1 := if cls = 0 then s.bump (fltR 0xA0) 1 else s
  let s2 := s1.orR (fltR 0x40) (2 ^ src)
  if cls = 1 then s2.orR (fltR 0x48) (2 ^ src) else if cls = 2 then s2.orR (fltR 0x50) (2 ^ src) else s2

theorem eventShown_sites (s : State) (src cls : Nat) : (eventShown s src cls).sites = s.sites := by
  unfold eventShown
  extract_lets s1 s2
  have h1 : s1.sites = s.sites := by unfold s1; split <;> rfl
  have h2 : s2.sites = s.sites := h1
  clear_value s2
  split
  · exact h2
  · split <;> exact h2

/-- The incident's record of the event that opens it (R427, R428). -/
def incidentRecord (s0 s : State) (src cls : Nat) (m : FltSrc) : State :=
  let num := (bits (s0.r (fltR 0x6C)) 0 16 + 1) % 2 ^ 16
  let s := s.setR (fltR 0x6C) (fields [(0, num), (16, 1), (17, cls)])
  let s := s.setR (fltR 0x80) (fields [(0, src), (8, cls), (12, m.access), (31, 1)])
  let s := s.setR (fltR 0x84) (fields [(0, m.idx % 2 ^ 12), (12, m.kind)])
  let s := (s.setR (fltR 0x88) m.addr).setR (fltR 0x90) s.hubTime
  let s := (s.setR (fltR 0x98) m.detail).setR (fltR 0x9C) 0
  s.irq fltPage 16

theorem incidentRecord_sites (s0 s : State) (src cls : Nat) (m : FltSrc) : (incidentRecord s0 s src cls m).sites = s.sites := by
  unfold incidentRecord
  extract_lets num o1 o2 o3 o4 o5
  have h1 : o1.sites = s.sites := State.setR_sites s _ _
  have h2 : o2.sites = s.sites := (State.setR_sites o1 _ _).trans h1
  have h3 : o3.sites = s.sites := (State.setR_sites o2 _ _).trans h2
  have h4 : o4.sites = s.sites := (State.setR_sites _ _ _).trans ((State.setR_sites o3 _ _).trans h3)
  have h5 : o5.sites = s.sites := (State.setR_sites _ _ _).trans ((State.setR_sites o4 _ _).trans h4)
  exact (State.irq_sites o5 _ _).trans h5

/-- The grace of an incident runs unless it is a CE's (R427). -/
def graced (s : State) (b : Bool) : State := { s with flt := { s.flt with grace := b } }

theorem graced_sites (s : State) (b : Bool) : (graced s b).sites = s.sites := rfl

/-- An event taken into the open incident (R427). -/
def incidentMerged (s : State) (cls : Nat) : State :=
  let s := s.setR (fltR 0x9C) (satAdd 32 (s.r (fltR 0x9C)) 1)
  if s.fld (fltR 0x6C) 17 2 < cls then incidentTold (s.setFld (fltR 0x6C) 17 2 cls) else s

theorem incidentMerged_sites (s : State) (cls : Nat) : (incidentMerged s cls).sites = s.sites := by
  unfold incidentMerged
  extract_lets t
  have h : t.sites = s.sites := State.setR_sites s _ _
  clear_value t
  split
  · exact (incidentTold_sites _).trans ((State.setFld_sites t _ _ _ _).trans h)
  · exact h

/-- An event and its incident, before what a FATAL event does at once (R427, R430). -/
def eventTaken (s : State) (src cls : Nat) (m : FltSrc) : State :=
  if s.r (fltR 0x40) = 0 then incidentTold (graced (incidentRecord s (eventShown s src cls) src cls m) (1 ≤ cls))
  else incidentMerged (eventShown s src cls) cls

theorem faultEvent_eq (s : State) (src cls : Nat) (m : FltSrc) (inst : Option Nat) : faultEvent s src cls m inst =
    if cls = 2 then fatalAct (eventTaken s src cls m) inst else eventTaken s src cls m := rfl

theorem eventTaken_sites (s : State) (src cls : Nat) (m : FltSrc) : (eventTaken s src cls m).sites = s.sites := by
  unfold eventTaken
  split
  · rw [incidentTold_sites, graced_sites, incidentRecord_sites, eventShown_sites]
  · rw [incidentMerged_sites, eventShown_sites]

/-- An event of the hub leaves the sites. -/
theorem faultEvent_none_sites (s : State) (src cls : Nat) (m : FltSrc) : (faultEvent s src cls m none).sites = s.sites := by
  rw [faultEvent_eq]
  split <;> exact eventTaken_sites s src cls m

/-! ### SITE_ERR_N (R426) -/

/-- What SITE_ERR_N does once its event is taken: a trained link is torn down. -/
def siteErrActs (s : State) (k : Nat) : State :=
  match (s.site k).st with
  | .absent | .down | .training => s
  | _ => settleDestroy (stationFailed s k)

theorem siteErrActs_untrained {s : State} {k : Nat} (h : (s.site k).st = .absent ∨ (s.site k).st = .down ∨ (s.site k).st = .training) :
    siteErrActs s k = s := by
  obtain h | h | h := h <;> simp [siteErrActs, h]

theorem siteErrActs_trained {s : State} {k : Nat} (h : (s.site k).st ∉ [SiteSt.absent, .down, .training]) :
    siteErrActs s k = settleDestroy (stationFailed s k) := by
  cases hs : (s.site k).st <;> simp_all [siteErrActs]

theorem exec_siteErr (k : Site) (s : State) : exec (.siteErr k) s = aon s fun s =>
    siteErrActs (faultEvent s (40 + k.val) 1 { kind := 2, idx := k.val } none) k.val := rfl

theorem site_of_sites {s t : State} (h : t.sites = s.sites) (k : Nat) : t.site k = s.site k := by simp [State.site, h]

/-! ### The commands -/

theorem exec_capData (k : Site) (block : List Byte) (s : State) : exec (.capData k block) s = live s fun s => frameIn s k.val (.capData block) := rfl

theorem exec_stateRsp (k : Site) (codes : List Byte) (s : State) :
    exec (.stateRsp k codes) s = live s fun s => frameIn s k.val (.stateRsp (codes.map BitVec.toNat)) := rfl

theorem exec_activity (k : Site) (counts : List W32) (s : State) :
    exec (.activity k counts) s = live s fun s => frameIn s k.val (.activity (counts.map BitVec.toNat)) := rfl

theorem exec_stationFault (k : Site) (cls : Fin 3) (code : Byte) (d : W64) (s : State) :
    exec (.stationFault k cls code d) s = live s fun s => frameIn s k.val (.fault cls.val code.toNat d.toNat) := rfl

theorem exec_unknownFrame (k : Site) (s : State) : exec (.unknownFrame k) s = live s fun s => frameIn s k.val .unknown := rfl

/-- Settles O29: what the frame of each kind does on a link that works, and a SITE_ERR_N in each state of the link. -/
theorem stationAnswersAboutTheSite : Obligations.StationAnswersAboutTheSite := by
  refine ⟨fun k block s hup hf ho hl hst hv => ?capMismatch, fun k block s hup hf ho hl hst hv he hw ha hs hp hk hm hz hr => ?capUp,
    fun k block s hup hf ho hl => ?capShort, fun k codes s hup hf ho hq => ?state, fun k counts s hup hf ho => ?activity,
    fun k code d s hup hf ho => ?faultCe, fun k cls code d s hup hf ho hc => ?fault, fun k s hup hf ho => ?unknown,
    fun k s hp h => ?errUntrained, fun k s hp h => ?errTrained⟩
  case capMismatch =>
    refine answers_frame hup hf (exec_capData k block s) ?_
    rw [onFrame_capData ho, onCapData_mismatch hl (by rwa [taken_st]) (capFits_version hv)]
    rfl
  case capUp =>
    refine answers_frame hup hf (exec_capData k block s) ?_
    rw [onFrame_capData ho, onCapData_fits hl (by rwa [taken_st]) (capFits_ok hv he hw ha hs hp hk hm hz hr)]
    rfl
  case capShort =>
    refine answers_frame hup hf (exec_capData k block s) ?_
    rw [onFrame_capData ho, onCapData_short hl]
  case state =>
    refine answers_frame hup hf (exec_stateRsp k codes s) ?_
    rw [onFrame_stateRsp ho, onStateRsp_awaited (by rwa [taken_query])]
    rfl
  case activity =>
    refine answers_frame hup hf (exec_activity k counts s) ?_
    rw [onFrame_activity ho]
    rfl
  case faultCe =>
    refine answers_frame (f := .fault 0 code.toNat d.toNat) hup hf (exec_stationFault k 0 code d s) ?_
    rw [onFrame_fault ho, onStationFault_ce]
  case fault =>
    refine answers_frame hup hf (exec_stationFault k cls code d s) ?_
    have hc' : cls.val ≠ 0 := fun h => hc (Fin.ext h)
    rw [onFrame_fault ho, onStationFault_higher hc']
  case unknown =>
    refine answers_frame hup hf (exec_unknownFrame k s) ?_
    rw [onFrame_unknown ho]
  case errUntrained =>
    exact answers_aon hp (exec_siteErr k s) (siteErrActs_untrained (by rwa [site_of_sites (faultEvent_none_sites s _ _ _)]))
  case errTrained =>
    exact answers_aon hp (exec_siteErr k s) (siteErrActs_trained (by rwa [site_of_sites (faultEvent_none_sites s _ _ _)]))

end Sys2Proof.Machine

/-! SUPPORT. A step and its idle state (O56). -/
namespace Sys2Proof.Machine

theorem step_cons (c : Instr) (rest : List Instr) (s : State) : step { s with pending := c :: rest } = exec c { s with pending := rest } := rfl

theorem step_nil {s : State} (h : s.pending = []) : step s = .next (idle s) := by simp [step, h]

theorem idle_held {s : State} (h : s.held = true) : idle s = s := if_pos h

theorem idle_runs {s : State} (h : s.held = false) :
    idle s = if ({ s with tsu := tsuTick s } : State).hubTime % 1000 = 0 then durTick { s with tsu := tsuTick s } else { s with tsu := tsuTick s } :=
  if_neg (by simp [h])

theorem tsuTick_get (s : State) (i : Inst) : (tsuTick s).get i.val =
    if (s.mir.get i.val).inst = .disabled then s.tsu.get i.val else (s.tsu.get i.val + 1) % 2 ^ 64 := by
  match i with
  | 0 => simp [tsuTick, Two.get]
  | 1 => simp [tsuTick, Two.get]

/-- Settles O56: by the front of the queue, and by the reset gate of the idle state. -/
theorem stepRunsTheFrontCommand : Obligations.StepRunsTheFrontCommand := by
  refine ⟨step_cons, fun s hq hh => ?held, fun s hq hh => ?runs, fun i s => tsuTick_get s i⟩
  case held => rw [step_nil hq, idle_held hh]
  case runs => exact (step_nil hq).trans (congrArg _ (idle_runs hh))

end Sys2Proof.Machine

/-! What takes a port down, and what resets its function (O7). -/
namespace Sys2Proof.Machine

theorem exec_retrainLimitExpiry (p : Port) (un : BitVec 8) (s : State) : exec (.retrainLimitExpiry p un) s = withHeld (live s fun s =>
    if (s.port p.val).link == .retrain then portLinkDown s p.val un.toNat else s) := rfl

theorem exec_linkDown (p : Port) (un : BitVec 8) (s : State) :
    exec (.linkDown p un) s = withHeld (live s fun s => portLinkDown s p.val un.toNat) := rfl

theorem exec_perstAssert_up {s : State} (p : Port) (un : BitVec 8) (h : s.Up) :
    exec (.perstAssert p un) s = withHeld (live s fun s => perstAssert s p.val un.toNat) := if_neg (by simp [h.held])

theorem exec_flr (p : Port) (s : State) : exec (.flr p) s = withHeld (live s fun s => functionReset s p.val 7) := rfl

theorem exec_d3hotEntry (p : Port) (s : State) : exec (.d3hotEntry p) s = withHeld (live s fun s => functionReset s p.val 8) := rfl

section
variable {s : State} {p : Nat}

/-- A trained link goes down (R84, R86). -/
theorem portLinkDown_trained (h : (s.port p).link = .up ∨ (s.port p).link = .retrain ∨ (s.port p).link = .flr) (un : Nat) :
    portLinkDown s p un = (linkEvent (portFalls s p un .down) p 3 16).satFld (hpcR p 0x48) 16 8 1 :=
  if_pos (by simpa [or_assoc] using h)

/-- FLR and D3hot of a trained port (R84, R492). -/
theorem functionReset_trained (h : (s.port p).link = .up ∨ (s.port p).link = .retrain ∨ (s.port p).link = .flr) (code : Nat) :
    functionReset s p code =
      linkEvent ((fnReset (portGone (groupAbsent s (groupOf s p) 3) p) p).updPort p fun x => { x with link := .flr }) p code 21 :=
  if_pos (by simpa [or_assoc] using h)

theorem groupOf_endPortSessions (s : State) (p q : Nat) : groupOf (endPortSessions s p) q = groupOf s q := rfl

/-- PERST of a port that has none (R84). -/
theorem perstAssert_new (h : (s.port p).perst = false) (un : Nat) : perstAssert s p un =
    let x := portFalls (groupAbsent (endPortSessions s p) (groupOf (endPortSessions s p) p) 2) p un .reset
    (linkEvent (fnReset (hpcReset (x.updPort p fun y => { y with perst := true, rate := 0, width := 0, cxl := false, configOnly := false }) p) p)
      p 5 20).satFld (hpcR p 0x48) 24 8 1 := by
  rw [groupOf_endPortSessions]
  exact if_neg (by simp [h])

end

/-- Settles O7: each event's meaning behind the reset gate, its guard met. -/
theorem portsLeaveUp : Obligations.PortsLeaveUp := by
  refine ⟨fun p un s hup hl => ?retrainLimit, fun p un s hup hl => ?linkDown, fun p un s hup hp => ?perst, fun p s hup hl => ?flr,
    fun p s hup hl => ?d3hot⟩
  case retrainLimit =>
    refine answers_heldLive hup (exec_retrainLimitExpiry p un s) ?_
    rw [if_pos (by simp [hl]), portLinkDown_trained (.inr (.inl hl))]
  case linkDown => exact answers_heldLive hup (exec_linkDown p un s) (portLinkDown_trained hl _)
  case perst => exact answers_heldLive hup (exec_perstAssert_up p un hup) (perstAssert_new hp _)
  case flr => exact answers_heldLive hup (exec_flr p s) (functionReset_trained hl 7)
  case d3hot => exact answers_heldLive hup (exec_d3hotEntry p s) (functionReset_trained hl 8)

end Sys2Proof.Machine

/-! The commands of the TXN page that open a tag, bind a page and queue a commit (O3). -/
namespace Sys2Proof.Machine

/-! ### Commands that an instance serves -/

theorem serves_of_server {s : State} {i j : Nat} (hup : s.Up) (h : server s i = some j) : s.Serves i := ⟨hup, by simp [h]⟩

theorem answers_liveI {c : Instr} {s : State} {i : Nat} {f : State → State} {P : State → Prop} (h : s.Serves i) (hc : exec c s = liveI s i f)
    (hp : P (f s)) : Answers c s P := answers (hc.trans (liveI_serves h f)) hp

theorem answers_heldLiveI {c : Instr} {s : State} {i : Nat} {f : State → State} {P : State → Prop} (h : s.Serves i)
    (hc : exec c s = withHeld (liveI s i f)) (hp : P (f s)) : Answers c s P := answers_held (hc.trans (congrArg withHeld (liveI_serves h f))) hp

/-! ### The gate of the TXN page (R62, R441) -/

/-- A command of a tag 1-8 that its slot is ready for, on a page that its own instance serves, empties the latches and acts. -/
theorem txnCmd_acts {s : State} {i v : Nat} {ok : TxnSlot → Bool} (hs : server s i = some i) (h1 : 1 ≤ bits v 0 4) (h8 : bits v 0 4 ≤ 8)
    (hok : ok (slotOf s i (bits v 0 4)) = true) (f : State → Nat → State) :
    txnCmd s i v ok f = f (clearLatches s (txnPage i)) (bits v 0 4) := by
  have hpos : bits v 0 4 ≠ 0 := by omega
  have hle : ¬ 8 < bits v 0 4 := by omega
  have hfr : txnFrozen s i = false := by simp [txnFrozen, hs]
  have hfr' : txnFrozen (clearLatches s (txnPage i)) i = false := hfr
  simp [txnCmd, hpos, hle, hfr, hfr', hok]

theorem TxnSlot.mine_opened {t : TxnSlot} {a : Acc} (hst : t.st = .opened) (ho : t.openedBy a = true) : t.mine a = true := by
  simp [TxnSlot.mine, hst, ho]

@[simp] theorem slotOf_clearLatches (s : State) (p : PageId) (i tag : Nat) : slotOf (clearLatches s p) i tag = slotOf s i tag := rfl

/-! ### BEGIN, BIND and COMMIT (R63, R65, R68) -/

theorem exec_txnBegin (i : Inst) (a : Acc) (v : W32) (s : State) : exec (.txnBegin i a v) s = liveI s i.val fun s =>
    txnCmd s i.val v.toNat (fun t => t.st != .opened && t.st != .committing) fun s tag => txnBegin s i.val tag a (bits v.toNat 16 16) := rfl

theorem exec_txnBind (i : Inst) (a : Acc) (v : W32) (s : State) : exec (.txnBind i a v) s = liveI s i.val fun s =>
    txnCmd s i.val v.toNat (fun t => t.mine a) fun s tag => txnBind s i.val tag a (bits v.toNat 4 11) := rfl

theorem exec_txnCommit (i : Inst) (a : Acc) (v : W32) (s : State) : exec (.txnCommit i a v) s = liveI s i.val fun s =>
    txnCmd s i.val v.toNat (fun t => t.mine a) fun s tag => txnCommit s i.val tag a := rfl

section
variable {s : State} {i tag : Nat}

theorem txnBegin_opens (h : (slotOf s i tag).st = .free ∨ (slotOf s i tag).st = .done) (a : Acc) (cookie : Nat) :
    txnBegin s i tag a cookie = updSlot s i tag fun _ =>
      { st := .opened, opener := if a.cp then ⟨true, 0, 0⟩ else a, cookie, armed := s.fld (txnR i 0x50) 0 24 != 0 } := by
  obtain h | h := h <;> simp [txnBegin, h]

theorem txnBind_adds {a : Acc} {n k : Nat} {ty : Pg} (hm : (slotOf s i tag).mine a = true) (hf : (slotOf s i tag).failed = false)
    (hl : (slotOf s i tag).pages.length < 64) (hn : instPageAt n = some (ty, k)) (ht : ty ≠ .txn) (hb : s.Free ⟨ty, i, k⟩) :
    txnBind s i tag a n = updSlot s i tag fun x => { x with pages := x.pages ++ [PageId.key ⟨ty, i, k⟩] } := by
  have hbind : binder s ⟨ty, i, k⟩ = none := hb
  have hlen : ¬ 64 ≤ (slotOf s i tag).pages.length := by omega
  simp [txnBind, hm, hf, hn, hbind, ht, hlen]

theorem txnCommit_queues {a : Acc} (hm : (slotOf s i tag).mine a = true) : txnCommit s i tag a =
    let x := updSlot s i tag fun t => { t with st := .committing, armed := false }
    { x with txn := x.txn.upd i fun y => { y with queue := y.queue ++ [tag] } } := by simp [txnCommit, hm]

end

/-- Settles O3: each command passes the gate of the TXN page and acts on its slot. -/
theorem transactionsOpenAndBind : Obligations.TransactionsOpenAndBind := by
  refine ⟨fun i a v s hup hs h1 h8 hst => ?opens, fun i a v ty k s hup hs h1 h8 hst ho hf hl hn ht hb => ?binds,
    fun i a v s hup hs h1 h8 hst ho => ?queues⟩
  case opens =>
    refine answers_liveI (serves_of_server hup hs) (exec_txnBegin i a v s) ?_
    have hready : ((slotOf s i.val (bits v.toNat 0 4)).st != .opened && (slotOf s i.val (bits v.toNat 0 4)).st != .committing) = true := by
      obtain h | h := hst <;> simp [h]
    rw [txnCmd_acts hs h1 h8 hready]
    exact txnBegin_opens (s := clearLatches s (txnPage i.val)) hst a _
  case binds =>
    have hm := TxnSlot.mine_opened hst ho
    refine answers_liveI (serves_of_server hup hs) (exec_txnBind i a v s) ?_
    rw [txnCmd_acts hs h1 h8 hm]
    exact txnBind_adds (s := clearLatches s (txnPage i.val)) hm hf hl hn ht hb
  case queues =>
    have hm := TxnSlot.mine_opened hst ho
    refine answers_liveI (serves_of_server hup hs) (exec_txnCommit i a v s) ?_
    rw [txnCmd_acts hs h1 h8 hm]
    exact txnCommit_queues (s := clearLatches s (txnPage i.val)) hm

end Sys2Proof.Machine

/-! Tags that end without being applied (O4). -/
namespace Sys2Proof.Machine

theorem exec_txnRollback (i : Inst) (a : Acc) (v : W32) (s : State) : exec (.txnRollback i a v) s = liveI s i.val fun s =>
    txnCmd s i.val v.toNat (fun t => t.mine a) fun s tag => txnRollback s i.val tag a := rfl

theorem exec_txnTimeout (i : Inst) (tag : BitVec 4) (s : State) : exec (.txnTimeout i tag) s = liveI s i.val fun s =>
    if (slotOf s i.val tag.toNat).st == .opened && (slotOf s i.val tag.toNat).armed then txnEnd s i.val tag.toNat 0x17 true else s := rfl

theorem exec_txnSafeWaitExpiry (i : Inst) (s : State) :
    exec (.txnSafeWaitExpiry i) s = withHeld (liveI s i.val fun s => safeWaitEnds s i.val) := rfl

section
variable {s : State} {i tag : Nat}

/-- A tag that had not failed ends with the result given (R67). -/
theorem slotOf_txnEnd_first (hf : (slotOf s i tag).failed = false) (result : Nat) :
    slotOf (txnEnd s i tag result false) i tag = { slotOf s i tag with st := .done, pages := [], log := [], armed := false, result } := by
  rw [slotOf_txnEnd, Bool.or_false, if_neg (by simp [hf])]

theorem txnRollback_ends {a : Acc} (hm : (slotOf s i tag).mine a = true) : txnRollback s i tag a = txnEnd s i tag 0x02 false := by
  simp [txnRollback, hm]

/-- The commit at the front, off its safe point, ends with NO_SAFE_POINT (R68). -/
theorem safeWaitEnds_off {r : List Nat} (hq : (s.txn.get i).queue = tag :: r) (hf : (slotOf s i tag).failed = false)
    (hsp : (slotOf s i tag).pageIds.all (safePoint s) = false) : safeWaitEnds s i = txnEnd s i tag 0x14 false := by
  simp only [safeWaitEnds, hq, hf, hsp, Bool.or_self, Bool.false_eq_true, if_false]

end

/-- Settles O4: each command comes to `txnEnd`, whose slot and frame are known. -/
theorem transactionsEndUnapplied : Obligations.TransactionsEndUnapplied := by
  refine ⟨fun i a v tag s hup hs htag h1 h8 hst ho => ?rollback, fun i tag s hsv hst ha => ?timeout,
    fun i tag r s hsv hq hf hsp => ?safeWait⟩
  case rollback =>
    subst htag
    have hm := TxnSlot.mine_opened hst ho
    refine answers_liveI (serves_of_server hup hs) (exec_txnRollback i a v s) ?_
    rw [txnCmd_acts hs h1 h8 hm, txnRollback_ends (s := clearLatches s (txnPage i.val)) hm]
    refine ⟨?_, fun q hq hq' => txnEnd_r (clearLatches s (txnPage i.val)) i.val _ 2 q false hq hq'⟩
    rw [slotOf_txnEnd, slotOf_clearLatches, Bool.or_false]
  case timeout =>
    refine answers_liveI hsv (exec_txnTimeout i tag s) ?_
    rw [if_pos (by simp [hst, ha])]
    refine ⟨?_, fun q hq hq' => txnEnd_r s i.val _ 0x17 q true hq hq'⟩
    rw [slotOf_txnEnd, Bool.or_true]
  case safeWait =>
    refine answers_heldLiveI hsv (exec_txnSafeWaitExpiry i s) ?_
    rw [safeWaitEnds_off hq hf hsp]
    exact ⟨slotOf_txnEnd_first hf 0x14, fun q hq hq' => txnEnd_r s i.val tag 0x14 q false hq hq'⟩

end Sys2Proof.Machine

/-! The commit at the front of an instance, its functions held (O5). -/
namespace Sys2Proof.Machine

theorem exec_txnCommitProcess (i : Inst) (peer : List (Part × Leaf)) (s : State) :
    exec (.txnCommitProcess i peer) s = withHeld (liveI s i.val fun s => commitProcess s i.val peer) := rfl

theorem find?_changed_eq_none {s : State} {l : List TxnEntry} (h : ∀ e ∈ l, (s.r e.key &&& e.mask) = e.base) : l.find? (changed s) = none := by
  simpa [List.find?_eq_none, changed] using h

theorem find?_refused_eq_none {s : State} {l : List TxnEntry} (h : ∀ e ∈ l, entryOk s e = true) : (l.find? fun e => !entryOk s e) = none := by
  simpa [List.find?_eq_none] using h

section
variable {s : State} {i tag : Nat} {r : List Nat} (hq : (s.txn.get i).queue = tag :: r)
include hq

/-! ### What the front commit comes to (R68) -/

theorem commitProcess_failed (hf : (slotOf s i tag).failed = true) (peer : List (Part × Leaf)) :
    commitProcess s i peer = txnEnd s i tag (slotOf s i tag).result false := by
  simp only [commitProcess, hq, hf, if_true]

variable (hf : (slotOf s i tag).failed = false) (hsp : (slotOf s i tag).pageIds.all (safePoint s) = true)
include hf hsp

theorem commitProcess_conflict {e : TxnEntry} (hc : (slotOf s i tag).log.find? (changed s) = some e) (peer : List (Part × Leaf)) :
    commitProcess s i peer = commitFails s i tag 0x15 e := by
  simp only [commitProcess, hq, hf, hsp, hc, Bool.not_true, Bool.false_eq_true, if_false]

theorem commitProcess_invalid {e : TxnEntry} (hc : (slotOf s i tag).log.find? (changed s) = none)
    (hv : ((slotOf s i tag).log.find? fun e => !entryOk s e) = some e) (peer : List (Part × Leaf)) :
    commitProcess s i peer = commitFails s i tag 0x16 e := by
  simp only [commitProcess, hq, hf, hsp, hc, hv, Bool.not_true, Bool.false_eq_true, if_false]

theorem commitProcess_applies (hc : (slotOf s i tag).log.find? (changed s) = none)
    (hv : ((slotOf s i tag).log.find? fun e => !entryOk s e) = none) (peer : List (Part × Leaf)) :
    commitProcess s i peer = commitApply s i tag peer := by
  simp only [commitProcess, hq, hf, hsp, hc, hv, Bool.not_true, Bool.false_eq_true, if_false]

end

/-! ### A commit that a check stops -/

theorem slotOf_commitFails {s : State} {i tag : Nat} (hf : (slotOf s i tag).failed = false) (result : Nat) (e : TxnEntry) :
    slotOf (commitFails s i tag result e) i tag =
      { slotOf s i tag with st := .done, pages := [], log := [], armed := false, result, failOff := e.key } := by
  rw [commitFails, slotOf_updSlot_same, slotOf_txnEnd_first hf]

theorem commitFails_r (s : State) (i tag result q : Nat) (e : TxnEntry) (h : ∀ k ∈ (slotOf s i tag).pages, q ≠ k + 0x20)
    (hq : q ≠ (txnPage i).key + 0x18) : (commitFails s i tag result e).r q = s.r q := txnEnd_r s i tag result q false h hq

/-- Settles O5: the front commit by its checks in order; a stopped one comes to `txnEnd`, another to `commitApply`. -/
theorem commitChecksThenApplies : Obligations.CommitChecksThenApplies := by
  refine ⟨fun i peer tag r s hsv hq hf => ?failed, fun i peer tag r e s hsv hq hf hsp hc => ?conflict,
    fun i peer tag r e s hsv hq hf hsp hc hv => ?invalid, fun i peer tag r s hsv hq hf hsp hc hv => ?applies⟩
  case failed =>
    refine answers_heldLiveI hsv (exec_txnCommitProcess i peer s) ?_
    rw [commitProcess_failed hq hf]
    refine ⟨?_, fun q hk hk' => txnEnd_r s i.val tag _ q false hk hk'⟩
    rw [slotOf_txnEnd, Bool.or_false, ite_self]
  case conflict =>
    refine answers_heldLiveI hsv (exec_txnCommitProcess i peer s) ?_
    rw [commitProcess_conflict hq hf hsp hc]
    exact ⟨slotOf_commitFails hf 0x15 e, fun q hk hk' => commitFails_r s i.val tag 0x15 q e hk hk'⟩
  case invalid =>
    refine answers_heldLiveI hsv (exec_txnCommitProcess i peer s) ?_
    rw [commitProcess_invalid hq hf hsp hc hv]
    exact ⟨slotOf_commitFails hf 0x16 e, fun q hk hk' => commitFails_r s i.val tag 0x16 q e hk hk'⟩
  case applies =>
    exact answers_heldLiveI hsv (exec_txnCommitProcess i peer s)
      (commitProcess_applies hq hf hsp (find?_changed_eq_none hc) (find?_refused_eq_none hv) peer)

end Sys2Proof.Machine

/-! Register reads (O2). -/
namespace Sys2Proof.Machine

theorem exec_splitReadLow (a : Acc) (bar : Bar) (r : ReadAt) (s : State) :
    exec (.splitReadLow a bar r) s = live s fun s => barRead a bar r.off.toNat r.n r.be s := rfl

/-- The state with the read latch of a page emptied, as every access to the page leaves it (R58). -/
def unlatched (s : State) (p : PageId) : State := { s with rlatch := Tbl.del s.rlatch p.key }

/-! ### One register (R56, R58) -/

section
variable {s : State} {p : PageId} {off : Nat} {r : RegRow}

/-- The low half of a 64-bit register: its high half goes to the read latch. -/
theorem read4_low (hr : regAt p off = some (r, off)) (hw : r.w ≠ 4) (a : Acc) (q : PageId) :
    read4 s a q p off =
      let v := readReg (unlatched s p) a p r off
      (v % 2 ^ 32, { s with rlatch := Tbl.put (Tbl.del s.rlatch p.key) p.key (off, v / 2 ^ 32) }) := by
  simp only [read4, hr, hw, if_false, if_true]
  rfl

/-- The high half of a register whose low half was read before: what the read latch holds. -/
theorem read4_latched {o h : Nat} (hr : regAt p off = some (r, o)) (hw : r.w ≠ 4) (ho : o ≠ off) (hl : Tbl.find s.rlatch p.key = some (o, h))
    (a : Acc) (q : PageId) : read4 s a q p off = (h, unlatched s p) := by
  simp only [read4, hr, hl, hw, ho, if_false, if_true]
  rfl

/-- A 64-bit register read whole. -/
theorem read8_whole (hr : regAt p off = some (r, off)) (hw : r.w = 8) (a : Acc) (q : PageId) :
    read8 s a q p off = (readReg s a p r off, unlatched s p) := by
  simp [read8, hr, hw, unlatched]

theorem readAll_one (a : Acc) (q p : PageId) (off : Nat) (s : State) : readAll a q p off 1 s = read8 s a q p off := by
  simp [readAll]

end

/-! ### Accesses (R56, R60) -/

theorem goodAccess_four {off : Nat} (h : off % 4 = 0) : goodAccess (off % 0x1000) 4 true = true := by
  have hmod : off % 0x1000 % 4 = 0 := by omega
  simp [goodAccess, aligned, hmod]

theorem goodAccess_eight {off : Nat} (h : off % 8 = 0) : goodAccess (off % 0x1000) 8 true = true := by
  have hmod : off % 0x1000 % 8 = 0 := by omega
  simp [goodAccess, aligned, hmod]

section
variable {s : State} {a : Acc} {bar : Bar} {off : BitVec 32} {n : Nat} {be : Bool} {p : PageId}

/-- A read that lands on a page (R46, R100). -/
theorem barRead_page (hb : bar ≠ .bar2) (hl : locate s (bar == .bar4) off.toNat = some p) :
    barRead a bar off.toNat n be s = readPage s (.splitReadLow a bar ⟨off, n, be⟩) a p (off.toNat % 0x1000) n be := by
  have hbar : (bar == .bar2) = false := by simpa using hb
  simp [barRead, hbar, hl]

/-- A read where no page lies (R46, R52, R100). -/
theorem barRead_none (h : bar = .bar2 ∨ locate s (bar == .bar4) off.toNat = none) : barRead a bar off.toNat n be s = answer s a n 0 := by
  obtain rfl | h := h
  · rfl
  · simp [barRead, h]

end

section
variable {s : State} {p : PageId} {off n : Nat} {be : Bool} {a : Acc} (c : Instr) (hd : dropsWrites s p = false)
include hd

/-- A read behind a waiting write of its port waits (R60). -/
theorem readPage_waits (hw : readWaits s a (homePage s p) = true) : readPage s c a p off n be = holdW s a (homePage s p) c := by
  simp [readPage, hd, hw]

variable (hn : p.ty ≠ .nvs) (hw : readWaits s a (homePage s p) = false)
include hn hw

theorem readPage_badAccess (hg : goodAccess off n be = false) :
    readPage s c a p off n be = answer ((unlatched s (homePage s p)).perr (homePage s p) 0) a n 0 := by
  simp [readPage, hd, hw, hg, unconfirm_eq_self (s := s) (p := homePage s p) (by simpa using hn), unlatched]

theorem readPage_four (hg : goodAccess off 4 be = true) : readPage s c a p off 4 be =
    answer (read4 s a p (homePage s p) off).2 a 4 (read4 s a p (homePage s p) off).1 := by
  simp [readPage, hd, hw, hg, unconfirm_eq_self (s := s) (p := homePage s p) (by simpa using hn)]

theorem readPage_eight (hg : goodAccess off 8 be = true) : readPage s c a p off 8 be =
    answer (read8 s a p (homePage s p) off).2 a 8 (read8 s a p (homePage s p) off).1 := by
  simp [readPage, hd, hw, hg, unconfirm_eq_self (s := s) (p := homePage s p) (by simpa using hn), readAll_one]

end

/-- A read that lands on a page answers what `readPage` does. -/
theorem answers_read {s : State} {a : Acc} {bar : Bar} {off : BitVec 32} {n : Nat} {be : Bool} {p : PageId} {P : State → Prop} (hup : s.Up)
    (hb : bar ≠ .bar2) (hl : locate s (bar == .bar4) off.toNat = some p)
    (hp : P (readPage s (.splitReadLow a bar ⟨off, n, be⟩) a p (off.toNat % 0x1000) n be)) : Answers (.splitReadLow a bar ⟨off, n, be⟩) s P :=
  answers_live hup (exec_splitReadLow a bar ⟨off, n, be⟩ s) ((barRead_page hb hl).symm ▸ hp)

/-- Settles O2: where the read lands, then its branch of R56, R58 and R60. -/
theorem registerReadAnswers : Obligations.RegisterReadAnswers := by
  refine ⟨fun a bar off p r s hup hb hl hd hn hw ho hr hr4 => ?low, fun a bar off p r o h s hup hb hl hd hn hw ho hr hr4 hoff hlat => ?latched,
    fun a bar off p r s hup hb hl hd hn hw ho hr hr8 => ?whole, fun a bar off n be p s hup hb hl hd hn hw hg => ?bad,
    fun a bar off n be p s hup hb hl hd hw => ?waits, fun a bar off n be s hup h => ?none⟩
  case low =>
    refine answers_read hup hb hl ?_
    rw [readPage_four _ hd hn hw (goodAccess_four ho), read4_low hr hr4]
    rfl
  case latched =>
    refine answers_read hup hb hl ?_
    rw [readPage_four _ hd hn hw (goodAccess_four ho), read4_latched hr hr4 hoff hlat]
    rfl
  case whole =>
    refine answers_read hup hb hl ?_
    rw [readPage_eight _ hd hn hw (goodAccess_eight ho), read8_whole hr hr8]
    rfl
  case bad => exact answers_read hup hb hl (readPage_badAccess _ hd hn hw hg)
  case waits => exact answers_read hup hb hl (readPage_waits _ hd hw)
  case none => exact answers_live hup (exec_splitReadLow a bar ⟨off, n, be⟩ s) (barRead_none h)

end Sys2Proof.Machine

/-! The presence commands of XBAR.ATTACH_CMD and the absence limit (O8). -/
namespace Sys2Proof.Machine

/-! ### The gate of ATTACH_CMD (R91) -/

theorem attachCmd_acts {s : State} {a : Acc} {g : Group} (hup : s.Up) (hb : s.fld (xbarR 0x8C) 0 1 = 0) (hcp : a.cp = false)
    (hg : groupOf s a.port.val = g.val) (hp : portUp s a.port.val = true) (f : State → Nat → State) :
    attachCmd a g s f = .next (finish s (f (clearLatches s xbarPage) g.val)) := by
  have hg' : groupOf (clearLatches s xbarPage) a.port.val = g.val := hg
  have hp' : portUp (clearLatches s xbarPage) a.port.val = true := hp
  have hb' : (clearLatches s xbarPage).fld (xbarR 0x8C) 0 1 = 0 := hb
  simp [attachCmd, live_up hup, hb, hb', hcp, hg', hp']

/-! ### The meanings of the commands (R91-R94) -/

theorem exec_attach (a : Acc) (g : Group) (s : State) : exec (.attach a g) s = attachCmd a g s fun s g =>
    if (s.group g).st == .detached then attachEnd (attached s g) g 1 else attachEnd s g 0x10 := rfl

theorem exec_reattach (a : Acc) (g : Group) (s : State) : exec (.reattach a g) s = attachCmd a g s fun s g => reattach s g := rfl

theorem exec_force (a : Acc) (g : Group) (s : State) : exec (.force a g) s = attachCmd a g s fun s g =>
    if (s.group g).st == .absent then attachEnd (attached (tearGroup (discardRecs s g) g) g) g 1 else attachEnd s g 0x10 := rfl

theorem exec_depart (a : Acc) (g : Group) (s : State) : exec (.depart a g) s = attachCmd a g s fun s g =>
    if (s.group g).st == .attached then attachEnd (groupAbsent s g 5) g 1 else attachEnd s g 0x10 := rfl

theorem exec_detach (a : Acc) (g : Group) (s : State) : exec (.detach a g) s = attachCmd a g s fun s g =>
    if (s.group g).st != .attached then attachEnd s g 0x10
    else if [0, 1].any fun i => !(queuesOfGroup s i g).isEmpty then attachEnd s g 0x15
    else attachEnd (s.updGroup g fun x => { x with st := .detached, token := 0 }) g 1 := rfl

theorem exec_absenceLimitExpiry (g : Group) (s : State) : exec (.absenceLimitExpiry g) s = live s fun s =>
    if s.r (xbarR 0x5C) = 0 || (s.group g.val).st != .absent then s
    else (leaveAbsent (discardRecs (tearGroup s g.val) g.val) g.val).updGroup g.val fun x => { x with st := .detached, token := 0 } := rfl

/-! ### REATTACH (R94) -/

section
variable {s : State} {g : Nat} (ha : (s.group g).st = .absent) (hl : (s.group g).locked = false)
include ha hl

theorem reattach_starts (ht : s.r (xbarR 0x80) = (s.group g).token.toNat)
    (hroom : jrnlFill s 0 + jrnlFill s 1 + 2 ^ 20 ≤ s.r (xbarR 0x98) * 1024) :
    reattach s g = ({ s with copy := some { group := g } }.updGroup g fun x => { x with st := .reattaching }).setR (xbarR 0x8C)
      (fields [(0, 1), (4, g)]) := by
  rw [reattach, if_neg (by simp [ha, hl]), if_neg (by simp [ht]), if_neg (Nat.not_lt.2 hroom)]

theorem reattach_wrongToken (ht : s.r (xbarR 0x80) ≠ (s.group g).token.toNat) :
    reattach s g = attachEnd (s.updGroup g fun x => { x with badTries := x.badTries + 1, locked := decide (4 ≤ x.badTries + 1) }) g 0x11 := by
  rw [reattach, if_neg (by simp [ha, hl]), if_pos (by simpa using ht)]

end

/-- Settles O8: each command passes the gate of ATTACH_CMD, and its group is in the state that it is for. -/
theorem presenceCommandsAct : Obligations.PresenceCommandsAct := by
  refine ⟨fun a g s hup hb hcp hg hp hst => ?attach, fun a g s hup hb hcp hg hp hst hl ht hroom => ?reattach,
    fun a g s hup hb hcp hg hp hst hl ht => ?wrongToken, fun a g s hup hb hcp hg hp hst => ?force,
    fun a g s hup hb hcp hg hp hst => ?depart, fun a g s hup hb hcp hg hp hst h0 h1 => ?detach, fun g s hup hlim hst => ?expiry⟩
  case attach => exact answers ((exec_attach a g s).trans (attachCmd_acts hup hb hcp hg hp _)) (if_pos (beq_iff_eq.2 hst))
  case reattach =>
    exact answers ((exec_reattach a g s).trans (attachCmd_acts hup hb hcp hg hp _))
      (reattach_starts (s := clearLatches s xbarPage) hst hl ht hroom)
  case wrongToken =>
    exact answers ((exec_reattach a g s).trans (attachCmd_acts hup hb hcp hg hp _))
      (reattach_wrongToken (s := clearLatches s xbarPage) hst hl ht)
  case force => exact answers ((exec_force a g s).trans (attachCmd_acts hup hb hcp hg hp _)) (if_pos (beq_iff_eq.2 hst))
  case depart => exact answers ((exec_depart a g s).trans (attachCmd_acts hup hb hcp hg hp _)) (if_pos (beq_iff_eq.2 hst))
  case detach =>
    refine answers ((exec_detach a g s).trans (attachCmd_acts hup hb hcp hg hp _)) ?_
    have h0' : queuesOfGroup (clearLatches s xbarPage) 0 g.val = [] := h0
    have h1' : queuesOfGroup (clearLatches s xbarPage) 1 g.val = [] := h1
    rw [if_neg (by simp [hst]), if_neg (by simp [h0', h1'])]
  case expiry => exact answers_live hup (exec_absenceLimitExpiry g s) (if_neg (by simp [hlim, hst]))

end Sys2Proof.Machine

/-! The configuration of ports and journals, the end of a REATTACH copy, and timeouts of completions (O9). -/
namespace Sys2Proof.Machine

/-! ### PORT_CFG_WRITE and JRNL_CFG_WRITE (R81) -/

theorem exec_portCfgWrite (n : Port) (a : Acc) (v : W32) (s : State) : exec (.portCfgWrite n a v) s = live s fun s =>
    let t := portCfg (clearLatches s xbarPage) n.val v.toNat
    let r := xbarR (0x40 + 4 * n.val)
    dropIf (t.r r == s.r r && (s.r r ^^^ v.toNat) &&& 0x33 != 0) s t := rfl

theorem exec_jrnlCfgWrite (i : Inst) (isSize : Bool) (a : Acc) (v : W64) (s : State) : exec (.jrnlCfgWrite i isSize a v) s = live s fun s =>
    dropIf (jrnlBad s i.val isSize v.toNat) s (jrnlCfg (clearLatches s xbarPage) i.val isSize v.toNat) := rfl

/-- A move between DETACHED groups that keeps the enables. -/
theorem portCfg_moves {s : State} {n v : Nat} (he : bits (s.r (xbarR (0x40 + 4 * n))) 4 2 = bits v 4 2)
    (hg : bits (s.r (xbarR (0x40 + 4 * n))) 0 2 ≠ bits v 0 2) (hfrom : (s.group (bits (s.r (xbarR (0x40 + 4 * n))) 0 2)).st = .detached)
    (hto : (s.group (bits v 0 2)).st = .detached) : portCfg s n v = s.setFld (xbarR (0x40 + 4 * n)) 0 2 (bits v 0 2) := by
  simp [portCfg, he, hg, hfrom, hto]

theorem bits_lt (n lo w : Nat) : bits n lo w < 2 ^ w := Nat.mod_lt _ (by positivity)

section
variable {s : State} {i v : Nat} (hr : (s.jrnl.get i).recs = []) (hw : (s.jrnl.get i).waiting = [])
include hr hw

theorem jrnlBad_base : jrnlBad s i false v = false := by simp [jrnlBad, hr, hw]

theorem jrnlBad_size (h64 : bits v 0 16 % 64 = 0) (hmin : 64 ≤ bits v 0 16) (hmax : bits v 0 16 ≤ 2048) : jrnlBad s i true v = false := by
  simp [jrnlBad, hr, hw, h64, hmin, hmax]

end

/-- A journal register that accepts the value takes it. -/
theorem jrnlCfg_taken {s : State} {i v : Nat} {isSize : Bool} (h : jrnlBad s i isSize v = false) :
    dropIf (jrnlBad s i isSize v) s (jrnlCfg (clearLatches s xbarPage) i isSize v) =
      if isSize then (clearLatches s xbarPage).setR (xbarR (0x108 + 0x40 * i)) (bits v 0 16)
      else (clearLatches s xbarPage).setR (xbarR (0x100 + 0x40 * i)) (alignDown v (2 ^ 26)) := by
  have h' : jrnlBad (clearLatches s xbarPage) i isSize v = false := h
  rw [h, jrnlCfg, h']
  rfl

/-! ### The copy of a REATTACH (R94) -/

theorem exec_reattachCopyDone (s : State) : exec .reattachCopyDone s = live s copyStep := rfl

theorem copyStep_done {s : State} {c : CopySt} (hc : s.copy = some c) (hl : copyLeft s c = []) (hp : c.ports = [])
    (h0 : (s.jrnl.get 0).waiting = []) (h1 : (s.jrnl.get 1).waiting = []) :
    copyStep s =
      let x := bothInst s fun s i => releaseRecs s i (fun r => r.group != c.group) (fun _ => true)
      attachEnd ((attached { x with copy := none } c.group).setR (xbarR 0x9C) c.units) c.group 1 := by
  simp [copyStep, hc, hl, hp, h0, h1]

theorem exec_reattachCopyFault_failed {s : State} {c : CopySt} (hc : s.copy = some c) :
    exec (.reattachCopyFault false) s = live s fun _ => copyFails s c 0x13 := by
  change execReattachCopyFault false s = _
  simp [execReattachCopyFault, live, hc]

/-! ### Timeouts (R84, R276) -/

theorem exec_completionTimeout (p : Port) (th : BitVec 4) (tl : BitVec 10) (s : State) :
    exec (.completionTimeout p th tl) s = live s fun s => completionTimeout s p.val (th ++ tl).toNat := rfl

/-- The registers of a host port lie apart from those of the crossbar page (R79). -/
theorem hpcR_ne_xbarR {p off off' : Nat} (hp : p < 4) (ho : off < 0x1000) (ho' : off' < 0x1000) : xbarR off' ≠ hpcR p off := by
  simp only [xbarR, hpcR, reg, PageId.key, Pg.shared, Pg.base, if_true]
  omega

/-- What a completion timeout of a port shows on its page (R84). -/
def ctoShown (s : State) (p : Nat) : State := (s.setR (hpcR p 0x4C) (satAdd 32 (s.r (hpcR p 0x4C)) 1)).irq (hpcPage p) 22

theorem groupOf_ctoShown (s : State) {p : Nat} (hp : p < 4) : groupOf (ctoShown s p) p = groupOf s p := by
  have hirq : ∀ t : State, (t.irq (hpcPage p) 22).r (xbarR (0x40 + 4 * p)) = t.r (xbarR (0x40 + 4 * p)) := fun t =>
    t.r_orR_ne _ (hpcR_ne_xbarR (off := 0x18) hp (by omega) (by omega))
  exact congrArg (bits · 0 2) ((hirq _).trans (s.r_setR_ne _ (hpcR_ne_xbarR hp (by omega) (by omega))))

theorem completionTimeout_chan {s : State} {p tag i n c : Nat} {u v : RUse} (hp : p < 4) (hr : readByTag s p tag = some (i, n, u))
    (ho : (s.port p).ctoOff = false) (hu : u.owner = .chan c)
    (hv : Tbl.find ((groupTimeout (ctoShown s p) (groupOf s p)).pool i).reads n = some v) :
    completionTimeout s p tag = readEnd (groupTimeout (ctoShown s p) (groupOf s p)) i n u [] .timeout := by
  have hv' := hv
  rw [← groupOf_ctoShown s hp] at hv' ⊢
  simp only [ctoShown] at hv' ⊢
  simp [completionTimeout, hr, ho, hu, hv']

theorem exec_cxlGoTimeout (g : Group) (hpa : W64) (s : State) :
    exec (.cxlGoTimeout g hpa) s = live s fun s => cxlGoTimeout s g.val hpa.toNat := rfl

theorem cxlGoTimeout_evict {s : State} {g hpa i : Nat} {x : HTxn} (hx : goTxn s (lineKey g hpa) = some (i, x))
    (ho : (x.cxl.any fun c => (s.port c.1).ctoOff) = false) (hw : x.work = .evict) :
    cxlGoTimeout s g hpa = groupTimeout (hlcFree (notePoison (s.updHlc i fun h => { h with txns := h.txns.filter (· != x) }) i
      (lineKey g hpa) 2) i (lineKey g hpa)) g := by
  simp only [cxlGoTimeout, hx, ho, hw, Bool.false_eq_true, if_false]

/-- Settles O9: each write's value is taken, and each event's guard is met. -/
theorem portAndJournalConfiguration : Obligations.PortAndJournalConfiguration := by
  refine ⟨fun n a v s hup he hg hfrom hto => ?moves, fun i a v s hup hr hw => ?base, fun i a v s hup hr hw h64 hmin hmax => ?size,
    fun c s hup hc hl hp h0 h1 => ?copied, fun c s hup hc => ?copyFault, fun p th tl i n u v c s hup hr ho hu hv => ?timeout,
    fun g hpa i x s hup hx ho hw => ?goTimeout⟩
  case moves =>
    have hset := portCfg_moves (s := clearLatches s xbarPage) he hg hfrom hto
    have hnew : ((clearLatches s xbarPage).setFld (xbarR (0x40 + 4 * n.val)) 0 2 (bits v.toNat 0 2)).r (xbarR (0x40 + 4 * n.val)) ≠
        s.r (xbarR (0x40 + 4 * n.val)) := fun h => hg <| by
      rw [← h]
      exact ((clearLatches s xbarPage).fld_setFld_same (by omega)).trans (Nat.mod_eq_of_lt (bits_lt _ _ _))
    refine answers_live hup (exec_portCfgWrite n a v s) ?_
    rw [hset]
    exact if_neg (by simp [hnew])
  case base =>
    exact answers_live hup (exec_jrnlCfgWrite i false a v s) (jrnlCfg_taken (jrnlBad_base hr hw))
  case size =>
    exact answers_live hup (exec_jrnlCfgWrite i true a v s) (jrnlCfg_taken (jrnlBad_size hr hw h64 hmin hmax))
  case copied => exact answers_live hup (exec_reattachCopyDone s) (copyStep_done hc hl hp h0 h1)
  case copyFault => exact answers_live hup (exec_reattachCopyFault_failed hc) rfl
  case timeout => exact answers_live hup (exec_completionTimeout p th tl s) (completionTimeout_chan p.isLt hr ho hu hv)
  case goTimeout => exact answers_live hup (exec_cxlGoTimeout g hpa s) (cxlGoTimeout_evict hx ho hw)

end Sys2Proof.Machine

/-! Doorbells of the callboard and of the indexed registers, and the fill of a missing context (O10). -/
namespace Sys2Proof.Machine

theorem exec_doorbell (p : Port) (bar4 : Bool) (off : BitVec 29) (data : List Byte) (be : Bool) (s : State) :
    exec (.doorbell p bar4 off data be) s = live s fun s =>
      let o := cbOwner s off.toNat
      let i := dbTarget s bar4 off.toNat o
      if (s.port p.val).configOnly || (s.group (groupOf s p.val)).st == .absent then s
      else if fnHeld s i .qm then holdDb s i p.val o (.doorbell p bar4 off data be)
      else doorbells s p.val bar4 off.toNat data be o := rfl

/-- A write of an accepted size is so many doorbells (R98). -/
theorem doorbells_sized {off : Nat} {data : List Byte} {be : Bool} (h : dbSizeOk off data.length be = true) (s : State) (p : Nat) (bar4 : Bool)
    (o : Nat) : doorbells s p bar4 off data be o =
      ((chunks8 (data.length / 8) data).zipIdx).foldl (fun s e => oneDb s p bar4 (off + 8 * e.2) e.1 true o) s := if_pos h

/-- The PF indexed doorbell of a whole value (R99). -/
theorem exec_cbIndexedWrite_full (i : Inst) (a : Acc) (v : W64) (s : State) : exec (.cbIndexedWrite i a (.full v)) s = liveI s i.val fun s =>
    if fnHeld s i.val .qm && meets s a ⟨.cb, i.val, 0⟩ == .acts then holdW s a ⟨.cb, i.val, 0⟩ (.cbIndexedWrite i a (.full v))
    else meetW s a ⟨.cb, i.val, 0⟩ (.cbIndexedWrite i a (.full v)) fun s =>
      takeDb (clearLatches s ⟨.cb, i.val, 0⟩) i.val (bits v.toNat 44 20) ⟨BitVec.ofNat 64 v.toNat, a.port.val, true, none⟩ := rfl

/-- The indexed doorbell of a VD page of a whole value (R391). -/
theorem exec_vdIndexedWrite_full (i : Inst) (n : BitVec 12) (a : Acc) (v : W64) (s : State) :
    exec (.vdIndexedWrite i n a (.full v)) s = liveI s i.val fun s =>
      if (s.vd i.val n.toNat).st == .free then s
      else if fnHeld s i.val .qm then holdW s a (vdPage i.val n.toNat) (.vdIndexedWrite i n a (.full v))
      else takeVdDb (clearLatches s (vdPage i.val n.toNat)) i.val n.toNat (bits v.toNat 44 20)
        ⟨BitVec.ofNat 64 v.toNat, a.port.val, true, some n.toNat⟩ := rfl

theorem exec_contextFillDone (i : Inst) (r : CtxFill) (s : State) : exec (.contextFillDone i r) s = liveI s i.val fun s =>
    contextFill (if (s.qm.get i.val).missFly.contains r.q.toNat then ctlPress s i.val r.press else s) i.val r.q.toNat := rfl

/-- A fill that no other waits for (R104, R112). -/
theorem contextFill_last {s : State} {i q : Nat} (hf : (s.qm.get i).missFly.contains q = true) (hw : (s.qm.get i).missWait = []) :
    contextFill s i q = wakeDbs (touchCtx { s with qm := s.qm.set i { s.qm.get i with
      missFly := (s.qm.get i).missFly.filter (· != q) } } i q) i q := by
  simp [contextFill, List.contains_iff_mem.1 hf, hw]

/-- Settles O10: each doorbell's way to its queue, and what a fill wakes. -/
theorem doorbellsReachTheirQueue : Obligations.DoorbellsReachTheirQueue := by
  refine ⟨fun p bar4 off data s hup hc ha hq hsz => ?delivered, fun p bar4 be off data s hup hc ha hq => ?waits,
    fun i a v s hs hf hq => ?indexed, fun i n a v s hs hv hq => ?vdIndexed, fun i q press s hs hf hw => ?fill⟩
  case delivered =>
    refine answers_live hup (exec_doorbell p bar4 off data true s) ?_
    exact (if_neg (by simp [hc, ha])).trans ((if_neg (by simp [hq])).trans (doorbells_sized hsz s p.val bar4 _))
  case waits =>
    refine answers_live hup (exec_doorbell p bar4 off data be s) ?_
    exact (if_neg (by simp [hc, ha])).trans (if_pos hq)
  case indexed =>
    refine answers_liveI hs (exec_cbIndexedWrite_full i a v s) ?_
    rw [if_neg (by simp [hq]), meetW_acts (meets_free hf a), BitVec.ofNat_toNat, BitVec.setWidth_eq]
  case vdIndexed =>
    refine answers_liveI hs (exec_vdIndexedWrite_full i n a v s) ?_
    rw [if_neg (by simpa using hv), if_neg (by simp [hq]), BitVec.ofNat_toNat, BitVec.setWidth_eq]
  case fill =>
    refine answers_liveI hs (exec_contextFillDone i ⟨q, press⟩ s) ?_
    rw [if_pos hf]
    exact contextFill_last (s := ctlPress s i.val press) hf hw

end Sys2Proof.Machine

/-! Completion records to the journal, the end of a drain, and event counters (O15). -/
namespace Sys2Proof.Machine

/-! ### Work of a function that no commit holds -/

theorem answers_liveF {c : Instr} {s : State} {i : Nat} {ty : Pg} {f : State → State} {P : State → Prop} (h : s.Serves i)
    (hf : fnHeld s i ty = false) (hc : exec c s = liveF s i ty f) (hp : P (f s)) : Answers c s P :=
  answers (hc.trans (liveF_serves h hf f)) hp

/-! ### Completion records and the end of a drain (R89, R115, R118) -/

theorem exec_completionRecordWrite (i : Inst) (q : Qidx) (vt : NocEnd) (s : State) :
    exec (.completionRecordWrite i q vt) s = liveF s i.val .qm fun s => recordWrite s i.val q.toNat vt := rfl

/-- The journal record of a completion record of a queue. -/
def recordJ (i q : Nat) (c : QCtx) (pos : Nat) (r : Rec) : JRec :=
  { typ := 1, group := c.group, seq := 0, time := 0, queue := hubQ i q, iova := c.cqBase + 32 * (c.cqSeq % 2 ^ c.cqLog2), payload := recBytes i q c pos r }

/-- The next record of a queue goes to the journal where its host ring is of an ABSENT group and the reserve has room. -/
theorem recordWrite_journal {s : State} {i q : Nat} {p : Pos} {r : Rec} (hr : (s.q i q).headRec = some (p, r)) (hh : p.held = false)
    (hfull : (s.q i q).cqFull = false) (hbad : (s.q i q).cqBad = false) (hw : (s.q i q).jwait = false)
    (hv : (s.vd i (s.q i q).vd).st ≠ .down) (hloc : (s.q i q).ctx.cqLoc = 0) (ha : absent s (s.q i q).ctx.group = true)
    (hroom : jrnlFull s i (recordJ i q (s.q i q).ctx p.pos r) = false) (vt : NocEnd) :
    recordWrite s i q vt = recGone (jrnlAppend s i q (recordJ i q (s.q i q).ctx p.pos r)) i q p r vt := by
  unfold recordJ at hroom ⊢
  simp [recordWrite, hr, hh, hfull, hbad, hw, hv, hloc, ha, hroom]

theorem exec_queueDrainEnd (i : Inst) (q : Qidx) (s : State) :
    exec (.queueDrainEnd i q) s = liveI s i.val fun s => queueDrainEnd s i.val q.toNat := rfl

theorem queueDrainEnd_ends {s : State} {i q : Nat} (hm : (s.q i q).mode = .draining)
    (he : (s.q i q).poss.all (fun p => p.ph == .ended) = true) :
    queueDrainEnd s i q = showPinned (s.updQ i q fun x =>
      { x with mode := .disabled, conds := {}, evt := none, cqBad := false, ctx := { x.ctx with pinned := false } }) i :=
  if_pos (by rw [hm, he]; rfl)

/-! ### Event counters (R124, R125) -/

theorem exec_evtValueWrite (i : Inst) (a : Acc) (v : W32) (s : State) :
    exec (.evtValueWrite i a v) s = cmdI s i a (qmPage i.val 1) (.evtValueWrite i a v) fun s =>
      let n := s.fld (qmR i.val 1 0x40) 0 12
      setEvt s i.val n { evtCtr s i.val n with val := v.toNat } := rfl

theorem exec_evtAdd_page (i : Inst) (a : Acc) (v : W32) (s : State) :
    exec (.evtAdd i none a v) s = cmdI s i a (qmPage i.val 1) (.evtAdd i none a v) fun s =>
      addEvt s i.val (s.fld (qmR i.val 1 0x40) 0 12) v.toNat := rfl

/-- EVT_ADD of a VD page, on the counter of the VD that its selector names (R391). -/
theorem exec_evtAdd_vd (i : Inst) (w : BitVec 12) (a : Acc) (v : W32) {s : State} {k : Nat} (hv : (s.vd i.val w.toNat).st ≠ .free)
    (hk : evtOf s i.val w.toNat (s.fld (reg .vd i.val w.toNat 0x58) 0 12) = some k) :
    exec (.evtAdd i (some w) a v) s = liveI s i.val fun s => addEvt (clearLatches s (vdPage i.val w.toNat)) i.val k v.toNat := by
  change execEvtAdd i (some w) a v s = _
  simp [execEvtAdd, liveI, live, hv, hk]

theorem exec_eventSignalApply (i : Inst) (q : Qidx) (s : State) :
    exec (.eventSignalApply i q) s = liveI s i.val fun s => eventSignal s i.val q.toNat := rfl

theorem eventSignal_applies {s : State} {i q : Nat} {p : Pos} {d : DescSt}
    (hp : (s.q i q).poss.find? (fun p => p.ph == .started && (p.descs.head?.map fun d => opcodeOf d.raw) == some 0xF) = some p)
    (he : ((s.q i q).poss.takeWhile fun y => y.pos != p.pos).any (fun y => y.ph != .ended) = false)
    (hw : (s.q i q).conds.hostWait = false) (hu : (s.q i q).unflushed = []) (hd : p.descs.head? = some d) :
    eventSignal s i q =
      let n := (evtOf s i (s.q i q).vd (df d.raw 0x18 0 12)).getD 0
      let x := addEvt s i n (df d.raw 0x18 32 16)
      endPos x i q p.pos 0 (evtCtr x i n).val true := by
  simp only [eventSignal, hp, he, hw, hu, hd]
  rfl

theorem exec_eventWake (i : Inst) (n : BitVec 12) (s : State) :
    exec (.eventWake i n) s = liveI s i.val fun s => eventWake s i.val n.toNat := rfl

/-- Settles O15: each command's meaning, its guards met. -/
theorem recordsAndEvents : Obligations.RecordsAndEvents := by
  refine ⟨fun i q vt p r s hs hq hr hh hfull hbad hw hv hloc ha hroom => ?record, fun i q s hs hm he => ?drained,
    fun i a v s hs hf => ?value, fun i a v s hs hf => ?add, fun i w a v k s hs hv hk => ?addVd,
    fun i q p d s hs hp he hw hu hd => ?signal, fun i n s hs => ?wake⟩
  case record =>
    exact answers_liveF hs hq (exec_completionRecordWrite i q vt s) (recordWrite_journal hr hh hfull hbad hw hv hloc ha hroom vt)
  case drained => exact answers_liveI hs (exec_queueDrainEnd i q s) (queueDrainEnd_ends hm he)
  case value => exact answers ((exec_evtValueWrite i a v s).trans (cmdI_serves hs hf a _ _)) rfl
  case add => exact answers ((exec_evtAdd_page i a v s).trans (cmdI_serves hs hf a _ _)) rfl
  case addVd => exact answers_liveI hs (exec_evtAdd_vd i w a v hv hk) rfl
  case signal => exact answers_liveI hs (exec_eventSignalApply i q s) (eventSignal_applies hp he hw hu hd)
  case wake => exact answers_liveI hs (exec_eventWake i n s) rfl

end Sys2Proof.Machine

/-! The start of positions and descriptors, the end of jobs and of halts (O17). -/
namespace Sys2Proof.Machine

/-! ### POSITION_START (R101, R130, R138) -/

theorem exec_positionStart (i : Inst) (q : Qidx) (s : State) :
    exec (.positionStart i q) s = liveF s i.val .qm fun s => positionStart s i.val q.toNat := rfl

section
variable {s y z : State} {i q : Nat} {p : Pos} {d : DescSt} (hg : startGate s i q = (y, some (p, d)))
  (hm : mayStart y i q p.pos 0 d = (z, true))
include hg hm

/-- A NOP is run by the queue manager itself, and ends at once. -/
theorem positionStart_nop (ho : opcodeOf d.raw = 0xC) (hc : chainOf d.raw = false) :
    positionStart s i q =
      endPos (z.updQ i q fun x => x.updPos p.pos fun y => { y with ph := .started, port := pickPort z x.ctx.group (carrier z i) })
        i q p.pos 0 0 true := by
  simp [positionStart, hg, hm, ho, hc, startByQm]

/-- A descriptor of a DMA queue begins on the channel that may take it with the fewest NIF reads. -/
theorem positionStart_channel {cid : Nat} (ho : opcodeOf d.raw ∉ [0xC, 0xE, 0xF]) (hk : (s.q i q).ctx.kind = 0)
    (hl : leastBy (nifReads z) (chansFor z (carrier z i) (s.q i q)) = some cid) :
    positionStart s i q =
      startDesc ((z.updChan cid fun _ => { st := .running, home := i, queue := some q, pos := p.pos, nif := (z.chan cid).nif }).updQ i q
        fun x => x.updPos p.pos fun y => { y with ph := .started, chan := some cid, port := none }) cid d.raw := by
  simp only [List.mem_cons, List.not_mem_nil, or_false, not_or] at ho
  simp [positionStart, hg, hm, ho, hk, hl]

end

/-! ### The rules of a channel's job (R131, R133, R153, R187-R189) -/

theorem exec_descriptorStart (i : Inst) (c : Chan) (s : State) :
    exec (.descriptorStart i c) s = liveI s i.val fun s => descriptorStart s (chanId i.val c.val) := rfl

theorem exec_jobEnd (i : Inst) (c : Chan) (s : State) : exec (.jobEnd i c) s = liveI s i.val fun s => jobEnd s (chanId i.val c.val) := rfl

theorem exec_channelHalted (i : Inst) (c : Chan) (s : State) :
    exec (.channelHalted i c) s = liveI s i.val fun s => channelHalted s (chanId i.val c.val) := rfl

/-- The job of a queue's position ends, and its channel leaves it. -/
theorem endJob_queue {s : State} {cid q : Nat} (hq : (s.chan cid).queue = some q) (status result : Nat) :
    endJob s cid status result = leaveJob ((loneGroups (dropPosWaits (endPos s (s.chan cid).home q (s.chan cid).pos status result true)
      (s.chan cid).home q (s.chan cid).pos) (s.chan cid).home).bump (dmaR cid 0xD0) 1) cid := by
  simp only [endJob, hq]

section
variable {s : State} {cid q : Nat} {d : DescSt} (hq : (s.chan cid).queue = some q) (hd : curDesc s (s.chan cid) = some d)
include hq hd

section
variable (hst : (s.chan cid).st = .running) (hb : (s.chan cid).between = true) (hh : commitHeld s (dmaPage cid) = false)
include hst hb hh

theorem descriptorStart_ready {y : State} (hp : d.ph = .ready)
    (hm : mayStart s (s.chan cid).home q (s.chan cid).pos (s.chan cid).desc d = (y, true)) :
    descriptorStart s cid = startDesc y cid d.raw := by
  simp [descriptorStart, hq, hd, hst, hb, hh, hp, hm]

theorem descriptorStart_failed {st r : Nat} (hp : d.ph = .failed st r) (hw : (s.chan cid).wrs = []) (hk : (s.chan cid).held = []) :
    descriptorStart s cid = endJob s cid st r := by
  simp [descriptorStart, hq, hd, hst, hb, hh, hp, hw, hk]

end

end

theorem jobEnd_ends {s : State} {cid : Nat} {x : Queue} {p : Pos} {d : DescSt} (hj : jobOf s (s.chan cid) = some (x, p))
    (hd : curDesc s (s.chan cid) = some d) (hst : (s.chan cid).st = .running ∨ (s.chan cid).st = .pausing)
    (hb : (s.chan cid).between = false) (hc : chainOf d.raw = false) (hf : descFormed d.raw (s.chan cid) = true)
    (hw : (s.chan cid).wrs = []) (hk : (s.chan cid).held = []) (ha : (s.chan cid).arrive.all (fun a => a.hit.isSome) = true)
    (hr : chanReads s cid = 0) :
    jobEnd s cid = endJob (countLate s (s.chan cid) d.raw x.part) cid 0 (jobResult (s.chan cid) d.raw (p.descs.any fun e => isArith e.raw)) := by
  simp only [jobEnd, hj, hd]
  exact if_pos (by simpa [hst, hb, hc, hf, hw, hk, hr] using ha)

theorem countLate_chan (s : State) (ch : ChanRec) (raw : List Byte) (part cid : Nat) : (countLate s ch raw part).chan cid = s.chan cid := by
  simp only [countLate]
  split
  · rfl
  · split <;> rfl

theorem channelHalted_ends {s : State} {cid q : Nat} (hst : (s.chan cid).st = .halting) (hr : chanReads s cid = 0) (hw : chanWrites s cid = 0)
    (ht : (s.chan cid).torn = false) (he : (s.chan cid).errStatus ≠ 1) (hq : (s.chan cid).queue = some q) :
    channelHalted s cid =
      ((((endPos s (s.chan cid).home q (s.chan cid).pos (s.chan cid).errStatus (s.r (dmaR cid 0x80)) true).bump (dmaR cid 0xD0) 1).updChan cid
        fun ch => { st := .halted, home := ch.home, queue := ch.queue, pos := ch.pos, desc := ch.desc, iter := ch.iter, nif := ch.nif }).irq
          (dmaPage cid) 16) := by
  simp [channelHalted, hst, hr, hw, ht, he, hq]

/-- A running channel's first unmatched arrive word times out (R188). -/
theorem exec_arriveTimeout_running (i : Inst) (c : Chan) {s : State} {a : Arrive} {d : DescSt}
    (ha : (s.chan (chanId i.val c.val)).arrive.find? (fun a => a.hit.isNone) = some a)
    (hd : curDesc s (s.chan (chanId i.val c.val)) = some d) (hst : (s.chan (chanId i.val c.val)).st = .running) :
    exec (.arriveTimeout i c) s = liveI s i.val fun s => haltChan s (chanId i.val c.val) 11 (auxAddr d.raw + 64 * a.k) (srcSp d.raw) 0 := by
  change execArriveTimeout i c s = _
  simp [execArriveTimeout, liveI, live, ha, hd, hst]

/-- Settles O17: each command's meaning behind its gate, its guards met. -/
theorem jobsStartAndEnd : Obligations.JobsStartAndEnd := by
  refine ⟨fun i q p d y z s hs hf hg ho hc hm => ?nop, fun i q p d cid y z s hs hf hg ho hk hm hl => ?channel,
    fun i c q d y s hs hq hd hst hb hh hp hm => ?begins, fun i c q d st r s hs hq hd hst hb hh hp hw hk => ?failed,
    fun i c x p d q s hs hq hj hd hst hb hc hf hw hk ha hr => ?jobEnd, fun i c q s hs hst hr hw ht he hq => ?halted,
    fun i c a d s hs ha hd hst => ?arrive⟩
  case nop => exact answers_liveF hs hf (exec_positionStart i q s) (positionStart_nop hg hm ho hc)
  case channel => exact answers_liveF hs hf (exec_positionStart i q s) (positionStart_channel hg hm ho hk hl)
  case begins => exact answers_liveI hs (exec_descriptorStart i c s) (descriptorStart_ready hq hd hst hb hh hp hm)
  case failed =>
    exact answers_liveI hs (exec_descriptorStart i c s) ((descriptorStart_failed hq hd hst hb hh hp hw hk).trans (endJob_queue hq st r))
  case jobEnd =>
    refine answers_liveI hs (exec_jobEnd i c s) ?_
    rw [jobEnd_ends hj hd hst hb hc hf hw hk ha hr, endJob_queue (by rw [countLate_chan]; exact hq), countLate_chan]
  case halted => exact answers_liveI hs (exec_channelHalted i c s) (channelHalted_ends hst hr hw ht he hq)
  case arrive => exact answers_liveI hs (exec_arriveTimeout_running i c ha hd hst) rfl

end Sys2Proof.Machine

/-! Requests and responses of DMA channels, keystone writes, interlock, REDUCE_STAGED, arrive polls and pressure (O18). -/
namespace Sys2Proof.Machine

/-! ### DMA_REQUEST_ISSUE (R151, R152) -/

theorem exec_dmaRequestIssue (i : Inst) (c : Chan) (write : Bool) (s : State) :
    exec (.dmaRequestIssue i c write) s = liveI s i.val fun s => requestIssue s (chanId i.val c.val) write := rfl

/-- A channel whose turn it is issues what its attempt does; a request on a NIF port gives the turn to the channels after it. -/
theorem requestIssue_turn {s : State} {cid : Nat} {write : Bool} (h : hasTurn s cid write = true) :
    requestIssue s cid write =
      let x := tryIssue s cid write
      if onNif s x then x.updPool (cid / 256) fun z =>
        { z with turn := Tbl.put z.turn (4 * (s.chan cid).nif + 2 * b2n (chanLc s (s.chan cid)) + b2n write) ((cid + 1) % 256) } else x := by
  by_cases hn : onNif s (tryIssue s cid write) = true <;> simp [requestIssue, h, hn]

/-- What a filter finds first is found first under a filter that asks more of it. -/
theorem find?_and_of_find? {α : Type} {l : List α} {p q : α → Bool} {a : α} (h : l.find? p = some a) (hq : q a = true) :
    (l.find? fun x => p x && q x) = some a := by
  obtain ⟨hp, l₁, l₂, rfl, hn⟩ := List.find?_eq_some_iff_append.1 h
  exact List.find?_eq_some_iff_append.2 ⟨by rw [hp, hq]; rfl, l₁, l₂, rfl, fun x hx => by
    have hpx : p x = false := by simpa using hn x hx
    simp [hpx]⟩

section
variable {s : State} {cid : Nat} {d : DescSt}

theorem tryIssue_inside (hst : (s.chan cid).st = .running) (hd : curDesc s (s.chan cid) = some d) (hb : (s.chan cid).between = false)
    (write : Bool) : tryIssue s cid write = if write then requestWrite s cid d else requestRead s cid d := by
  simp [tryIssue, hst, hd, hb]

/-- The first write not issued, whole in one request. -/
theorem requestWrite_whole {w : Wr} {slot : Nat} {y : State} (hw : (s.chan cid).wrs.find? (fun w => w.slot.isNone) = some w)
    (hlen : writeLen s cid d w = w.bytes.length) (hne : w.bytes ≠ [])
    (hi : issueWrite s cid d.units w ((jobOf s (s.chan cid)).elim false fun e => relaxedDesc e.2 (s.chan cid).desc) = (y, some slot)) :
    requestWrite s cid d = advance (y.updChan cid fun ch =>
      { ch with wrs := ch.wrs.flatMap fun x => if x = w then [{ w with slot := some slot }] else [x] }) cid := by
  have hfirst : ((s.chan cid).wrs.find? fun w => w.slot.isNone && writeLen s cid d w != 0) = some w :=
    find?_and_of_find? hw (by simp [hlen, hne])
  cases hj : jobOf s (s.chan cid) with
  | none =>
    simp only [hj, Option.elim_none] at hi
    simp [requestWrite, hfirst, hlen, hj, hi]
  | some e =>
    simp only [hj, Option.elim_some] at hi
    simp [requestWrite, hfirst, hlen, hj, hi]

/-- The next read of the channel's units. -/
theorem requestRead_next {u : UnitSt} {r : Rd} {tag : Nat} {y : State} (hst : (s.chan cid).st = .running) (hraw : rawWaitOf d.raw = false)
    (hn : nextRd (s.chan cid) = some (u, r)) (hi : issueRead s cid r.sp r.addr r.len = (y, some tag)) :
    requestRead s cid d = y.updChan cid fun ch => { ch with units := ch.units.map fun v =>
      if v.iter = u.iter then { v with rds := v.rds.map fun x => if x = r then { x with tag := some tag } else x } else v } := by
  simp [requestRead, rawWait, hraw, hn, hst, sendRd, hi]

end

/-! ### Responses (R84, R151-R155, R161) -/

/-- What a read response of the NoC does before the read ends: the pressure level of the channel's port taken (R155), and the tag freed. -/
theorem exec_nocReadResponse_chan (i : Inst) (tag : BitVec 14) (data : List Byte) (st : Rsp) (press : BitVec 2) {s : State} {u : RUse} {cid : Nat}
    (ha : alive s i.val = true) (hu : Tbl.find (s.pool i.val).reads tag.toNat = some u) (hp : u.port = none) (ho : u.owner = .chan cid)
    (hlen : (st == .ok && data.length != u.len) = false) :
    exec (.nocReadResponse i tag data st press) s = live s fun s =>
      readEnd (setPressure s i.val (s.chan cid).nif (dataClass s (s.chan cid)) press.toNat) i.val tag.toNat u data st := by
  change execNocReadResponse i tag data st press s = _
  simp [execNocReadResponse, live, hu, ha, hp, ho, hlen]

section
variable {s : State} {i tag cid : Nat} {u : RUse} (ho : u.owner = .chan cid)
include ho

theorem readEnd_good (hst : (s.chan cid).st = .running) (data : List Byte) :
    readEnd s i tag u data .ok = chanData (s.updPool i fun p => { p with reads := Tbl.del p.reads tag }) cid tag u data := by
  have hst' : ((s.updPool i fun p => { p with reads := Tbl.del p.reads tag }).chan cid).st = .running := hst
  simp [readEnd, ho, hst']

theorem readEnd_error {st : Rsp} (hok : st ≠ .ok) (hr : st ≠ .range) (data : List Byte) :
    readEnd s i tag u data st = haltChan (s.updPool i fun p => { p with reads := Tbl.del p.reads tag }) cid (errSource st) u.addr u.sp 0 := by
  simp [readEnd, ho, hok, hr]

end

/-- A good write response of the NoC: the pressure level taken, and the write landed. -/
theorem exec_nocWriteResponse_chan (i : Inst) (slot : BitVec 14) (press : NifPress) {s : State} {w : WUse} {cid : Nat}
    (ha : alive s i.val = true) (hw : Tbl.find (s.pool i.val).writes slot.toNat = some w) (hp : w.port = none) (ho : w.owner = .chan cid) :
    exec (.nocWriteResponse i slot .ok press) s = live s fun s =>
      landed (setPressure s i.val (s.chan cid).nif (dataClass s (s.chan cid)) press.level.toNat) i.val slot.toNat := by
  change execNocWriteResponse i slot .ok press s = _
  simp [execNocWriteResponse, live, hw, ha, hp, ho]

/-- Nothing is delivered on the side that is not at work (R440). -/
theorem exec_nocWriteResponse_dead (i : Inst) (slot : BitVec 14) (st : Rsp) (press : NifPress) {s : State} (ha : alive s i.val = false) :
    exec (.nocWriteResponse i slot st press) s = live s fun s => s := by
  change execNocWriteResponse i slot st press s = _
  cases h : Tbl.find (s.pool i.val).writes slot.toNat <;> simp [execNocWriteResponse, live, h, ha]

theorem exec_hostCompletion (p : Port) (th : BitVec 4) (tl : BitVec 10) (data : List Byte) (st : Rsp) (s : State) :
    exec (.hostCompletion p th tl data st) s = live s fun s => hostCompletion s p.val (th ++ tl).toNat data st := rfl

/-- A good completion of a channel's read ends a run of timeouts of the port's group, and the read. -/
theorem hostCompletion_chan {s : State} {p tag i n cid : Nat} {u : RUse} {data : List Byte} (ha : alive s i = true)
    (hr : readByTag s p tag = some (i, n, u)) (ho : u.owner = .chan cid) (hlen : data.length = u.len) :
    hostCompletion s p tag data .ok = readEnd (s.updGroup (groupOf s p) fun g => { g with cto := 0 }) i n u data .ok := by
  simp [hostCompletion, hr, cplLost, ha, ho, hlen]

/-- A host write of a channel that is acknowledged has landed. -/
theorem exec_hostWriteAck_chan (i : Inst) (slot : BitVec 14) {s : State} {w : WUse} {cid : Nat} (ha : alive s i.val = true)
    (hw : Tbl.find (s.pool i.val).writes slot.toNat = some w) (hp : w.port ≠ none) (ho : w.owner = .chan cid) :
    exec (.hostWriteAck i slot) s = live s fun s => landed s i.val slot.toNat := by
  change execHostWriteAck i slot s = _
  simp [execHostWriteAck, live, hw, ha, hp, ho]

/-! ### Keystone writes and the interlock (R154, R156, R182) -/

theorem exec_keystoneIssue (i : Inst) (c : Chan) (s : State) :
    exec (.keystoneIssue i c) s = liveI s i.val fun s => keystoneIssue s (chanId i.val c.val) := rfl

theorem otherPorts_nil {p : Pos} (h : p.ports = []) (own : Option Nat) : otherPorts p own = [] := by simp [otherPorts, h]

theorem keystoneIssue_issues {s : State} {cid slot : Nat} {w : Wr} {r : List Wr} {x : Queue} {p : Pos} {d : DescSt} {y : State}
    (hk : (s.chan cid).held = w :: r) (hj : jobOf s (s.chan cid) = some (x, p)) (hst : (s.chan cid).st = .running) (hw : (s.chan cid).wrs = [])
    (hn : jobFormed s (s.chan cid) = true ∨ needsHeld s cid w = true) (hd : p.descs[w.desc]? = some d) (hp : p.ports = [])
    (hi : issueWrite s cid d.units w false = (y, some slot)) :
    keystoneIssue s cid = y.updChan cid fun ch => { ch with held := r, wrs := [{ w with slot := some slot }] } := by
  have hneed : (jobFormed s (s.chan cid) || needsHeld s cid w) = true := by simpa using hn
  simp [keystoneIssue, hk, hj, hst, hw, hneed, hd, otherPorts_nil hp, hi]

/-- The first unit that waits for the interlock takes its granules, all of them free. -/
theorem exec_interlockGrant_free (i : Inst) (c : Chan) {s : State} {u : UnitSt}
    (hu : (s.chan (chanId i.val c.val)).units.find? (fun u => !u.granted) = some u) (hl : locksFree s i.val u.granules = true) :
    exec (.interlockGrant i c) s = liveI s i.val fun s =>
      (takeLocks s i.val (chanId i.val c.val) (s.chan (chanId i.val c.val)).desc u.iter u.n u.granules).updChan (chanId i.val c.val) fun ch =>
        { ch with units := ch.units.map fun v => if v.iter = u.iter then { v with granted := true } else v } := by
  change execInterlockGrant i c s = _
  simp [execInterlockGrant, liveI, live, hu, hl]

/-! ### REDUCE_STAGED, arrive polls and pressure (R155, R184, R188) -/

theorem exec_stagedPhaseB (i : Inst) (c : Chan) (s : State) :
    exec (.stagedPhaseB i c) s = liveI s i.val fun s => stagedPhaseB s (chanId i.val c.val) := rfl

theorem stagedPhaseB_marks {s : State} {cid : Nat} {d : DescSt} (hd : curDesc s (s.chan cid) = some d) (ho : opcodeOf d.raw = 0x12)
    (hst : (s.chan cid).st = .running) (hb : (s.chan cid).between = false) (hi : stagedU d.raw ≤ (s.chan cid).iter)
    (hu : (s.chan cid).units = []) (hw : (s.chan cid).wrs.any (fun w => w.desc == (s.chan cid).desc) = false)
    (hph : (s.chan cid).phaseB = false) (hm : (s.chan cid).markSent = false) :
    stagedPhaseB s cid =
      ((s.updChan cid fun ch => { ch with markSent := true }).report (s.chan cid).home
        [.mark cid (ctxKey s (s.chan cid).home ((s.chan cid).queue.getD 0)) (s.chan cid).pos (s.chan cid).desc]).updChan cid
          fun ch => if ch.marked then { ch with phaseB := true } else ch := by
  simp only [stagedPhaseB, hd, ho, hst, hb, hu, hw, hph, hm, Nat.not_lt.2 hi]
  rfl

theorem exec_arrivePoll (i : Inst) (c : Chan) (k : Fin 16) (s : State) :
    exec (.arrivePoll i c k) s = liveI s i.val fun s => s.updChan (chanId i.val c.val) fun ch =>
      { ch with arrive := ch.arrive.map fun a => if a.k = k.val && a.hit.isNone && a.tag.isNone then { a with due := true } else a } := rfl

theorem exec_pressureDecay (i : Inst) (nif : Fin 8) (cls : BitVec 2) (s : State) :
    exec (.pressureDecay i nif cls) s = liveI s i.val fun s => setPressure s i.val nif.val cls.toNat 0 := rfl

/-- Settles O18: each command's meaning behind its gate, its guards met. -/
theorem requestsAndResponses : Obligations.RequestsAndResponses := by
  refine ⟨fun i c d w slot y s hs hst hd hb hw hlen hne hi ht => ?write, fun i c d u r tag y s hs hst hd hb hraw hn hi ht => ?read,
    fun i tag data press u cid s hup ha hu hp ho hlen hst => ?nocGood, fun i tag data st press u cid s hup ha hu hp ho hok hr => ?nocError,
    fun i slot press w cid s hup ha hw hp ho => ?nocWrite, fun p th tl data i n u cid s hup ha hr ho hlen hst => ?completion,
    fun i slot press st s hup ha => ?dead, fun i slot w cid s hup ha hw hp ho => ?ack,
    fun i c w r x p d slot y s hs hk hj hst hw hn hd hp hi => ?keystone, fun i c u s hs hu hl => ?grant,
    fun i c d s hs hd ho hst hb hi hu hw hph hm => ?phaseB, fun i c k s hs => ?poll, fun i n cls s hs => ?decay⟩
  case write =>
    refine answers_liveI hs (exec_dmaRequestIssue i c true s) ?_
    rw [requestIssue_turn ht, tryIssue_inside hst hd hb, if_pos rfl, requestWrite_whole hw hlen hne hi]
  case read =>
    refine answers_liveI hs (exec_dmaRequestIssue i c false s) ?_
    rw [requestIssue_turn ht, tryIssue_inside hst hd hb, if_neg Bool.false_ne_true, requestRead_next hst hraw hn hi]
  case nocGood =>
    exact answers_live hup (exec_nocReadResponse_chan i tag data .ok press ha hu hp ho (by simp [hlen]))
      (readEnd_good (s := setPressure s i.val (s.chan cid).nif (dataClass s (s.chan cid)) press.toNat) ho hst data)
  case nocError =>
    exact answers_live hup (exec_nocReadResponse_chan i tag data st press ha hu hp ho (by simp [hok])) (readEnd_error ho hok hr data)
  case nocWrite => exact answers_live hup (exec_nocWriteResponse_chan i slot press ha hw hp ho) rfl
  case completion =>
    exact answers_live hup (exec_hostCompletion p th tl data .ok s) ((hostCompletion_chan ha hr ho hlen).trans
      (readEnd_good (s := s.updGroup (groupOf s p.val) fun g => { g with cto := 0 }) ho hst data))
  case dead => exact answers_live hup (exec_nocWriteResponse_dead i slot st press ha) rfl
  case ack => exact answers_live hup (exec_hostWriteAck_chan i slot ha hw hp ho) rfl
  case keystone => exact answers_liveI hs (exec_keystoneIssue i c s) (keystoneIssue_issues hk hj hst hw hn hd hp hi)
  case grant => exact answers_liveI hs (exec_interlockGrant_free i c hu hl) rfl
  case phaseB => exact answers_liveI hs (exec_stagedPhaseB i c s) (stagedPhaseB_marks hd ho hst hb hi hu hw hph hm)
  case poll => exact answers_liveI hs (exec_arrivePoll i c k s) rfl
  case decay => exact answers_liveI hs (exec_pressureDecay i n cls s) rfl

end Sys2Proof.Machine

/-! Context commands of QM (O12). -/
namespace Sys2Proof.Machine

/-! ### The gate of QM.CTX_CMD (R66, R114) -/

/-- A context command that meets none in progress, on an unbound page, acts on the queue that QM.CTX_SEL selects. -/
theorem answers_ctxCmd {c : Instr} {s : State} {i : Inst} {a : Acc} {f : State → Nat → State} {P : State → Prop} (hs : s.Serves i.val)
    (hf : s.Free (qmPage i.val 0)) (hb : s.fld (qmR i.val 0 0x48) 0 1 = 0) (hc : exec c s = ctxCmd s i a c f)
    (hp : P (f (clearLatches s (qmPage i.val 0)) (s.fld (qmR i.val 0 0x40) 0 20))) : Answers c s P := by
  have hb' : (clearLatches s (qmPage i.val 0)).fld (qmR i.val 0 0x48) 0 1 = 0 := hb
  refine answers (hc.trans (cmdD_serves hs hf a c (by simp [hb]) _)) ?_
  rw [if_neg (by simp [hb'])]
  exact hp

theorem exec_ctxRead (i : Inst) (a : Acc) (s : State) : exec (.ctxRead i a) s = ctxCmd s i a (.ctxRead i a) fun s q =>
    ctxEnd ((List.range 8).foldl (fun y k => y.setR (qmR i.val 0 (0x80 + 8 * k)) (bits (ctxImage (s.q i.val q)) (64 * k) 64)) s) i.val q 0x01 false := rfl

theorem exec_ctxWrite (i : Inst) (a : Acc) (vt : NocEnd) (s : State) :
    exec (.ctxWrite i a vt) s = ctxCmd s i a (.ctxWrite i a vt) fun s q => ctxWrite s i.val q vt := rfl

theorem exec_ctxEnable (i : Inst) (a : Acc) (s : State) :
    exec (.ctxEnable i a.cp a.port a.rid) s = ctxCmd s i a (.ctxEnable i a.cp a.port a.rid) fun s q =>
      ctxEnable s i.val q (homeOf s i.val (s.q i.val q).part && vdQueueOk s i.val q) := rfl

theorem exec_ctxDisable (i : Inst) (a : Acc) (s : State) :
    exec (.ctxDisable i a) s = ctxCmd s i a (.ctxDisable i a) fun s q => ctxDisable s i.val q := rfl

theorem exec_ctxResume (i : Inst) (a : Acc) (s : State) :
    exec (.ctxResume i a) s = ctxCmd s i a (.ctxResume i a) fun s q => ctxResume s i.val q := rfl

theorem exec_ctxReset (i : Inst) (a : Acc) (s : State) :
    exec (.ctxReset i a) s = ctxCmd s i a (.ctxReset i a) fun s q => ctxReset s i.val q := rfl

theorem exec_ctxPin (i : Inst) (a : Acc) (s : State) : exec (.ctxPin i a) s = ctxCmd s i a (.ctxPin i a) fun s q => ctxPin s i.val q := rfl

theorem exec_ctxUnpin (i : Inst) (a : Acc) (s : State) : exec (.ctxUnpin i a) s = ctxCmd s i a (.ctxUnpin i a) fun s q =>
    ctxEnd (showPinned (s.updQ i.val q fun x => { x with ctx := { x.ctx with pinned := false } }) i.val) i.val q 0x01 true := rfl

/-! ### The commands at their queue (R112-R116) -/

/-- A queue as ENABLE leaves it, with the units of its two rings, behind the curtain of a VD that is CLOSING or DOWN (R115, R116, R383). -/
def Queue.enabledWith (s : State) (i : Nat) (r c : URec) (x : Queue) : Queue :=
  { ctx := { x.ctx with irqPending := 0, aheadTries := 0 }, mode := .enabled,
    conds := { curtain := (s.vd i x.vd).st == .closing || (s.vd i x.vd).st == .down },
    ring := some r, cq := some c, dbWait := x.dbWait, poss := x.poss, recFly := x.recFly, recPort := x.recPort,
    irqNow := x.irqNow.map (· + 2 ^ 24), jwait := x.jwait, stored := x.stored }

section
variable {s : State} {i q : Nat}

theorem ctxWrite_disabled (hm : (s.q i q).mode = .disabled) (vt : NocEnd) :
    ctxWrite s i q vt = ctxEnd (s.updQ i q fun x => { x with ctx := x.ctx.load (ctxData s i) }) i q 0x01 true := if_pos (by simp [hm])

theorem ctxWrite_refused (hm : (s.q i q).mode ≠ .disabled) (hd : (s.q i q).ctx.differs (ctxData s i) = true) (vt : NocEnd) :
    ctxWrite s i q vt = ctxEnd s i q 0x10 false := (if_neg (by simpa using hm)).trans (if_pos hd)

/-- ENABLE of a DISABLED queue with good fields and a good home, within the limits of its VD, goes on to its rings. -/
theorem ctxEnable_runs (hm : (s.q i q).mode = .disabled) (hok : ctxFieldsOk s i (s.q i q) = true) (hh : homeOf s i (s.q i q).part = true)
    (hv : vdQueueOk s i q = true) : ctxEnable s i q (homeOf s i (s.q i q).part && vdQueueOk s i q) = enableRun s i q :=
  (if_neg (by simp [hm])).trans (if_neg (by simp [hok, hh, hv]))

theorem enableRun_units {y z : State} {r c : URec} (hr : ringUnit s i q false = (y, .unit r)) (hc : ringUnit y i q true = (z, .unit c)) :
    enableRun s i q =
      let w := keepOld (touchCtx z i q) i q
      wakeDbs (ctxEnd (w.updQ i q (Queue.enabledWith w i r c)) i q 0x01 true) i q := by
  simp only [enableRun, hr, hc]
  rfl

theorem enableRun_waits {y : State} {m : Miss} (hr : ringUnit s i q false = (y, .wait m)) :
    enableRun s i q = (y.setR (qmR i 0 0x48) 1).updAtu i fun x => { x with misses := x.misses ++ [m] } := by
  simp only [enableRun, hr]

theorem ctxDisable_drains (hm : (s.q i q).mode = .enabled) : ctxDisable s i q = ctxEnd (drainQueue s i q) i q 0x01 true :=
  if_neg (by simp [hm])

theorem ctxDisable_refused (hm : (s.q i q).mode ≠ .enabled) : ctxDisable s i q = ctxEnd s i q 0x10 false := if_pos (by simpa using hm)

theorem ctxResume_error (h : (s.q i q).state = 7) : ctxResume s i q = ctxEnd (s.updQ i q fun y =>
    { y with conds := { y.conds with error := false }, cqBad := false,
             poss := y.poss.map fun z => if z.fet == .parked then { z with fet := .due } else z }) i q 0x01 true := by
  simp only [ctxResume, h]

theorem ctxResume_hostWait (h : (s.q i q).state = 4) (hg : (s.group (s.q i q).ctx.group).st = .attached) :
    ctxResume s i q = ctxEnd (s.updQ i q fun y => { y with conds := { y.conds with hostWait := false } }) i q 0x01 true := by
  simp only [ctxResume, h, hg]
  rfl

theorem ctxResume_ahead (h : (s.q i q).state = 3) : ctxResume s i q = ctxEnd (s.updQ i q fun y =>
    { y with conds := { y.conds with ahead := false },
             poss := y.poss.map fun z => if z.fet == .parked then { z with fet := .due } else z }) i q 0x01 true := by
  simp only [ctxResume, h]

theorem ctxReset_tears (hm : (s.q i q).mode ≠ .disabled) : ctxReset s i q = ctxEnd (tearQueue s i q) i q 0x01 true :=
  if_neg (by simpa using hm)

theorem ctxPin_pins (hp : (s.q i q).ctx.pinned = false) (hn : (pinnedOf s i).length < 4096)
    (hset : ((pinnedOf s i).filter fun p => p % 1024 == q % 1024).length < 12) :
    ctxPin s i q = ctxEnd (showPinned (touchCtx (s.updQ i q fun y => { y with ctx := { y.ctx with pinned := true } }) i q) i) i q 0x01 true := by
  have hfull : ¬ (4096 ≤ (pinnedOf s i).length ∨ 12 ≤ ((pinnedOf s i).filter fun p => p % 1024 == q % 1024).length) := by omega
  exact (if_neg (by simp [hp])).trans (if_neg (by simpa using hfull))

end

/-- Settles O12: each command passes the gate of QM.CTX_CMD and acts on the selected queue, in the state that it is for. -/
theorem contextCommandsAct : Obligations.ContextCommandsAct := by
  refine ⟨fun i a s hs hf hb => ?read, fun i a vt s hs hf hb hm => ?write, fun i a vt s hs hf hb hm hd => ?writeRefused,
    fun i a y z r c s hs hf hb hm hok hh hv hr hc => ?enable, fun i a y m s hs hf hb hm hok hh hv hr => ?enableWaits,
    fun i a s hs hf hb hm => ?disable, fun i a s hs hf hb hm => ?disableRefused, fun i a s hs hf hb hst => ?resumeError,
    fun i a s hs hf hb hst hg => ?resumeHostWait, fun i a s hs hf hb hst => ?resumeAhead, fun i a s hs hf hb hm => ?reset,
    fun i a s hs hf hb hp hn hset => ?pin, fun i a s hs hf hb => ?unpin⟩
  case read => exact answers_ctxCmd hs hf hb (exec_ctxRead i a s) rfl
  case write => exact answers_ctxCmd hs hf hb (exec_ctxWrite i a vt s) (ctxWrite_disabled (s := clearLatches s _) hm vt)
  case writeRefused => exact answers_ctxCmd hs hf hb (exec_ctxWrite i a vt s) (ctxWrite_refused (s := clearLatches s _) hm hd vt)
  case enable =>
    exact answers_ctxCmd hs hf hb (exec_ctxEnable i a s)
      ((ctxEnable_runs (s := clearLatches s _) hm hok hh hv).trans (enableRun_units hr hc))
  case enableWaits =>
    exact answers_ctxCmd hs hf hb (exec_ctxEnable i a s)
      ((ctxEnable_runs (s := clearLatches s _) hm hok hh hv).trans (enableRun_waits hr))
  case disable => exact answers_ctxCmd hs hf hb (exec_ctxDisable i a s) (ctxDisable_drains (s := clearLatches s _) hm)
  case disableRefused => exact answers_ctxCmd hs hf hb (exec_ctxDisable i a s) (ctxDisable_refused (s := clearLatches s _) hm)
  case resumeError => exact answers_ctxCmd hs hf hb (exec_ctxResume i a s) (ctxResume_error (s := clearLatches s _) hst)
  case resumeHostWait => exact answers_ctxCmd hs hf hb (exec_ctxResume i a s) (ctxResume_hostWait (s := clearLatches s _) hst hg)
  case resumeAhead => exact answers_ctxCmd hs hf hb (exec_ctxResume i a s) (ctxResume_ahead (s := clearLatches s _) hst)
  case reset => exact answers_ctxCmd hs hf hb (exec_ctxReset i a s) (ctxReset_tears (s := clearLatches s _) hm)
  case pin => exact answers_ctxCmd hs hf hb (exec_ctxPin i a s) (ctxPin_pins (s := clearLatches s _) hp hn hset)
  case unpin => exact answers_ctxCmd hs hf hb (exec_ctxUnpin i a s) rfl

end Sys2Proof.Machine

/-! A write of QM.CTX_BASE while the context cache holds a dirty context (O13). -/
namespace Sys2Proof.Machine

/-- Where no access waits after it, a command that completes in a state `t` alone answers what follows from `t`. -/
theorem Answers.exec_eq {c : Instr} {s t : State} (h : Answers c s (· = t)) (ha : ((finish s t).txn.get 0).held = [])
    (hb : ((finish s t).txn.get 1).held = []) : exec c s = .next (finish s t) := by
  obtain ⟨t, u, he, hu, rfl⟩ := h
  obtain rfl | hu := hu
  · exact he
  · exact he.trans (hu.symm.trans (withHeld_next ha hb))

/-- Queue 0 of instance 0 is DISABLED; its context is cached and dirty: the driver has written a tail that HBM's image of it has not (R112). -/
def dirtyCached : State := { por := false, qm := ⟨{ ctxs := [(0, { ctx := { tail := 1 } })], cache := [(0, [0])] }, {}⟩ }

/-- The image of queue 0's context that HBM holds after a command. -/
def storedImage (o : Host.Outcome State Fault Refusal) : Nat := match o with
  | .next u => (u.q 0 0).stored
  | _ => 0

/-- The write of QM.CTX_BASE writes the context back before it empties the cache (R112; log entry 137). -/
theorem storedImage_ctxBaseWrite : storedImage (exec (.vtBaseWrite 0 false ⟨true, 0, 0⟩ 0) dirtyCached) = ctxImage (dirtyCached.q 0 0) := by decide

theorem ctxImage_dirtyCached : ctxImage (dirtyCached.q 0 0) ≠ (dirtyCached.q 0 0).stored := by decide

/-- Refutes O13: an accepted write of QM.CTX_BASE also writes back the dirty contexts of the cache, which the statement leaves out. -/
theorem not_vectorTableAndInterrupts : ¬ Obligations.VectorTableAndInterrupts := by
  rintro ⟨-, -, -, -, hctx, -⟩
  have hexec := (hctx 0 ⟨true, 0, 0⟩ 0 dirtyCached (by decide) (by decide) (by decide)).exec_eq (by decide) (by decide)
  have himage := congrArg storedImage hexec
  rw [storedImage_ctxBaseWrite] at himage
  exact ctxImage_dirtyCached (himage.trans (by decide))

end Sys2Proof.Machine

/-! Descriptor fetch, the AHEAD timers and pre-translation (O14). -/
namespace Sys2Proof.Machine

/-! ### Descriptor fetch (R106-R108, R111) -/

theorem exec_descriptorFetch (i : Inst) (s : State) :
    exec (.descriptorFetch i) s = liveF s i.val .qm fun s => descriptorFetch s i.val := rfl

/-- The turn of a queue at descriptor fetch remembered (R111). -/
def turnTaken (s : State) (i q : Nat) : State :=
  { s with qm := s.qm.upd i fun m => { m with rr := Tbl.put m.rr (fetchRank (s.q i q)) q } }

/-- The queue whose turn it is reads its next new position through its ring's translation. -/
theorem descriptorFetch_next {s y : State} {i q pos : Nat} {u : URec} (hds : (cacheUse s i).1 < 8192) (hus : (cacheUse s i).2 < 32768)
    (hq : fetchPick s i = some q) (hn : nextRead (turnTaken s i q) ((turnTaken s i q).q i q) = some (.head pos true))
    (hu : useRing (turnTaken s i q) i q false = (y, some u)) :
    descriptorFetch s i =
      let x := (turnTaken s i q).q i q
      sendDescRead (y.updQ i q fun x => x.takePos { pos }) i q pos u (x.ctx.ringBase + 64 * (pos % 2 ^ x.ctx.ringLog2)) := by
  have hroom : ¬ (8192 ≤ (cacheUse s i).1 ∨ 32768 ≤ (cacheUse s i).2) := by omega
  unfold turnTaken at hn hu ⊢
  simp [descriptorFetch, hroom, hq, hn, hu]

/-- What a return does to its queue where it brings the descriptor of a position (R106, R107): fetch goes on past the position, or reads what
is chained; AHEAD is over. -/
def Queue.takesDesc (kind pos : Nat) (p : Pos) (data : List Byte) (x : Queue) : Queue :=
  let y := x.updPos pos fun y => { y with fet := if kind == 0 && chainOf data then .due else .whole, descs := y.descs ++ [{ raw := data }] }
  { y with ahead1 := false,
           ctx := { y.ctx with aheadTries := 0, fetch := if p.descs.isEmpty && sub24 pos y.ctx.fetch < 2 ^ 23 then (pos + 1) % 2 ^ 24 else y.ctx.fetch },
           conds := { y.conds with ahead := false } }

/-- What a return does to its queue where the descriptor of the position is not written yet (R108): the back-off, or parked in AHEAD. -/
def Queue.backsOff (pos : Nat) (x : Queue) : Queue :=
  let y := x.updPos pos fun y => { y with fet := if x.conds.ahead then .parked else .backoff }
  { y with ahead1 := true, ctx := { y.ctx with aheadTries := if y.ahead1 then satAdd 8 y.ctx.aheadTries 1 else y.ctx.aheadTries } }

/-- The descriptor read of a queue is over: it reads nothing of its ring, no read of the pool is the queue's, and a good read of a host ring
ends the run of completion timeouts of its group. -/
def readOver (s : State) (i q : Nat) (u : URec) : State :=
  let w := (s.updQ i q fun x => { x with ringRead := none }).updPool (carrier s i) fun x =>
    { x with reads := x.reads.filter fun e => match e.2.owner with | .desc h k _ => !(h == i && k == q) | _ => true }
  if u.hostBound then w.updGroup u.hostGroup fun g => { g with cto := 0 } else w

/-- A descriptor read through the NoC leaves the pressure level that its return brings (R155); one of a host ring brings none. -/
def pressedBy (s : State) (i : Nat) (u : URec) (press : NifPress) : State := if u.hostBound then s else ctlPress s i press

theorem pressedBy_q (s : State) (i : Nat) (u : URec) (press : NifPress) (k q : Nat) : (pressedBy s i u press).q k q = s.q k q := by
  unfold pressedBy; split <;> rfl

theorem carrier_pressedBy (s : State) (i : Nat) (u : URec) (press : NifPress) (k : Nat) : carrier (pressedBy s i u press) k = carrier s k := by
  unfold pressedBy; split <;> rfl

theorem exec_descriptorReadReturn (i : Inst) (q : Qidx) (data : List Byte) (r : NocEnd) {s : State} {pos : Nat} {u : URec}
    (hr : (s.q i.val q.toNat).ringRead = some (pos, u)) : exec (.descriptorReadReturn i q data r) s = liveI s i.val fun s =>
      descReadReturn (pressedBy s i.val u r.press) i.val q.toNat data r.st := by
  change execDescriptorReadReturn i q data r s = _
  cases h : u.hostBound <;> simp [execDescriptorReadReturn, pressedBy, liveI, live, hr, h]

section
variable {s : State} {i q pos : Nat} {u : URec} {p : Pos} {data : List Byte}

/-- Good bytes whose gen bit is the position's are its descriptor (R106). -/
theorem descReadReturn_takes (hr : (s.q i q).ringRead = some (pos, u)) (hl : data.length = 64) (hp : (s.q i q).pos? pos = some p)
    (hg : genOf data = (s.q i q).gen pos) :
    descReadReturn s i q data .ok = (readOver s i q u).updQ i q (Queue.takesDesc (s.q i q).ctx.kind pos p data) := by
  have hg' : (genOf data == (s.q i q).gen pos) = true := by simpa using hg
  simp only [descReadReturn, hr, hl, hp, hg']
  rfl

/-- Good bytes with another gen bit are no descriptor yet (R108). -/
theorem descReadReturn_backsOff (hr : (s.q i q).ringRead = some (pos, u)) (hl : data.length = 64) (hp : (s.q i q).pos? pos = some p)
    (hg : genOf data ≠ (s.q i q).gen pos) :
    descReadReturn s i q data .ok = (readOver s i q u).updQ i q (Queue.backsOff pos) := by
  have hg' : (genOf data == (s.q i q).gen pos) = false := by simpa using hg
  simp only [descReadReturn, hr, hl, hp, hg']
  rfl

end

/-! ### The AHEAD timers (R108, R109) -/

theorem exec_aheadRetryTimer (i : Inst) (q : Qidx) (s : State) :
    exec (.aheadRetryTimer i q) s = liveI s i.val fun s => moveFetch s i.val q.toNat .backoff .due := rfl

theorem exec_aheadPollTimer (i : Inst) (q : Qidx) (s : State) :
    exec (.aheadPollTimer i q) s = liveI s i.val fun s => moveFetch s i.val q.toNat .parked .due := rfl

theorem exec_aheadLimitExpiry (i : Inst) (q : Qidx) (s : State) :
    exec (.aheadLimitExpiry i q) s = liveI s i.val fun s => aheadEnter s i.val q.toNat := rfl

theorem exec_aheadTimeout (i : Inst) (q : Qidx) (s : State) :
    exec (.aheadTimeout i q) s = liveI s i.val fun s => aheadTimeout s i.val q.toNat := rfl

/-- An ENABLED queue that has failed to read enters AHEAD. -/
theorem aheadEnter_enters {s : State} {i q : Nat} (h1 : (s.q i q).ahead1 = true) (hm : (s.q i q).mode = .enabled)
    (hp : (s.q i q).poss.any (fun p => p.fet == .backoff || p.fet == .due || p.fet == .inFlight) = true) :
    aheadEnter s i q = (moveFetch s i q .backoff .parked).updQ i q fun x => { x with conds := { x.conds with ahead := true } } :=
  if_neg (by rw [h1, hm, hp]; decide)

/-- AHEAD ends in ERROR for the position that the queue reads or has parked. -/
theorem aheadTimeout_errs {s : State} {i q : Nat} {p : Pos} (ha : (s.q i q).conds.ahead = true)
    (hp : (s.q i q).poss.find? (fun p => p.fet == .parked || p.fet == .due || p.fet == .inFlight) = some p) :
    aheadTimeout s i q =
      let x := (addRec s i q p.pos 7 0).updQ i q fun x =>
        { x with conds := { x.conds with ahead := false }, ctx := { x.ctx with aheadTries := 0 }, ahead1 := false, ringRead := none,
                 poss := x.poss.map fun y => if y.pos = p.pos then { y with fet := .parked } else y }
      contained (haltQueue x i q 7) (carrier x i) 1 7 (hubQ i q) := by
  simp only [aheadTimeout, ha, hp]
  rfl

/-! ### Pre-translation (R203) -/

theorem exec_pretranslate (i : Inst) (q : Qidx) (s : State) :
    exec (.pretranslate i q) s = liveF s i.val .atu fun s => pretranslate s i.val q.toNat := rfl

section
variable {s : State} {i q pos idx : Nat} {d : DescSt}

theorem pretranslate_station (hd : firstPending (s.q i q) = some (pos, idx, d)) (hk : (s.q i q).ctx.kind = 1) :
    pretranslate s i q = pretransRun s i q pos d.raw := by simp [pretranslate, hd, hk]

/-- A descriptor of a DMA queue that a check refuses ends its position's job with the reason (R140). -/
theorem pretranslate_refused {r : Nat} (hd : firstPending (s.q i q) = some (pos, idx, d)) (hk : (s.q i q).ctx.kind = 0)
    (hc : checkDesc d.raw idx = some r) : pretranslate s i q = failDesc s i q pos idx 8 (fields [(0, r), (8, idx % 4096)]) := by
  simp [pretranslate, hd, hk, pretransDma, hc]

end

/-- Settles O14: each command's meaning behind its gate, its guards met. -/
theorem descriptorFetchActs : Obligations.DescriptorFetchActs := by
  refine ⟨fun i q pos u y s hs hq hds hus hp hn hu => ?fetch, fun i q data press pos u p s hs hr hl hp hg => ?takes,
    fun i q data press pos u p s hs hr hl hp hg => ?backsOff, fun i q s hs => ?retry, fun i q s hs => ?poll,
    fun i q s hs h1 hm hp => ?limit, fun i q p s hs ha hp => ?timeout, fun i q pos idx d s hs ht hd hk => ?station,
    fun i q pos idx d r s hs ht hd hk hc => ?refused⟩
  case fetch => exact answers_liveF hs hq (exec_descriptorFetch i s) (descriptorFetch_next hds hus hp hn hu)
  case takes =>
    refine answers_liveI hs (exec_descriptorReadReturn i q data ⟨.ok, press⟩ hr) ?_
    have hq := pressedBy_q s i.val u press i.val q.toNat
    rw [descReadReturn_takes (hq ▸ hr) hl (hq ▸ hp) (hq ▸ hg), readOver, carrier_pressedBy, hq]
    rfl
  case backsOff =>
    refine answers_liveI hs (exec_descriptorReadReturn i q data ⟨.ok, press⟩ hr) ?_
    have hq := pressedBy_q s i.val u press i.val q.toNat
    rw [descReadReturn_backsOff (hq ▸ hr) hl (hq ▸ hp) (hq ▸ hg), readOver, carrier_pressedBy]
    rfl
  case retry => exact answers_liveI hs (exec_aheadRetryTimer i q s) rfl
  case poll => exact answers_liveI hs (exec_aheadPollTimer i q s) rfl
  case limit => exact answers_liveI hs (exec_aheadLimitExpiry i q s) (aheadEnter_enters h1 hm hp)
  case timeout => exact answers_liveI hs (exec_aheadTimeout i q s) (aheadTimeout_errs ha hp)
  case station => exact answers_liveF hs ht (exec_pretranslate i q s) (pretranslate_station hd hk)
  case refused => exact answers_liveF hs ht (exec_pretranslate i q s) (pretranslate_refused hd hk hc)

end Sys2Proof.Machine

/-! The controls of a DMA channel (O16). -/
namespace Sys2Proof.Machine

/-! ### Stageable registers of an unbound page (R57, R66) -/

theorem cameLate_of_noLate {s : State} (h : s.NoLate) (p : PageId) : cameLate s p = false := by
  obtain ⟨ha, hb⟩ := h
  by_cases hi : p.inst = 0 <;> simp [cameLate, Two.get, hi, ha, hb]

section
variable {s : State} {p : PageId} (hf : s.Free p) (hl : s.NoLate)
include hf hl

theorem stageDrops_free (a : Acc) (m rest : Nat) (bad : Bool) : stageDrops s a p m rest bad = bad := by
  have hb : binder s p = none := hf
  simp [stageDrops, cameLate_of_noLate hl, hb]

theorem stageW_free (a : Acc) (off w m rest val : Nat) (f : State → Nat → State) : stageW s a p off w m rest val f = f s val := by
  have hb : binder s p = none := hf
  simp [stageW, cameLate_of_noLate hl, hb]

/-- A write of a stageable register takes effect at once; one that the register's own rule refuses leaves the split latch. -/
theorem cmdD_stages {i : Inst} (hs : s.Serves i.val) (a : Acc) {c : Instr} {off w m rest val : Nat} {bad : Bool} {f : State → Nat → State} :
    cmdD s i a p c (fun s => stageDrops s a p m rest bad) (fun s => stageW s a p off w m rest val f) =
      .next (finish s (dropIf bad s (f (clearLatches s p) val))) := by
  have hw := stageW_free (s := clearLatches s p) (p := p) hf hl a off w m rest val f
  cases bad with
  | false => rw [cmdD_serves hs hf a c (stageDrops_free hf hl a m rest false), hw]; rfl
  | true => rw [cmdD_drops hs hf a c (stageDrops_free hf hl a m rest true), hw]; rfl

end

/-! ### Enable and configuration (R132, R134, R135) -/

theorem State.updChan_congr {s : State} {cid : Nat} {f g : ChanRec → ChanRec} (h : f (s.chan cid) = g (s.chan cid)) :
    s.updChan cid f = s.updChan cid g := by
  unfold State.chan at h
  simp only [State.updChan, Tbl.upd, h]

theorem exec_dmaEnableWrite (i : Inst) (c : Chan) (a : Acc) (en : Bool) (s : State) :
    exec (.dmaEnableWrite i c a en) s =
      let cid := chanId i.val c.val
      cmdD s i a (dmaPage cid) (.dmaEnableWrite i c a en) (fun s => stageDrops s a (dmaPage cid) 1 0 false)
        fun s => stageW s a (dmaPage cid) 0x08 4 1 0 (b2n en) fun s v => setEnable s cid (bitAt v 0) := rfl

theorem setEnable_off {s : State} {cid : Nat} (h : (s.chan cid).st = .off) :
    setEnable s cid true = (s.setMask (dmaR cid 8) 1 1).updChan cid fun ch => { ch with st := .idle } :=
  State.updChan_congr (if_pos (beq_iff_eq.2 h))

theorem exec_chanCfgWrite (i : Inst) (c : Chan) (a : Acc) (v : W32) (s : State) :
    exec (.chanCfgWrite i c a v) s =
      let cid := chanId i.val c.val
      cmdD s i a (dmaPage cid) (.chanCfgWrite i c a v) (fun s => stageDrops s a (dmaPage cid) 0xFFFF1FF 0 (bits v.toNat 16 12 = 0))
        fun s => stageW s a (dmaPage cid) 0x40 4 0xFFFF1FF 0 v.toNat fun s v =>
          if bits v 16 12 = 0 then s.perr (dmaPage cid) 17 else setChanCfg s cid v := rfl

/-! ### Pausing (R157, R158, R162) -/

theorem exec_channelPause (i : Inst) (c : Chan) (a : Acc) (s : State) :
    exec (.channelPause i c a) s = cmdI s i a (dmaPage (chanId i.val c.val)) (.channelPause i c a) fun s =>
      channelPause s (chanId i.val c.val) := rfl

theorem channelPause_rest {s : State} {cid : Nat} (h : (s.chan cid).st = .idle ∨ (s.chan cid).st = .off) :
    channelPause s cid = ((s.setMask (dmaR cid 0x44) 1 1).updChan cid fun ch => { ch with st := .paused }).irq (dmaPage cid) 17 := by
  have hc : (s.setMask (dmaR cid 0x44) 1 1).chan cid = s.chan cid := rfl
  rcases h with h | h <;> simp [channelPause, hc, h]

theorem channelPause_running {s : State} {cid : Nat} (h : (s.chan cid).st = .running) :
    channelPause s cid = dropUnbegun ((s.setMask (dmaR cid 0x44) 1 1).updChan cid fun ch => { ch with st := .pausing }) cid := by
  have hc : (s.setMask (dmaR cid 0x44) 1 1).chan cid = s.chan cid := rfl
  simp [channelPause, hc, h]

theorem exec_channelPaused_settled (i : Inst) (c : Chan) {s : State} (hst : (s.chan (chanId i.val c.val)).st = .pausing)
    (hr : chanReads s (chanId i.val c.val) = 0) (hw : (s.chan (chanId i.val c.val)).wrs = []) (hu : (s.chan (chanId i.val c.val)).units = []) :
    exec (.channelPaused i c) s = liveI s i.val fun s =>
      (s.updChan (chanId i.val c.val) fun ch => { ch with st := .paused, idxRd := none }).irq (dmaPage (chanId i.val c.val)) 17 := by
  change execChannelPaused i c s = _
  simp [execChannelPaused, liveI, live, hst, hr, hw, hu]

theorem exec_channelUnpause (i : Inst) (c : Chan) (a : Acc) (s : State) :
    exec (.channelUnpause i c a) s = cmdI s i a (dmaPage (chanId i.val c.val)) (.channelUnpause i c a) fun s =>
      channelUnpause s (chanId i.val c.val) := rfl

section
variable {s : State} {cid : Nat} (hst : (s.chan cid).st = .paused)
include hst

theorem channelUnpause_job (hq : (s.chan cid).queue.isSome = true) :
    channelUnpause s cid = (s.setMask (dmaR cid 0x44) 1 0).updChan cid fun ch =>
      { ch with st := .running, arrive := if ch.arrive.any (fun a => a.hit.isNone) then ch.arrive.map (fun a => { k := a.k }) else ch.arrive } := by
  have hc : (s.setMask (dmaR cid 0x44) 1 0).chan cid = s.chan cid := rfl
  simp only [channelUnpause, hc, hst]
  exact if_pos hq

theorem channelUnpause_idle (hq : (s.chan cid).queue = none) : channelUnpause s cid = toRest (s.setMask (dmaR cid 0x44) 1 0) cid := by
  have hc : (s.setMask (dmaR cid 0x44) 1 0).chan cid = s.chan cid := rfl
  simp [channelUnpause, hc, hst, hq]

end

/-! ### ABORT, CLEAR_HALT and the drained channel (R132, R159, R162) -/

theorem exec_abort (i : Inst) (c : Chan) (a : Acc) (s : State) :
    exec (.abort i c a) s = cmdD s i a (dmaPage (chanId i.val c.val)) (.abort i c a) (fun s => !abortable s (chanId i.val c.val))
      fun s => abortChan s (chanId i.val c.val) := rfl

theorem abortable_eq_false {s : State} {cid : Nat} (h : (s.chan cid).st ≠ .paused) : abortable s cid = false := by simp [abortable, h]

/-- The job of a PAUSED channel ends with TORN_DOWN. -/
theorem abortChan_job {s : State} {cid q : Nat} (hst : (s.chan cid).st = .paused) (hq : (s.chan cid).queue = some q) :
    abortChan s cid = leaveJob ((loneGroups (dropPosWaits (endPos s (s.chan cid).home q (s.chan cid).pos 6 0 true)
      (s.chan cid).home q (s.chan cid).pos) (s.chan cid).home).bump (dmaR cid 0xD0) 1) cid := by
  rw [← endJob_queue hq]
  exact if_pos (by simp [abortable, hst, hq])

theorem abortChan_refused {s : State} {cid : Nat} (h : (s.chan cid).st ≠ .paused) : abortChan s cid = s.perr (dmaPage cid) 16 :=
  if_neg (by simp [abortable_eq_false h])

theorem exec_clearHalt (i : Inst) (c : Chan) (a : Acc) (s : State) :
    exec (.clearHalt i c a) s = cmdD s i a (dmaPage (chanId i.val c.val)) (.clearHalt i c a)
      (fun s => (s.chan (chanId i.val c.val)).st != .halted) fun s => clearHalt s (chanId i.val c.val) := rfl

theorem clearHalt_halted {s : State} {cid : Nat} (h : (s.chan cid).st = .halted) :
    clearHalt s cid = toRest ((s.setMask (dmaR cid 0x88) (2 ^ 31) 0).updChan cid fun ch => { nif := ch.nif }) cid := if_pos (by simp [h])

theorem clearHalt_refused {s : State} {cid : Nat} (h : (s.chan cid).st ≠ .halted) : clearHalt s cid = s.perr (dmaPage cid) 16 :=
  if_neg (by simpa using h)

theorem exec_channelDrained_off (i : Inst) (c : Chan) {s : State} (hst : (s.chan (chanId i.val c.val)).st = .idle)
    (he : chanEnabled s (chanId i.val c.val) = false) :
    exec (.channelDrained i c) s = liveI s i.val fun s =>
      (s.updChan (chanId i.val c.val) fun ch => { ch with st := .off }).irq (dmaPage (chanId i.val c.val)) 18 := by
  change execChannelDrained i c s = _
  simp [execChannelDrained, liveI, live, hst, he]

/-- Settles O16: each command's meaning behind the guard of its unbound page, its condition met or refused. -/
theorem channelControls : Obligations.ChannelControls := by
  refine ⟨fun i c a s hs hf hl hst => ?enable, fun i c a s hs hf hl => ?disable, fun i c a v s hs hf hl hv => ?cfg,
    fun i c a v s hs hf hl hv => ?cfgRefused, fun i c a s hs hf hst => ?pauseRest, fun i c a s hs hf hst => ?pauseRunning,
    fun i c s hs hst hr hw hu => ?paused, fun i c a s hs hf hst hq => ?unpauseJob, fun i c a s hs hf hst hq => ?unpauseRest,
    fun i c a q s hs hf hst hq => ?abort, fun i c a s hs hf hst => ?abortRefused, fun i c a s hs hf hst => ?clear,
    fun i c a s hs hf hst => ?clearRefused, fun i c s hs hst he => ?drained⟩
  case enable =>
    exact answers ((exec_dmaEnableWrite i c a true s).trans (cmdD_stages hf hl hs a))
      (setEnable_off hst)
  case disable => exact answers ((exec_dmaEnableWrite i c a false s).trans (cmdD_stages hf hl hs a)) rfl
  case cfg =>
    refine answers ((exec_chanCfgWrite i c a v s).trans (cmdD_stages hf hl hs a)) ?_
    simp only [hv, decide_false, if_false]
    rfl
  case cfgRefused =>
    refine answers ((exec_chanCfgWrite i c a v s).trans (cmdD_stages hf hl hs a)) ?_
    simp only [hv, decide_true, if_true]
    rfl
  case pauseRest =>
    exact answers ((exec_channelPause i c a s).trans (cmdI_serves hs hf a _ _))
      (channelPause_rest hst)
  case pauseRunning =>
    exact answers ((exec_channelPause i c a s).trans (cmdI_serves hs hf a _ _))
      (channelPause_running hst)
  case paused => exact answers_liveI hs (exec_channelPaused_settled i c hst hr hw hu) rfl
  case unpauseJob =>
    exact answers ((exec_channelUnpause i c a s).trans (cmdI_serves hs hf a _ _))
      (channelUnpause_job hst hq)
  case unpauseRest =>
    exact answers ((exec_channelUnpause i c a s).trans (cmdI_serves hs hf a _ _))
      (channelUnpause_idle hst hq)
  case abort => exact answers ((exec_abort i c a s).trans (cmdD_serves hs hf a _ (by simp [abortable, hst, hq]) _)) (abortChan_job hst hq)
  case abortRefused =>
    refine answers ((exec_abort i c a s).trans (cmdD_drops hs hf a _ (by simp [abortable_eq_false hst]) _)) ?_
    rw [abortChan_refused (s := clearLatches s _) hst]
  case clear => exact answers ((exec_clearHalt i c a s).trans (cmdD_serves hs hf a _ (by simp [hst]) _)) (clearHalt_halted hst)
  case clearRefused =>
    refine answers ((exec_clearHalt i c a s).trans (cmdD_drops hs hf a _ (by simpa using hst) _)) ?_
    rw [clearHalt_refused (s := clearLatches s _) hst]
  case drained => exact answers_liveI hs (exec_channelDrained_off i c hst he) rfl

end Sys2Proof.Machine

/-! Invalidations on their way: accepted, drained, acknowledged and complete (O21). -/
namespace Sys2Proof.Machine

/-! ### Requests and acceptance (R209, R210, R212) -/

/-- An ATS request with both instances served, the second after the first has taken it. -/
theorem exec_atsInvalidateRequest_both (p : Port) (tag : Fin 32) (pasid : Option (BitVec 20)) (g : Bool) (addr : W64) (lg : Fin 65) {s : State}
    {v : InvScope} (hv : v = { key := .host (groupOf s p.val) (pasid.map BitVec.toNat), base := alignDown addr.toNat (2 ^ lg.val),
                               size := 2 ^ lg.val, glob := g })
    (h0 : (server s 0).isSome = true) (h1 : (server (invalidate s 0 (.ats p.val tag.val) v) 1).isSome = true)
    (h2 : (server (invalidate (invalidate s 0 (.ats p.val tag.val) v) 1 (.ats p.val tag.val) v) 0).isSome = true) :
    exec (.atsInvalidateRequest p tag pasid g addr lg) s = live s fun s =>
      invalidate (invalidate s 0 (.ats p.val tag.val) v) 1 (.ats p.val tag.val) v := by
  subst hv
  change execAtsInvalidateRequest p tag pasid g addr lg s = _
  simp [execAtsInvalidateRequest, live, h0, h1, Option.ne_none_iff_isSome.2 h2]

theorem exec_invalidationAccept (i : Inst) (s : State) : exec (.invalidationAccept i) s = liveI s i.val fun s => acceptWaiting s i.val := rfl

theorem acceptWaiting_room {s : State} {i : Nat} {src : InvSrc} {v : InvScope} {r : List (InvSrc × InvScope)}
    (hw : (s.atu.get i).invWait = (src, v) :: r) (hn : (s.atu.get i).invs.length < 64) :
    acceptWaiting s i = acceptNow (s.updAtu i fun a => { a with invWait := r }) i src v := by
  simp [acceptWaiting, hw, hn]

/-! ### Completion (R210, R212) -/

theorem exec_invalidationComplete (i : Inst) (e : BitVec 16) (ls : List Leaf) (s : State) :
    exec (.invalidationComplete i e ls) s = liveI s i.val fun s => invComplete s i.val e.toNat ls := rfl

/-- A drained and acknowledged invalidation with no port to flush is complete. -/
theorem invComplete_finishes {s : State} {i e : Nat} {v : Inv} (hv : (s.atu.get i).invs.find? (fun v => v.epoch == e) = some v)
    (hd : drained s i v = true) (hk : v.sites = []) (hp : dirtyPorts s i v.scope = []) (ls : List Leaf) :
    invComplete s i e ls = finishInv s i v ls := by
  simp [invComplete, hv, hd, hk, hp]

/-- A complete command of a host scope shows DONE and its epoch, and raises inv_done. -/
theorem finishInv_cmd_host {v : Inv} (hsrc : v.src = .cmd) (hk : ∀ p, v.scope.key ≠ .da p) (s : State) (i : Nat) (ls : List Leaf) :
    finishInv s i v ls = ((s.updAtu i fun a => { a with invs := a.invs.filter (· != v) }).setR (atuR i 0 0x4C)
      (fields [(8, 1), (16, v.epoch)])).irq (atuPage i 0) 16 := by
  cases hkey : v.scope.key with
  | da p => exact absurd hkey (hk p)
  | host g p => simp only [finishInv, hsrc, hkey]

/-! ### The accesses of stations that a drain abandons (R211, R277) -/

/-- What every step of a fold leaves alone, the fold leaves alone. -/
theorem foldl_keeps {α β : Type} {f : State → β} {g : State → α → State} (hg : ∀ t a, f (g t a) = f t) (l : List α) (s : State) :
    f (l.foldl g s) = f s :=
  List.foldlRecOn (motive := fun t => f t = f s) l g rfl fun t ht a _ => (hg t a).trans ht

/-- A drain of station accesses changes the host-line cache and the pools, and sends errors. -/
theorem drainStations_keeps {β : Type} {f : State → β} (hh : ∀ (t : State) h, f { t with hlc := h } = f t)
    (hp : ∀ (t : State) n h, f (t.updPool n h) = f t) (he : ∀ (t : State) o, f (t.emit o) = f t) (s : State) (i : Nat) (v : Inv) (j : Nat) :
    f (drainStations s i v j) = f s := by
  unfold drainStations
  refine (foldl_keeps (fun t r => ?_) _ _).trans ((foldl_keeps (fun t e => ?_) _ _).trans ((hp _ _ _).trans (hh _ _)))
  · split
    · exact he _ _
    · rfl
  · split
    · exact he _ _
    · rfl

theorem drainRings_drainStations (s : State) (i : Nat) (v : Inv) (j : Nat) : drainRings (drainStations s i v j) i v = drainRings s i v :=
  drainStations_keeps (f := fun t => drainRings t i v) (fun _ _ => rfl) (fun _ _ _ => rfl) (fun _ _ => rfl) s i v j

theorem drainStations_chan (s : State) (i : Nat) (v : Inv) (j c : Nat) : (drainStations s i v j).chan c = s.chan c :=
  drainStations_keeps (f := fun t => t.chan c) (fun _ _ => rfl) (fun _ _ _ => rfl) (fun _ _ => rfl) s i v j

/-! ### A channel that halts (R161) -/

theorem State.chan_updChan_same (s : State) (cid : Nat) (f : ChanRec → ChanRec) : (s.updChan cid f).chan cid = f (s.chan cid) :=
  Tbl.getD_upd_same _ _ _ _

/-- What leaves the table of channels leaves each channel. -/
theorem State.chan_eq {s t : State} (h : t.chans = s.chans) (c : Nat) : t.chan c = s.chan c := by
  rw [State.chan, h, State.chan]

theorem freeLocks_chan (s : State) (cid c : Nat) : (freeLocks s cid).chan c = s.chan c :=
  State.chan_eq ((State.setFld_chans _ _ _ _ _).trans rfl) c

/-- A channel that drops its work keeps its state and the status of its halt. -/
theorem dropWork_status (s : State) (cid : Nat) :
    ((dropWork s cid).chan cid).st = (s.chan cid).st ∧ ((dropWork s cid).chan cid).errStatus = (s.chan cid).errStatus := by
  unfold dropWork
  rw [freeLocks_chan, State.chan_updChan_same]
  exact ⟨rfl, rfl⟩

/-- A running channel that a drain halts ends its job with STALE_DRAIN. -/
theorem haltChan_staleDrain {s : State} {cid : Nat} (h : (s.chan cid).st = .running) (addr sp dir : Nat) :
    ((haltChan s cid 10 addr sp dir).chan cid).st = .halting ∧ ((haltChan s cid 10 addr sp dir).chan cid).errStatus = 4 := by
  simp only [haltChan, haltAt, h]
  rw [(dropWork_status _ cid).1, (dropWork_status _ cid).2, State.chan_updChan_same]
  exact ⟨rfl, rfl⟩

/-! ### DRAIN_TIMEOUT (R160, R211) -/

theorem exec_drainTimeout (i : Inst) (e : BitVec 16) (s : State) :
    exec (.drainTimeout i e) s = liveI s i.val fun s => drainTimeout s i.val e.toNat := rfl

/-- The state with an invalidation marked expired. -/
def invExpired (s : State) (i : Nat) (v : Inv) : State :=
  s.updAtu i fun a => { a with invs := a.invs.map fun x => if x = v then { x with expired := true } else x }

/-- A channel of a drain set halts with STALE_DRAIN, which is reported once, and its reads are abandoned. -/
def drainHalt (i : Nat) (s : State) (c : Nat × URec) : State :=
  let was := (s.chan c.1).st
  let s := haltChan s c.1 10 c.2.base c.2.key.space 0
  let s := if was == .halting then s else (s.bump (atuR i 0 0x138) 1).irq (atuPage i 0) 17
  let dead (u : RUse) : RUse := if u.owner == .chan c.1 then { u with owner := .dead } else u
  s.updPool (c.1 / 256) fun p => { p with reads := Tbl.mapV p.reads dead }

/-- The ring read of a queue is abandoned, its position to be read again. -/
def Queue.rereads (x : Queue) : Queue := match x.ringRead with
  | some (pos, _) => { x.updPos pos (fun y => { y with fet := .due }) with ringRead := none }
  | none => x

theorem drainTimeout_expires {s : State} {i e : Nat} {v : Inv}
    (hv : (s.atu.get i).invs.find? (fun v => v.epoch == e && !v.expired) = some v) :
    drainTimeout s i e =
      let x := invExpired s i v
      let y := drainStations (drainStations ((drainChans x i v).foldl (drainHalt i) x) i v 0) i v 1
      (drainRings y i v).foldl (fun s q => s.updQ i q Queue.rereads) y := by
  simp only [drainTimeout, hv]
  rfl

theorem drainHalt_running {s : State} {c : Nat} (h : (s.chan c).st = .running) (i : Nat) (u : URec) :
    ((drainHalt i s (c, u)).chan c).st = .halting ∧ ((drainHalt i s (c, u)).chan c).errStatus = 4 := by
  have hc : (drainHalt i s (c, u)).chan c = (haltChan s c 10 u.base u.key.space 0).chan c := by
    simp only [drainHalt]
    rw [if_neg (by simp [h])]
    exact State.chan_eq (by rw [State.updPool_chans, State.irq_chans, State.bump_chans]) c
  rw [hc]
  exact haltChan_staleDrain h _ _ _

/-- With no channel and no ring read in the drain set only the accesses of stations are abandoned. -/
theorem drainTimeout_stations {s : State} {i e : Nat} {v : Inv}
    (hv : (s.atu.get i).invs.find? (fun v => v.epoch == e && !v.expired) = some v) (hc : drainChans (invExpired s i v) i v = [])
    (hr : drainRings (invExpired s i v) i v = []) :
    drainTimeout s i e = drainStations (drainStations (invExpired s i v) i v 0) i v 1 := by
  rw [drainTimeout_expires hv]
  simp only [hc, List.foldl_nil, drainRings_drainStations, hr]

/-- A running channel that is the drain set's only one halts with STALE_DRAIN. -/
theorem drainTimeout_channel {s : State} {i e c : Nat} {v : Inv} {u : URec}
    (hv : (s.atu.get i).invs.find? (fun v => v.epoch == e && !v.expired) = some v) (hc : drainChans (invExpired s i v) i v = [(c, u)])
    (hst : (s.chan c).st = .running) :
    ((drainTimeout s i e).chan c).st = .halting ∧ ((drainTimeout s i e).chan c).errStatus = 4 := by
  have ht : (drainTimeout s i e).chan c = (drainHalt i (invExpired s i v) (c, u)).chan c := by
    rw [drainTimeout_expires hv]
    simp only [hc, List.foldl_cons, List.foldl_nil]
    refine (foldl_keeps (f := fun t => t.chan c) (fun t q => State.chan_eq (t.updQ_chans i q Queue.rereads) c) _ _).trans ?_
    rw [drainStations_chan, drainStations_chan]
  rw [ht]
  exact drainHalt_running (s := invExpired s i v) hst i u

/-! ### The stations' acknowledgements (R214) -/

section
variable {s : State} {i : Nat} {v : Inv}

theorem exec_siteInvAck_awaited (k : Site) (ls : List Leaf) (h : invAwaiting s k.val = some (i, v)) :
    exec (.siteInvAck k ls) s = live s fun s => siteAcked s i k.val v ls := by
  change execSiteInvAck k ls s = _
  simp [execSiteInvAck, live, h]

theorem exec_siteInvTimeout (k : Site) (ls : List Leaf) (s : State) :
    exec (.siteInvTimeout k ls) s = live s fun s => siteInvTimeout s k.val ls := rfl

/-- Every job in the slots of a station that has not acknowledged in time faults, and the site counts as having acknowledged. -/
theorem siteInvTimeout_awaited {k : Nat} (h : invAwaiting s k = some (i, v)) (ls : List Leaf) :
    siteInvTimeout s k ls = siteAcked ((((cmdsOn s k).filter fun e => e.2.2.inSlot).foldl
      (fun s e => jobFault s e.1 e.2.1 (linkOk s k)) s).irq (atuPage i 0) 18) i k v ls := by
  simp only [siteInvTimeout, h]

end

/-- Settles O21: each command's meaning, its invalidation found. -/
theorem invalidationsRun : Obligations.InvalidationsRun := by
  refine ⟨fun p tag pasid g addr lg s hs h1 h0 => ?ats, fun i src v r s hs hw hn => ?accept,
    fun i e ls v s hs hv hd hk hp hsrc _ hkey => ?complete, fun i e v s hs hv hc hr => ?drainStations,
    fun i e v c u s hs hv hc hst _ => ?drainChannel, fun k ls i v s hup h => ?ack, fun k ls i v s hup h => ?timeout⟩
  case ats => exact answers_live hs.1 (exec_atsInvalidateRequest_both p tag pasid g addr lg rfl hs.2 h1 h0) rfl
  case accept => exact answers_liveI hs (exec_invalidationAccept i s) (acceptWaiting_room hw hn)
  case complete =>
    exact answers_liveI hs (exec_invalidationComplete i e ls s)
      ((invComplete_finishes hv hd hk hp ls).trans (finishInv_cmd_host hsrc hkey s i.val ls))
  case drainStations => exact answers_liveI hs (exec_drainTimeout i e s) (drainTimeout_stations hv hc hr)
  case drainChannel => exact answers_liveI hs (exec_drainTimeout i e s) (drainTimeout_channel hv hc hst)
  case ack => exact answers_live hup (exec_siteInvAck_awaited k ls h) rfl
  case timeout => exact answers_live hup (exec_siteInvTimeout k ls s) (siteInvTimeout_awaited h ls)

end Sys2Proof.Machine

/-! INV_CMD and the page-table roots (O19). -/
namespace Sys2Proof.Machine

-- One proof after the other: in parallel tasks these small proofs cost the compile of the whole text more memory than time.
set_option Elab.async false

/-! ### The meanings -/

theorem exec_daRange (i : Inst) (a : Acc) (lg : BitVec 6) (s : State) : exec (.daRange i a lg) s = invCmd s i a (.daRange i a lg) fun s k =>
    if lg.toNat < 26 || 50 < lg.toNat then none else some (invRange s i.val lg.toNat (.da (bits k 0 4))) := rfl

theorem exec_daPartition (i : Inst) (a : Acc) (s : State) : exec (.daPartition i a) s = invCmd s i a (.daPartition i a) fun _ k =>
    some (daAll (bits k 0 4)) := rfl

theorem exec_hostRange (i : Inst) (a : Acc) (lg : BitVec 6) (s : State) : exec (.hostRange i a lg) s =
    invCmd s i a (.hostRange i a lg) fun s k => if lg.toNat < 21 then none else some (invRange s i.val lg.toNat (invHost k)) := rfl

theorem exec_hostSpace (i : Inst) (a : Acc) (s : State) : exec (.hostSpace i a) s = invCmd s i a (.hostSpace i a) fun _ k =>
    some { key := invHost k, base := 0, size := 2 ^ 64 } := rfl

theorem exec_hostGroup (i : Inst) (a : Acc) (s : State) : exec (.hostGroup i a) s = invCmd s i a (.hostGroup i a) fun _ k =>
    some { key := .host (bits k 4 2) none, base := 0, size := 2 ^ 64, allSpaces := true } := rfl

theorem exec_ptRootWrite (i : Inst) (p : Part) (a : Acc) (v : W64) (s : State) : exec (.ptRootWrite i p a v) s =
    cmdI s i a (atuPage i.val 0) (.ptRootWrite i p a v) fun s =>
      invalidate (s.setR (atuR i.val 0 (0x80 + 8 * p.val)) (v.toNat &&& 0xffffffffc0001)) i.val .other (daAll p.val) := rfl

/-! ### The gate of INV_CMD (R57, R209) -/

/-- What a command of INV_CMD makes of its scope: the invalidation starts, or a field out of range ends it with BAD_FIELD (R218). -/
def invAnswer (x : State) (i : Nat) : Option InvScope → State
  | none => x.setR (atuR i 0 0x4C) 0x1100
  | some v => invalidate (x.setR (atuR i 0 0x4C) 1) i .cmd v

section
variable {s : State} {i : Inst} (hs : s.Serves i.val) (hf : s.Free (atuPage i.val 0)) (a : Acc) (c : Instr)
  {scope : State → Nat → Option InvScope}
include hs hf

/-- With no command in progress a command of INV_CMD is answered by its scope. -/
theorem invCmd_idle (hb : s.fld (atuR i.val 0 0x4C) 0 1 = 0) :
    invCmd s i a c scope = .next (finish s (invAnswer (clearLatches s (atuPage i.val 0)) i.val
      (scope (clearLatches s (atuPage i.val 0)) (s.r (atuR i.val 0 0x48))))) := by
  have hb' : (clearLatches s (atuPage i.val 0)).fld (atuR i.val 0 0x4C) 0 1 ≠ 1 := fun h => absurd (hb.symm.trans h) (by decide)
  refine (cmdD_serves hs hf a c (by simp [hb]) _).trans ?_
  rw [if_neg hb', invAnswer.eq_def]
  rfl

theorem answers_invCmd {P : State → Prop} (hb : s.fld (atuR i.val 0 0x4C) 0 1 = 0) {o : Option InvScope} (hc : exec c s = invCmd s i a c scope)
    (ho : scope (clearLatches s (atuPage i.val 0)) (s.r (atuR i.val 0 0x48)) = o)
    (hp : P (invAnswer (clearLatches s (atuPage i.val 0)) i.val o)) : Answers c s P :=
  answers (hc.trans (invCmd_idle hs hf a c hb)) (ho ▸ hp)

/-- While a command is in progress another is refused, and leaves the split latch. -/
theorem invCmd_busy (hb : s.fld (atuR i.val 0 0x4C) 0 1 = 1) :
    invCmd s i a c scope =
      .next (finish s { (clearLatches s (atuPage i.val 0)).perr (atuPage i.val 0) 16 with wlatch := s.wlatch }) := by
  have hb' : (clearLatches s (atuPage i.val 0)).fld (atuR i.val 0 0x4C) 0 1 = 1 := hb
  refine (cmdD_drops hs hf a c (by simp [hb]) _).trans ?_
  rw [if_pos hb']

end

/-- Settles O19: the scope of each command, and what the gate of INV_CMD makes of it. -/
theorem invalidationCommands : Obligations.InvalidationCommands := by
  refine ⟨fun i a lg s hs hf hb hlg => ?daRange, fun i a lg s hs hf hb hlg => ?badSize, fun i a lg s hs hf hb => ?busy,
    fun i a s hs hf hb => ?daPartition, fun i a lg s hs hf hb hlg => ?hostRange, fun i a s hs hf hb => ?hostSpace,
    fun i a s hs hf hb => ?hostGroup, fun i p a v s hs hf => ?root⟩
  case daRange => exact answers_invCmd hs hf a _ hb (exec_daRange i a lg s) (if_neg (by simp; omega)) rfl
  case badSize => exact answers_invCmd hs hf a _ hb (exec_daRange i a lg s) (if_pos (by simpa using hlg)) rfl
  case busy => exact answers ((exec_daRange i a lg s).trans (invCmd_busy hs hf a _ hb)) rfl
  case daPartition => exact answers_invCmd hs hf a _ hb (exec_daPartition i a s) rfl rfl
  case hostRange => exact answers_invCmd hs hf a _ hb (exec_hostRange i a lg s) (if_neg (by omega)) rfl
  case hostSpace => exact answers_invCmd hs hf a _ hb (exec_hostSpace i a s) rfl rfl
  case hostGroup => exact answers_invCmd hs hf a _ hb (exec_hostGroup i a s) rfl rfl
  case root => exact answers ((exec_ptRootWrite i p a v s).trans (cmdI_serves hs hf a _ _)) rfl

end Sys2Proof.Machine

/-! What accepting an invalidation leaves in the caches and the station-port tables (O20). -/
namespace Sys2Proof.Machine

-- One proof after the other: in parallel tasks these small proofs cost the compile of the whole text more memory than time.
set_option Elab.async false

/-! ### Tables filtered value by value -/

theorem not_covered_of_mem_mapV {α : Type} {t : Tbl (List α)} {p : α → Bool} {st : Nat × List α}
    (h : st ∈ Tbl.mapV t (List.filter fun e => !p e)) : ∀ e ∈ st.2, p e = false := by
  obtain ⟨u, _, rfl⟩ := List.mem_map.1 h
  exact fun e he => by simpa using (List.mem_filter.1 he).2

theorem exists_mem_mapV_of_not_covered {α : Type} {t : Tbl (List α)} {p : α → Bool} {st : Nat × List α} (h : st ∈ t) {e : α} (he : e ∈ st.2)
    (hp : p e = false) : ∃ u ∈ Tbl.mapV t (List.filter fun e => !p e), u.1 = st.1 ∧ e ∈ u.2 :=
  ⟨_, List.mem_map_of_mem h, rfl, List.mem_filter.2 ⟨he, by simp [hp]⟩⟩

/-! ### The caches (R210, R213) -/

theorem dropCovered_tlb {v : InvScope} (hv : v.site = none) (a : Atu) :
    (dropCovered v a).tlb = Tbl.mapV a.tlb (List.filter fun e => !v.hitsTlb e) := by simp [dropCovered, hv]

theorem dropCovered_atc {v : InvScope} (hv : v.site = none) (a : Atu) :
    (dropCovered v a).atc = Tbl.mapV a.atc (List.filter fun e => !v.hitsAtc e) := by simp [dropCovered, hv]

theorem markOld_atu (s : State) (i : Nat) : (markOld s i).atu = s.atu := by
  unfold markOld
  split <;> rfl

theorem markOld_spt (s : State) (i : Nat) : (markOld s i).spt = s.spt := by
  unfold markOld
  split <;> rfl

/-! ### The state after an acceptance (R210) -/

/-- Whether a station-port table is of a site in a partition of an instance. -/
def homeTable (s : State) (i : Nat) (t : Nat × List SptEnt) : Bool := (partAt s t.1).map Prod.fst == some i

/-- The sites that are to acknowledge an invalidation: those of the instance's partitions whose table holds a covered entry. -/
def sitesCovered (s : State) (i : Nat) (v : InvScope) : List Nat :=
  (s.spt.filter fun t => homeTable s i t && t.2.any (v.hitsSpt t.1)).map Prod.fst

/-- A station-port table without what an invalidation of an instance covers. -/
def tableLeft (s : State) (i : Nat) (v : InvScope) (t : Nat × List SptEnt) : Nat × List SptEnt :=
  if homeTable s i t then (t.1, t.2.filter fun e => !v.hitsSpt t.1 e) else t

/-- What no register, no output and no marking of old units changes is after an acceptance what the ATU and the tables make of it. -/
theorem acceptNow_keeps {β : Type} {f : State → β} (he : ∀ (t : State) o, f (t.emit o) = f t) (hr : ∀ (t : State) k n, f (t.setR k n) = f t)
    (hm : ∀ t : State, f (markOld t i) = f t) (s : State) (src : InvSrc) (v : InvScope) :
    f (acceptNow s i src v) = f { s.updAtu i fun a => { dropCovered v a with
        epoch := ((s.atu.get i).epoch + 1) % 2 ^ 16
        log := ((((s.atu.get i).epoch + 1) % 2 ^ 16, v) :: a.log).take 64
        invs := a.invs ++ [{ src, scope := v, epoch := ((s.atu.get i).epoch + 1) % 2 ^ 16, sites := sitesCovered s i v }] }
      with spt := s.spt.map (tableLeft s i v) } := by
  unfold acceptNow
  refine (hm _).trans ?_
  have hcmd (t : State) (e : Nat) : f (if src == .cmd then t.setFld (atuR i 0 0x4C) 16 16 e else t) = f t := by
    split
    · exact hr _ _ _
    · rfl
  exact (hcmd _ _).trans ((hr _ _ _).trans ((hr _ _ _).trans (foldl_keeps (fun t k => he t _) _ _)))

theorem acceptNow_atu (s : State) (i : Nat) (src : InvSrc) (v : InvScope) :
    (acceptNow s i src v).atu.get i = { dropCovered v (s.atu.get i) with
      epoch := ((s.atu.get i).epoch + 1) % 2 ^ 16
      log := ((((s.atu.get i).epoch + 1) % 2 ^ 16, v) :: (s.atu.get i).log).take 64
      invs := (s.atu.get i).invs ++ [{ src, scope := v, epoch := ((s.atu.get i).epoch + 1) % 2 ^ 16, sites := sitesCovered s i v }] } :=
  (acceptNow_keeps (f := fun t => t.atu.get i) (fun _ _ => rfl) (fun _ _ _ => rfl) (fun t => by rw [markOld_atu]) s src v).trans
    (Two.get_upd_same _ _ _)

theorem acceptNow_spt (s : State) (i : Nat) (src : InvSrc) (v : InvScope) : (acceptNow s i src v).spt = s.spt.map (tableLeft s i v) :=
  acceptNow_keeps (f := State.spt) (fun _ _ => rfl) (fun _ _ _ => rfl) (fun t => markOld_spt t i) s src v

/-- No table of a site in the instance's partitions keeps a covered entry. -/
theorem not_covered_of_tableLeft {s : State} {i : Nat} {v : InvScope} {t : Nat × List SptEnt}
    (h : (partAt s (tableLeft s i v t).1).map Prod.fst = some i) : ∀ e ∈ (tableLeft s i v t).2, v.hitsSpt (tableLeft s i v t).1 e = false := by
  unfold tableLeft at h ⊢
  cases hm : homeTable s i t with
  | true => exact fun e he => by simpa using (List.mem_filter.1 he).2
  | false =>
    have hne : (partAt s t.1).map Prod.fst ≠ some i := beq_eq_false_iff_ne.1 hm
    exact absurd (by simpa [hm] using h) hne

/-- Settles O20: the filters of the two caches and of the tables, and the entries put to the log and to the invalidations in progress. -/
theorem acceptedInvalidationClears : Obligations.AcceptedInvalidationClears := by
  intro s i src v hv
  simp only [acceptNow_atu, acceptNow_spt, dropCovered_tlb hv, dropCovered_atc hv]
  refine ⟨trivial, rfl, ?inProgress, fun st => not_covered_of_mem_mapV, fun st => not_covered_of_mem_mapV, ?tables,
    fun st hst e he hp => exists_mem_mapV_of_not_covered hst he hp⟩
  case inProgress => simp
  case tables =>
    intro st hst
    obtain ⟨t, _, rfl⟩ := List.mem_map.1 hst
    exact not_covered_of_tableLeft

end Sys2Proof.Machine

/-! Stations at the host-line cache: their requests, write-backs and evictions, the GO of a line, and the end of a ring snoop (O27). -/
namespace Sys2Proof.Machine

-- One proof after the other: in parallel tasks these small proofs cost the compile of the whole text more memory than time.
set_option Elab.async false

/-! ### A request of the queue (R266) -/

/-- With no commit at the cache and no station's request ready the front request of the queue is served. -/
theorem exec_hlcAccess_front {i : Inst} {r : HlcReq} {rest : List HlcReq} {s : State} (ha : alive s i.val = true) (hf : fnHeld s i.val .hlc = false)
    (hw : (s.hl i.val).stWait.find? (stReady s) = none) (hq : (s.hl i.val).queue = r :: rest) :
    exec (.hlcAccess i none) s = live s fun s => hlcServe (s.updHlc i.val fun h => { h with queue := rest }) i.val r := by
  change execHlcAccess i none s = _
  simp only [execHlcAccess, live, ha, hf, hw, hq, Bool.not_true, Bool.or_self, Bool.false_eq_true, if_false]

/-! ### A station's request (R202, R214, R267, R269) -/

theorem exec_stationRead (k : Site) (slot : BitVec 6) (tag ctag : BitVec 16) (addr : W64) (so : BitVec 5) (s : State) :
    exec (.stationRead k slot tag ctag addr so) s = live s fun s =>
      stRequest s (stLine k.val slot.toNat tag.toNat ctag.toNat addr.toNat .readS) := rfl

theorem exec_stationOwn (k : Site) (slot : BitVec 6) (tag ctag : BitVec 16) (addr : W64) (so : BitVec 5) (s : State) :
    exec (.stationOwn k slot tag ctag addr so) s = live s fun s =>
      stRequest s (stLine k.val slot.toNat tag.toNat ctag.toNat addr.toNat .readO) := rfl

/-- The entry of a site's table that maps a request for its partition (R214). -/
def mappingOf (s : State) (p : Nat) (q : StWait) : Option SptEnt :=
  (Tbl.getD s.spt q.site []).find? fun e => e.part == p && e.base ≤ q.addr && q.addr + q.len ≤ e.base + e.size

/-- Whether a request needs the write right, which RD_S and a read do not (R269). -/
def StWait.needsWrite (q : StWait) : Bool := match q.kind with | .read => false | .readS => false | _ => true

/-- Whether a table's entry gives the right that a request needs. -/
def StWait.grantedBy (q : StWait) (e : SptEnt) : Bool := if q.needsWrite then e.wr else e.rd

section
variable {s : State} {q : StWait} {h p : Nat} {e : SptEnt} (hp : partAt s q.site = some (h, p))
include hp

/-- Outside the site's table: GLOBAL_UNMAPPED. -/
theorem stRequest_unmapped (hm : mappingOf s p q = none) : stRequest s q = s.emit (.stationErr q.site q.tag 3) := by
  unfold mappingOf at hm
  simp only [stRequest, hp, hm]

/-- A host address of the table: WRITE_DENIED without the right; else translated, unless a commit holds the cache of the home. -/
theorem stRequest_mapped (hm : mappingOf s p q = some e) (hk : e.kind = .hlc ∨ e.kind = .host) :
    stRequest s q =
      if q.grantedBy e then if fnHeld s h .hlc then stPark s (carrier s h) q else stGo s h p q q.needsWrite
      else s.emit (.stationErr q.site q.tag 9) := by
  have hkind : (e.kind != .host && e.kind != .hlc) = false := by rcases hk with hk | hk <;> simp [hk]
  have hright : (q.needsWrite && !e.wr || !q.needsWrite && !e.rd) = !q.grantedBy e := by cases hw : q.needsWrite <;> simp [StWait.grantedBy, hw]
  unfold mappingOf at hm
  simp only [stRequest, hp, hm, hkind, Bool.false_eq_true, if_false]
  change (if (q.needsWrite && !e.wr || !q.needsWrite && !e.rd) = true then _ else if fnHeld s h .hlc = true then _ else stGo s h p q q.needsWrite) = _
  rw [hright]
  cases q.grantedBy e <;> rfl

variable (hm : mappingOf s p q = some e) (hk : e.kind = .hlc ∨ e.kind = .host)
include hm hk

theorem stRequest_denied (hr : q.grantedBy e = false) : stRequest s q = s.emit (.stationErr q.site q.tag 9) := by
  rw [stRequest_mapped hp hm hk, hr]
  rfl

section
variable (hr : q.grantedBy e = true) (hh : fnHeld s h .hlc = false)
include hr hh

theorem stRequest_granted : stRequest s q = stGo s h p q q.needsWrite := by
  rw [stRequest_mapped hp hm hk, hr, hh]
  rfl

/-- With its translation at hand a request is served at the cache of the home's carrier. -/
theorem stRequest_translated {y : State} {u : URec}
    (hx : xlateAt s ⟨h, p, 0, pasidOf s h (q.ctag % 4096)⟩ 0 q.addr (!q.needsWrite) q.needsWrite = (y, .unit u)) :
    stRequest s q = hlcServe y (carrier s h)
      { unit := some u, src := .station q.site q.slot q.tag, kind := q.kind, group := u.hostGroup, addr := u.tbase + (q.addr - u.base),
        left := q.len, bytes := q.bytes, mode := u.mode, part := p } := by
  rw [stRequest_granted hp hm hk hr hh]
  simp only [stGo, hx]

/-- A miss waits in the ATU, with the request kept. -/
theorem stRequest_misses {y : State} {key : XKey} {iova : Nat}
    (hx : xlateAt s ⟨h, p, 0, pasidOf s h (q.ctag % 4096)⟩ 0 q.addr (!q.needsWrite) q.needsWrite = (y, .miss key iova)) :
    stRequest s q = addMiss (stPark y (carrier s h) q) h
      { who := .station q.site q.tag, key, iova, sp := 0, addr := q.addr, needR := !q.needsWrite, needW := q.needsWrite, data := false,
        part := p } := by
  rw [stRequest_granted hp hm hk hr hh]
  simp only [stGo, hx]

end

end

/-! ### Write-backs and evictions of stations (R304) -/

section
variable {s : State} {k : Site} {g : Group} {x : LineAttr} {i : Nat} {l : Line} (hi : lineServer s g.val = some i)
  (hl : s.line? i (lineKey g.val x.hpa.toNat) = some l)
include hi hl

/-- WB_DIRTY at a line that is held: 64 bytes of its owner make it M, without an owner. -/
theorem exec_wbDirty_held (data : List Byte) :
    exec (.wbDirty k g x data) s = live s fun s =>
      if l.owner = some k.val ∧ data.length = 64 then putLine s i (lineKey g.val x.hpa.toNat) { l with st := .m, owner := none, data } else s := by
  change execWbDirty k g x data s = _
  simp [execWbDirty, live, hi, hl]

/-- EVICT_CLEAN at a line that is held: that of its owner leaves no owner. -/
theorem exec_evictClean_held :
    exec (.evictClean k g x) s = live s fun s =>
      if l.owner = some k.val then putLine s i (lineKey g.val x.hpa.toNat) { l with owner := none } else s := by
  change execEvictClean k g x s = _
  simp [execEvictClean, live, hi, hl]

end

/-! ### The GO of a line (R268, R269, R275) -/

/-- The line of a RdShared or RdAny filled by its GO, in the state granted. -/
def goFills (s : State) (i k : Nat) (shared poison : Bool) (data : List Byte) : State :=
  let y := putLine s i k { ((s.line? i k).getD { st := .e }) with st := if shared then .s else .e, data, poison }
  if poison then newPoison y i k 4 else y

/-- The GO of a RdShared or RdAny: the line is filled, and what waits for nothing more goes on. -/
theorem exec_cxlGo_fills {s : State} {g : Group} {hpa : W64} {i port op : Nat} {x : HTxn} {data : List Byte}
    (hx : goTxn s (lineKey g.val hpa.toNat) = some (i, x)) (hc : x.cxl = some (port, op)) (ho : op < 2) (hd : data.length = 64)
    (shared poison : Bool) :
    exec (.cxlGo g hpa shared data poison) s = live s fun s =>
      let k := lineKey g.val hpa.toNat
      dropStray (hlcSettle ((goFills s i k shared poison data).updHlc i fun h =>
        { h with txns := h.txns.map fun v => if v == x then { v with cxl := none } else v }) i k) i k := by
  have h3 : op < 3 := by omega
  change execCxlGo g hpa shared data poison s = _
  simp [execCxlGo, live, hx, hc, ho, h3, hd, goFills]

/-! ### A station's answer to the ring snoop of a line (R270, R304) -/

/-- SNP_RSP of op 0, as the frame that carries it. -/
theorem exec_snpRsp_zero (k : Site) (tag : W32) (g : Group) (hpa : W64) (data : List Byte) (s : State) :
    exec (.snpRsp k tag 0 g hpa data) s = live s fun s => frameIn s k.val (.snpRsp tag.toNat (4 * g.val + 16 * hpa.toNat) data) :=
  congrArg (fun n => live s fun s => frameIn s k.val (.snpRsp tag.toNat (n + 16 * hpa.toNat) data)) (Nat.zero_add (4 * g.val))

/-- A ring snoop of a busy line that waits for the answer of a site under a tag. -/
def awaitedRing (site tag : Nat) (t : HTxn) : Option (HTxn × Ring) := match t.ring with
  | some rg => if rg.tag == tag && rg.sites.contains site then some (t, rg) else none
  | none => none

theorem owner_taken (s : State) (k : Nat) (f : Frame) : owner (taken s k f) k = owner s k := by simp [owner, takeCredit, rxFlit]

theorem onFrame_snpRsp {s : State} {k : Nat} (h : ownerWorks s k = true) (tag op : Nat) (data : List Byte) :
    onFrame (rxFlit s k) k (.snpRsp tag op data) =
      snpRsp (taken s k (.snpRsp tag op data)) k tag (op % 4) (op / 4 % 4) (op / 16) data :=
  if_neg (by simp [ownerWorks_rxFlit, h])

/-- A site that holds nothing is taken off the ring snoop of a line. -/
theorem snpRsp_holdsNothing {s : State} {site tag : Nat} {x : HTxn} {r : Ring} (ha : (s.hl (owner s site)).all = [])
    (hx : (s.hl (owner s site)).txns.findSome? (awaitedRing site tag) = some (x, r)) (g hpa : Nat) :
    snpRsp s site tag 0 g hpa [] = ringAnswered s (owner s site) site x r := by
  simp only [snpRsp, ha, List.find?_nil]
  generalize hf : List.findSome? _ (s.hl (owner s site)).txns = o
  obtain rfl : o = some (x, r) := hf.symm.trans hx
  cases hl : s.line? (owner s site) x.key <;> simp [hl]

/-- Settles O27: how far each request goes at the table and the cache, what each answer makes of its line, and the ring snoop that it ends. -/
theorem stationLinesAndGo : Obligations.StationLinesAndGo := by
  refine ⟨fun i r rest s hup ha hf hw hq => ?front, fun k slot tag ctag addr so h p e y u s hup hp hm hk hh hr hx => ?readUnit,
    fun k slot tag ctag addr so h p e y u s hup hp hm hk hh hr hx => ?ownUnit,
    fun k slot tag ctag addr so h p e y key iova s hup hp hm hk hh hr hx => ?readMiss,
    fun k slot tag ctag addr so h p s hup hp hm => ?readUnmapped, fun k slot tag ctag addr so h p e s hup hp hm hk hr => ?ownDenied,
    fun k g hpa attr data i l s hup hi hl ho hd => ?writeBack, fun k g hpa attr data i l s hup hi hl ho => ?writeBackOther,
    fun k g hpa attr i l s hup hi hl ho => ?evict, fun k g hpa attr i l s hup hi hl ho => ?evictOther,
    fun g hpa sh poison data i port op x s hup hx hc ho hd _ => ?go, fun k tag g hpa x r s hup hf hw ha hx => ?ringAnswer⟩
  case front => exact answers_live hup (exec_hlcAccess_front ha hf hw hq) rfl
  case readUnit =>
    exact answers_live hup (exec_stationRead k slot tag ctag addr so s)
      (stRequest_translated (q := stLine _ _ _ _ _ .readS) hp hm hk hr hh hx)
  case ownUnit =>
    exact answers_live hup (exec_stationOwn k slot tag ctag addr so s)
      (stRequest_translated (q := stLine _ _ _ _ _ .readO) hp hm hk hr hh hx)
  case readMiss =>
    exact answers_live hup (exec_stationRead k slot tag ctag addr so s)
      (stRequest_misses (q := stLine _ _ _ _ _ .readS) hp hm hk hr hh hx)
  case readUnmapped => exact answers_live hup (exec_stationRead k slot tag ctag addr so s) (stRequest_unmapped hp hm)
  case ownDenied => exact answers_live hup (exec_stationOwn k slot tag ctag addr so s) (stRequest_denied hp hm hk hr)
  case writeBack => exact answers_live hup (exec_wbDirty_held hi hl data) (if_pos ⟨ho, hd⟩)
  case writeBackOther => exact answers_live hup (exec_wbDirty_held hi hl data) (if_neg fun h => ho h.1)
  case evict => exact answers_live hup (exec_evictClean_held hi hl) (if_pos ho)
  case evictOther => exact answers_live hup (exec_evictClean_held hi hl) (if_neg ho)
  case go => exact answers_live hup (exec_cxlGo_fills hx hc ho hd sh poison) rfl
  case ringAnswer =>
    have hop : (4 * g.val + 16 * hpa.toNat) % 4 = 0 := by omega
    refine answers_frame hup hf (exec_snpRsp_zero k tag g hpa [] s) ?_
    rw [onFrame_snpRsp hw, hop, snpRsp_holdsNothing (x := x) (r := r), owner_taken]
    · rw [owner_taken]; exact ha
    · rw [owner_taken]; exact hx

end Sys2Proof.Machine

/-! Page requests and their responses, the interval of the access counters, and the life of a migration hold (O24). -/
namespace Sys2Proof.Machine

-- One proof after the other: in parallel tasks these small proofs cost the compile of the whole text more memory than time.
set_option Elab.async false

/-! ### Page requests (R226, R227, R230) -/

theorem exec_pageRequestSend (i : Inst) (s : State) : exec (.pageRequestSend i) s = liveF s i.val .prq fun s => sendWaiting s i.val := rfl

theorem exec_prgResponse (p : Port) (pasid : Option (BitVec 20)) (idx : BitVec 9) (code : BitVec 4) (s : State) :
    exec (.prgResponse p pasid idx code) s = execPrgResponse p pasid idx code s := rfl

/-- A Success goes to the group that the response matches (R227). -/
theorem exec_prgResponse_matched {p : Port} {pasid : Option (BitVec 20)} {idx : BitVec 9} {i n : Nat} {g : Prg} {s : State} (h : s.Up)
    (hm : prgMatch s p.val (pasid.map BitVec.toNat) idx.toNat = some (i, n, g)) :
    exec (.prgResponse p pasid idx 0) s = .next (finish s (prgAnswer s i p.val n 0 g)) := by
  rw [exec_prgResponse, execPrgResponse, live_up h, if_neg (by decide), hm]
  rfl

/-- A response that matches no group is unexpected (R227). -/
theorem exec_prgResponse_unmatched {p : Port} {pasid : Option (BitVec 20)} {idx : BitVec 9} {s : State} (h : s.Up)
    (hm : prgMatch s p.val (pasid.map BitVec.toNat) idx.toNat = none) : exec (.prgResponse p pasid idx 0) s =
      .next (finish s ((s.updPort p.val fun x => { x with uprgi := true }).perr (prqPage (idx.toNat / 256)) 16)) := by
  rw [exec_prgResponse, execPrgResponse, live_up h, if_neg (by decide), hm]

theorem exec_prqTimeout (i : Inst) (n : Nat) (s : State) : exec (.prqTimeout i n) s = liveI s i.val fun s => prqTimeout s i.val n := rfl

/-- Success for a group that is not quarantined (R227, R228). -/
theorem prgAnswer_success {g : Prg} (h : g.quarantined = false) (s : State) (i p n : Nat) :
    prgAnswer s i p n 0 g = freePrg ((prgWaits s i n).foldl (fun t m =>
      wake (noteSuccess t i m g.chunk ((prgWaits s i n).any Miss.needR) ((prgWaits s i n).any Miss.needW)) i m) (dropChunk s i g.group g.pasid g.chunk)) i n := by
  simp [prgAnswer, h]

/-- The timeout of a group that was sent under one (R230, R232). -/
theorem prqTimeout_sent {s : State} {i n : Nat} {g : Prg} (hg : Tbl.find (s.prq.get i).groups n = some g) (hq : g.quarantined = false)
    (hp : g.port.isSome = true) (ht : g.timeout ≠ 0) :
    prqTimeout s i n = (prqFail ((((prgWaits s i n).foldl (fun t m => failWho t i m.who 19 m.sp m.addr) s).updPrq i fun x =>
      { x with groups := Tbl.put x.groups n { g with quarantined := true } }).bump (prqR i 0x68) 1) i g 19).irq (prqPage i) 17 := by
  simp [prqTimeout, hg, hq, Option.isSome_iff_ne_none.1 hp, ht]

/-! ### The interval of the access counters (R234) -/

theorem exec_accInterval (i : Inst) (s : State) : exec (.accInterval i) s = liveF s i.val .acc fun s => accInterval s i.val := rfl

/-- An entry after an interval: both counts halved; reported, it may report again below half its threshold. -/
def AccEnt.halved (s : State) (i : Nat) (e : AccEnt) : AccEnt :=
  { e with total := e.total / 2, writes := e.writes / 2, reported := e.reported && !(2 * (e.total / 2) < accThresh s i e.key) }

/-- The entries of a set that an interval leaves. -/
def setHalved (s : State) (i : Nat) (l : List AccEnt) : List AccEnt := (l.map (AccEnt.halved s i)).filter fun x => x.total != 0

theorem accInterval_sets (s : State) (i : Nat) : ((accInterval s i).acc.get i).sets =
    (s.acc.get i).sets.filterMap fun e => if (setHalved s i e.2).isEmpty then none else some (e.1, setHalved s i e.2) := by
  simp only [accInterval, showEntries, State.setFld_acc, Two.get_upd_same]
  rfl

theorem mem_setHalved {s : State} {i : Nat} {l : List AccEnt} {e : AccEnt} :
    e ∈ setHalved s i l ↔ e.total ≠ 0 ∧ ∃ o ∈ l, o.halved s i = e := by
  rw [setHalved, List.mem_filter, List.mem_map, bne_iff_ne, and_comm]

/-- The sets that an interval leaves are those with entries left, under their old indices. -/
theorem mem_sets_accInterval {s : State} {i : Nat} {st : Nat × List AccEnt} : st ∈ ((accInterval s i).acc.get i).sets ↔
    ∃ su ∈ (s.acc.get i).sets, setHalved s i su.2 ≠ [] ∧ (su.1, setHalved s i su.2) = st := by
  rw [accInterval_sets, List.mem_filterMap]
  exact exists_congr fun su => and_congr_right fun _ => by
    rw [Option.ite_none_left_eq_some, List.isEmpty_iff, Option.some_inj]

/-- What an interval leaves is an old entry of the set, its counts halved. -/
theorem accInterval_entry {s : State} {i : Nat} {st : Nat × List AccEnt} (h : st ∈ ((accInterval s i).acc.get i).sets) {e : AccEnt} (he : e ∈ st.2) :
    e.total ≠ 0 ∧ ∃ su ∈ (s.acc.get i).sets, su.1 = st.1 ∧
      ∃ o ∈ su.2, o.key = e.key ∧ o.page = e.page ∧ e.total = o.total / 2 ∧ e.writes = o.writes / 2 := by
  obtain ⟨su, hsu, -, rfl⟩ := mem_sets_accInterval.1 h
  obtain ⟨ht, o, ho, rfl⟩ := mem_setHalved.1 he
  exact ⟨ht, su, hsu, rfl, o, ho, rfl, rfl, rfl, rfl⟩

/-- An entry whose total halves to more than 0 stays. -/
theorem accInterval_keeps {s : State} {i : Nat} {su : Nat × List AccEnt} (h : su ∈ (s.acc.get i).sets) {o : AccEnt} (ho : o ∈ su.2) (ht : 2 ≤ o.total) :
    ∃ st ∈ ((accInterval s i).acc.get i).sets, st.1 = su.1 ∧ ∃ e ∈ st.2, e.key = o.key ∧ e.page = o.page := by
  have hm : o.halved s i ∈ setHalved s i su.2 := mem_setHalved.2 ⟨(Nat.div_pos ht two_pos).ne', o, ho, rfl⟩
  exact ⟨_, mem_sets_accInterval.2 ⟨su, h, List.ne_nil_of_mem hm, rfl⟩, rfl, _, hm, rfl, rfl⟩

/-! ### Migration holds (R236-R238, R240) -/

theorem exec_hold (i : Inst) (a : Acc) (s : State) : exec (.hold i a) s =
    cmdD s i a (accPage i.val) (.hold i a) (fun s => holdBad s i.val) fun s => holdCmd s i.val := rfl

theorem exec_quiet (i : Inst) (h : Fin 8) (s : State) : exec (.quiet i h) s = liveI s i.val fun s =>
    if (holdOf s i.val h.val).st = 1 && holdQuiet s i.val (holdOf s i.val h.val) then
      (setHold s i.val h.val { holdOf s i.val h.val with st := 2 }).irq (accPage i.val) 17 else s := rfl

theorem exec_migLimitExpiry (i : Inst) (h : Fin 8) (s : State) :
    exec (.migLimitExpiry i h) s = liveI s i.val fun s => migExpiry s i.val h.val := rfl

theorem exec_release (i : Inst) (a : Acc) (ls : List Leaf) (s : State) : exec (.release i a ls) s =
    cmdD s i a (accPage i.val) (.release i a ls) (fun s => (holdOf s i.val (s.fld (accR i.val 0x100) 0 3)).st = 0) fun s =>
      if (holdOf s i.val (s.fld (accR i.val 0x100) 0 3)).st = 0 then s.perr (accPage i.val) 16
      else releaseHold s i.val (s.fld (accR i.val 0x100) 0 3) ls := rfl

/-- An update that leaves the value of an instance leaves the pair. -/
theorem Two.upd_eq_self {α : Type} {t : Two α} {i : Nat} {f : α → α} (h : f (t.get i) = t.get i) : t.upd i f = t := by
  unfold Two.upd
  rw [h]
  unfold Two.set Two.get
  split <;> rfl

section
variable {s : State} {i n : Nat}

/-- A free slot takes a key of a DA with a size of R240 and no exempt queue. -/
theorem holdBad_da (hst : (holdOf s i (s.fld (accR i 0x100) 0 3)).st = 0) (hk : bitAt (s.r (accR i 0x108)) 0 = false)
    (hz : 26 ≤ s.fld (accR i 0x118) 0 6 ∧ s.fld (accR i 0x118) 0 6 ≤ 50) (hx : bitAt (s.r (accR i 0x118)) 31 = false) : holdBad s i = false := by
  obtain ⟨hlo, hhi⟩ := hz
  rw [State.fld] at hlo hhi
  simp [holdBad, hst, hk, hx, hlo, hhi]

theorem holdBad_used (hst : (holdOf s i (s.fld (accR i 0x100) 0 3)).st ≠ 0) : holdBad s i = true := by
  rw [holdBad, bne_iff_ne.2 hst, Bool.or_true, Bool.true_or]

theorem holdCmd_da (hb : holdBad s i = false) (hk : bitAt (s.r (accR i 0x108)) 0 = false) (hx : bitAt (s.r (accR i 0x118)) 31 = false) :
    holdCmd s i = setHold s i (s.fld (accR i 0x100) 0 3)
      { st := 1, key := .da (s.fld (accR i 0x108) 4 4), base := alignDown (s.r (accR i 0x110)) (2 ^ s.fld (accR i 0x118) 0 6)
        log2 := s.fld (accR i 0x118) 0 6 } := by
  simp [holdCmd, hb, hk, hx, State.fld]

theorem holdCmd_refused (hb : holdBad s i = true) : holdCmd s i = s.perr (accPage i) 16 := if_pos hb

/-- A hold without waiters lets nothing go. -/
theorem freeHold_noWaiters {st : Nat} (hw : (holdOf s i n).waiters = []) (hst : st ≠ 0) :
    freeHold s i n st = setHold s i n { holdOf s i n with st, waiters := [] } := by
  have hacc : (s.acc.upd i fun a => { a with released := a.released.filter (!(holdOf s i n).waiters.contains ·) ++ (holdOf s i n).waiters }) =
      s.acc := Two.upd_eq_self (by simp [hw])
  rw [freeHold, hacc, if_neg hst]

theorem migExpiry_noWaiters (ha : (holdOf s i n).active = true) (hw : (holdOf s i n).waiters = []) :
    migExpiry s i n = (setHold s i n { holdOf s i n with st := 3, waiters := [] }).irq (accPage i) 18 := by
  simp [migExpiry, ha, hw, freeHold_noWaiters]

/-- The release of a host hold loads no entries. -/
theorem releaseHold_host {g : Nat} {p : Option Nat} (hk : (holdOf s i n).key = .host g p) (ls : List Leaf) :
    releaseHold s i n ls = freeHold s i n 0 := by
  simp [releaseHold, hk]

end

/-- Settles O24: each command's meaning behind its gate, its guards met. -/
theorem pageRequestsAndHolds : Obligations.PageRequestsAndHolds := by
  refine ⟨fun i s hs hf => ?send, fun p pasid idx i n g s hup hm hq => ?success, fun p pasid idx s hup hm => ?unmatched,
    fun i n g s hs hg hq hp ht => ?timeout, fun i s hs hf => ?interval, fun i a s hs hf hst hk hz hx => ?hold, fun i a s hs hf hst => ?holdUsed,
    fun i h s hs hst hq => ?quiet, fun i h s hs ha hw => ?expiry, fun i a ls g p s hs hf hst hk => ?release,
    fun i a ls s hs hf hst => ?releaseFree⟩
  case send => exact answers_liveF hs hf (exec_pageRequestSend i s) rfl
  case success => exact answers (exec_prgResponse_matched hup hm) (prgAnswer_success hq s i p.val n)
  case unmatched => exact answers (exec_prgResponse_unmatched hup hm) rfl
  case timeout => exact answers_liveI hs (exec_prqTimeout i n s) (prqTimeout_sent hg hq hp ht)
  case interval =>
    exact answers_liveF hs hf (exec_accInterval i s) ⟨fun st hst e he => accInterval_entry hst he, fun su hsu o ho => accInterval_keeps hsu ho⟩
  case hold =>
    have hb : holdBad s i.val = false := holdBad_da hst hk hz hx
    exact answers ((exec_hold i a s).trans (cmdD_serves hs hf a _ hb _)) (holdCmd_da (s := clearLatches s (accPage i.val)) hb hk hx)
  case holdUsed =>
    have hb : holdBad s i.val = true := holdBad_used hst
    refine answers ((exec_hold i a s).trans (cmdD_drops hs hf a _ hb _)) ?_
    rw [holdCmd_refused (s := clearLatches s (accPage i.val)) hb]
  case quiet => exact answers_liveI hs (exec_quiet i h s) (if_pos (Bool.and_eq_true_iff.2 ⟨decide_eq_true hst, hq⟩))
  case expiry => exact answers_liveI hs (exec_migLimitExpiry i h s) (migExpiry_noWaiters ha hw)
  case release =>
    refine answers ((exec_release i a ls s).trans (cmdD_serves hs hf a _ (decide_eq_false hst) _)) ?_
    exact (if_neg hst).trans (releaseHold_host (s := clearLatches s (accPage i.val)) hk ls)
  case releaseFree =>
    refine answers ((exec_release i a ls s).trans (cmdD_drops hs hf a _ (decide_eq_true hst) _)) ?_
    rw [if_pos (show (holdOf (clearLatches s (accPage i.val)) i.val ((clearLatches s (accPage i.val)).fld (accR i.val 0x100) 0 3)).st = 0 from hst)]

end Sys2Proof.Machine

/-! The coherent groups of a host-line cache, CLEAN and DROP with their flush, dead sites, and the tags of the partner (O26). -/
namespace Sys2Proof.Machine

-- One proof after the other: in parallel tasks these small proofs cost the compile of the whole text more memory than time.
set_option Elab.async false

/-! ### The meanings -/

theorem exec_groupCfgWrite (i : Inst) (a : Acc) (v : W32) (s : State) : exec (.groupCfgWrite i a v) s =
    cmdD s i a (hlcPage i.val) (.groupCfgWrite i a v) (fun s => groupCfgBad s (carrier s i.val) v.toNat)
      fun s => setGroupCfg s (carrier s i.val) v.toNat := rfl

/-- FLUSH_CMD written with an operation: 1 is CLEAN, 2 is DROP (R279). -/
abbrev flushCmd (s : State) (i : Inst) (a : Acc) (c : Instr) (op g : Nat) : Host.Outcome State Fault Refusal :=
  cmdD s i a (hlcPage i.val) c (fun s => hlcBusy s (carrier s i.val)) fun s => hlcFlush s (carrier s i.val) op g

theorem exec_clean (i : Inst) (a : Acc) (g : Group) (s : State) :
    exec (.clean i a g) s = flushCmd s i a (.clean i a g) 1 g.val := rfl

theorem exec_drop (i : Inst) (a : Acc) (g : Group) (s : State) :
    exec (.drop i a g) s = flushCmd s i a (.drop i a g) 2 g.val := rfl

theorem exec_hlcFlushDone_alive {i : Inst} {s : State} (h : alive s i.val = true) :
    exec (.hlcFlushDone i) s = live s fun s => flushStep s i.val := by
  change execHlcFlushDone i s = _
  simp only [execHlcFlushDone, live, h, if_true]

theorem exec_deadSiteReadmit (i : Inst) (a : Acc) (k : Site) (s : State) : exec (.deadSiteReadmit i a k) s =
    cmdI s i a (hlcPage i.val) (.deadSiteReadmit i a k) fun s => s.setFld (hlcR (carrier s i.val) 0x5C) k.val 1 0 := rfl

theorem exec_partnerTagEvict_alive {i : Inst} {s : State} (h : alive s i.val = true) :
    exec (.partnerTagEvict i) s = live s fun s => evictTag s i.val := by
  change execPartnerTagEvict i s = _
  simp only [execPartnerTagEvict, live, h, if_true]

/-! ### GROUP_CFG (R263) -/

/-- A value would set the bit of a group that the partner has set. -/
def setsPartners (s : State) (i v g : Nat) : Prop :=
  bitAt (v % 16) g = true ∧ bitAt (s.r (hlcR i 0x40)) g = false ∧ cohEn s (partner i) g = true

/-- A value would clear the bit of a group with a held line. -/
def clearsHeld (s : State) (i v g : Nat) : Prop :=
  bitAt (v % 16) g = false ∧ bitAt (s.r (hlcR i 0x40)) g = true ∧ (s.hl i).lines.any (fun e => keyGroup e.1 == g) = true

theorem groupCfgBad_iff {s : State} {i v : Nat} :
    groupCfgBad s i v = true ↔ ∃ g : Fin 4, setsPartners s i v g.val ∨ clearsHeld s i v g.val := by
  simp only [groupCfgBad, List.any_eq_true, List.mem_range, Bool.or_eq_true, Bool.and_eq_true, Bool.not_eq_true', setsPartners, clearsHeld,
    and_assoc, Fin.exists_iff, exists_prop]

/-- A value is taken where it does neither for any group. -/
theorem groupCfgBad_eq_false {s : State} {i v : Nat}
    (hset : ∀ g : Fin 4, bitAt (v % 16) g.val = true → bitAt (s.r (hlcR i 0x40)) g.val = true ∨ cohEn s (partner i) g.val = false)
    (hclr : ∀ g : Fin 4, bitAt (v % 16) g.val = false →
      bitAt (s.r (hlcR i 0x40)) g.val = false ∨ (s.hl i).lines.any (fun e => keyGroup e.1 == g.val) = false) :
    groupCfgBad s i v = false := by
  refine Bool.eq_false_iff.2 fun h => ?_
  obtain ⟨g, ⟨hnew, hold, hp⟩ | ⟨hnew, hold, hl⟩⟩ := groupCfgBad_iff.1 h
  · obtain ho | hq := hset g hnew
    · exact Bool.false_ne_true (hold.symm.trans ho)
    · exact Bool.false_ne_true (hq.symm.trans hp)
  · obtain ho | hq := hclr g hnew
    · exact Bool.false_ne_true (ho.symm.trans hold)
    · exact Bool.false_ne_true (hq.symm.trans hl)

/-- A value that is refused only sets cfg_refused, and leaves the split latch. -/
theorem answers_groupCfg_refused {i : Inst} {a : Acc} {v : W32} {s : State} (hs : s.Serves i.val) (hf : s.Free (hlcPage i.val))
    (hb : groupCfgBad s (carrier s i.val) v.toNat = true) : Answers (.groupCfgWrite i a v) s fun t =>
      t = { (clearLatches s (hlcPage i.val)).perr (hlcPage (carrier s i.val)) 16 with wlatch := s.wlatch } := by
  refine answers ((exec_groupCfgWrite i a v s).trans (cmdD_drops hs hf a _ hb _)) ?_
  rw [clearLatches_carrier, setGroupCfg, if_pos]
  exact hb

/-! ### CLEAN and DROP (R279) -/

section FlushCmd
variable {s : State} {i op g : Nat}

theorem hlcBusy_eq_false (h : s.fld (hlcR i 0x50) 0 1 = 0) : hlcBusy s i = false := by simp [hlcBusy, h]

theorem hlcBusy_eq_true (h : s.fld (hlcR i 0x50) 0 1 = 1) : hlcBusy s i = true := by simp [hlcBusy, h]

theorem hlcFlush_begins (hb : hlcBusy s i = false) (hop : op = 1 ∨ op = 2) (hc : cohEn s i g = true) : hlcFlush s i op g =
    flushRing ((s.setR (hlcR i 0x50) 1).updHlc i fun h => { h with flush := some (op, g) }) i g 1 .flush := by
  obtain rfl | rfl := hop <;> simp [hlcFlush, hb, hc]

theorem hlcFlush_notCoherent (hb : hlcBusy s i = false) (hop : op = 1 ∨ op = 2) (hc : cohEn s i g = false) :
    hlcFlush s i op g = s.setR (hlcR i 0x50) 0x1000 := by
  obtain rfl | rfl := hop <;> simp [hlcFlush, hb, hc]

theorem hlcFlush_busy (hb : hlcBusy s i = true) : hlcFlush s i op g = s.perr (hlcPage i) 17 := if_pos hb

end FlushCmd

section
variable {s : State} {i : Inst} (hs : s.Serves i.val) (hf : s.Free (hlcPage i.val)) {a : Acc} {c : Instr} {op g : Nat}
  (hc : exec c s = flushCmd s i a c op g)
include hs hf hc

/-- While no flush runs the command has its effect. -/
theorem answers_flushCmd_idle (hb : s.fld (hlcR (carrier s i.val) 0x50) 0 1 = 0) {P : State → Prop}
    (hp : P (hlcFlush (clearLatches s (hlcPage i.val)) (carrier s i.val) op g)) : Answers c s P :=
  answers (hc.trans (cmdD_serves hs hf a c (hlcBusy_eq_false hb) _)) hp

/-- While one runs the command only sets cmd_refused, and leaves the split latch. -/
theorem answers_flushCmd_busy (hb : s.fld (hlcR (carrier s i.val) 0x50) 0 1 = 1) : Answers c s fun t =>
    t = { (clearLatches s (hlcPage i.val)).perr (hlcPage (carrier s i.val)) 17 with wlatch := s.wlatch } := by
  refine answers (hc.trans (cmdD_drops hs hf a c (hlcBusy_eq_true hb) _)) ?_
  rw [clearLatches_carrier, hlcFlush_busy]
  exact hlcBusy_eq_true hb

end

/-! ### The steps and the end of a flush (R279) -/

section Flush
variable {s : State} {i op g : Nat}

theorem flushStep_none (h : (s.hl i).flush = none) : flushStep s i = s := by simp [flushStep, h]

/-- While a line of the group has an owner the snoops due are sent. -/
theorem flushStep_owned (h : (s.hl i).flush = some (op, g)) (ho : (s.hl i).lines.any (fun e => keyGroup e.1 == g && e.2.owner.isSome) = true) :
    flushStep s i = flushRing s i g 1 .flush := by
  simp [flushStep, h, ho]

theorem writeBack_nothing (h : ∀ e ∈ (s.hl i).lines, keyGroup e.1 = g → e.2.st ≠ .m) : writeBack s i g = s := by
  have hn : ((s.hl i).lines.filter fun e => keyGroup e.1 == g && e.2.st == .m && e.2.owner.isNone && !lineBusy s i e.1) = [] := by
    simp only [List.filter_eq_nil_iff, Bool.and_eq_true, beq_iff_eq]
    rintro e he ⟨⟨⟨hg, hm⟩, -⟩, -⟩
    exact h e he hg hm
  rw [writeBack, hn]
  rfl

/-- A group without lines has none to snoop. -/
theorem flushRing_noLines (h : ∀ e ∈ (s.hl i).lines, keyGroup e.1 ≠ g) (n : Nat) (w : HWork) : flushRing s i g n w = s := by
  have hn : ((s.hl i).lines.filterMap fun e =>
      if keyGroup e.1 == g && (if n = 1 then e.2.owner.isSome else e.2.shared) && !lineBusy s i e.1 then some e.1 else none) = [] := by
    refine List.filterMap_eq_nil_iff.2 fun e he => if_neg ?_
    simp [h e he]
  rw [flushRing, hn, List.take_nil]
  rfl

/-- What a DROP does with the lines of its group after the write-backs: evicts them, and snoops those that a station shares. -/
def dropLines (s : State) (i g : Nat) : State :=
  let ks := ((s.hl i).lines.filter fun e => keyGroup e.1 == g && !e.2.shared && !lineBusy s i e.1).map Prod.fst
  flushRing (ks.foldl (fun s k => evictNow s i k) s) i g 0 .evict

theorem dropLines_noLines (h : ∀ e ∈ (s.hl i).lines, keyGroup e.1 ≠ g) : dropLines s i g = s := by
  have hn : ((s.hl i).lines.filter fun e => keyGroup e.1 == g && !e.2.shared && !lineBusy s i e.1) = [] := by
    refine List.filter_eq_nil_iff.2 fun e he => ?_
    simp [h e he]
  rw [dropLines, hn]
  exact flushRing_noLines h 0 .evict

/-- The flush after the write-backs, and for a DROP after the evictions. -/
def flushed (s : State) (i op g : Nat) : State := if op = 2 then dropLines (writeBack s i g) i g else writeBack s i g

/-- Whether a line of the group is left for the flush to write back or, in a DROP, to evict. -/
def flushLeft (s : State) (i op g : Nat) : Bool := (s.hl i).lines.any fun e => keyGroup e.1 == g && (op == 2 || e.2.st == .m)

/-- With no owner left to snoop the flush goes on, and ends if no line is left. -/
theorem flushStep_unowned (h : (s.hl i).flush = some (op, g))
    (ho : (s.hl i).lines.any (fun e => keyGroup e.1 == g && e.2.owner.isSome) = false)
    (ht : (s.hl i).txns.any (fun t => keyGroup t.key == g && t.work == .flush) = false) :
    flushStep s i = if flushLeft (flushed s i op g) i op g then flushed s i op g
      else (((flushed s i op g).updHlc i fun h => { h with flush := none }).setR (hlcR i 0x50) 0x100).irq (hlcPage i) 18 := by
  simp only [flushStep, h, ho, ht, Bool.or_self, Bool.false_eq_true, if_false]
  rfl

/-- A flush whose group has nothing left to do ends. -/
theorem flushStep_ends (h : (s.hl i).flush = some (op, g)) (hop : op = 1 ∨ op = 2)
    (ht : (s.hl i).txns.any (fun t => keyGroup t.key == g && t.work == .flush) = false)
    (hl : ∀ e ∈ (s.hl i).lines, keyGroup e.1 = g → op = 1 ∧ e.2.owner = none ∧ e.2.st ≠ .m) :
    flushStep s i = ((s.updHlc i fun h => { h with flush := none }).setR (hlcR i 0x50) 0x100).irq (hlcPage i) 18 := by
  have howned : ((s.hl i).lines.any fun e => keyGroup e.1 == g && e.2.owner.isSome) = false := by
    simp only [List.any_eq_false, Bool.and_eq_true, beq_iff_eq]
    rintro e he ⟨hg, ho⟩
    obtain ⟨-, hnone, -⟩ := hl e he hg
    simp [hnone] at ho
  have hback : writeBack s i g = s := writeBack_nothing fun e he hg => (hl e he hg).2.2
  have hflushed : flushed s i op g = s := by
    rw [flushed, hback]
    obtain rfl | rfl := hop
    case inl => rfl
    case inr => exact dropLines_noLines fun e he hg => absurd (hl e he hg).1 (by decide)
  have hleft : flushLeft s i op g = false := by
    simp only [flushLeft, List.any_eq_false, Bool.and_eq_true, Bool.or_eq_true, beq_iff_eq]
    rintro e he ⟨hg, hdrop | hm⟩
    · exact absurd (hdrop.symm.trans (hl e he hg).1) (by decide)
    · exact (hl e he hg).2.2 hm
  rw [flushStep_unowned h howned ht, hflushed, hleft]
  rfl

end Flush

/-! ### The partner's tags (R278) -/

/-- What holds the partner's tags back: the SNP_INV_ALL of a takeover, or a site taken over that has not moved. -/
def tagsWait (s : State) (i : Nat) : Bool :=
  (((s.hl i).all ++ (s.hl i).due).any fun r => r.op == 4) || (List.range 12).any fun k => (s.site k).taking == some i

/-- A tag evicted: a dirty one as poison, which counts, with its line lost. -/
def evictPartnerTag (s : State) (i k : Nat) : LineSt → State
  | .m => (newPoison (sendCxl s i 8 k (List.replicate 64 0) true) i k 3).bump (hlcR i 0x88) 1
  | .e => sendCxl s i 7 k [] false
  | .s => sendCxl s i 6 k [] false

section Tags
variable {s : State} {i : Nat}

theorem taking_any_iff : ((List.range 12).any fun k => (s.site k).taking == some i) = true ↔ ∃ k : Fin 12, (s.site k.val).taking = some i := by
  simp only [List.any_eq_true, List.mem_range, beq_iff_eq, Fin.exists_iff, exists_prop]

theorem tagsWait_iff : tagsWait s i = true ↔
    ((s.hl i).all ++ (s.hl i).due).any (fun r => r.op == 4) = true ∨ ∃ k : Fin 12, (s.site k.val).taking = some i := by
  rw [tagsWait, Bool.or_eq_true, taking_any_iff]

theorem evictTag_waits (h : tagsWait s i = true) : evictTag s i = s := if_pos h

theorem evictTag_none (h : (s.hl i).ptags = []) : evictTag s i = s := by simp [evictTag, h]

/-- The next tag is evicted once nothing holds the tags back. -/
theorem evictTag_next {k : Nat} {st : LineSt} {r : Tbl LineSt} (hall : (s.hl i).all = []) (hdue : (s.hl i).due = [])
    (hk : ∀ k : Fin 12, (s.site k.val).taking ≠ some i) (ht : (s.hl i).ptags = (k, st) :: r) :
    evictTag s i = evictPartnerTag (s.updHlc i fun h => { h with ptags := r }) i k st := by
  have hw : ¬ tagsWait s i = true := fun h => by
    obtain hany | ⟨j, hj⟩ := tagsWait_iff.1 h
    · simp [hall, hdue] at hany
    · exact hk j hj
  refine (if_neg hw).trans ?_
  rw [ht]
  cases st <;> rfl

end Tags

/-- Settles O26: what the gate of each command lets through, the end of a flush that finds nothing to do, and the tag evicted by its state. -/
theorem cacheCommandsAct : Obligations.CacheCommandsAct := by
  refine ⟨fun i a v s hs hf hset hclr => ?cfg, fun i a v g s hs hf hnew hold hp => ?cfgPartner, fun i a v g s hs hf hnew hold hl => ?cfgHeld,
    fun i a g s hs hf hb hc => ?clean, fun i a g s hs hf hb hc => ?cleanNot, fun i a g s hs hf hb => ?cleanBusy,
    fun i a g s hs hf hb hc => ?drop, fun i a g s hs hf hb hc => ?dropNot, fun i a g s hs hf hb => ?dropBusy,
    fun i s hup ha hn => ?noFlush, fun i op g s hup ha hfl ho => ?owned, fun i op g s hup ha hfl hop ht hl => ?ends,
    fun i a k s hs hf => ?readmit, fun i k r s hup ha hall hdue hk ht => ?tagM, fun i k r s hup ha hall hdue hk ht => ?tagE,
    fun i k r s hup ha hall hdue hk ht => ?tagS, fun i s hup ha hw => ?noTag⟩
  case cfg =>
    have hb : groupCfgBad s (carrier s i.val) v.toNat = false := groupCfgBad_eq_false hset hclr
    exact answers ((exec_groupCfgWrite i a v s).trans (cmdD_serves hs hf a _ hb _)) (if_neg (Bool.eq_false_iff.1 hb))
  case cfgPartner => exact answers_groupCfg_refused hs hf (groupCfgBad_iff.2 ⟨g, .inl ⟨hnew, hold, hp⟩⟩)
  case cfgHeld => exact answers_groupCfg_refused hs hf (groupCfgBad_iff.2 ⟨g, .inr ⟨hnew, hold, hl⟩⟩)
  case clean => exact answers_flushCmd_idle hs hf (exec_clean i a g s) hb (hlcFlush_begins (hlcBusy_eq_false hb) (.inl rfl) hc)
  case cleanNot => exact answers_flushCmd_idle hs hf (exec_clean i a g s) hb (hlcFlush_notCoherent (hlcBusy_eq_false hb) (.inl rfl) hc)
  case cleanBusy => exact answers_flushCmd_busy hs hf (exec_clean i a g s) hb
  case drop => exact answers_flushCmd_idle hs hf (exec_drop i a g s) hb (hlcFlush_begins (hlcBusy_eq_false hb) (.inr rfl) hc)
  case dropNot => exact answers_flushCmd_idle hs hf (exec_drop i a g s) hb (hlcFlush_notCoherent (hlcBusy_eq_false hb) (.inr rfl) hc)
  case dropBusy => exact answers_flushCmd_busy hs hf (exec_drop i a g s) hb
  case noFlush => exact answers_live hup (exec_hlcFlushDone_alive ha) (flushStep_none hn)
  case owned => exact answers_live hup (exec_hlcFlushDone_alive ha) (flushStep_owned hfl ho)
  case ends => exact answers_live hup (exec_hlcFlushDone_alive ha) (flushStep_ends hfl hop ht hl)
  case readmit => exact answers ((exec_deadSiteReadmit i a k s).trans (cmdI_serves hs hf a _ _)) rfl
  case tagM => exact answers_live hup (exec_partnerTagEvict_alive ha) (evictTag_next hall hdue hk ht)
  case tagE => exact answers_live hup (exec_partnerTagEvict_alive ha) (evictTag_next hall hdue hk ht)
  case tagS => exact answers_live hup (exec_partnerTagEvict_alive ha) (evictTag_next hall hdue hk ht)
  case noTag =>
    refine answers_live hup (exec_partnerTagEvict_alive ha) ?_
    obtain hn | hw := hw
    · exact evictTag_none hn
    · exact evictTag_waits (tagsWait_iff.2 hw)

end Sys2Proof.Machine

/-! Allowances of a command on a site, HOST_FLUSHED, and a site that does not answer a ring snoop (O31). -/
namespace Sys2Proof.Machine

-- One proof after the other: in parallel tasks these small proofs cost the compile of the whole text more memory than time.
set_option Elab.async false

/-! ### The meanings -/

theorem exec_stationAllowanceExpiry (k : Site) (slot : BitVec 6) (s : State) :
    exec (.stationAllowanceExpiry k slot) s = live s fun s => allowanceOver s k.val slot.toNat := rfl

theorem exec_killAllowanceExpiry (k : Site) (slot : BitVec 6) (s : State) :
    exec (.killAllowanceExpiry k slot) s = live s fun s => killOver s k.val slot.toNat := rfl

theorem exec_purgeTimeout (k : Site) (s : State) : exec (.purgeTimeout k) s = live s fun s => purgeOver s k.val := rfl

theorem exec_hostFlushed (k : Site) (slot : BitVec 6) (s : State) :
    exec (.hostFlushed k slot) s = live s fun s => hostFlushed s k.val slot.toNat := rfl

theorem exec_homeTimeout (k : Site) (tag : W32) (s : State) :
    exec (.homeTimeout k tag) s = live s fun s => homeTimeout s k.val tag.toNat := rfl

section
variable {s : State} {k : Nat}

/-! ### Allowances (R296) -/

section Command
variable {slot i j : Nat} {c : Cmd} (hc : cmdAt s k slot = some (i, j, c))
include hc

theorem allowanceOver_faults (ht : c.timed = true) (hd : c.dead = false) (hf : flits s k = true) :
    allowanceOver s k slot = jobFault s i j true := by
  simp [allowanceOver, hc, ht, hd, hf]

theorem killOver_purges (hk : c.ask = some .force) (hp : c.purged = false) (hf : flits s k = true) (hn : (s.site k).purge = none) :
    killOver s k slot = (sendFrame (s.updSite k fun x => { x with purge := some c.part }) k 0x0A [0, c.part, 0, 0, 0]).updCmd i j
      fun c => { c with purged := true } := by
  simp [killOver, hc, hk, hp, hf, hn]

/-! ### Host flushes (R267, R295) -/

/-- HOST_FLUSHED to the command in the slot, which then asks no more. -/
def sayFlushed (s : State) (k slot i j op : Nat) : State :=
  (sendFrame s k 0x0D [slot, op, 0, j, 0]).updCmd i j fun c => { c with flushing := false }

variable (ha : c.flushing = true) (hw : ownerWorks s k = true)
include ha hw

theorem hostFlushed_lost (hl : c.lost = true) : hostFlushed s k slot = sayFlushed s k slot i j 1 := by
  simp [hostFlushed, sayFlushed, hc, ha, hw, hl]

/-- With its host writes held and landed and no port to flush, the command is told so. -/
theorem hostFlushed_landed (hl : c.lost = false) (hn : hostWork s (carrier s i) k slot = false) (hp : c.wports = []) :
    hostFlushed s k slot = sayFlushed s k slot i j 0 := by
  simp [hostFlushed, sayFlushed, hc, ha, hw, hl, hn, hp]

end Command

theorem purgeOver_loses {p : Nat} (hp : (s.site k).purge = some p) (hf : flits s k = true) : purgeOver s k = settleDestroy (siteLost s k) :=
  if_pos (by simp [hp, hf])

/-! ### A ring snoop that its site does not answer (R274, R311) -/

theorem homeTimeout_dead {tag : Nat} (hs : (s.site k).st ≠ .retrain) (hw : ringWaits s (owner s k) k tag = true) :
    homeTimeout s k tag = (cmdsOn (siteDead s k) k).foldl
      (fun s e => if e.2.2.inSlot then jobFault s e.1 e.2.1 true else unplace s e.1 e.2.1) (siteDead s k) :=
  if_neg (by simp [hs, hw])

end

/-- Settles O31: each expiry's effect, its guards met. -/
theorem commandAllowances : Obligations.CommandAllowances := by
  refine ⟨fun k slot i j c s hup hc ht hd hf => ?allowance, fun k slot i j c s hup hc hk hp hf hn => ?kill, fun k p s hup hp hf => ?purge,
    fun k slot i j c s hup hc ha hw hl => ?lost, fun k slot i j c s hup hc ha hw hl hn hp => ?landed, fun k tag s hup hs hw => ?home⟩
  case allowance => exact answers_live hup (exec_stationAllowanceExpiry k slot s) (allowanceOver_faults hc ht hd hf)
  case kill => exact answers_live hup (exec_killAllowanceExpiry k slot s) (killOver_purges hc hk hp hf hn)
  case purge => exact answers_live hup (exec_purgeTimeout k s) (purgeOver_loses hp hf)
  case lost => exact answers_live hup (exec_hostFlushed k slot s) (hostFlushed_lost hc ha hw hl)
  case landed => exact answers_live hup (exec_hostFlushed k slot s) (hostFlushed_landed hc ha hw hl hn hp)
  case home => exact answers_live hup (exec_homeTimeout k tag s) (homeTimeout_dead hs hw)

end Sys2Proof.Machine

/-! The link of a site: training, flit errors and NAKs, acknowledgements, lanes, retrains, loss, and the commands of STP.CMD (O30). -/
namespace Sys2Proof.Machine

-- One proof after the other: in parallel tasks these small proofs cost the compile of the whole text more memory than time.
set_option Elab.async false

/-! ### The meanings -/

theorem exec_siteLinkUp (k : Site) (rate : Fin 3) (width : Fin 4) (s : State) :
    exec (.siteLinkUp k rate width) s = live s fun s => siteLinkUp s k.val rate.val width.val := rfl

theorem exec_flitCrcError (k : Site) (bytes : List Byte) (s : State) :
    exec (.flitCrcError k bytes) s = live s fun s => if flitBad bytes then flitCrcError s k.val else s := rfl

theorem exec_nak (k : Site) (f : NakFlit) (s : State) :
    exec (.nak k f) s = live s fun s => nakFlit s k.val f.seq.toNat f.cmd.toNat f.snp.toNat := rfl

theorem exec_idleFlit (k : Site) (ack : BitVec 12) (cmd snp : Byte) (s : State) :
    exec (.idleFlit k ack cmd snp) s = live s fun s => idleFlit s k.val ack.toNat cmd.toNat snp.toNat := rfl

theorem exec_laneFailure (k : Site) (dir half : Bool) (s : State) :
    exec (.laneFailure k dir half) s = live s fun s => settleDestroy (laneFailure s k.val (b2n dir) (b2n half)) := rfl

theorem exec_siteRetrainEnd (k : Site) (s : State) : exec (.siteRetrainEnd k) s = live s fun s => siteRetrainEnd s k.val := rfl

theorem exec_siteRetrainLimit (k : Site) (s : State) : exec (.siteRetrainLimit k) s = live s fun s =>
    if (s.site k.val).st == .retrain then settleDestroy (siteLost s k.val) else s := rfl

theorem exec_siteLinkDown (k : Site) (s : State) : exec (.siteLinkDown k) s = live s fun s => siteDown s k.val := rfl

/-- The instance whose page range holds the STP page of a site. -/
def stpInst (k : Site) : Inst := ⟨k.val / 6, by omega⟩

/-- A command of STP.CMD, which a link that trains or reads CAP refuses (R57, R314). -/
abbrev stpCmdD (s : State) (k : Site) (a : Acc) (c : Instr) (f : State → Nat → State) : Host.Outcome State Fault Refusal :=
  cmdD s (stpInst k) a (stpPage k.val) c (fun s => linkBusy s k.val) fun s => f s k.val

theorem exec_linkReset (k : Site) (a : Acc) (s : State) : exec (.linkReset k a) s = stpCmdD s k a (.linkReset k a) linkReset := rfl

theorem exec_stpCapRead (k : Site) (a : Acc) (s : State) : exec (.stpCapRead k a) s = stpCmdD s k a (.stpCapRead k a) capRead := rfl

section
variable {s : State} {k : Nat}

/-! ### Training (R285, R290) -/

theorem siteLinkUp_trains {rate width : Nat} (h : (s.site k).st = .absent ∨ (s.site k).st = .down ∨ (s.site k).st = .training) (hr : rate ≠ 0)
    (hw : trainWidth (s.site k) width ≠ 0) : siteLinkUp s k rate width =
      let x := s.updSite k fun x => { swapped := x.swapped, moving := x.moving, taking := x.taking, after := x.after, held := x.held,
                                      st := .cap, rate := trainRate s k rate, width := trainWidth (s.site k) width, lanes := x.lanes,
                                      grant := (128, 64, 32) }
      sendFrame (settleAck (((List.range 8).foldl (fun s n => s.setR (stpR k (0xC0 + 8 * n)) 0) x).irq (stpPage k) 16) k) k
        0x0B [0, 0, 0, 0, 0] := by
  refine if_neg ?_
  obtain h | h | h := h <;> simp [h, hr, hw]

/-! ### Flit errors, NAKs and acknowledgements (R284, R285) -/

/-- The eighth NAK in a row for a seq ends the count. -/
theorem nakCount_eighth (seq : Nat) : nakCount (seq, 7) seq = ((seq, 0), true) := by simp [nakCount]

/-- The NAK of a bad flit, with its count for the last good seq. -/
def nakSent (s : State) (k : Nat) (sent : Nat × Nat) : State :=
  (sendFlit (s.bump (stpR k 0x70) 1) k 2 []).updSite k fun x => { x with sent }

/-- What a NAK acknowledges and gives back, before the replay. -/
abbrev nakTaken (s : State) (k seq cmd snp : Nat) : State := addCredits (ackUpTo s k seq) k cmd snp

/-- The flits of a replay buffer sent again and counted, with the count of the NAKs for the seq. -/
def replayed (s : State) (k : Nat) (y : SiteRec) (seq : Nat) : State :=
  (y.replay.foldl (fun s e => s.emit (.flit k 0 e.1 y.rxSeq (0, 0, 0) [(e.2.1, e.2.2)])) (s.bump (stpR k 0x78) y.replay.length)).updSite k
    fun z => { z with naks := (nakCount y.naks seq).1 }

section Flits
variable (hf : flits s k = true)
include hf

theorem flitCrcError_naks : flitCrcError s k =
    if (nakCount (s.site k).sent (s.site k).rxSeq).2 then siteRetrain (nakSent s k (nakCount (s.site k).sent (s.site k).rxSeq).1) k
    else nakSent s k (nakCount (s.site k).sent (s.site k).rxSeq).1 := if_neg (by simp [hf])

theorem nakFlit_replays {seq cmd snp : Nat} {y : SiteRec} (hy : (nakTaken s k seq cmd snp).site k = y) (hr : y.replay ≠ []) :
    nakFlit s k seq cmd snp =
      if (nakCount y.naks seq).2 then siteRetrain (replayed (nakTaken s k seq cmd snp) k y seq) k
      else flushFrames (replayed (nakTaken s k seq cmd snp) k y seq) k := by
  subst hy
  have he : ((nakTaken s k seq cmd snp).site k).replay.isEmpty = false := by simpa using hr
  simp only [nakFlit, hf, he, replayed, Bool.not_true, Bool.false_eq_true, if_false]

theorem idleFlit_acks (ack cmd snp : Nat) : idleFlit s k ack cmd snp = flushFrames (addCredits (ackUpTo s k ack) k cmd snp) k :=
  if_neg (by simp [hf])

end Flits

/-! ### Lanes (R310) -/

/-- The CE of a lane failure that the link outlives. -/
def laneCe (s : State) (k : Nat) : State := faultEvent s (stpSrc k) 0 { kind := 2, idx := k } none

/-- A lane taken out with a redundant one in its place. -/
def laneRepaired (s : State) (k n : Nat) : State :=
  laneCe ((s.updSite k fun x => { x with lanes := x.lanes.set n (x.lanes.getD n 0 + 1) }).satFld (stpR k 0x100) 16 8 1) k

section Lanes
variable {half : Nat} (dir : Nat)

/-- A lane that fails in a link that is UP, by whether its half is in use, a redundant lane is left, and the link is at x64. -/
theorem laneFailure_up (hst : (s.site k).st = .up) : laneFailure s k dir half =
    if (s.site k).width = 3 ∨ (s.site k).width = half + 1 then
      if (s.site k).lanes.getD (2 * dir + half) 0 < 2 then siteRetrain (laneRepaired s k (2 * dir + half)) k
      else if (s.site k).width = 3 then siteRetrain (laneCe (s.updSite k fun x => { x with width := if half = 0 then 2 else 1 }) k) k
      else siteLost s k
    else s := by
  simp only [laneFailure, hst]
  by_cases hu : (s.site k).width = 3 ∨ (s.site k).width = half + 1
  case pos => exact (if_neg (by simpa using or_iff_not_imp_left.1 hu)).trans (if_pos hu).symm
  case neg => exact (if_pos (by simpa using hu)).trans (if_neg hu).symm

/-- A half lost before the link has trained is left out. -/
theorem laneFailure_untrained (hst : (s.site k).st = .absent ∨ (s.site k).st = .training) (hl : (s.site k).lanes.getD (2 * dir + half) 0 = 2) :
    laneFailure s k dir half = laneCe (s.updSite k fun x => { x with lanes := x.lanes.set (2 * dir + half) 3 }) k := by
  have hn : ¬ (s.site k).lanes.getD (2 * dir + half) 0 < 2 := by omega
  obtain hst | hst := hst
  all_goals
    simp only [laneFailure, hst]
    exact (if_neg hn).trans (if_pos hl)

end Lanes

/-! ### The end of a retrain and of a link (R310, R311) -/

theorem siteRetrainEnd_retraining (h : (s.site k).st = .retrain) :
    siteRetrainEnd s k = flushFrames ((s.updSite k fun x => { x with st := x.back }).irq (stpPage k) 16) k := if_pos (by simp [h])

theorem siteDown_training (h : (s.site k).st = .training) :
    siteDown s k = (s.updSite k fun x => { x with st := .down }).irq (stpPage k) 16 := by simp only [siteDown, h]

theorem siteDown_trained (h : (s.site k).st ∈ [SiteSt.up, .cap, .retrain, .mismatch]) : siteDown s k = settleDestroy (siteLost s k) := by
  simp only [List.mem_cons, List.not_mem_nil, or_false] at h
  obtain h | h | h | h := h <;> simp only [siteDown, h]

/-! ### STP.CMD (R290, R311, R314) -/

theorem linkReset_down (h : (s.site k).st = .down) :
    linkReset s k = ((stpReset (s.updSite k fun x => { x with st := .training }) k).irq (stpPage k) 16).emit (.siteReset k) := by
  simp only [linkReset, h]

theorem linkReset_up (h : (s.site k).st = .up ∨ (s.site k).st = .retrain ∨ (s.site k).st = .mismatch) :
    linkReset s k = settleDestroy (siteLost s k) := by
  obtain h | h | h := h <;> simp only [linkReset, h]

theorem capRead_up (h : (s.site k).st = .up ∨ (s.site k).st = .retrain ∨ (s.site k).st = .mismatch) :
    capRead s k = sendFrame s k 0x0B [0, 0, 0, 0, 0] := by
  obtain h | h | h := h <;> simp only [capRead, h]

theorem linkReset_busy (h : (s.site k).st = .cap ∨ (s.site k).st = .training) : linkReset s k = s.perr (stpPage k) 16 := by
  obtain h | h := h <;> simp only [linkReset, h]

theorem capRead_busy (h : (s.site k).st = .cap ∨ (s.site k).st = .training) : capRead s k = s.perr (stpPage k) 16 := by
  obtain h | h := h <;> simp only [capRead, h]

theorem linkBusy_eq_true (h : (s.site k).st = .cap ∨ (s.site k).st = .training) : linkBusy s k = true := by
  obtain h | h := h <;> simp [linkBusy, h]

theorem linkBusy_eq_false (ht : (s.site k).st ≠ .training) (hc : (s.site k).st ≠ .cap) : linkBusy s k = false := by
  simp [linkBusy, ht, hc]

theorem linkBusy_up (h : (s.site k).st = .up ∨ (s.site k).st = .retrain ∨ (s.site k).st = .mismatch) : linkBusy s k = false := by
  obtain h | h | h := h <;> exact linkBusy_eq_false (by simp [h]) (by simp [h])

end

section StpCmd
variable {s : State} {k : Site} (hs : s.Serves (k.val / 6)) (hf : s.Free (stpPage k.val)) {a : Acc} {c : Instr} {f : State → Nat → State}
  (hc : exec c s = stpCmdD s k a c f) {P : State → Prop}
include hs hf hc

/-- A command of STP.CMD acts on a link that neither trains nor reads CAP. -/
theorem answers_stpCmd (hb : linkBusy s k.val = false) (hp : P (f (clearLatches s (stpPage k.val)) k.val)) : Answers c s P :=
  answers (hc.trans (cmdD_serves (i := stpInst k) hs hf a c hb _)) hp

/-- On a link that trains or reads CAP it leaves the split latch. -/
theorem answers_stpCmd_busy (hb : linkBusy s k.val = true)
    (hp : P { f (clearLatches s (stpPage k.val)) k.val with wlatch := s.wlatch }) : Answers c s P :=
  answers (hc.trans (cmdD_drops (i := stpInst k) hs hf a c hb _)) hp

end StpCmd

/-- Settles O30: what each event and each command of STP.CMD does in the states of the link that it is for. -/
theorem siteLinkEvents : Obligations.SiteLinkEvents := by
  refine ⟨fun k rate width s hup hst hr hw => ?linkUp, fun k bytes s hup hb hf hn => ?crc, fun k bytes s hup hb hf hn => ?crcEighth,
    fun k f y s hup hf hy hr hn => ?nak, fun k f y s hup hf hy hr hn => ?nakEighth, fun k ack cmd snp s hup hf => ?idle,
    fun k dir half s hup hst hu hl => ?laneRepaired, fun k dir half s hup hst hw hl => ?laneHalf, fun k dir half s hup hst hw hl => ?laneLost,
    fun k dir half s hup hst hl => ?laneUntrained, fun k dir half s hup hst hw hw' => ?laneUnused, fun k s hup hst => ?retrainEnd,
    fun k s hup hst => ?retrainLimit, fun k s hup hst => ?downTraining, fun k s hup hst => ?downTrained, fun k a s hs hf hst => ?resetDown,
    fun k a s hs hf hst => ?resetUp, fun k a s hs hf hst => ?resetBusy, fun k a s hs hf hst => ?capBusy, fun k a s hs hf hst => ?capUp⟩
  case linkUp =>
    have hr' : rate.val ≠ 0 := fun h => hr (Fin.ext h)
    exact answers_live hup (exec_siteLinkUp k rate width s) (siteLinkUp_trains hst hr' hw)
  case crc =>
    refine answers_live hup (exec_flitCrcError k bytes s) ?_
    rw [if_pos hb, flitCrcError_naks hf, if_neg (by simp [hn])]
    rfl
  case crcEighth =>
    refine answers_live hup (exec_flitCrcError k bytes s) ?_
    rw [if_pos hb, flitCrcError_naks hf, hn, nakCount_eighth, if_pos rfl]
    rfl
  case nak =>
    refine answers_live hup (exec_nak k f s) ?_
    rw [nakFlit_replays hf hy hr, if_neg (by simp [hn])]
    rfl
  case nakEighth =>
    refine answers_live hup (exec_nak k f s) ?_
    rw [nakFlit_replays hf hy hr, if_pos hn]
    rfl
  case idle => exact answers_live hup (exec_idleFlit k ack cmd snp s) (idleFlit_acks hf _ _ _)
  case laneRepaired =>
    refine answers_live hup (exec_laneFailure k dir half s) (congrArg settleDestroy ?_)
    rw [laneFailure_up _ hst, if_pos hu, if_pos hl]
    rfl
  case laneHalf =>
    refine answers_live hup (exec_laneFailure k dir half s) (congrArg settleDestroy ?_)
    rw [laneFailure_up _ hst, if_pos (.inl hw), if_neg (Nat.not_lt.2 hl), if_pos hw]
    cases half <;> rfl
  case laneLost =>
    refine answers_live hup (exec_laneFailure k dir half s) (congrArg settleDestroy ?_)
    have h3 : (s.site k.val).width ≠ 3 := by rw [hw]; cases half <;> decide
    rw [laneFailure_up _ hst, if_pos (.inr hw), if_neg (Nat.not_lt.2 hl), if_neg h3]
  case laneUntrained =>
    exact answers_live hup (exec_laneFailure k dir half s) (congrArg settleDestroy (laneFailure_untrained _ hst hl))
  case laneUnused =>
    refine answers_live hup (exec_laneFailure k dir half s) (congrArg settleDestroy ?_)
    rw [laneFailure_up _ hst, if_neg (not_or.2 ⟨hw, hw'⟩)]
  case retrainEnd => exact answers_live hup (exec_siteRetrainEnd k s) (siteRetrainEnd_retraining hst)
  case retrainLimit => exact answers_live hup (exec_siteRetrainLimit k s) (if_pos (beq_iff_eq.2 hst))
  case downTraining => exact answers_live hup (exec_siteLinkDown k s) (siteDown_training hst)
  case downTrained => exact answers_live hup (exec_siteLinkDown k s) (siteDown_trained hst)
  case resetDown =>
    have hb : linkBusy s k.val = false := linkBusy_eq_false (by simp [hst]) (by simp [hst])
    exact answers_stpCmd hs hf (exec_linkReset k a s) hb (linkReset_down (s := clearLatches s _) hst)
  case resetUp => exact answers_stpCmd hs hf (exec_linkReset k a s) (linkBusy_up hst) (linkReset_up (s := clearLatches s _) hst)
  case resetBusy =>
    refine answers_stpCmd_busy hs hf (exec_linkReset k a s) (linkBusy_eq_true hst) ?_
    rw [linkReset_busy (s := clearLatches s _) hst]
  case capBusy =>
    refine answers_stpCmd_busy hs hf (exec_stpCapRead k a s) (linkBusy_eq_true hst) ?_
    rw [capRead_busy (s := clearLatches s _) hst]
  case capUp => exact answers_stpCmd hs hf (exec_stpCapRead k a s) (linkBusy_up hst) (capRead_up (s := clearLatches s _) hst)

end Sys2Proof.Machine

/-! The handle commands of SCH.DIR_CMD (O33). -/
namespace Sys2Proof.Machine

-- One proof after the other: in parallel tasks these small proofs cost the compile of the whole text more memory than time.
set_option Elab.async false

/-! ### The meanings -/

theorem exec_dirRead (i : Inst) (a : Acc) (s : State) : exec (.dirRead i a) s = dirCmd s i a (.dirRead i a) fun s h => dirRead s i.val h := rfl

theorem exec_clearDamage (i : Inst) (a : Acc) (s : State) :
    exec (.clearDamage i a) s = dirCmd s i a (.clearDamage i a) fun s h => dirClear s i.val h := rfl

theorem exec_define (i : Inst) (a : Acc) (s : State) : exec (.define i a) s = dirCmd s i a (.define i a) fun s h => dirDefine s i.val h := rfl

theorem exec_delete (i : Inst) (a : Acc) (s : State) : exec (.delete i a) s = dirCmd s i a (.delete i a) fun s h => dirDelete s i.val h := rfl

theorem exec_evict (i : Inst) (a : Acc) (s : State) : exec (.evict i a) s = dirCmd s i a (.evict i a) fun s h => dirEvict s i.val h := rfl

theorem exec_toHost (i : Inst) (a : Acc) (s : State) : exec (.toHost i a) s = dirCmd s i a (.toHost i a) fun s h => dirToHost s i.val h := rfl

/-! ### The gate of DIR_CMD (R349) -/

section DirCmd

/-- The handle that SCH selects for DIR_CMD. -/
abbrev selHnd (s : State) (i : Nat) : Nat := s.fld (schR i 1 0x48) 0 16

variable {s : State} {i : Inst} (hs : s.Serves i.val) (hf : s.Free (schPage i.val 1)) {a : Acc} {c : Instr} {f : State → Nat → State}
  (hc : exec c s = dirCmd s i a c f) {P : State → Prop}
include hs hf hc

/-- A directory command acts on the selected handle while none is in progress. -/
theorem answers_dirCmd (hb : s.fld (schR i.val 1 0x50) 0 1 = 0) (hp : P (f (clearLatches s (schPage i.val 1)) (selHnd s i.val))) :
    Answers c s P := by
  have hb' : (clearLatches s (schPage i.val 1)).fld (schR i.val 1 0x50) 0 1 = 0 := hb
  refine answers (hc.trans (cmdD_serves hs hf a c (by simp [hb]) _)) ?_
  rw [if_neg (by simp [hb'])]
  exact hp

/-- While one is in progress another is refused and leaves the split latch. -/
theorem answers_dirCmd_busy (hb : s.fld (schR i.val 1 0x50) 0 1 = 1) :
    Answers c s fun t => t = { (clearLatches s (schPage i.val 1)).perr (schPage i.val 1) 16 with wlatch := s.wlatch } := by
  have hb' : (clearLatches s (schPage i.val 1)).fld (schR i.val 1 0x50) 0 1 = 1 := hb
  refine answers (hc.trans (cmdD_drops hs hf a c (by simp [hb]) _)) ?_
  rw [if_pos hb']

end DirCmd

section
variable {s : State} {i h : Nat} {d : Hnd}

/-! ### READ and CLEAR_DAMAGE (R344, R349) -/

theorem dirRead_some (hd : hnd? s i h = some d) : dirRead s i h =
    dirEnd (((s.setR (schR i 1 0x58) d.word).setR (schR i 1 0x60) d.hostDa).setR (schR i 1 0x68) (d.slot.getD 0)) i 0x01 false := by
  simp only [dirRead, hd]

theorem dirRead_none (hd : hnd? s i h = none) :
    dirRead s i h = dirEnd (((s.setR (schR i 1 0x58) 0).setR (schR i 1 0x60) 0).setR (schR i 1 0x68) 0) i 0x01 false := by
  simp only [dirRead, hd]

theorem dirClear_some (hd : hnd? s i h = some d) :
    dirClear s i h = dirEnd (updHnd s i h fun x => { x with damaged := false }) i 0x01 true := if_pos (by simp [hd])

theorem dirClear_none (hd : hnd? s i h = none) : dirClear s i h = dirEnd s i 0x10 false := if_neg (by simp [hd])

/-! ### DEFINE (R324, R349) -/

/-- The partition that the registers give for a DEFINE. -/
abbrev defPart (s : State) (i : Nat) : Nat := bits (s.r (schR i 1 0x58)) 0 4

/-- The size that they give, in MiB. -/
abbrev defSize (s : State) (i : Nat) : Nat := bits (s.r (schR i 1 0x58)) 8 13

/-- Whether they make the handle host-backed. -/
abbrev defHost (s : State) (i : Nat) : Bool := bitAt (s.r (schR i 1 0x58)) 24

/-- The host address that they give. -/
abbrev defDa (s : State) (i : Nat) : Nat := bits (s.r (schR i 1 0x60)) 6 46 * 64

/-- The fields of a DEFINE are in range: a handle other than 0 of 1 to 4,096 MiB, of a partition at home here. -/
def defineFits (s : State) (i h : Nat) : Prop :=
  h ≠ 0 ∧ homeOf s i (defPart s i) = true ∧ 1 ≤ defSize s i ∧ defSize s i ≤ 4096

/-- The directory with a handle put in. -/
def putHnd (s : State) (i h : Nat) (x : Hnd) : State := s.updSch i fun c => { c with dir := Tbl.put c.dir h x }

theorem dirDefine_defined (hd : hnd? s i h = some d) : dirDefine s i h = dirEnd s i 0x10 false := if_pos (by simp [hd])

theorem dirDefine_badField (hd : hnd? s i h = none)
    (hb : h = 0 ∨ homeOf s i (defPart s i) = false ∨ defSize s i = 0 ∨ 4096 < defSize s i ∨
      (defHost s i = true ∧ inHostWin s i (defPart s i) (defDa s i) (defSize s i * 2 ^ 20) = false)) :
    dirDefine s i h = dirEnd s i 0x11 false := by
  refine (if_neg (by simp [hd])).trans (if_pos ?_)
  simpa [or_assoc] using hb

/-- A DEFINE in range goes on to place its handle: in HOST where it is host-backed, else where the wings have room. -/
theorem dirDefine_fits (hd : hnd? s i h = none) (hf : defineFits s i h)
    (hw : defHost s i = true → inHostWin s i (defPart s i) (defDa s i) (defSize s i * 2 ^ 20) = true) :
    dirDefine s i h =
      if defHost s i then
        dirEnd (putHnd s i h { part := defPart s i, size := defSize s i, host := defHost s i, hostDa := defDa s i, st := 2 }) i 0x01 true
      else (wingsFree s i (defPart s i) (defSize s i) []).elim (dirEnd s i 0x12 false) fun w =>
        dirEnd ((putHnd s i h { part := defPart s i, size := defSize s i, host := defHost s i, hostDa := 0, st := 1, slot := some w }).setR
          (schR i 1 0x68) w) i 0x01 true := by
  obtain ⟨h0, hh, h1, h4⟩ := hf
  refine (if_neg (by simp [hd])).trans ((if_neg ?_).trans ?_)
  · simpa [h0, hh, Nat.ne_of_gt h1, h4] using hw
  · cases wingsFree s i (defPart s i) (defSize s i) [] <;> rfl

theorem dirDefine_host (hd : hnd? s i h = none) (hf : defineFits s i h) (hh : defHost s i = true)
    (hw : inHostWin s i (defPart s i) (defDa s i) (defSize s i * 2 ^ 20) = true) :
    dirDefine s i h =
      dirEnd (putHnd s i h { part := defPart s i, size := defSize s i, host := true, hostDa := defDa s i, st := 2 }) i 0x01 true := by
  rw [dirDefine_fits hd hf fun _ => hw, hh, if_pos rfl]

theorem dirDefine_wings {w : Nat} (hd : hnd? s i h = none) (hf : defineFits s i h) (hh : defHost s i = false)
    (hw : wingsFree s i (defPart s i) (defSize s i) [] = some w) :
    dirDefine s i h =
      dirEnd ((putHnd s i h { part := defPart s i, size := defSize s i, host := false, hostDa := 0, st := 1, slot := some w }).setR
        (schR i 1 0x68) w) i 0x01 true := by
  rw [dirDefine_fits hd hf (by simp [hh]), hh, if_neg Bool.false_ne_true, hw, Option.elim_some]

theorem dirDefine_full (hd : hnd? s i h = none) (hf : defineFits s i h) (hh : defHost s i = false)
    (hw : wingsFree s i (defPart s i) (defSize s i) [] = none) : dirDefine s i h = dirEnd s i 0x12 false := by
  rw [dirDefine_fits hd hf (by simp [hh]), hh, if_neg Bool.false_ne_true, hw, Option.elim_none]

/-! ### DELETE (R349) -/

theorem dirDelete_none (hd : hnd? s i h = none) : dirDelete s i h = dirEnd s i 0x10 false := by simp only [dirDelete, hd]

theorem dirDelete_inUse (hd : hnd? s i h = some d) (hn : named s i h = true ∨ d.st = 4) : dirDelete s i h = dirEnd s i 0x13 false := by
  simp only [dirDelete, hd]
  exact if_pos (by simpa using hn)

/-- A handle that nothing names and that does not move is deleted, after a REVOKE of its window where it has one. -/
theorem dirDelete_free (hd : hnd? s i h = some d) (hn : named s i h = false) (h4 : d.st ≠ 4) :
    dirDelete s i h =
      if d.st = 3 then dirTask (leaveWin (updHnd s i h fun x => { x with st := 4 }) d.site d.win) i 2 h [(d.site, .revoke d.win h)]
      else dirEnd (s.updSch i fun x => { x with dir := Tbl.del x.dir h }) i 0x01 true := by
  simp only [dirDelete, hd]
  exact if_neg (by simp [hn, h4])

/-! ### EVICT (R325, R349) -/

/-- The window of a RESIDENT handle goes, and the handle moves. -/
abbrev leavesSite (s : State) (i h : Nat) (d : Hnd) : State := leaveWin (updHnd s i h fun x => { x with st := 4 }) d.site d.win

theorem offSite_clean (hc : d.dirty = false) : offSite s i h d = some (leavesSite s i h d, [(d.site, .revoke d.win h)]) := by
  simp [offSite, hc]

theorem offSite_dirty {w : Nat} (hc : d.dirty = true) (hw : d.slot = some w) :
    offSite s i h d =
      some (leavesSite s i h d, [(d.site, .spill d.win w h d.size (4096 * d.part)), (d.site, .revoke d.win h)]) := by
  simp [offSite, hc, hw]

theorem dirEvict_notResident (hd : hnd? s i h = some d) (h3 : d.st ≠ 3) : dirEvict s i h = dirEnd s i 0x10 false := by
  simp only [dirEvict, hd]
  exact if_pos (by simpa using h3)

theorem dirEvict_bound (hd : hnd? s i h = some d) (h3 : d.st = 3) (hb : bound s i h = true) : dirEvict s i h = dirEnd s i 0x13 false := by
  simp [dirEvict, hd, h3, hb]

theorem dirEvict_off {x : State} {acts : List (Nat × Act)} (hd : hnd? s i h = some d) (h3 : d.st = 3) (hb : bound s i h = false)
    (ho : offSite s i h d = some (x, acts)) : dirEvict s i h = dirTask x i 4 h acts := by
  simp [dirEvict, hd, h3, hb, ho]

/-! ### TO_HOST (R328, R349) -/

theorem dirToHost_notAllowed (hd : hnd? s i h = some d) (hn : d.host = false ∨ spillOk s i = false) :
    dirToHost s i h = dirEnd s i 0x10 false := by
  simp only [dirToHost, hd]
  exact if_pos (by simpa using hn)

theorem dirToHost_inUse (hd : hnd? s i h = some d) (hh : d.host = true) (ho : spillOk s i = true) (hb : bound s i h = true ∨ d.st = 4) :
    dirToHost s i h = dirEnd s i 0x13 false := by
  simp only [dirToHost, hd]
  exact (if_neg (by simp [hh, ho])).trans (if_pos (by simpa using hb))

/-- A host-backed handle in WINGS goes to HOST, after a copy where its wings copy has changed. -/
theorem dirToHost_wings (hd : hnd? s i h = some d) (hh : d.host = true) (ho : spillOk s i = true) (hb : bound s i h = false)
    (h1 : d.st = 1) :
    dirToHost s i h =
      if d.changed then dirTask (updHnd s i h fun x => { x with st := 4 }) i 5 h [(0, .copy h (d.slot.getD 0) true)]
      else dirEnd (updHnd s i h fun x => { x with st := 2, slot := none }) i 0x01 true := by
  simp [dirToHost, hd, hh, ho, hb, h1]

end

/-- Settles O33: what each directory command does with the selected handle, in each state of it that the command is for. -/
theorem directoryCommandsAct : Obligations.DirectoryCommandsAct := by
  refine ⟨fun i a d s hs hf hb hd => ?read, fun i a d s hs hf hb hd => ?clear, fun i a s hs hf hb hd => ?readNone,
    fun i a s hs hf hb hd => ?clearNone, fun i a d s hs hf hb hd => ?defined, fun i a w s hs hf hb hd h0 hh hz hk hw => ?defineWings,
    fun i a s hs hf hb hd hbad => ?badField, fun i a s hs hf hb hd h0 hh hz hk hw => ?wingsFull,
    fun i a s hs hf hb hd h0 hh hz hk hw => ?defineHost, fun i a s hs hf hb hd => ?deleteNone,
    fun i a d s hs hf hb hd hn h3 => ?deleteResident, fun i a d s hs hf hb hd hn => ?deleteInUse,
    fun i a d s hs hf hb hd hn hst => ?delete, fun i a d s hs hf hb hd h3 => ?evictNotResident,
    fun i a d s hs hf hb hd h3 hbd => ?evictBound, fun i a d w s hs hf hb hd h3 hbd hdy hw => ?evictDirty,
    fun i a d s hs hf hb hd h3 hbd hdy => ?evictClean, fun i a d s hs hf hb hd hn => ?toHostNotAllowed,
    fun i a d s hs hf hb hd hh ho hu => ?toHostInUse, fun i a d s hs hf hb hd hh ho hbd h1 hch => ?toHostChanged,
    fun i a d s hs hf hb hd hh ho hbd h1 hch => ?toHostCurrent, fun i a s hs hf hb => ?busy⟩
  case read => exact answers_dirCmd hs hf (exec_dirRead i a s) hb (dirRead_some (s := clearLatches s _) hd)
  case readNone => exact answers_dirCmd hs hf (exec_dirRead i a s) hb (dirRead_none (s := clearLatches s _) hd)
  case clear => exact answers_dirCmd hs hf (exec_clearDamage i a s) hb (dirClear_some (s := clearLatches s _) hd)
  case clearNone => exact answers_dirCmd hs hf (exec_clearDamage i a s) hb (dirClear_none (s := clearLatches s _) hd)
  case defined => exact answers_dirCmd hs hf (exec_define i a s) hb (dirDefine_defined (s := clearLatches s _) hd)
  case defineWings =>
    have hfit : defineFits s i.val (selHnd s i.val) := ⟨h0, hh, hz⟩
    exact answers_dirCmd hs hf (exec_define i a s) hb (dirDefine_wings (s := clearLatches s _) hd hfit hk hw)
  case badField => exact answers_dirCmd hs hf (exec_define i a s) hb (dirDefine_badField (s := clearLatches s _) hd hbad)
  case wingsFull =>
    have hfit : defineFits s i.val (selHnd s i.val) := ⟨h0, hh, hz⟩
    exact answers_dirCmd hs hf (exec_define i a s) hb (dirDefine_full (s := clearLatches s _) hd hfit hk hw)
  case defineHost =>
    have hfit : defineFits s i.val (selHnd s i.val) := ⟨h0, hh, hz⟩
    exact answers_dirCmd hs hf (exec_define i a s) hb (dirDefine_host (s := clearLatches s _) hd hfit hk hw)
  case deleteNone => exact answers_dirCmd hs hf (exec_delete i a s) hb (dirDelete_none (s := clearLatches s _) hd)
  case deleteInUse => exact answers_dirCmd hs hf (exec_delete i a s) hb (dirDelete_inUse (s := clearLatches s _) hd hn)
  case deleteResident =>
    have h4 : d.st ≠ 4 := by simp [h3]
    exact answers_dirCmd hs hf (exec_delete i a s) hb ((dirDelete_free (s := clearLatches s _) hd hn h4).trans (if_pos h3))
  case delete =>
    have h3 : d.st ≠ 3 := by omega
    have h4 : d.st ≠ 4 := by omega
    exact answers_dirCmd hs hf (exec_delete i a s) hb ((dirDelete_free (s := clearLatches s _) hd hn h4).trans (if_neg h3))
  case evictNotResident => exact answers_dirCmd hs hf (exec_evict i a s) hb (dirEvict_notResident (s := clearLatches s _) hd h3)
  case evictBound => exact answers_dirCmd hs hf (exec_evict i a s) hb (dirEvict_bound (s := clearLatches s _) hd h3 hbd)
  case evictDirty =>
    exact answers_dirCmd hs hf (exec_evict i a s) hb (dirEvict_off (s := clearLatches s _) hd h3 hbd (offSite_dirty hdy hw))
  case evictClean =>
    exact answers_dirCmd hs hf (exec_evict i a s) hb (dirEvict_off (s := clearLatches s _) hd h3 hbd (offSite_clean hdy))
  case toHostNotAllowed => exact answers_dirCmd hs hf (exec_toHost i a s) hb (dirToHost_notAllowed (s := clearLatches s _) hd hn)
  case toHostInUse => exact answers_dirCmd hs hf (exec_toHost i a s) hb (dirToHost_inUse (s := clearLatches s _) hd hh ho hu)
  case toHostChanged =>
    exact answers_dirCmd hs hf (exec_toHost i a s) hb ((dirToHost_wings (s := clearLatches s _) hd hh ho hbd h1).trans (if_pos hch))
  case toHostCurrent =>
    have hch' : ¬ d.changed = true := by simp [hch]
    exact answers_dirCmd hs hf (exec_toHost i a s) hb ((dirToHost_wings (s := clearLatches s _) hd hh ho hbd h1).trans (if_neg hch'))
  case busy => exact answers_dirCmd_busy hs hf (exec_evict i a s) hb

end Sys2Proof.Machine
